-- ==== Sys2Proof/Word.lean ====
section
/-! DEFINITION. The word types of the PG840 model and the finite map that every indexed group of
state is held in. -/

namespace Sys2Proof

/-- One byte of memory or of a packet. -/
abbrev Byte := BitVec 8

/-- A 64-bit word: a scalar register, a register of BAR0, a count. -/
abbrev Word := BitVec 64

/-- A 512-bit vector register (R57). -/
abbrev Vec := BitVec 512

/-- A finite map from numbers: keys strictly rising, and no key whose value is the map's default.
State holds every indexed group (bytes of memory, threads, rings, queue pairs, sync objects) so. -/
abbrev Table (α : Type) := List (Nat × α)

end Sys2Proof
end

