-- ==== Sys2Proof/Syntax.lean ====
section
/-! DEFINITION. The commands of the PG840 block: one constructor of `Instr` per row of the opcode
table, with the row's operands. An Idholt instruction carries the thread that issues it and the
fields of its 64-bit word (R60, R61), reserved fields included. -/

namespace Sys2Proof

/-- Format R: psel, pneg, rd [47:43], ra [42:38], rb [37:33], rc [32:28], reserved [27:0]. -/
structure RForm where
  psel : BitVec 3
  pneg : BitVec 1
  rd : BitVec 5
  ra : BitVec 5
  rb : BitVec 5
  rc : BitVec 5
  rsv : BitVec 28
  deriving DecidableEq, Repr

/-- Format I: rd [47:43], ra [42:38], reserved [37:32], imm32 [31:0]. -/
structure IForm where
  psel : BitVec 3
  pneg : BitVec 1
  rd : BitVec 5
  ra : BitVec 5
  rsv : BitVec 6
  imm : BitVec 32
  deriving DecidableEq, Repr

/-- Format W: rd [47:43], imm43 [42:0]. -/
structure WForm where
  psel : BitVec 3
  pneg : BitVec 1
  rd : BitVec 5
  imm : BitVec 43
  deriving DecidableEq, Repr

/-- Format B: ra [47:43], rb [42:38], off38 [37:0]. -/
structure BForm where
  psel : BitVec 3
  pneg : BitVec 1
  ra : BitVec 5
  rb : BitVec 5
  off : BitVec 38
  deriving DecidableEq, Repr

/-- Format V: vd [47:44], va [43:40], vb [39:36], vc [35:32], fmt [31:28], fmt2 [27:24],
rnd [23:22], rs [21:17], pd [16:14], imm14 [13:0]. -/
structure VForm where
  psel : BitVec 3
  pneg : BitVec 1
  vd : BitVec 4
  va : BitVec 4
  vb : BitVec 4
  vc : BitVec 4
  fmt : BitVec 4
  fmt2 : BitVec 4
  rnd : BitVec 2
  rs : BitVec 5
  pd : BitVec 3
  imm : BitVec 14
  deriving DecidableEq, Repr

/-- Format P: pd [47:45], pa [44:42], pb [41:39], rd [38:34], ra [33:29], reserved [28:0]. -/
structure PForm where
  psel : BitVec 3
  pneg : BitVec 1
  pd : BitVec 3
  pa : BitVec 3
  pb : BitVec 3
  rd : BitVec 5
  ra : BitVec 5
  rsv : BitVec 29
  deriving DecidableEq, Repr

/-- Format T: ta [47:45], sa [44:40], sb [39:35], sm [34:30], fmtA [29:26], fmtB [25:22],
rnd [21:20], acc [19], reserved [18:0]. -/
structure TForm where
  psel : BitVec 3
  pneg : BitVec 1
  ta : BitVec 3
  sa : BitVec 5
  sb : BitVec 5
  sm : BitVec 5
  fmtA : BitVec 4
  fmtB : BitVec 4
  rnd : BitVec 2
  acc : BitVec 1
  rsv : BitVec 19
  deriving DecidableEq, Repr

/-- Format S: rd [47:43], ra [42:38], rb [37:33], reserved [32:20], imm20 [19:0]. -/
structure SForm where
  psel : BitVec 3
  pneg : BitVec 1
  rd : BitVec 5
  ra : BitVec 5
  rb : BitVec 5
  rsv : BitVec 13
  imm : BitVec 20
  deriving DecidableEq, Repr

/-- Format N: rd [47:43], ra [42:38], rb [37:33], rc [32:28], vs [27:24], len [23:18],
reserved [17:0]. -/
structure NForm where
  psel : BitVec 3
  pneg : BitVec 1
  rd : BitVec 5
  ra : BitVec 5
  rb : BitVec 5
  rc : BitVec 5
  vs : BitVec 4
  len : BitVec 6
  rsv : BitVec 18
  deriving DecidableEq, Repr

/-- A transport packet that arrives: the port, the IP source and destination (IPv4 as
::ffff:a.b.c.d), and the UDP payload, which is the PTH, the payload and the tag (R187, R190). -/
structure Packet where
  port : Nat
  src : BitVec 128
  dst : BitVec 128
  bytes : List Byte
  deriving DecidableEq, Repr

/-- The commands of the PG840 (R4 to R485), one per row of the opcode table. -/
inductive Instr where
  /-- ADD (R64). -/
  | add (t : Nat) (f : RForm)
  /-- SUB (R64). -/
  | sub (t : Nat) (f : RForm)
  /-- AND (R64). -/
  | and (t : Nat) (f : RForm)
  /-- OR (R64). -/
  | or (t : Nat) (f : RForm)
  /-- XOR (R64). -/
  | xor (t : Nat) (f : RForm)
  /-- SHL (R64). -/
  | shl (t : Nat) (f : RForm)
  /-- SHR (R64). -/
  | shr (t : Nat) (f : RForm)
  /-- SAR (R64). -/
  | sar (t : Nat) (f : RForm)
  /-- MIN (R64). -/
  | min (t : Nat) (f : RForm)
  /-- MAX (R64). -/
  | max (t : Nat) (f : RForm)
  /-- MINU (R64). -/
  | minu (t : Nat) (f : RForm)
  /-- MAXU (R64). -/
  | maxu (t : Nat) (f : RForm)
  /-- SLT (R64). -/
  | slt (t : Nat) (f : RForm)
  /-- SLTU (R64). -/
  | sltu (t : Nat) (f : RForm)
  /-- POPC (R64). -/
  | popc (t : Nat) (f : RForm)
  /-- CLZ (R64). -/
  | clz (t : Nat) (f : RForm)
  /-- CTZ (R64). -/
  | ctz (t : Nat) (f : RForm)
  /-- ADDI (R64). -/
  | addi (t : Nat) (f : IForm)
  /-- SUBI (R64). -/
  | subi (t : Nat) (f : IForm)
  /-- ANDI (R64). -/
  | andi (t : Nat) (f : IForm)
  /-- ORI (R64). -/
  | ori (t : Nat) (f : IForm)
  /-- XORI (R64). -/
  | xori (t : Nat) (f : IForm)
  /-- SHLI (R64). -/
  | shli (t : Nat) (f : IForm)
  /-- SHRI (R64). -/
  | shri (t : Nat) (f : IForm)
  /-- SARI (R64). -/
  | sari (t : Nat) (f : IForm)
  /-- MINI (R64). -/
  | mini (t : Nat) (f : IForm)
  /-- MAXI (R64). -/
  | maxi (t : Nat) (f : IForm)
  /-- MINUI (R64). -/
  | minui (t : Nat) (f : IForm)
  /-- MAXUI (R64). -/
  | maxui (t : Nat) (f : IForm)
  /-- SLTI (R64). -/
  | slti (t : Nat) (f : IForm)
  /-- SLTUI (R64). -/
  | sltui (t : Nat) (f : IForm)
  /-- MUL (R64). -/
  | mul (t : Nat) (f : RForm)
  /-- MULH (R64). -/
  | mulh (t : Nat) (f : RForm)
  /-- MULHU (R64). -/
  | mulhu (t : Nat) (f : RForm)
  /-- MADD (R64). -/
  | madd (t : Nat) (f : RForm)
  /-- DIV (R64). -/
  | div (t : Nat) (f : RForm)
  /-- DIVU (R64). -/
  | divu (t : Nat) (f : RForm)
  /-- REM (R64). -/
  | rem (t : Nat) (f : RForm)
  /-- REMU (R64). -/
  | remu (t : Nat) (f : RForm)
  /-- MOVI (R64). -/
  | movi (t : Nat) (f : WForm)
  /-- MOVH (R64). -/
  | movh (t : Nat) (f : WForm)
  /-- CMP_EQ (R64). -/
  | cmpEq (t : Nat) (f : RForm)
  /-- CMP_NE (R64). -/
  | cmpNe (t : Nat) (f : RForm)
  /-- CMP_LT (R64). -/
  | cmpLt (t : Nat) (f : RForm)
  /-- CMP_GE (R64). -/
  | cmpGe (t : Nat) (f : RForm)
  /-- CMP_LTU (R64). -/
  | cmpLtu (t : Nat) (f : RForm)
  /-- CMP_GEU (R64). -/
  | cmpGeu (t : Nat) (f : RForm)
  /-- CMPI_EQ (R64). -/
  | cmpiEq (t : Nat) (f : IForm)
  /-- CMPI_NE (R64). -/
  | cmpiNe (t : Nat) (f : IForm)
  /-- CMPI_LT (R64). -/
  | cmpiLt (t : Nat) (f : IForm)
  /-- CMPI_GE (R64). -/
  | cmpiGe (t : Nat) (f : IForm)
  /-- CMPI_LTU (R64). -/
  | cmpiLtu (t : Nat) (f : IForm)
  /-- CMPI_GEU (R64). -/
  | cmpiGeu (t : Nat) (f : IForm)
  /-- BEQ (R65). -/
  | beq (t : Nat) (f : BForm)
  /-- BNE (R65). -/
  | bne (t : Nat) (f : BForm)
  /-- BLT (R65). -/
  | blt (t : Nat) (f : BForm)
  /-- BGE (R65). -/
  | bge (t : Nat) (f : BForm)
  /-- BLTU (R65). -/
  | bltu (t : Nat) (f : BForm)
  /-- BGEU (R65). -/
  | bgeu (t : Nat) (f : BForm)
  /-- BR (R65). -/
  | br (t : Nat) (f : BForm)
  /-- JAL (R65). -/
  | jal (t : Nat) (f : BForm)
  /-- JR (R65). -/
  | jr (t : Nat) (f : BForm)
  /-- JALR (R65). -/
  | jalr (t : Nat) (f : BForm)
  /-- LD_B (R66). -/
  | ldB (t : Nat) (f : IForm)
  /-- LD_H (R66). -/
  | ldH (t : Nat) (f : IForm)
  /-- LD_W (R66). -/
  | ldW (t : Nat) (f : IForm)
  /-- LD_D (R66). -/
  | ldD (t : Nat) (f : IForm)
  /-- LD_BU (R66). -/
  | ldBu (t : Nat) (f : IForm)
  /-- LD_HU (R66). -/
  | ldHu (t : Nat) (f : IForm)
  /-- LD_WU (R66). -/
  | ldWu (t : Nat) (f : IForm)
  /-- LD_V (R66). -/
  | ldV (t : Nat) (f : IForm)
  /-- ST_B (R66). -/
  | stB (t : Nat) (f : IForm)
  /-- ST_H (R66). -/
  | stH (t : Nat) (f : IForm)
  /-- ST_W (R66). -/
  | stW (t : Nat) (f : IForm)
  /-- ST_D (R66). -/
  | stD (t : Nat) (f : IForm)
  /-- ST_V (R66). -/
  | stV (t : Nat) (f : IForm)
  /-- LDG_B (R66). -/
  | ldgB (t : Nat) (f : IForm)
  /-- LDG_H (R66). -/
  | ldgH (t : Nat) (f : IForm)
  /-- LDG_W (R66). -/
  | ldgW (t : Nat) (f : IForm)
  /-- LDG_D (R66). -/
  | ldgD (t : Nat) (f : IForm)
  /-- LDG_BU (R66). -/
  | ldgBu (t : Nat) (f : IForm)
  /-- LDG_HU (R66). -/
  | ldgHu (t : Nat) (f : IForm)
  /-- LDG_WU (R66). -/
  | ldgWu (t : Nat) (f : IForm)
  /-- LDG_V (R66). -/
  | ldgV (t : Nat) (f : IForm)
  /-- STG_B (R66). -/
  | stgB (t : Nat) (f : IForm)
  /-- STG_H (R66). -/
  | stgH (t : Nat) (f : IForm)
  /-- STG_W (R66). -/
  | stgW (t : Nat) (f : IForm)
  /-- STG_D (R66). -/
  | stgD (t : Nat) (f : IForm)
  /-- STG_V (R66). -/
  | stgV (t : Nat) (f : IForm)
  /-- GLOBAL_LOAD_RESPONSE (R81). -/
  | globalLoadResponse (t id : Nat)
  /-- MVPOST (R68). -/
  | mvpost (t : Nat) (f : RForm)
  /-- MVSLOTS (R68). -/
  | mvslots (t : Nat) (f : RForm)
  /-- VADD_INT (R69). -/
  | vaddInt (t : Nat) (f : VForm)
  /-- VSUB_INT (R69). -/
  | vsubInt (t : Nat) (f : VForm)
  /-- VMUL_INT (R69). -/
  | vmulInt (t : Nat) (f : VForm)
  /-- VADDS (R69). -/
  | vadds (t : Nat) (f : VForm)
  /-- VSUBS (R69). -/
  | vsubs (t : Nat) (f : VForm)
  /-- VMIN_INT (R69). -/
  | vminInt (t : Nat) (f : VForm)
  /-- VMAX_INT (R69). -/
  | vmaxInt (t : Nat) (f : VForm)
  /-- VAND (R69). -/
  | vand (t : Nat) (f : VForm)
  /-- VOR (R69). -/
  | vor (t : Nat) (f : VForm)
  /-- VXOR (R69). -/
  | vxor (t : Nat) (f : VForm)
  /-- VSHL (R69). -/
  | vshl (t : Nat) (f : VForm)
  /-- VSHR (R69). -/
  | vshr (t : Nat) (f : VForm)
  /-- VSAR (R69). -/
  | vsar (t : Nat) (f : VForm)
  /-- VMOV (R69). -/
  | vmov (t : Nat) (f : VForm)
  /-- VSEL (R69). -/
  | vsel (t : Nat) (f : VForm)
  /-- VADD_FP (R70). -/
  | vaddFp (t : Nat) (f : VForm)
  /-- VSUB_FP (R70). -/
  | vsubFp (t : Nat) (f : VForm)
  /-- VMUL_FP (R70). -/
  | vmulFp (t : Nat) (f : VForm)
  /-- VFMA (R70). -/
  | vfma (t : Nat) (f : VForm)
  /-- VFMS (R70). -/
  | vfms (t : Nat) (f : VForm)
  /-- VMIN_FP (R70). -/
  | vminFp (t : Nat) (f : VForm)
  /-- VMAX_FP (R70). -/
  | vmaxFp (t : Nat) (f : VForm)
  /-- VABS (R70). -/
  | vabs (t : Nat) (f : VForm)
  /-- VNEG (R70). -/
  | vneg (t : Nat) (f : VForm)
  /-- VDIV (R70). -/
  | vdiv (t : Nat) (f : VForm)
  /-- VSQRT (R70). -/
  | vsqrt (t : Nat) (f : VForm)
  /-- VRSQRT (R70). -/
  | vrsqrt (t : Nat) (f : VForm)
  /-- VEXP2 (R70). -/
  | vexp2 (t : Nat) (f : VForm)
  /-- VCVT (R71). -/
  | vcvt (t : Nat) (f : VForm)
  /-- VQMX (R71). -/
  | vqmx (t : Nat) (f : VForm)
  /-- VDQMX (R71). -/
  | vdqmx (t : Nat) (f : VForm)
  /-- VFOIR (R72). -/
  | vfoir (t : Nat) (f : VForm)
  /-- VUFOIR (R72). -/
  | vufoir (t : Nat) (f : VForm)
  /-- VEMAX (R72). -/
  | vemax (t : Nat) (f : VForm)
  /-- VBCAST (R70). -/
  | vbcast (t : Nat) (f : VForm)
  /-- VEXT (R70). -/
  | vext (t : Nat) (f : VForm)
  /-- VINS (R70). -/
  | vins (t : Nat) (f : VForm)
  /-- VPERM (R70). -/
  | vperm (t : Nat) (f : VForm)
  /-- VROT (R70). -/
  | vrot (t : Nat) (f : VForm)
  /-- VREDSUM (R70). -/
  | vredsum (t : Nat) (f : VForm)
  /-- VREDMAX (R70). -/
  | vredmax (t : Nat) (f : VForm)
  /-- VREDMIN (R70). -/
  | vredmin (t : Nat) (f : VForm)
  /-- VCMP_EQ (R70). -/
  | vcmpEq (t : Nat) (f : VForm)
  /-- VCMP_NE (R70). -/
  | vcmpNe (t : Nat) (f : VForm)
  /-- VCMP_LT (R70). -/
  | vcmpLt (t : Nat) (f : VForm)
  /-- VCMP_LE (R70). -/
  | vcmpLe (t : Nat) (f : VForm)
  /-- VCMP_GT (R70). -/
  | vcmpGt (t : Nat) (f : VForm)
  /-- VCMP_GE (R70). -/
  | vcmpGe (t : Nat) (f : VForm)
  /-- PAND (R73). -/
  | pand (t : Nat) (f : PForm)
  /-- POR (R73). -/
  | por (t : Nat) (f : PForm)
  /-- PXOR (R73). -/
  | pxor (t : Nat) (f : PForm)
  /-- PANDN (R73). -/
  | pandn (t : Nat) (f : PForm)
  /-- PNOT (R73). -/
  | pnot (t : Nat) (f : PForm)
  /-- PMOV (R73). -/
  | pmov (t : Nat) (f : PForm)
  /-- PGET (R73). -/
  | pget (t : Nat) (f : PForm)
  /-- PPOPC (R73). -/
  | ppopc (t : Nat) (f : PForm)
  /-- PFIRST (R73). -/
  | pfirst (t : Nat) (f : PForm)
  /-- VCMPR (R73). -/
  | vcmpr (t : Nat) (f : VForm)
  /-- VEXPD (R73). -/
  | vexpd (t : Nat) (f : VForm)
  /-- VBSPK (R73). -/
  | vbspk (t : Nat) (f : VForm)
  /-- VBSUP (R73). -/
  | vbsup (t : Nat) (f : VForm)
  /-- TMMA (R96). -/
  | tmma (t : Nat) (f : TForm)
  /-- TMMA_S24 (R104). -/
  | tmmaS24 (t : Nat) (f : TForm)
  /-- TMMA_S48 (R104). -/
  | tmmaS48 (t : Nat) (f : TForm)
  /-- TMMAK (R105). -/
  | tmmak (t : Nat) (f : TForm)
  /-- TENSOR_COMPLETE (R107). -/
  | tensorComplete (t id : Nat)
  /-- TALLOC (R99). -/
  | talloc (t : Nat) (f : TForm)
  /-- TFREE (R100). -/
  | tfree (t : Nat) (f : TForm)
  /-- TZERO (R100). -/
  | tzero (t : Nat) (f : TForm)
  /-- TLD (R101). -/
  | tld (t : Nat) (f : TForm)
  /-- TST (R101). -/
  | tst (t : Nat) (f : TForm)
  /-- TILE_MOVE_COMPLETE (R108). -/
  | tileMoveComplete (t id : Nat)
  /-- SIG (R142). -/
  | sig (t : Nat) (f : SForm)
  /-- WAIT_GE (R143). -/
  | waitGe (t : Nat) (f : SForm)
  /-- TAKE (R144). -/
  | take (t : Nat) (f : SForm)
  /-- SREAD (R145). -/
  | sread (t : Nat) (f : SForm)
  /-- SIGNAL_AT_HOME (R142). -/
  | signalAtHome (t id : Nat)
  /-- WAIT_RETRY_RESPONSE (R143). -/
  | waitRetryResponse (t : Nat)
  /-- TAKE_RETRY_RESPONSE (R144). -/
  | takeRetryResponse (t : Nat)
  /-- SPIN_LIMIT_EXPIRY (R150). -/
  | spinLimitExpiry (t : Nat)
  /-- FENCE_C (R76). -/
  | fenceC (t : Nat) (f : SForm)
  /-- FENCE_D (R76). -/
  | fenceD (t : Nat) (f : SForm)
  /-- FENCE_P (R76). -/
  | fenceP (t : Nat) (f : SForm)
  /-- FENCE_N (R76). -/
  | fenceN (t : Nat) (f : SForm)
  /-- FENCE_RETIRE (R76). -/
  | fenceRetire (t : Nat)
  /-- PUT (R77). -/
  | put (t : Nat) (f : NForm)
  /-- GET (R77). -/
  | get (t : Nat) (f : NForm)
  /-- ATOM_ADD (R77). -/
  | atomAdd (t : Nat) (f : NForm)
  /-- ATOM_CAS (R77). -/
  | atomCas (t : Nat) (f : NForm)
  /-- SIG_R (R77). -/
  | sigR (t : Nat) (f : NForm)
  /-- NET_RESPONSE (R78). -/
  | netResponse (t id : Nat)
  /-- NOP_INSN (R79). -/
  | nopInsn (t : Nat) (f : IForm)
  /-- END (R54). -/
  | end_ (t : Nat) (f : IForm)
  /-- THREAD_END (R54). -/
  | threadEnd (t : Nat)
  /-- TRAP (R79). -/
  | trap (t : Nat) (f : IForm)
  /-- BRK (R88). -/
  | brk (t : Nat) (f : IForm)
  /-- MFS (R58). -/
  | mfs (t : Nat) (f : IForm)
  /-- DEFERRED_EXCEPTION (R81). -/
  | deferredException (t : Nat)
  /-- GROUP_START (R51). -/
  | groupStart (gn e : Nat)
  /-- LAUNCH (R90). -/
  | launch (r : Nat)
  /-- ADMISSION (R395). -/
  | admission
  /-- LEDGER_WINDOW_BOUNDARY (R390). -/
  | ledgerWindowBoundary
  /-- GRID_PACE (R398). -/
  | gridPace (isPart : Bool) (n : Nat)
  /-- CAL_FACTOR_UPDATE (R392). -/
  | calFactorUpdate
  /-- DBG_HALT_CMD (R88). -/
  | dbgHaltCmd
  /-- DBG_RESUME (R88). -/
  | dbgResume
  /-- DBG_STEP (R88). -/
  | dbgStep
  /-- DBG_WINDOW_WRITE (R89). -/
  | dbgWindowWrite (off : Nat) (v : Word)
  /-- PAGE_WALK (R118). -/
  | pageWalk (t : Nat)
  /-- FAULT_POSTED_HOLDOFF_END (R353). -/
  | faultPostedHoldoffEnd (p : Nat)
  /-- FAULT_ID_ASSIGN (R352). -/
  | faultIdAssign (p : Nat)
  /-- FAULT_TIMEOUT (R355). -/
  | faultTimeout (p : Nat)
  /-- FQ_RETRY (R354). -/
  | fqRetry (p fid : Nat)
  /-- FQ_FAIL (R354). -/
  | fqFail (p fid : Nat)
  /-- INV_PAGE (R120). -/
  | invPage (fn : Nat)
  /-- INV_CTX (R120). -/
  | invCtx (fn : Nat)
  /-- INV_PART (R120). -/
  | invPart (fn : Nat)
  /-- INV_OWNER (R120). -/
  | invOwner (fn : Nat)
  /-- INVALIDATION_COMPLETE (R350). -/
  | invalidationComplete (who : Nat)
  /-- ATS_INVALIDATE (R350). -/
  | atsInvalidate (p : Nat) (va : Word)
  /-- SCRUB_LINE (R137). -/
  | scrubLine (pa : Nat)
  /-- MOVER_DESCRIPTOR_START (R132). -/
  | moverDescriptorStart (c id : Nat)
  /-- MOVER_COMPLETE (R132). -/
  | moverComplete (c id : Nat)
  /-- RING_POLL (R171). -/
  | ringPoll (r : Nat)
  /-- POLL_RESPONSE (R173). -/
  | pollResponse (r : Nat)
  /-- ENTRY_CONSUME (R174). -/
  | entryConsume (r : Nat)
  /-- CONSUMER_REPORT_READ (R175). -/
  | consumerReportRead (r : Nat)
  /-- OVERFLOW_DRAIN (R176). -/
  | overflowDrain (r : Nat)
  /-- RING_START_PRIV (R170). -/
  | ringStartPriv (r : Nat)
  /-- RING_FENCE_READ (R170). -/
  | ringFenceRead (r : Nat)
  /-- READ_CLEAR_REGISTER (R4). -/
  | readClearRegister (fn off : Nat)
  /-- REGISTER_WRITE (R4). -/
  | registerWrite (fn off : Nat) (v : Word)
  /-- NOP (R163). -/
  | nop (r : Nat)
  /-- RING_CREATE (R181). -/
  | ringCreate (r : Nat)
  /-- RING_DESTROY (R182). -/
  | ringDestroy (r : Nat)
  /-- RING_RESIZE (R185). -/
  | ringResize (r : Nat)
  /-- RING_RESIZE_SWITCH (R185). -/
  | ringResizeSwitch (r : Nat)
  /-- RING_STOP (R184). -/
  | ringStop (r : Nat)
  /-- RING_STOP_COMPLETE (R184). -/
  | ringStopComplete (r : Nat)
  /-- RING_START (R182). -/
  | ringStart (r : Nat)
  /-- RING_BIND (R182). -/
  | ringBind (r : Nat)
  /-- SYNC_GRANT (R141). -/
  | syncGrant (r : Nat)
  /-- SYNC_REVOKE (R152). -/
  | syncRevoke (r : Nat)
  /-- SYNC_RELEASE (R141). -/
  | syncRelease (r : Nat)
  /-- SYNC_WINDOW_WRITE (R342). -/
  | syncWindowWrite (n i : Nat) (v : Word)
  /-- SYNC_WINDOW_READ (R342). -/
  | syncWindowRead (n i : Nat)
  /-- SEND (R209). -/
  | send (r : Nat)
  /-- WRITE (R209). -/
  | write (r : Nat)
  /-- WRITE_IMM (R209). -/
  | writeImm (r : Nat)
  /-- READ (R209). -/
  | read (r : Nat)
  /-- ATOMIC_FADD (R213). -/
  | atomicFadd (r : Nat)
  /-- ATOMIC_CAS (R213). -/
  | atomicCas (r : Nat)
  /-- SIGNAL (R209). -/
  | signal (r : Nat)
  /-- ENABLE (R218). -/
  | enable (r : Nat)
  /-- ENABLE_GATE_START (R218). -/
  | enableGateStart (r : Nat)
  /-- COUNT_GATE_START (R219). -/
  | countGateStart (r : Nat)
  /-- GATE_TIMEOUT (R218). -/
  | gateTimeout (r : Nat)
  /-- PACKET_TRANSMIT (R243). -/
  | packetTransmit (p n : Nat)
  /-- SEND_ARRIVAL (R214). -/
  | sendArrival (p : Packet)
  /-- WRITE_ARRIVAL (R207). -/
  | writeArrival (p : Packet)
  /-- WRITE_IMM_ARRIVAL (R212). -/
  | writeImmArrival (p : Packet)
  /-- READ_REQ (R224). -/
  | readReq (p : Packet)
  /-- READ_RESP (R237). -/
  | readResp (p : Packet)
  /-- ATOMIC_FADD_ARRIVAL (R213). -/
  | atomicFaddArrival (p : Packet)
  /-- ATOMIC_CAS_ARRIVAL (R213). -/
  | atomicCasArrival (p : Packet)
  /-- ATOMIC_RESP (R213). -/
  | atomicResp (p : Packet)
  /-- SIGNAL_ARRIVAL (R151). -/
  | signalArrival (p : Packet)
  /-- ENABLE_ARRIVAL (R218). -/
  | enableArrival (p : Packet)
  /-- ACK (R232). -/
  | ack (p : Packet)
  /-- NAK (R232). -/
  | nak (p : Packet)
  /-- RNR (R236). -/
  | rnr (p : Packet)
  /-- ACK_TIMER (R228). -/
  | ackTimer (p n : Nat)
  /-- RTO_EXPIRY (R235). -/
  | rtoExpiry (p n : Nat)
  /-- RNR_PAUSE_END (R236). -/
  | rnrPauseEnd (p n : Nat)
  /-- CONTEXT_FETCH_START (R239). -/
  | contextFetchStart (p n : Nat)
  /-- CONTEXT_FETCH_COMPLETE (R240). -/
  | contextFetchComplete (p n : Nat)
  /-- QP_CREATE (R197). -/
  | qpCreate (r : Nat)
  /-- QP_MODIFY (R198). -/
  | qpModify (r : Nat)
  /-- QP_DESTROY (R200). -/
  | qpDestroy (r : Nat)
  /-- KEY_REGISTER (R205). -/
  | keyRegister (r : Nat)
  /-- KEY_DEREGISTER (R206). -/
  | keyDeregister (r : Nat)
  /-- CONNECT_REQ (R202). -/
  | connectReq (p : Packet)
  /-- CONNECT_REP (R202). -/
  | connectRep (p : Packet)
  /-- CONNECT_RTU (R202). -/
  | connectRtu (p : Packet)
  /-- CONNECT_REJ (R202). -/
  | connectRej (p : Packet)
  /-- DISCONNECT (R202). -/
  | disconnect (p : Packet)
  /-- CONNECT_RESEND (R202). -/
  | connectResend (p n : Nat)
  /-- PATH_MIGRATE (R220). -/
  | pathMigrate (p : Packet)
  /-- PATH_MIGRATE_ACK (R220). -/
  | pathMigrateAck (p : Packet)
  /-- PATH_MIGRATE_RESEND (R220). -/
  | pathMigrateResend (p n : Nat)
  /-- IDLE_TAG_ACK (R324). -/
  | idleTagAck (p n : Nat)
  /-- PREV_KEY_EXPIRY (R328). -/
  | prevKeyExpiry (fn i : Nat)
  /-- TXLOAD (R327). -/
  | txload (fn i : Nat)
  /-- RXLOAD (R328). -/
  | rxload (fn i : Nat)
  /-- KS_CLR (R327). -/
  | ksClr (fn i : Nat)
  /-- GROUP_CREATE (R249). -/
  | groupCreate (r : Nat)
  /-- GROUP_DESTROY (R250). -/
  | groupDestroy (r : Nat)
  /-- REDUCE_SCATTER (R258). -/
  | reduceScatter (r : Nat)
  /-- ALL_GATHER (R258). -/
  | allGather (r : Nat)
  /-- BROADCAST (R259). -/
  | broadcast (r : Nat)
  /-- BARRIER (R259). -/
  | barrier (r : Nat)
  /-- SCALAR_REDUCE (R259). -/
  | scalarReduce (r : Nat)
  /-- QUIESCE (R260). -/
  | quiesce (r : Nat)
  /-- SPARSE_ALL_GATHER (R261). -/
  | sparseAllGather (r : Nat)
  /-- BSH_DATA (R267). -/
  | bshData (p : Packet) (used : Bool)
  /-- BSH_CREDIT (R264). -/
  | bshCredit (p : Packet)
  /-- BSH_TREE (R263). -/
  | bshTree (p : Packet)
  /-- BSH_TAINT (R267). -/
  | bshTaint (p : Packet)
  /-- BSH_ABORT (R268). -/
  | bshAbort (p : Packet)
  /-- BUSHEL_RERUN (R267). -/
  | bushelRerun (gid : Nat)
  /-- BUSHEL_COMPLETE (R265). -/
  | bushelComplete (gid : Nat)
  /-- BUSHEL_STALL_TIMEOUT (R268). -/
  | bushelStallTimeout (gid : Nat)
  /-- BUSHEL_PREEMPT_TIMEOUT (R269). -/
  | bushelPreemptTimeout (gid : Nat)
  /-- CARDER_BIND (R274). -/
  | carderBind (r : Nat)
  /-- CARDER_UNBIND (R274). -/
  | carderUnbind (r : Nat)
  /-- DISPATCH (R277). -/
  | dispatch (r : Nat)
  /-- DISPATCH_COMPLETE (R283). -/
  | dispatchComplete (r t : Nat)
  /-- COMBINE (R285). -/
  | combine (r : Nat)
  /-- COMBINE_COMPLETE (R287). -/
  | combineComplete (r t : Nat)
  /-- CARDER_STALL_TIMEOUT (R287). -/
  | carderStallTimeout (r t : Nat)
  /-- CRD_TOK (R282). -/
  | crdTok (p : Packet)
  /-- CRD_DONE (R282). -/
  | crdDone (p : Packet)
  /-- CRD_RET (R285). -/
  | crdRet (p : Packet)
  /-- PORT_MODE_WRITE (R292). -/
  | portModeWrite (n : Nat) (v : Word)
  /-- PORT_LINK_UP (R316). -/
  | portLinkUp (n : Nat)
  /-- PORT_LINK_DOWN (R316). -/
  | portLinkDown (n : Nat)
  /-- FRAME_RECEIVE (R301). -/
  | frameReceive (n : Nat) (bs : List Byte) (badFcs : Bool) (corr uncorr syms : Nat)
  /-- FRAME_TRANSMIT (R308). -/
  | frameTransmit (n : Nat)
  /-- RAW_TRANSMIT (R300). -/
  | rawTransmit (n : Nat) (v : Word)
  /-- RXCQ_ENABLE (R304). -/
  | rxcqEnable (n : Nat) (v : Word)
  /-- GCL_CHANGE (R309). -/
  | gclChange (n : Nat) (v : Word)
  /-- GCL_ABORT (R309). -/
  | gclAbort (n : Nat) (v : Word)
  /-- GCL_SWITCH (R309). -/
  | gclSwitch (n : Nat)
  /-- GCL_ENTRY_ADVANCE (R307). -/
  | gclEntryAdvance (n : Nat)
  /-- SYNC_ARM (R22). -/
  | syncArm (n : Nat)
  /-- SYNC_IN_EDGE (R480). -/
  | syncInEdge
  /-- LPI_ENTER (R313). -/
  | lpiEnter (n : Nat)
  /-- LPI_WAKE (R313). -/
  | lpiWake (n : Nat)
  /-- PREWAKE (R315). -/
  | prewake (n : Nat)
  /-- LLDPDU_TRANSMIT (R314). -/
  | lldpduTransmit (n : Nat)
  /-- LLDP_TLV_EXPIRY (R314). -/
  | lldpTlvExpiry (n : Nat)
  /-- CXL_LINK_UP (R336). -/
  | cxlLinkUp (proto width : Nat)
  /-- CXL_LINK_DOWN (R361). -/
  | cxlLinkDown
  /-- HOST_PATH_RESTORED (R361). -/
  | hostPathRestored
  /-- LINK_DOWN_TIMEOUT (R361). -/
  | linkDownTimeout
  /-- BAR2_READ (R343). -/
  | bar2Read (fn off n : Nat)
  /-- BAR2_WRITE (R343). -/
  | bar2Write (fn off : Nat) (bs : List Byte)
  /-- HDM_READ (R344). -/
  | hdmRead (pa n : Nat)
  /-- HDM_WRITE (R344). -/
  | hdmWrite (pa : Nat) (bs : List Byte)
  /-- PERST_ASSERT (R359). -/
  | perstAssert
  /-- PERST_DEASSERT (R359). -/
  | perstDeassert
  /-- POLICY_RESUME (R364). -/
  | policyResume (v : Word)
  /-- ATTENTION_PULSE_END (R363). -/
  | attentionPulseEnd
  /-- ATTENTION_HOLDOFF_END (R363). -/
  | attentionHoldoffEnd
  /-- VF_ENABLE (R369). -/
  | vfEnable (n : Nat)
  /-- FUNCTION_LEVEL_RESET (R379). -/
  | functionLevelReset (n : Nat)
  /-- PF0_FLR (R186). -/
  | pf0Flr
  /-- PART_RESIZE (R371). -/
  | partResize (r : Nat)
  /-- PART_RESET (R379). -/
  | partReset (r : Nat)
  /-- PART_FREEZE (R381). -/
  | partFreeze (r : Nat)
  /-- PART_THAW (R382). -/
  | partThaw (r : Nat)
  /-- PART_SAVE (R383). -/
  | partSave (r : Nat)
  /-- PART_RESTORE (R387). -/
  | partRestore (r : Nat)
  /-- REQ_FULL (R402). -/
  | reqFull
  /-- REQ_TRIM (R402). -/
  | reqTrim
  /-- REQ_DOZE (R402). -/
  | reqDoze
  /-- REQ_STANDBY (R403). -/
  | reqStandby
  /-- DOZE_GATE (R402). -/
  | dozeGate
  /-- GILL_SAMPLE (R404). -/
  | gillSample (c : Nat) (x : BitVec 16)
  /-- GILL_INPUT_CHANGE (R405). -/
  | gillInputChange (d : Nat) (level : Bool)
  /-- GILL_INPUT_STUCK (R405). -/
  | gillInputStuck (d : Nat)
  /-- GILL_CHATTER_END (R405). -/
  | gillChatterEnd (d : Nat)
  /-- GILL_RULE_FIRE (R406). -/
  | gillRuleFire (i : Nat)
  /-- GILL_RULE_RELEASE (R406). -/
  | gillRuleRelease (i : Nat)
  /-- GILL_SILENT (R26). -/
  | gillSilent
  /-- GILL_LOCK (R408). -/
  | gillLock
  /-- TWIN_PAIR (R420). -/
  | twinPair (r : Nat)
  /-- TWIN_SYNC_COMPLETE (R420). -/
  | twinSyncComplete
  /-- TWIN_PAIR_TIMEOUT (R420). -/
  | twinPairTimeout
  /-- TWIN_UNPAIR (R422). -/
  | twinUnpair (r : Nat)
  /-- TWIN_HB_FRAME (R414). -/
  | twinHbFrame (bs : List Byte) (badFec : Bool)
  /-- TWIN_DELTA (R415). -/
  | twinDelta (bs : List Byte) (badFec : Bool)
  /-- TWIN_DATA (R414). -/
  | twinData (bs : List Byte) (badFec : Bool)
  /-- TWIN_ACK (R414). -/
  | twinAck (bs : List Byte) (badFec : Bool)
  /-- TWIN_PAIR_FRAME (R419). -/
  | twinPairFrame (bs : List Byte) (badFec : Bool)
  /-- TWIN_UNPAIR_FRAME (R422). -/
  | twinUnpairFrame (bs : List Byte) (badFec : Bool)
  /-- TWIN_HB_SEND (R414). -/
  | twinHbSend
  /-- TWIN_ACK_TIMER (R414). -/
  | twinAckTimer
  /-- TWIN_RESEND (R414). -/
  | twinResend
  /-- TWIN_HB_SILENT (R423). -/
  | twinHbSilent
  /-- TWIN_FAILURE_DETECT (R425). -/
  | twinFailureDetect
  /-- TAKEOVER_ANNOUNCE (R426). -/
  | takeoverAnnounce
  /-- TWIN_KEY_LOAD (R430). -/
  | twinKeyLoad
  /-- TWIN_KEY_CLR (R430). -/
  | twinKeyClr
  /-- MANIFEST (R437). -/
  | manifest
  /-- BLOCKS (R438). -/
  | blocks
  /-- START (R440). -/
  | start (ready eeprom : Bool)
  /-- DISCARD (R434). -/
  | discard
  /-- ATTEST (R335). -/
  | attest
  /-- SETTINGS_READ (R434). -/
  | settingsRead
  /-- SETTINGS_WRITE (R446). -/
  | settingsWrite
  /-- ACTIVATE (R448). -/
  | activate (r : Nat) (ready eeprom : Bool)
  /-- POWER_ON (R442). -/
  | powerOn
  /-- ZEROFILL_COMPLETE (R442). -/
  | zerofillComplete
  /-- POWER_LOSS (R468). -/
  | powerLoss
  /-- OVERVOLTAGE_DISCONNECT (R467). -/
  | overvoltageDisconnect
  /-- REFCLK156_LOSS (R479). -/
  | refclk156Loss
  /-- REFCLK156_RESTORE (R479). -/
  | refclk156Restore
  /-- ERROR_DETECT (R450). -/
  | errorDetect (code unit inst : Nat) (part : Option Nat) (addr : Nat) (flag : Bool) (data0 : Word)
  /-- FENCE_TIMEOUT (R458). -/
  | fenceTimeout (p : Nat)
  /-- MP_HANG (R450). -/
  | mpHang (h : Nat)
  /-- ERR_HEAD_WRITE (R454). -/
  | errHeadWrite (v : Word)
  /-- SMBUS_STATUS (R483). -/
  | smbusStatus
  /-- SMBUS_READ (R483). -/
  | smbusRead (off : Nat)
  /-- SMBUS_WRITE (R483). -/
  | smbusWrite (off : Nat) (v : Word)
  /-- SMBUS_WAKE (R484). -/
  | smbusWake (v : Byte)
  /-- SREAD_RESPONSE (R145). -/
  | sreadResponse (t id : Nat)
  /-- GILL_REPORTS_RESUME (R26). -/
  | gillReportsResume
  /-- GILL_STUCK_END (R405). -/
  | gillStuckEnd (d : Nat)
  /-- TWIN_LINK_TRAINED (R414). -/
  | twinLinkTrained
  /-- DRDY_BUSY_MINIMUM_END (R362). -/
  | drdyBusyMinimumEnd
  /-- POST_BUSY_ATTENTION (R362). -/
  | postBusyAttention
  /-- DOZE_EXIT_COMPLETE (R402). -/
  | dozeExitComplete
  /-- SELF_REFRESH_ENTRY (R401). -/
  | selfRefreshEntry
  deriving DecidableEq, Repr

end Sys2Proof
end

