-- ==== Sys2Proof/Config.lean ====
section
/-! DEFINITION. What one PG840 fixes and the spec does not state (opaque constants), and the free
values that the spec leaves open. Nothing here has a body: no proof can see a value. -/

namespace Sys2Proof

/-- Silicon stepping of the package, GCTL_ID.STEP, "Per stepping" (R10). Log entry 9. -/
opaque Config.step : BitVec 8

/-- A 64-bit free value; its argument is the counter of free values the state holds. Log entry 4. -/
opaque Config.freeWord : Nat → BitVec 64

/-- Which neighbour within one unit in the last place `vrsqrt` (false) or `vexp2` (true) returns
for a format and an operand (R70): the same bits on every engine. Log entry 10. -/
opaque Config.ulpPick : Bool → BitVec 4 → BitVec 32 → BitVec 2

/-- MAC address of a port, from the module EEPROM (R318). Log entry 9. -/
opaque Config.portMac : Nat → BitVec 48

/-- Module serial number, from the module EEPROM (R10). Log entry 9. -/
opaque Config.serial : BitVec 64

/-- The AES-GMAC tag (R321, NIST SP 800-38D) for a key length (true: 256 bits), a key, an IV and
the authenticated bytes. Log entry 11. -/
opaque Config.gmac : Bool → List (BitVec 8) → BitVec 96 → List (BitVec 8) → BitVec 128

/-- R413: what a twin frame carries as its tag while no pair key is loaded. -/
opaque Config.unkeyedTag : BitVec 96 → List (BitVec 8) → BitVec 128

/-- R413: this module's serial number is lower than that of the module at the other end of the twin
link, as long as no PAIR frame has told the latter. -/
opaque Config.serialLower : Bool

/-- The 14-bit hash of a local QPN for the UDP source port (R188); its first argument changes at
path migration (R220). Log entry 11. -/
opaque Config.sportHash : Nat → Nat → BitVec 14

/-- The 512 bytes of a queue pair's context and atomic log in its backing store, and what such bytes
stand for: the spec gives no layout (R194, R415). Log entry 17. -/
opaque Config.ctxBytes : List Nat → List (BitVec 8)
opaque Config.ctxParse : List (BitVec 8) → List Nat

/-- The 32 bytes of a key-table entry, and what they stand for (R415). Log entry 17. -/
opaque Config.keyBytes : List Nat → List (BitVec 8)
opaque Config.keyParse : List (BitVec 8) → List Nat

/-- The order in which a member combines what comes from below in the tree, as directions, for nx, ny,
nz and its rank (R255, R259). Log entry 18. -/
opaque Config.bshTreeOrder : Nat → Nat → Nat → Nat → List Nat

/-- The module EEPROM as the module was made: the version floor's counter (R439), the settings blob
(R444) and the boots so far (R442). Log entry 9. -/
opaque Config.eepromFloor : BitVec 16
opaque Config.eepromSettings : List (BitVec 8)
opaque Config.eepromBoots : Nat

/-- Port modes whose clause defines low-power idle, and its wake time in microseconds (R312, R314):
the spec leaves both to IEEE 802.3. Log entry 9. -/
opaque Config.lpiStd : Nat → Bool
opaque Config.lpiWake : Nat → Nat

/-- Whether the link partner of a port signals low-power idle at a time of the port's counter (R313): it
is not part of this machine. Log entry 86. -/
opaque Config.lpiPartner : Nat → Nat → Bool

/-- The POS straps (R481). Log entry 9. -/
opaque Config.pos : BitVec 3

/-- SHAKE256 with an output length in bytes (R437); SLH-DSA verification of a message and a signature
under a public key, and signing with a free value (R335); the root key hash in boot ROM (R437); the
module's public key, which is the same at every boot, and whether its PUF is reconstructed at a boot
(R333, R334). Log entry 11. -/
opaque Config.shake256 : Nat → List (BitVec 8) → List (BitVec 8)
opaque Config.slhVerify : List (BitVec 8) → List (BitVec 8) → List (BitVec 8) → Bool
opaque Config.slhSign : BitVec 64 → List (BitVec 8) → List (BitVec 8)
opaque Config.rootHash : List (BitVec 8)
opaque Config.identityKey : List (BitVec 8)
opaque Config.pufOk : Nat → Bool

/-- The identity that a boot derives: none where the PUF is not reconstructed (R333, R334). -/
def Config.identity (boot : Nat) : Option (List (BitVec 8)) :=
  if Config.pufOk boot then some Config.identityKey else none

end Sys2Proof
end

