-- ==== Sys2Proof/Machine/Num.lean ====
section
/-! DEFINITION. Number formats, rounding, quantisation and fixed-point reduction values
(chapter 02, R27 to R48): exact values, and the conversions between them and bits. -/

namespace Sys2Proof.Machine

/-- Number formats by name (R27). -/
inductive Fmt where
  | fp32 | bf16 | fp16 | int32 | int8
  | e2m1 | e2m3 | e3m2 | e4m3 | e5m2 | mxint8
  | foir64 | foir128
  deriving DecidableEq, Repr

/-- The format a 4-bit code names; none for the reserved codes 0x5 to 0x7 (R27). -/
def fmtOfCode (c : BitVec 4) : Option Fmt :=
  match c.toNat with
  | 0 => some .fp32 | 1 => some .bf16 | 2 => some .fp16 | 3 => some .int32 | 4 => some .int8
  | 8 => some .e2m1 | 9 => some .e2m3 | 10 => some .e3m2 | 11 => some .e4m3 | 12 => some .e5m2
  | 13 => some .mxint8 | 14 => some .foir64 | 15 => some .foir128
  | _ => none

/-- The code of a format (R27). -/
def codeOfFmt (f : Fmt) : BitVec 4 :=
  match f with
  | .fp32 => 0 | .bf16 => 1 | .fp16 => 2 | .int32 => 3 | .int8 => 4
  | .e2m1 => 8 | .e2m3 => 9 | .e3m2 => 10 | .e4m3 => 11 | .e5m2 => 12
  | .mxint8 => 13 | .foir64 => 14 | .foir128 => 15

/-- Bits of one element (R27, R34). -/
def fmtWidth (f : Fmt) : Nat :=
  match f with
  | .fp32 => 32 | .bf16 => 16 | .fp16 => 16 | .int32 => 32 | .int8 => 8
  | .e2m1 => 4 | .e2m3 => 6 | .e3m2 => 6 | .e4m3 => 8 | .e5m2 => 8 | .mxint8 => 8
  | .foir64 => 64 | .foir128 => 128

/-- MX codes 0x8 to 0xD. -/
def fmtIsMx (f : Fmt) : Bool :=
  match f with
  | .e2m1 | .e2m3 | .e3m2 | .e4m3 | .e5m2 | .mxint8 => true
  | _ => false

/-- FP32, BF16 and FP16. -/
def fmtIsFloat (f : Fmt) : Bool :=
  match f with
  | .fp32 | .bf16 | .fp16 => true
  | _ => false

/-- INT32 and INT8. -/
def fmtIsInt (f : Fmt) : Bool :=
  match f with
  | .int32 | .int8 => true
  | _ => false

/-- FOIR-64 and FOIR-128. -/
def fmtIsFoir (f : Fmt) : Bool :=
  match f with
  | .foir64 | .foir128 => true
  | _ => false

/-- Lanes of a 512-bit register in a format (R69). -/
def fmtLanes (f : Fmt) : Nat := 512 / fmtWidth f

/-- Exponent width, fraction width and bias of a floating element (R28, R34); an integer element
has none. -/
def fmtShape (f : Fmt) : Nat × Nat × Nat :=
  match f with
  | .fp32 => (8, 23, 127) | .bf16 => (8, 7, 127) | .fp16 => (5, 10, 15)
  | .e2m1 => (2, 1, 1) | .e2m3 => (2, 3, 1) | .e3m2 => (3, 2, 3)
  | .e4m3 => (4, 3, 7) | .e5m2 => (5, 2, 15)
  | _ => (0, 0, 0)

/-- The emax_elem column of R34. -/
def fmtEmaxElem (f : Fmt) : Int :=
  match f with
  | .e2m1 => 2 | .e2m3 => 2 | .e3m2 => 4 | .e4m3 => 8 | .e5m2 => 15 | _ => 0

/-- Rounding modes (R40). -/
inductive Rnd where
  | rne | rtz | sr
  deriving DecidableEq, Repr

/-- The mode a rounding field names; none for the reserved 0b11 (R40). -/
def rndOfCode (c : BitVec 2) : Option Rnd :=
  match c.toNat with
  | 0 => some .rne | 1 => some .rtz | 2 => some .sr | _ => none

/-- An exact value: NaN, an infinity, or `(-1)^neg * m * 2^e`. -/
inductive Val where
  | nan
  | inf (neg : Bool)
  | fin (neg : Bool) (m : Nat) (e : Int)
  deriving DecidableEq, Repr

/-- `2^n * m` for a signed `n` that is not negative. -/
def scaleUp (m : Nat) (n : Int) : Nat := m * 2 ^ n.toNat

/-- R42: the 16 most significant of the `sh` discarded bits `d`. -/
def srFraction (d sh : Nat) : Nat :=
  if 16 ≤ sh then d / 2 ^ (sh - 16) else d * 2 ^ (16 - sh)

/-- R40, R42: `m / 2^sh` rounded to an integer; `r` is the element's random value. A shift that
leaves nothing of the magnitude within the top 16 discarded bits gives 0 in every mode. -/
def roundShift (mode : Rnd) (r m sh : Nat) : Nat :=
  if Nat.log2 m + 20 < sh then 0
  else
    let q := m / 2 ^ sh
    let d := m % 2 ^ sh
    match mode with
    | .rtz => q
    | .rne => if 2 ^ sh < 2 * d ∨ (2 * d = 2 ^ sh ∧ q % 2 = 1) then q + 1 else q
    | .sr => if r < srFraction d sh then q + 1 else q

/-- Magnitude bits of `m * 2^e` rounded into a floating element, before any overflow rule. -/
def roundMag (shape : Nat × Nat × Nat) (mode : Rnd) (r m : Nat) (e : Int) : Nat :=
  let fw : Int := shape.2.1
  let bias : Int := shape.2.2
  let q : Int := max ((Nat.log2 m : Int) + e - fw) (1 - bias - fw)
  let sig := if q ≤ e then scaleUp m (e - q) else roundShift mode r m (q - e).toNat
  if sig < 2 ^ shape.2.1 then sig
  else (q + fw + bias).toNat * 2 ^ shape.2.1 + (sig - 2 ^ shape.2.1)

/-- Put a sign above a magnitude of `w` bits in all. -/
def withSign (w : Nat) (neg : Bool) (mag : Nat) : Nat :=
  if neg then 2 ^ (w - 1) + mag else mag

/-- The value of an element's bits (R28, R30, R34); an integer element is its two's complement
value, and an MXINT8 element counts 2^-6 (R34). -/
def decodeElem (f : Fmt) (bits : Nat) : Val :=
  match f with
  | .int32 => let v := (BitVec.ofNat 32 bits).toInt; .fin (decide (v < 0)) v.natAbs 0
  | .int8 => let v := (BitVec.ofNat 8 bits).toInt; .fin (decide (v < 0)) v.natAbs 0
  | .mxint8 => let v := (BitVec.ofNat 8 bits).toInt; .fin (decide (v < 0)) v.natAbs (-6)
  | .foir64 | .foir128 => .nan
  | _ =>
    let sh := fmtShape f
    let mag := bits % 2 ^ (sh.1 + sh.2.1)
    let neg := bits / 2 ^ (sh.1 + sh.2.1) % 2 == 1
    let ex := mag / 2 ^ sh.2.1
    let fr := mag % 2 ^ sh.2.1
    let special : Option Val :=
      match f with
      | .fp32 | .bf16 | .fp16 | .e5m2 =>
        if ex = 2 ^ sh.1 - 1 then (if fr = 0 then some (.inf neg) else some .nan) else none
      | .e4m3 => if mag = 0x7F then some .nan else none
      | _ => none
    match special with
    | some v => v
    | none =>
      if ex = 0 then .fin neg fr (1 - (sh.2.2 : Int) - sh.2.1)
      else .fin neg (2 ^ sh.2.1 + fr) ((ex : Int) - sh.2.2 - sh.2.1)

/-- The canonical NaN of a floating format (R30). -/
def canonicalNaN (f : Fmt) : Nat :=
  match f with
  | .fp32 => 0x7FC00000 | .bf16 => 0x7FC0 | .fp16 => 0x7E00 | .e4m3 => 0x7F | .e5m2 => 0x7E
  | _ => 0

/-- The bits of a value in an IEEE format under a rounding mode (R30, R40 to R42). -/
def encodeFloat (f : Fmt) (mode : Rnd) (r : Nat) (v : Val) : Nat :=
  let sh := fmtShape f
  let w := fmtWidth f
  let infMag := (2 ^ sh.1 - 1) * 2 ^ sh.2.1
  match v with
  | .nan => canonicalNaN f
  | .inf neg => withSign w neg infMag
  | .fin neg m e =>
    if m = 0 then withSign w neg 0
    else
      let mag := roundMag sh mode r m e
      if infMag ≤ mag then withSign w neg (if mode = .rtz then infMag - 1 else infMag)
      else withSign w neg mag

/-- Largest finite magnitude of an MX element format (R34). -/
def mxMaxMag (f : Fmt) : Nat :=
  match f with
  | .e2m1 => 7 | .e2m3 => 31 | .e3m2 => 31 | .e4m3 => 0x7E | .e5m2 => 0x7B | _ => 127

/-- A signed integer as `w` bits of two's complement. -/
def intBits (w : Nat) (v : Int) : Nat := (BitVec.ofInt w v).toNat

/-- Round a finite value to an integer (R32). -/
def roundToInt (mode : Rnd) (r : Nat) (neg : Bool) (m : Nat) (e : Int) : Int :=
  let q : Nat := if 0 ≤ e then scaleUp m e else roundShift mode r m (-e).toNat
  if neg then -(q : Int) else q

/-- Clamp to an interval. -/
def clampInt (lo hi v : Int) : Int := max lo (min hi v)

/-- `round_sat` of R37: an element of an MX format; overflow saturates. -/
def roundSat (f : Fmt) (mode : Rnd) (r : Nat) (neg : Bool) (m : Nat) (e : Int) : Nat :=
  match f with
  | .mxint8 => intBits 8 (clampInt (-127) 127 (roundToInt mode r neg m (e + 6)))
  | _ =>
    if m = 0 then withSign (fmtWidth f) neg 0
    else withSign (fmtWidth f) neg (min (mxMaxMag f) (roundMag (fmtShape f) mode r m e))

/-- Floor of the base 2 logarithm of a finite non-zero magnitude. -/
def floorLog2 (m : Nat) (e : Int) : Int := (Nat.log2 m : Int) + e

/-- The largest `floorLog2` of the finite non-zero values of a list. -/
def maxLog2 : List Val → Option Int
  | [] => none
  | .fin _ m e :: vs =>
    if m = 0 then maxLog2 vs
    else match maxLog2 vs with
      | none => some (floorLog2 m e)
      | some x => some (max x (floorLog2 m e))
  | _ :: vs => maxLog2 vs

/-- An MX block: scale byte and elements. -/
structure MxBlock where
  scale : Nat
  elems : List Nat
  deriving DecidableEq, Repr

/-- One element of R37 under the block exponent `x`. -/
def quantElem (f : Fmt) (mode : Rnd) (r : Nat) (x : Int) (v : Val) : Nat :=
  match v with
  | .nan => 0
  | .inf neg => withSign 8 neg 0x7C
  | .fin neg m e => roundSat f mode r neg m (e - x)

/-- R37: 32 values into one MX block; `rs i` is the random value of element `i`. -/
def quantise (f : Fmt) (mode : Rnd) (rs : Nat → Nat) (vs : List Val) : MxBlock :=
  let bad := vs.any fun v =>
    match v with
    | .nan => true
    | .inf _ => decide (f ≠ .e5m2)
    | _ => false
  if bad then { scale := 0xFF, elems := vs.map fun _ => 0 }
  else
    let x : Int :=
      match maxLog2 vs with
      | none => -127
      | some l => clampInt (-127) 127 (l - fmtEmaxElem f)
    { scale := (x + 127).toNat
      elems := vs.mapIdx fun i v => quantElem f mode (rs i) x v }

/-- R36: the value of an element under its block's scale byte. -/
def decodeMx (f : Fmt) (scale bits : Nat) : Val :=
  if scale = 0xFF then .nan
  else match decodeElem f bits with
    | .fin neg m e => .fin neg m (e + scale - 127)
    | v => v

/-! Exact arithmetic on values (R30: infinities as in IEEE 754, any NaN gives NaN). -/

/-- The signed integer `(-1)^neg * m * 2^(e - base)`, for `base ≤ e`. -/
def alignTo (base : Int) (neg : Bool) (m : Nat) (e : Int) : Int :=
  let a : Int := scaleUp m (e - base)
  if neg then -a else a

/-- Sum. An exact zero sum of unlike signs is +0. -/
def valAdd (a b : Val) : Val :=
  match a, b with
  | .nan, _ => .nan
  | _, .nan => .nan
  | .inf x, .inf y => if x = y then .inf x else .nan
  | .inf x, _ => .inf x
  | _, .inf y => .inf y
  | .fin n1 m1 e1, .fin n2 m2 e2 =>
    if m1 = 0 then (if m2 = 0 then .fin (n1 && n2) 0 0 else .fin n2 m2 e2)
    else if m2 = 0 then .fin n1 m1 e1
    else
      let base := min e1 e2
      let s := alignTo base n1 m1 e1 + alignTo base n2 m2 e2
      .fin (decide (s < 0)) s.natAbs base

/-- Negation of the sign. -/
def valNeg (a : Val) : Val :=
  match a with
  | .nan => .nan
  | .inf n => .inf (!n)
  | .fin n m e => .fin (!n) m e

/-- Product. -/
def valMul (a b : Val) : Val :=
  match a, b with
  | .nan, _ => .nan
  | _, .nan => .nan
  | .inf x, .inf y => .inf (x != y)
  | .inf x, .fin n m _ => if m = 0 then .nan else .inf (x != n)
  | .fin n m _, .inf y => if m = 0 then .nan else .inf (n != y)
  | .fin n1 m1 e1, .fin n2 m2 e2 => .fin (n1 != n2) (m1 * m2) (e1 + e2)

/-- Quotient, carried far enough below any target's last place that one rounding of it is the
rounding of the exact quotient; the lowest bit says that something was left over. -/
def valDiv (a b : Val) : Val :=
  match a, b with
  | .nan, _ => .nan
  | _, .nan => .nan
  | .inf _, .inf _ => .nan
  | .inf x, .fin n _ _ => .inf (x != n)
  | .fin n _ _, .inf y => .fin (n != y) 0 0
  | .fin n1 m1 e1, .fin n2 m2 e2 =>
    if m2 = 0 then (if m1 = 0 then .nan else .inf (n1 != n2))
    else
      let q := m1 * 2 ^ 96 / m2
      let rem := m1 * 2 ^ 96 % m2
      .fin (n1 != n2) (2 * q + (if rem = 0 then 0 else 1)) (e1 - e2 - 97)

/-- Integer square root by bits from bit `k - 1` down: the greatest root not above. -/
def isqrtBits : Nat → Nat → Nat → Nat
  | 0, _, acc => acc
  | k + 1, n, acc =>
    let c := acc + 2 ^ k
    if c * c ≤ n then isqrtBits k n c else isqrtBits k n acc

/-- Floor of the square root. -/
def isqrt (n : Nat) : Nat := isqrtBits (Nat.log2 n / 2 + 1) n 0

/-- Square root, carried with a left-over bit as in `valDiv`. -/
def valSqrt (a : Val) : Val :=
  match a with
  | .nan => .nan
  | .inf neg => if neg then .nan else .inf false
  | .fin neg m e =>
    if m = 0 then .fin neg 0 0
    else if neg then .nan
    else
      let odd : Nat := (e % 2).toNat
      let big := m * 2 ^ odd * 2 ^ 160
      let r := isqrt big
      .fin false (2 * r + (if r * r = big then 0 else 1)) ((e - odd) / 2 - 81)

/-- Order on values other than NaN with -0 below +0 (R70). -/
def valLt (a b : Val) : Bool :=
  match a, b with
  | .nan, _ => false
  | _, .nan => false
  | .inf x, .inf y => x && !y
  | .inf x, _ => x
  | _, .inf y => !y
  | .fin n1 m1 e1, .fin n2 m2 e2 =>
    if m1 = 0 ∧ m2 = 0 then n1 && !n2
    else
      let base := min e1 e2
      decide (alignTo base n1 m1 e1 < alignTo base n2 m2 e2)

/-- Equality of values; +0 equals -0 and NaN equals nothing. -/
def valEq (a b : Val) : Bool :=
  match a, b with
  | .nan, _ => false
  | _, .nan => false
  | .inf x, .inf y => x == y
  | .inf _, _ => false
  | _, .inf _ => false
  | .fin n1 m1 e1, .fin n2 m2 e2 =>
    let base := min e1 e2
    decide (alignTo base n1 m1 e1 = alignTo base n2 m2 e2)

/-- Numeric less-than of a comparison instruction: -0 and +0 are equal. -/
def valLtNum (a b : Val) : Bool := valLt a b && !valEq a b

/-- R70: the minimum of two floating operands; NaN only when both are. -/
def valMin (a b : Val) : Val :=
  match a, b with
  | .nan, y => y
  | x, .nan => x
  | x, y => if valLt y x then y else x

/-- R70: the maximum of two floating operands. -/
def valMax (a b : Val) : Val :=
  match a, b with
  | .nan, y => y
  | x, .nan => x
  | x, y => if valLt x y then y else x

/-! `vrsqrt` and `vexp2` (R70): within one unit in the last place; which neighbour is free. -/

/-- One of the encodings within one unit in the last place of a positive exact value: `pick`
chooses the one at or below, the one above, or (where the value is representable) the one below. -/
def ulpNeighbour (f : Fmt) (pick : BitVec 2) (exact : Bool) (v : Val) : Nat :=
  match v with
  | .fin _ _ _ =>
    let t := encodeFloat f .rtz 0 v
    match pick.toNat with
    | 1 => t + 1
    | 2 => if exact ∧ 0 < t then t - 1 else t
    | _ => t
  | _ => encodeFloat f .rne 0 v

/-- Reciprocal square root of a value, with whether it is exact. -/
def valRsqrt (a : Val) : Val × Bool :=
  match a with
  | .nan => (.nan, true)
  | .inf neg => if neg then (.nan, true) else (.fin false 0 0, true)
  | .fin neg m e =>
    if m = 0 then (.inf neg, true)
    else if neg then (.nan, true)
    else
      let odd : Nat := (e % 2).toNat
      let big := 2 ^ 400 / (m * 2 ^ odd)
      let r := isqrt big
      (.fin false r (-200 - (e - odd) / 2), decide (r * r * (m * 2 ^ odd) = 2 ^ 400))

/-- `vrsqrt` on one element's bits. -/
def rsqrtBits (f : Fmt) (bits : Nat) : Nat :=
  let r := valRsqrt (decodeElem f bits)
  match r.1 with
  | .fin _ m _ =>
    if m = 0 then encodeFloat f .rne 0 r.1
    else ulpNeighbour f (Config.ulpPick false (codeOfFmt f) (BitVec.ofNat 32 bits)) r.2 r.1
  | v => encodeFloat f .rne 0 v

/-- Product of the roots `2^(2^-i)` for the fraction bits set in `fr` (bit `w - i` stands for
`2^-i`), in fixed point with 128 fraction bits; `root` is the root of the level before. -/
def exp2Frac : Nat → Nat → Nat → Nat → Nat
  | 0, _, _, acc => acc
  | k + 1, fr, root, acc =>
    let root' := isqrt (root * 2 ^ 128)
    exp2Frac k fr root' (if fr.testBit k then acc * root' / 2 ^ 128 else acc)

/-- `2^x` for a finite `x = n + fr / 2^w`: the value and whether it is exact. A result beyond 2^65535
stands as the finite 2^1024, too large for every format (R41). -/
def valExp2 (neg : Bool) (m : Nat) (e : Int) : Val × Bool :=
  if 0 ≤ e ∧ 16 ≤ e + Nat.log2 m then
    (if neg then (.fin false 0 0, false) else (.fin false 1 1024, false))
  else
    let w : Nat := (-e).toNat
    let x : Int := alignTo (min e 0) neg m e
    let n : Int := x / (2 ^ w : Nat)
    let fr : Nat := (x % (2 ^ w : Nat)).toNat
    (.fin false (exp2Frac w fr (2 ^ 129) (2 ^ 128)) (n - 128), decide (fr = 0))

/-- `vexp2` on one element's bits. A result too large for the format follows R41; 2^0 is 1.0, as
the example of spec/11_carder_dispatch.md has it. -/
def exp2Bits (f : Fmt) (mode : Rnd) (bits : Nat) : Nat :=
  match decodeElem f bits with
  | .nan => canonicalNaN f
  | .inf neg => if neg then 0 else encodeFloat f .rne 0 (.inf false)
  | .fin neg m e =>
    let r := valExp2 neg m e
    if m = 0 then encodeFloat f .rne 0 (.fin false 1 0)
    else match r.1 with
    | .fin _ k x =>
      let big : Int := (2 ^ ((fmtShape f).1 - 1) : Nat)
      if big ≤ floorLog2 k x then encodeFloat f mode 0 r.1
      else ulpNeighbour f (Config.ulpPick true (codeOfFmt f) (BitVec.ofNat 32 bits)) r.2 r.1
    | v => encodeFloat f mode 0 v

/-! FOIR (R45 to R48). -/

/-- A FOIR lane: NaN, an infinity, or a finite integer. -/
inductive Foir where
  | nan
  | inf (neg : Bool)
  | fin (q : Int)
  deriving DecidableEq, Repr

/-- The largest finite FOIR magnitude of a width (R46). -/
def foirMax (w : Nat) : Int := 2 ^ (w - 1) - 2

/-- R47: the value of a FOIR lane of `w` bits. -/
def foirOfBits (w bits : Nat) : Foir :=
  if bits = 2 ^ (w - 1) then .nan
  else if bits = 2 ^ (w - 1) - 1 then .inf false
  else if bits = 2 ^ (w - 1) + 1 then .inf true
  else .fin (BitVec.ofNat w bits).toInt

/-- R47: the bits of a FOIR value. -/
def foirBits (w : Nat) (v : Foir) : Nat :=
  match v with
  | .nan => 2 ^ (w - 1)
  | .inf neg => if neg then 2 ^ (w - 1) + 1 else 2 ^ (w - 1) - 1
  | .fin q => intBits w q

/-- R47: FOIR addition, saturating. -/
def foirAdd (w : Nat) (a b : Foir) : Foir :=
  match a, b with
  | .nan, _ => .nan
  | _, .nan => .nan
  | .inf x, .inf y => if x = y then .inf x else .nan
  | .inf x, _ => .inf x
  | _, .inf y => .inf y
  | .fin x, .fin y => .fin (clampInt (-(foirMax w)) (foirMax w) (x + y))

/-- R47: FOIR negation. -/
def foirNeg (a : Foir) : Foir :=
  match a with
  | .nan => .nan
  | .inf n => .inf (!n)
  | .fin q => .fin (-q)

/-- Exponent offset of the least significant bit: 60 for FOIR-64, 124 for FOIR-128 (R46). -/
def foirDrop (w : Nat) : Int := if w = 64 then 60 else 124

/-- R46: a value to FOIR under the reduction exponent `ex`, truncating and saturating. -/
def toFoir (w : Nat) (ex : Int) (v : Val) : Foir :=
  match v with
  | .nan => .nan
  | .inf neg => .inf neg
  | .fin neg m e =>
    let l := ex - foirDrop w
    if m = 0 then .fin 0
    else if (w : Int) ≤ floorLog2 m e - l then .fin (if neg then -(foirMax w) else foirMax w)
    else if floorLog2 m e < l then .fin 0
    else
      let q : Int := if l ≤ e then scaleUp m (e - l) else (m / 2 ^ (l - e).toNat : Nat)
      let q' := min q (foirMax w)
      .fin (if neg then -q' else q')

/-- R48: a FOIR value to an IEEE format under the reduction exponent `ex`, nearest even. -/
def foirToFloat (f : Fmt) (w : Nat) (ex : Int) (v : Foir) : Nat :=
  match v with
  | .nan => canonicalNaN f
  | .inf neg => encodeFloat f .rne 0 (.inf neg)
  | .fin q => encodeFloat f .rne 0 (.fin (decide (q < 0)) q.natAbs (ex - foirDrop w))

/-- R45: the exponent `e` of a finite non-zero element: its unbiased exponent field, and 1 - bias
for a subnormal. -/
def elemExponent (f : Fmt) (bits : Nat) : Option Int :=
  let sh := fmtShape f
  let ex := bits / 2 ^ sh.2.1 % 2 ^ sh.1
  match decodeElem f bits with
  | .fin _ m _ =>
    if m = 0 then none
    else if ex = 0 then some (1 - (sh.2.2 : Int)) else some ((ex : Int) - sh.2.2)
  | _ => none

/-! Philox4x32-10 (R43). -/

/-- One round of Philox4x32. -/
def philoxRound (c0 c1 c2 c3 k0 k1 : Nat) : Nat × Nat × Nat × Nat :=
  let p0 := 0xD2511F53 * c0
  let p1 := 0xCD9E8D57 * c2
  ((p1 / 2 ^ 32 ^^^ c1 ^^^ k0), p1 % 2 ^ 32, (p0 / 2 ^ 32 ^^^ c3 ^^^ k1), p0 % 2 ^ 32)

/-- `n` rounds, the key bumped between rounds. -/
def philoxRounds : Nat → Nat → Nat → Nat → Nat → Nat → Nat → Nat × Nat × Nat × Nat
  | 0, c0, c1, c2, c3, _, _ => (c0, c1, c2, c3)
  | n + 1, c0, c1, c2, c3, k0, k1 =>
    let r := philoxRound c0 c1 c2 c3 k0 k1
    philoxRounds n r.1 r.2.1 r.2.2.1 r.2.2.2
      ((k0 + 0x9E3779B9) % 2 ^ 32) ((k1 + 0xBB67AE85) % 2 ^ 32)

/-- R43: the 16-bit random value of element `i` of the SR instruction number `count` of the thread
with linear index `tid`, under a grid's seed. -/
def srRandom (seed : Word) (tid : Nat) (count : BitVec 32) (i : Nat) : Nat :=
  let o := philoxRounds 10 (tid % 2 ^ 32) count.toNat (i / 8) (tid / 2 ^ 32 % 2 ^ 32)
    (seed.toNat % 2 ^ 32) (seed.toNat / 2 ^ 32)
  let w := match i % 8 / 2 with
    | 0 => o.1 | 1 => o.2.1 | 2 => o.2.2.1 | _ => o.2.2.2
  if i % 2 = 0 then w % 2 ^ 16 else w / 2 ^ 16

/-! Conversions between element formats (R29, R32, R40, R41). -/

/-- `vcvt` of one element's bits from `f` to `g`. -/
def convertElem (f g : Fmt) (mode : Rnd) (r bits : Nat) : Nat :=
  if f = g then bits
  else if fmtIsInt g then
    let w := fmtWidth g
    let lo : Int := -(2 ^ (w - 1) : Nat)
    let hi : Int := (2 ^ (w - 1) : Nat) - 1
    match decodeElem f bits with
    | .nan => 0
    | .inf neg => intBits w (if neg then lo else hi)
    | .fin neg m e => intBits w (clampInt lo hi (roundToInt mode r neg m e))
  else encodeFloat g mode r (decodeElem f bits)

end Sys2Proof.Machine
end

