-- ==== Sys2Proof/Machine/Operands.lean ====
section
/-! DEFINITION. Operand forms of the Idholt instruction set (R57, R60 to R63): the instruction
word of each format, which fields an instruction uses, and the legality checks on them. -/

namespace Sys2Proof.Machine

/-- The word of a format R instruction (R61). -/
def wordR (major minor : BitVec 6) (f : RForm) : Word :=
  major ++ f.psel ++ f.pneg ++ minor ++ f.rd ++ f.ra ++ f.rb ++ f.rc ++ f.rsv

/-- The word of a format I instruction (R61). -/
def wordI (major minor : BitVec 6) (f : IForm) : Word :=
  major ++ f.psel ++ f.pneg ++ minor ++ f.rd ++ f.ra ++ f.rsv ++ f.imm

/-- The word of a format W instruction (R61). -/
def wordW (major minor : BitVec 6) (f : WForm) : Word :=
  major ++ f.psel ++ f.pneg ++ minor ++ f.rd ++ f.imm

/-- The word of a format B instruction (R61). -/
def wordB (major minor : BitVec 6) (f : BForm) : Word :=
  major ++ f.psel ++ f.pneg ++ minor ++ f.ra ++ f.rb ++ f.off

/-- The word of a format V instruction (R61). -/
def wordV (major minor : BitVec 6) (f : VForm) : Word :=
  major ++ f.psel ++ f.pneg ++ minor ++ f.vd ++ f.va ++ f.vb ++ f.vc ++ f.fmt ++ f.fmt2 ++
    f.rnd ++ f.rs ++ f.pd ++ f.imm

/-- The word of a format P instruction (R61). -/
def wordP (major minor : BitVec 6) (f : PForm) : Word :=
  major ++ f.psel ++ f.pneg ++ minor ++ f.pd ++ f.pa ++ f.pb ++ f.rd ++ f.ra ++ f.rsv

/-- The word of a format T instruction (R61). -/
def wordT (major minor : BitVec 6) (f : TForm) : Word :=
  major ++ f.psel ++ f.pneg ++ minor ++ f.ta ++ f.sa ++ f.sb ++ f.sm ++ f.fmtA ++ f.fmtB ++
    f.rnd ++ f.acc ++ f.rsv

/-- The word of a format S instruction (R61). -/
def wordS (major minor : BitVec 6) (f : SForm) : Word :=
  major ++ f.psel ++ f.pneg ++ minor ++ f.rd ++ f.ra ++ f.rb ++ f.rsv ++ f.imm

/-- The word of a format N instruction (R61). -/
def wordN (major minor : BitVec 6) (f : NForm) : Word :=
  major ++ f.psel ++ f.pneg ++ minor ++ f.rd ++ f.ra ++ f.rb ++ f.rc ++ f.vs ++ f.len ++ f.rsv

/-- R63: a (major, minor) pair that the opcode map lists. -/
def opcodeListed (major minor : Nat) : Bool :=
  match major with
  | 0x01 => minor ≤ 0x10
  | 0x02 => minor ≤ 0x0D
  | 0x03 => minor ≤ 0x07
  | 0x04 => minor ≤ 0x01
  | 0x05 => minor ≤ 0x05 || (0x10 ≤ minor && minor ≤ 0x15)
  | 0x08 => minor ≤ 0x05
  | 0x09 => minor ≤ 0x03
  | 0x0C => minor ≤ 0x07
  | 0x0D => minor ≤ 0x03 || minor == 0x07
  | 0x0E => minor ≤ 0x07
  | 0x0F => minor ≤ 0x03 || minor == 0x07
  | 0x10 => minor ≤ 0x01
  | 0x14 => minor ≤ 0x0E
  | 0x15 => minor ≤ 0x0C
  | 0x16 => minor ≤ 0x05
  | 0x17 => minor ≤ 0x07
  | 0x18 => minor ≤ 0x05
  | 0x1C => minor ≤ 0x08
  | 0x1D => minor ≤ 0x03
  | 0x20 => minor ≤ 0x03
  | 0x21 => minor ≤ 0x04
  | 0x28 => minor ≤ 0x03
  | 0x29 => minor ≤ 0x03
  | 0x2C => minor ≤ 0x04
  | 0x30 => minor ≤ 0x04
  | _ => false

/-- R62: the word's opcode is reserved. The all-zero word has the reserved major 0x00. -/
def opcodeReserved (w : Word) : Bool :=
  !(opcodeListed (w.extractLsb' 58 6).toNat (w.extractLsb' 48 6).toNat)

/-- How an instruction's predicate condition gates it (R59): as a whole by bit 0, as a whole by
the bit of one lane, or lane by lane. -/
inductive Gate where
  | bit (n : Nat)
  | lanes
  deriving DecidableEq, Repr

/-- What issuing one instruction needs to know of it: its word, whether R62 makes it illegal, its
predicate, the registers whose pending writes it waits for (R56), and whether it rounds under SR. -/
structure Insn where
  word : Word
  illegal : Bool
  psel : BitVec 3
  pneg : BitVec 1
  gate : Gate
  useS : List (BitVec 5)
  useV : List (BitVec 4)
  useP : List (BitVec 3)
  useT : Option (BitVec 3)
  sr : Bool
  deriving DecidableEq, Repr

/-- A register field that the instruction does not use must be zero (R62). -/
def fieldOk {w : Nat} (used : Bool) (x : BitVec w) : Bool := used || x == 0

/-- The list of a used register. -/
def useIf {w : Nat} (used : Bool) (x : BitVec w) : List (BitVec w) := if used then [x] else []

/-- A format R instruction using the flagged register fields; `rdP`: rd names a predicate. -/
def insnR (major minor : BitVec 6) (rd ra rb rc rdP : Bool) (f : RForm) : Insn :=
  { word := wordR major minor f
    illegal := !(fieldOk rd f.rd && fieldOk ra f.ra && fieldOk rb f.rb && fieldOk rc f.rc &&
      f.rsv == 0 && (!rdP || f.rd.extractLsb' 3 2 == 0))
    psel := f.psel, pneg := f.pneg, gate := .bit 0
    useS := useIf (rd && !rdP) f.rd ++ useIf ra f.ra ++ useIf rb f.rb ++ useIf rc f.rc
    useV := [], useP := useIf rdP (f.rd.setWidth 3), useT := none, sr := false }

/-- What the rd field of a format I instruction names. -/
inductive RdKind where
  | none | scalar | vector | predicate
  deriving DecidableEq, Repr

/-- A format I instruction. -/
def insnI (major minor : BitVec 6) (k : RdKind) (ra : Bool) (f : IForm) : Insn :=
  { word := wordI major minor f
    illegal := !(fieldOk (k != .none) f.rd && fieldOk ra f.ra && f.rsv == 0 &&
      (k != .vector || f.rd.extractLsb' 4 1 == 0) &&
      (k != .predicate || f.rd.extractLsb' 3 2 == 0))
    psel := f.psel, pneg := f.pneg, gate := .bit 0
    useS := useIf (k == .scalar) f.rd ++ useIf ra f.ra
    useV := useIf (k == .vector) (f.rd.setWidth 4)
    useP := useIf (k == .predicate) (f.rd.setWidth 3), useT := none, sr := false }

/-- A format W instruction. -/
def insnW (major minor : BitVec 6) (f : WForm) : Insn :=
  { word := wordW major minor f, illegal := false
    psel := f.psel, pneg := f.pneg, gate := .bit 0
    useS := [f.rd], useV := [], useP := [], useT := none, sr := false }

/-- A format B instruction. -/
def insnB (major minor : BitVec 6) (ra rb : Bool) (f : BForm) : Insn :=
  { word := wordB major minor f
    illegal := !(fieldOk ra f.ra && fieldOk rb f.rb)
    psel := f.psel, pneg := f.pneg, gate := .bit 0
    useS := useIf ra f.ra ++ useIf rb f.rb, useV := [], useP := [], useT := none, sr := false }

/-- Which register fields a format V instruction uses. -/
structure VUse where
  vd : Bool := false
  va : Bool := false
  vb : Bool := false
  vc : Bool := false
  rs : Bool := false
  pd : Bool := false
  deriving DecidableEq, Repr

/-- Registers named by `v` and, for an FP32 pair, the one above it. -/
def pairV (two : Bool) (v : BitVec 4) : List (BitVec 4) := if two then [v, v + 1] else [v]

/-- A format V instruction: `fmts` and `fmts2` are the formats it accepts in fmt and fmt2 (R69; an
empty `fmts2` means fmt2 must hold 0x0), `more` any further cause of illegality in R62. -/
def insnV (major minor : BitVec 6) (u : VUse) (fmts fmts2 : List Fmt) (gate : Gate)
    (more : Bool) (pairA pairD : Bool) (f : VForm) : Insn :=
  { word := wordV major minor f
    illegal :=
      !(fieldOk u.vd f.vd && fieldOk u.va f.va && fieldOk u.vb f.vb && fieldOk u.vc f.vc &&
        fieldOk u.rs f.rs && fieldOk u.pd f.pd &&
        (match fmtOfCode f.fmt with | none => false | some x => fmts.contains x) &&
        (if fmts2.isEmpty then f.fmt2 == 0
          else match fmtOfCode f.fmt2 with | none => false | some x => fmts2.contains x) &&
        f.rnd != 3) || more
    psel := f.psel, pneg := f.pneg, gate := gate
    useS := useIf u.rs f.rs
    useV := (if u.vd then pairV pairD f.vd else []) ++ (if u.va then pairV pairA f.va else []) ++
      useIf u.vb f.vb ++ useIf u.vc f.vc
    useP := useIf u.pd f.pd, useT := none, sr := f.rnd == 2 }

/-- A format P instruction. -/
def insnP (minor : BitVec 6) (pd pa pb rd ra : Bool) (f : PForm) : Insn :=
  { word := wordP 0x1C minor f
    illegal := !(fieldOk pd f.pd && fieldOk pa f.pa && fieldOk pb f.pb && fieldOk rd f.rd &&
      fieldOk ra f.ra && f.rsv == 0)
    psel := f.psel, pneg := f.pneg, gate := .bit 0
    useS := useIf rd f.rd ++ useIf ra f.ra, useV := []
    useP := useIf pd f.pd ++ useIf pa f.pa ++ useIf pb f.pb, useT := none, sr := false }

/-- A format T instruction: `legal` is the instruction's own condition on its fields. -/
def insnT (major minor : BitVec 6) (legal sa sb sm : Bool) (f : TForm) : Insn :=
  { word := wordT major minor f
    illegal := !(legal && fieldOk sa f.sa && fieldOk sb f.sb && fieldOk sm f.sm &&
      f.rsv == 0 && f.rnd != 3)
    psel := f.psel, pneg := f.pneg, gate := .bit 0
    useS := useIf sa f.sa ++ useIf sb f.sb ++ useIf sm f.sm
    useV := [], useP := [], useT := some f.ta, sr := f.rnd == 2 }

/-- A format S instruction; `spin`: imm20 is a spin limit, which must not be zero (R62). -/
def insnS (major minor : BitVec 6) (rd ra rb spin : Bool) (f : SForm) : Insn :=
  { word := wordS major minor f
    illegal := !(fieldOk rd f.rd && fieldOk ra f.ra && fieldOk rb f.rb && f.rsv == 0 &&
      (!spin || f.imm != 0))
    psel := f.psel, pneg := f.pneg, gate := .bit 0
    useS := useIf rd f.rd ++ useIf ra f.ra ++ useIf rb f.rb
    useV := [], useP := [], useT := none, sr := false }

/-- A format N instruction; `len`: the length must be 1 to 32 (R62). -/
def insnN (minor : BitVec 6) (rd rc vs len : Bool) (f : NForm) : Insn :=
  { word := wordN 0x2C minor f
    illegal := !(fieldOk rd f.rd && fieldOk rc f.rc && fieldOk vs f.vs && f.rsv == 0 &&
      (!len || (f.len != 0 && decide (f.len.toNat ≤ 32))))
    psel := f.psel, pneg := f.pneg, gate := .bit 0
    useS := useIf rd f.rd ++ [f.ra, f.rb] ++ useIf rc f.rc
    useV := useIf vs f.vs, useP := [], useT := none, sr := false }

/-! Lanes of a vector register (R69). -/

/-- Bits of lane `i` of width `w`, as a number. -/
def lane (w : Nat) (v : Vec) (i : Nat) : Nat := (v.extractLsb' (w * i) w).toNat

/-- The register whose lane `i` of width `w`, for `i < n`, is `g i`; bits above are zero. -/
def vecOfLanes (w : Nat) : Nat → (Nat → Nat) → Vec
  | 0, _ => 0
  | n + 1, g => vecOfLanes w n g ||| BitVec.ofNat 512 (g n % 2 ^ w * 2 ^ (w * n))

/-- Lane-wise update: lane `i` becomes `g i` where `act i`, and keeps `old`'s elsewhere. -/
def lanesWhere (f : Fmt) (old : Vec) (act : Nat → Bool) (g : Nat → Nat) : Vec :=
  vecOfLanes (fmtWidth f) (fmtLanes f)
    fun i => if act i then g i else lane (fmtWidth f) old i

/-- Byte `i` of a vector register. -/
def vecByte (v : Vec) (i : Nat) : Byte := v.extractLsb' (8 * i) 8

/-- A vector register from its bytes, byte 0 first. -/
def vecOfBytes (bs : List Byte) : Vec :=
  vecOfLanes 8 64 fun i => (bs.getD i 0).toNat

/-- The little-endian value of a list of bytes. -/
def leNat : List Byte → Nat
  | [] => 0
  | b :: bs => b.toNat + 256 * leNat bs

/-- The big-endian value of a list of bytes. -/
def beNat (bs : List Byte) : Nat := leNat bs.reverse

/-- `n` little-endian bytes of a value (R3). -/
def leBytes : Nat → Nat → List Byte
  | 0, _ => []
  | n + 1, v => BitVec.ofNat 8 v :: leBytes n (v / 256)

/-- `n` big-endian bytes of a value (R3). -/
def beBytes (n v : Nat) : List Byte := (leBytes n v).reverse

/-- Element `i` of a packed field of `w`-bit elements (R35). -/
def packedElem (w : Nat) (bs : List Byte) (i : Nat) : Nat :=
  leNat ((bs.drop (w * i / 8)).take 3) / 2 ^ (w * i % 8) % 2 ^ w

/-- The value of packed `w`-bit elements, element 0 lowest (R35). -/
def packElems (w : Nat) : List Nat → Nat
  | [] => 0
  | x :: xs => x % 2 ^ w + 2 ^ w * packElems w xs

/-- Bit `i` of a predicate. -/
def predBit (p : Word) (i : Nat) : Bool := p.getLsbD i

/-- A 64-bit word from its bits. -/
def wordOfBits (n : Nat) (g : Nat → Bool) : Word :=
  (List.range n).foldl (fun acc i => if g i then acc ||| (1#64 <<< i) else acc) 0

end Sys2Proof.Machine
end

