-- ==== Sys2Proof/Machine/StateEngine.lean ====
section
/-! DEFINITION. State of the engines, the movers, translation, sync objects, rings, faults and
error records (chapters 03 to 07, 14, 16, 19): plain data. -/

namespace Sys2Proof.Machine

/-- Thread context states (R55). -/
inductive ThreadState where
  | free | ready | wait | spin | parked | ending | halted
  deriving DecidableEq, Repr

/-- Exception causes (R82), without the translation fault, which parks the thread. -/
inductive Cause where
  | illegal | pcrange | align | lbounds | canon | tacc | notsync | format | poison | net
  | context | trap | brk
  deriving DecidableEq, Repr

/-- What an outstanding operation of a thread is (R54, R56, R85). -/
inductive OpKind where
  | load | vload | store | vstore | mvpost
  | sig | sread | wait | take
  | put | get | atomAdd | atomCas | sigR
  | tensor | tileLoad | tileStore
  deriving DecidableEq, Repr

/-- Where an outstanding operation stands: waiting for a page walk, in flight to its target, or
answered. -/
inductive OpPhase where
  | walk | flight
  deriving DecidableEq, Repr

/-- A failure found at an operation's target that has not yet stopped the thread (R81). -/
structure OpFail where
  cause : Cause
  status : BitVec 8
  addr : Word
  deriving DecidableEq, Repr

/-- The transport's answer to a net instruction: its status and the bytes it brought (R77, R78). -/
structure NetAnswer where
  status : BitVec 8
  bytes : List Byte
  deriving DecidableEq, Repr

/-- An operation a thread has issued and that has not completed (R54, R56). `dst` is the number of
the destination register its kind writes, `x` and `y` its scalar operands, `acc` the accumulator
name it uses, `data` the bytes it stores, or the operand bytes that a multiply found as it issued
(R109). -/
structure Op where
  id : Nat
  kind : OpKind
  phase : OpPhase
  pc : BitVec 57
  word : Word
  va : Word
  pa : Nat
  size : Nat
  sext : Bool
  dst : Nat
  acc : Option Nat
  x : Word
  y : Word
  data : List Byte
  fail : Option OpFail
  answer : Option NetAnswer
  deriving DecidableEq, Repr

/-- A retrying `wait.ge` or `take` (R143, R144): at engine cycle `since`, `left` cycles of its limit
were unused (R75, R86); `stale` says that its translation has been invalidated (R120). -/
structure Spin where
  take : Bool
  va : Word
  pa : Nat
  target : Word
  dst : BitVec 5
  left : Nat
  since : Nat
  stale : Bool
  pc : BitVec 57
  word : Word
  deriving DecidableEq, Repr

/-- Fence scopes (R76). -/
inductive FenceScope where
  | core | die | package | net
  deriving DecidableEq, Repr

/-- One thread context of one engine (R55, R57). `fid` names the fault a PARKED thread waits on;
`netFail` is the first failure of a put or sig.r no `fence.n` has reported (R76); `halting` says that
the thread halts for debug once its operations in flight have delivered (R86); `debug` that it is
debug-halted and `stepping` that a STEP of it is in progress (R88); `faulted` that the fault it waits
on failed while its group was saved (R354). -/
structure Thread where
  state : ThreadState
  group : Nat
  grid : Nat
  lane : Nat
  pc : BitVec 57
  s : Table Word
  v : Table Vec
  p : Table Word
  srCount : BitVec 32
  ops : List Op
  nextOp : Nat
  spin : Option Spin
  fence : Option (FenceScope × BitVec 5)
  netFail : Option (BitVec 8)
  faulted : Bool
  debug : Bool
  stepping : Bool
  halting : Bool
  cause : Option Cause
  deriving DecidableEq, Repr

/-- A context with no thread loaded. -/
def Thread.free : Thread :=
  { state := .free, group := 0, grid := 0, lane := 0, pc := 0, s := [], v := [], p := []
    srCount := 0, ops := [], nextOp := 0, spin := none, fence := none, netFail := none
    faulted := false, debug := false, stepping := false, halting := false, cause := none }

/-- A group resident on an engine (R51, R52, R98). `threads` are its thread numbers in lane order;
`accs` the physical accumulators that ta0, ta1, … name, `owners` the lane that owns each. -/
structure Group where
  grid : Nat
  index : Nat
  engine : Nat
  threads : List Nat
  winBase : Nat
  winSize : Nat
  accs : List Nat
  owners : List (Option Nat)
  deriving DecidableEq, Repr

/-- A group key that names no group. -/
def Group.none : Group :=
  { grid := 0, index := 0, engine := 0, threads := [], winBase := 0, winSize := 0, accs := []
    owners := [] }

/-- State of the check bits of an 8-byte word (R134, R135): good, a single-bit error not yet
found, an uncorrectable error not yet found, or poison. -/
inductive WordCheck where
  | good | single | uncorrectable | poison
  deriving DecidableEq, Repr

/-- A group that pre-emption has saved (R378, R400): its threads in lane order, the bytes of its
window and the check states of its words, the words of its accumulators by row and column, and the
address of its record in the pre-emption area (0 for a group that has none). -/
structure SavedGroup where
  group : Group
  threads : List Thread
  window : List Byte
  checks : List WordCheck
  accs : List (Table (BitVec 32))
  slot : Nat
  deriving DecidableEq, Repr

/-- The recorded exception of a grid (R83, R84). -/
structure ExcRec where
  pc : BitVec 57
  insn : Word
  tid : Nat
  addr : Word
  cause : Cause
  status : BitVec 8
  engine : Nat
  deriving DecidableEq, Repr

/-- States of a grid: held for admission, running, pre-empted, being stopped, or gone (R23, R54,
R83, R400). -/
inductive GridState where
  | gone | held | running | preempted | stopping
  deriving DecidableEq, Repr

/-- A grid: the LAUNCH entry's fields (R90) and what the scheduler keeps of it (R393 to R400):
`order` is when it became a candidate, `skipped` the consecutive boundaries that passed it over,
`shares` its reservation by die, `charge` and `demand` its energy this window and the largest
demand seen (in 1/8192 pJ). `saved` holds groups saved by pre-emption, and `image` the program image
once it has been copied (R60). -/
structure Grid where
  state : GridState
  ring : Nat
  index : BitVec 32
  noCqe : Bool
  cookie : Word
  part : Nat
  ctx : BitVec 20
  excMode : Bool
  debug : Bool
  fabric : Bool
  prog : Word
  param : Word
  seed : Word
  excrec : Word
  gx : Nat
  gy : Nat
  gz : Nat
  tpg : Nat
  nacc : Nat
  lsz : Nat
  psz : Nat
  energy : Nat
  dies : BitVec 4
  placed : BitVec 4
  nextGroup : Nat
  doneGroups : Nat
  exc : Option ExcRec
  more : Nat
  abort : Option (BitVec 8)
  order : Nat
  skipped : Nat
  estimate : Nat
  shares : List (Nat × Nat)
  fullWindow : Bool
  charge : Nat
  demand : Nat
  paced : Bool
  pacedAt : Nat
  saved : List SavedGroup
  image : Option (List Word)
  deriving DecidableEq, Repr

/-- A grid number that names no grid. -/
def Grid.none : Grid :=
  { state := .gone, ring := 0, index := 0, noCqe := false, cookie := 0, part := 0, ctx := 0
    excMode := false, debug := false, fabric := false, prog := 0, param := 0, seed := 0
    excrec := 0, gx := 0, gy := 0, gz := 0, tpg := 0, nacc := 0, lsz := 0, psz := 0, energy := 0
    dies := 0, placed := 0, nextGroup := 0, doneGroups := 0, exc := Option.none, more := 0
    abort := Option.none, order := 0, skipped := 0, estimate := 0, shares := [], fullWindow := false
    charge := 0, demand := 0, paced := false, pacedAt := 0, saved := [], image := Option.none }

/-- A program image held in a core's instruction store (R60). -/
structure Image where
  part : Nat
  ctx : BitVec 20
  prog : Word
  words : List Word
  deriving DecidableEq, Repr

/-- An error that has been detected and whose record follows later (R452, R456): its number, when it
was detected, and the number and partition of the error that its unit instance was then handling. -/
structure Detected where
  seq : Nat
  time : Nat
  earlier : Option (Nat × Option Nat)
  deriving DecidableEq, Repr

/-- A mover descriptor in a core's queue (R68, R130, R132). `done` counts the bytes moved; `stalled`
says that it waits on a fault, `poisoned` that a poisoned word was read, `remote` that the transport
carries it, `statBad` that its status word cannot be written, `statDone` that it has been, `syncBad`
that its sync object cannot be reached; `result` is its status once it has stopped. -/
structure MoverDesc where
  id : Nat
  thread : Nat
  grid : Nat
  part : Nat
  ctx : BitVec 20
  engine : Nat
  winBase : Nat
  winSize : Nat
  bytes : List Byte
  running : Bool
  done : Nat
  stalled : Bool
  poisoned : Bool
  remote : Bool
  statBad : Bool
  statDone : Bool
  syncBad : Bool
  result : Option (BitVec 8)
  err : Option Detected
  errAddr : Nat
  deriving DecidableEq, Repr

/-- The mover of one core. -/
structure Mover where
  queue : List MoverDesc
  nextId : Nat
  deriving DecidableEq, Repr

/-- A mover with an empty queue. -/
def Mover.empty : Mover := { queue := [], nextId := 0 }

/-- Page sizes of translation (R115). -/
inductive PageSize where
  | k4 | k64 | m2 | g1
  deriving DecidableEq, Repr

/-- An entry of a translation cache (R119): one per cluster router, unit 68 for the fabric die's
own units. -/
structure TlbEntry where
  unit : Nat
  part : Nat
  ctx : BitVec 20
  page : Nat
  size : PageSize
  frame : Nat
  rd : Bool
  wr : Bool
  deriving DecidableEq, Repr

/-- Scope of an invalidation (R120). -/
inductive InvScope where
  | page | ctx | part | owner
  deriving DecidableEq, Repr

/-- An invalidation in progress: who asked (0 PF0, n VFn, 65 an ATS request), what it covers, and the
cached entries that it has dropped (R120, R350). -/
structure Invalidation where
  who : Nat
  scope : InvScope
  part : Nat
  ctx : BitVec 20
  va : Word
  size : PageSize
  dropped : List TlbEntry
  deriving DecidableEq, Repr

/-- Causes of a translation that cannot complete (R118). -/
inductive XlateCause where
  | notPresent | rights | owner | target | ctx | walk
  deriving DecidableEq, Repr

/-- An agent that waits on a fault (R351, R354). -/
inductive FaultAgent where
  | thread (t : Nat)
  | mover (core : Nat) (id : Nat)
  | work (part : Nat) (qpn : Nat)
  deriving DecidableEq, Repr

/-- A translation fault of a partition (R352): with an id once it has one. `joined` lists agents
that joined, each with its own time of arising. -/
structure FaultRec where
  fid : Option Nat
  ctx : BitVec 20
  key : Nat
  va : Word
  cause : XlateCause
  write : Bool
  agent : Nat
  ulog2 : Nat
  time : Nat
  joined : Bool
  waiters : List FaultAgent
  deriving DecidableEq, Repr

/-- The faults of one partition and its FAULT_POSTED pacing (R352, R353): the rate interval runs since
`since`. -/
structure FaultTable where
  faults : List FaultRec
  holdoff : Bool
  since : Nat
  withheld : Bool
  deriving DecidableEq, Repr

/-- No faults. -/
def FaultTable.empty : FaultTable := { faults := [], holdoff := false, since := 0, withheld := false }

/-- States of a sync object (R139). -/
inductive SyncState where
  | free | live | frozen | revoked
  deriving DecidableEq, Repr

/-- A sync object: count and attribute word (R139). -/
structure SyncObj where
  count : Word
  state : SyncState
  anyCtx : Bool
  shSig : Bool
  shWait : Bool
  shPart : BitVec 7
  part : BitVec 7
  ctx : BitVec 20
  badCount : WordCheck
  badAttr : WordCheck
  deriving DecidableEq, Repr

/-- An object at reset: FREE, count 0. -/
def SyncObj.free : SyncObj :=
  { count := 0, state := .free, anyCtx := false, shSig := false, shWait := false, shPart := 0
    part := 0, ctx := 0, badCount := .good, badAttr := .good }

/-- Ring states (R170). -/
inductive RingState where
  | idle | run | stopping | stopped | error
  deriving DecidableEq, Repr

/-- An entry taken in from a consumed ring: its index, its base slot and its extension slots
(R174), whether and since when it waits at a gate (R218), and its place among what has been taken in
(R397). -/
structure RingEntry where
  index : BitVec 32
  bytes : List Byte
  gated : Bool
  gateAt : Nat
  order : Nat
  deriving DecidableEq, Repr

/-- A completion on its way to a CQ: the ring it belongs to, whether it counts as a completion of
that ring, the 32 bytes of the entry without its owner mark, and whether an entry is written (R164,
R165, R216). -/
structure CqItem where
  ring : Nat
  counts : Bool
  bytes : List Byte
  write : Bool
  deriving DecidableEq, Repr

/-- A ring (R156 to R176): the fields of its register block, what the ring manager holds of it,
and for a produced ring its overflow. `shift` is the model's own: what RING_RESIZE has taken from the
indices, so that the entries it holds keep numbers of their own. -/
structure Ring where
  typ : Nat
  state : RingState
  part : Nat
  ctx : BitVec 20
  base : Word
  log2sz : Nat
  hrK : Nat
  visible : Bool
  pollK : Nat
  cont : Bool
  emptyN : Nat
  capK : Nat
  curK : Nat
  emptyRun : Nat
  pollsOut : Nat
  bindEn : Bool
  target : Nat
  sync : Word
  rpt : Word
  prod : BitVec 32
  cons : BitVec 32
  ccnt : Word
  malf : Nat
  ovfev : Nat
  lastSt : BitVec 8
  prefetch : List (Nat × List Byte)
  taken : List RingEntry
  started : List RingEntry
  reported : BitVec 32
  overflow : List CqItem
  unitHeld : List CqItem
  fetchStopped : Bool
  held : Bool
  seq : BitVec 32
  lost : Nat
  firstLost : BitVec 32
  resize : Option (Nat × Word × Nat × BitVec 32)
  stopBy : Option (Nat × BitVec 32)
  group : Option Nat
  shift : BitVec 32
  deriving DecidableEq, Repr

/-- A ring that is not set up: IDLE, every field at its reset value (R170). -/
def Ring.idle : Ring :=
  { typ := 0, state := .idle, part := 0, ctx := 0, base := 0, log2sz := 0, hrK := 0
    visible := false, pollK := 0, cont := false, emptyN := 0, capK := 0, curK := 0
    emptyRun := 0, pollsOut := 0, bindEn := false, target := 0, sync := 0, rpt := 0, prod := 0
    cons := 0, ccnt := 0, malf := 0, ovfev := 0, lastSt := 0, prefetch := [], taken := []
    started := [], reported := 0, overflow := [], unitHeld := [], fetchStopped := false
    held := false, seq := 0, lost := 0, firstLost := 0, resize := none, stopBy := none
    group := none, shift := 0 }

/-- An event the management processor has yet to post (R15, R455): the EQ's ring id, code, source,
data0 and data1. -/
structure Event where
  eq : Nat
  code : Nat
  source : Nat
  data0 : Word
  data1 : Word
  deriving DecidableEq, Repr

/-- An error record (R452). -/
structure ErrRec where
  seq : Nat
  time : Nat
  cls : Nat
  unit : Nat
  inst : Nat
  code : Nat
  part : Option Nat
  status : BitVec 8
  addr : Nat
  isVa : Bool
  ctx : BitVec 20
  count : Nat
  escalated : Bool
  fenced : Bool
  data0 : Word
  data1 : Word
  deriving DecidableEq, Repr

/-- Folding of corrected errors of one unit instance and code (R453). -/
structure CorrFold where
  unit : Nat
  inst : Nat
  code : Nat
  last : Nat
  folded : Nat
  deriving DecidableEq, Repr

/-- A unit instance that is handling an error, since a fabric cycle (R456). -/
structure Handling where
  unit : Nat
  inst : Nat
  seq : Nat
  part : Option Nat
  since : Nat
  deriving DecidableEq, Repr

/-- The error unit (R450 to R462). `queue` holds the records by free-running index; `fences` the
partition fences under way: the seq of the escalating record, when it started, and whether the
partition was FROZEN. -/
structure ErrUnit where
  seq : Nat
  head : BitVec 32
  tail : BitVec 32
  queue : Table ErrRec
  dropped : Nat
  firstDropped : Nat
  folds : List CorrFold
  handling : List Handling
  firstFatal : Option ErrRec
  glFatal : Option ErrRec
  fatal : Bool
  fences : List (Nat × Nat × Nat × Bool)
  deriving DecidableEq, Repr

/-- The error unit at power-up. -/
def ErrUnit.reset : ErrUnit :=
  { seq := 0, head := 0, tail := 0, queue := [], dropped := 0, firstDropped := 0, folds := []
    handling := [], firstFatal := none, glFatal := none, fatal := false, fences := [] }

end Sys2Proof.Machine
end

