-- ==== Sys2Proof/Machine/StateMgmt.lean ====
section
/-! DEFINITION. State of partitions, host attachment, power, boot, ports' neighbours on the board
and the management side (chapters 14 to 20): plain data. -/

namespace Sys2Proof.Machine

/-- Partition states (R369). -/
inductive PartState where
  | idle | run | preempted | freezing | frozen | resetting
  deriving DecidableEq, Repr

/-- A partition (R367, R369, R370): its state, quotas, energy budget and weight. `draining` says that it
is to be pre-empted once its threads' operations in flight have delivered (R86, R378). -/
structure Partition where
  state : PartState
  ringQ : Nat
  qpQ : Nat
  keyQ : Nat
  syncQ : Nat
  energy : Nat
  weight : Nat
  nextEnergy : Nat
  quiesced : Bool
  draining : Bool
  savedGroups : List Nat
  deriving DecidableEq, Repr

/-- A partition at reset: IDLE, no quota, weight 1 (R389). -/
def Partition.idle : Partition :=
  { state := .idle, ringQ := 0, qpQ := 0, keyQ := 0, syncQ := 0, energy := 0, weight := 1
    nextEnergy := 0, quiesced := false, draining := false, savedGroups := [] }

/-- Power states (R401). -/
inductive PowerState where
  | full | trim | doze | standby | off
  deriving DecidableEq, Repr

/-- An entry of the correction table (R399): ratio in 1/64. The most recently used comes first. -/
structure Correction where
  part : Nat
  prog : Word
  ratio : Nat
  deriving DecidableEq, Repr

/-- The ledger and the power scheduler (R390 to R402). Charges are in 1/8192 pJ. `levels` are the
throttle levels in force by die, `temps` the temperatures Gill sent at the last boundary; `target`
is the state of a transition under way, `wanted` a request written during it; `moving` are the cores
that a CORES_REMOVE in progress waits for (R372, R389); `calNext` is when F may change again (R392). -/
structure Sched where
  window : Nat
  windowStart : Nat
  dieCharge : Table Nat
  dieLast : Table Nat
  partCharge : Table Nat
  partLast : Table Nat
  coreCharge : Table Nat
  coreLast : Table Nat
  partPaced : List Nat
  moduleLast : Nat
  calF : Nat
  corrections : List Correction
  nextOrder : Nat
  levels : Table Nat
  temps : Table Int
  silent : Bool
  power : PowerState
  target : Option PowerState
  wanted : Option PowerState
  dozePre : List Nat
  gated : Bool
  selfRefresh : Bool
  budget : Table Nat
  moduleBudget : Nat
  moving : List Nat
  calNext : Nat
  deriving DecidableEq, Repr

/-- The scheduler at reset (R392, R393, R411): F = 128, the default budgets, power state Full. -/
def Sched.reset : Sched :=
  { window := 0, windowStart := 0, dieCharge := [], dieLast := [], partCharge := []
    partLast := [], coreCharge := [], coreLast := [], partPaced := [], moduleLast := 0
    calF := 128, corrections := [], nextOrder := 0, levels := [], temps := [], silent := false
    power := .full, target := none, wanted := none, dozePre := [], gated := false
    selfRefresh := false, budget := [], moduleBudget := 26000, moving := []
    calNext := 0 }

/-- An analog channel of Gill (R404): filtered value, last sample, and the samples its filter keeps
(newest first). -/
structure GillChannel where
  value : Int
  raw : Int
  history : List Int
  deriving DecidableEq, Repr

/-- A channel that has taken no sample. -/
def GillChannel.reset : GillChannel := { value := 0, raw := 0, history := [] }

/-- A digital input of Gill (R405): its conditioned level (true: active), its flags, the times of
its accepted changes in the last millisecond, and when it took its level; the level of its pin; and
for CHATTER, when it began and when the pin has changed since. -/
structure GillInput where
  level : Bool
  chatter : Bool
  stuck : Bool
  times : List Nat
  since : Nat
  pin : Bool
  chatAt : Nat
  pinTimes : List Nat
  deriving DecidableEq, Repr

/-- An inactive input. -/
def GillInput.reset : GillInput :=
  { level := false, chatter := false, stuck := false, times := [], since := 0, pin := false
    chatAt := 0, pinTimes := [] }

/-- Gill (R404 to R411): `fired` marks the rules that have fired; `condAt` holds, for a rule whose
condition (or, once it has fired, reverse condition) holds, when that began, plus 1; `kept` the rule
events that wait for the next boot; `wake` that a boot waits for the tripping rule to release. -/
structure Gill where
  channels : Table GillChannel
  inputs : Table GillInput
  fired : Table Bool
  condAt : Table Nat
  lock : Bool
  tripped : Bool
  tripRule : Nat
  kept : List Event
  wake : Bool
  deriving DecidableEq, Repr

/-- Gill at power-up. -/
def Gill.reset : Gill :=
  { channels := [], inputs := [], fired := [], condAt := [], lock := false, tripped := false
    tripRule := 0, kept := [], wake := false }

end Sys2Proof.Machine
end

