-- ==== Sys2Proof/Machine/StateNet.lean ====
section
/-! DEFINITION. State of the transport, Firkin, memory keys, the integrity engine and the network
ports (chapters 08, 09, 12, 13): plain data. -/

namespace Sys2Proof.Machine

/-- Queue pair states (R195); `none` for a number that is no queue pair. -/
inductive QpState where
  | none | init | listen | connecting | rts | drain | error | frozen
  deriving DecidableEq, Repr

/-- Who started an operation on a queue pair (R208, R217); `none` once it has completed and only its
packets remain. -/
inductive WorkSrc where
  | none
  | sq (ring : Nat) (index : BitVec 32)
  | thread (t id : Nat)
  | mover (core id : Nat)
  | bushel (gid : Nat)
  | carder (ring : Nat) (index : BitVec 32)
  deriving DecidableEq, Repr

/-- An operation that a queue pair has accepted (R208 to R217): its wire opcode, its fields, the
first PSN once its first packet is sent, how many packets it takes and how many were sent, the
response packets a READ has received, and whether it waits on a local fault. `data` holds inline
bytes and operands, which are never reread (R233); `desc` the descriptor whose source a failed
operation's packets are still reread from. -/
structure SendOp where
  src : WorkSrc
  op : Nat
  rkey : Nat
  roff : Nat
  laddr : Nat
  len : Nat
  imm : Nat
  ctx : BitVec 20
  data : Option (List Byte)
  msn : Nat
  first : Option (BitVec 32)
  npsn : Nat
  sent : Nat
  got : List Nat
  result : Word
  stalled : Bool
  rfence : Bool
  desc : Option MoverDesc
  deriving DecidableEq, Repr

/-- A refused run of PSNs (R227). -/
structure RefusedRun where
  first : BitVec 32
  count : Nat
  status : BitVec 8
  deriving DecidableEq, Repr

/-- A read that the responder has accepted (R224, R237): where its bytes lie. -/
structure ReadRec where
  first : BitVec 32
  count : Nat
  ctx : BitVec 20
  va : Nat
  len : Nat
  deriving DecidableEq, Repr

/-- An atomic response kept for duplicates (R226). -/
structure AtomicRec where
  psn : BitVec 32
  status : BitVec 8
  prior : Word
  deriving DecidableEq, Repr

/-- A receive completion that waits for earlier PSNs (R212, R216): the PSN of its LAST packet, its
kind (1 SEND, 2 WRITE_IMM), cookie, the offset where its bytes stop, the immediate and the time. -/
structure RecvDone where
  psn : BitVec 32
  kind : Nat
  cookie : Nat
  stop : Nat
  imm : BitVec 32
  ts : Nat
  deriving DecidableEq, Repr

/-- What the transport tells Bushel and Carder: a queue pair has entered ERROR, or one of their
packets was refused with a status (R26, R268, R283); of a packet, its opcode, the words of its opcode
area and its payload's length. -/
inductive NetEvent where
  | down (qp : Nat)
  | refused (src : WorkSrc) (qp : Nat) (status : BitVec 8) (op key off len : Nat)
  deriving DecidableEq, Repr

/-- A queue pair's context (R194 to R246). `saved` is the state a freeze found; `connTimer` the time
of the next resend of a connection or migration message, its interval and the sends so far. Sender:
`una`, `nxt`, the PSNs SACKed above `una`, the resends due, the resends made by PSN and when SACK
last caused one. Receiver: `rcvNxt`, the PSNs accepted above it, what is logged; `imms` the target
offsets of the FIRST packets of WRITE_IMM messages, by PSN. `taken`: taken over and not yet settled
(R427). `rnrs` counts the RNRs in a row of each PSN (R236); `wireAt` is the first time at which the
next packet of the queue pair may start on the wire (R243). Of a FROZEN queue pair the timers hold what
has passed, or is left, of their times (R246). -/
structure Qp where
  state : QpState
  saved : QpState
  sq : Nat
  rcq : Nat
  rbase : Nat
  rlog2n : Nat
  rlog2sz : Nat
  ctx : BitVec 20
  rrpt : Nat
  port : Nat
  tc : Nat
  mtu : Nat
  raddr : BitVec 128
  laddr : BitVec 128
  nhmac : BitVec 48
  rqpn : Nat
  vmask : BitVec 8
  mode : BitVec 2
  tagReq : Bool
  tag : Bool
  window : Nat
  retry : Nat
  ikey : Nat
  version : Nat
  connid : Word
  ipsn : BitVec 32
  ripsn : BitVec 32
  sport : BitVec 16
  passive : Bool
  repSent : Bool
  connTimer : Option (Nat × Nat × Nat)
  mseq : BitVec 32
  mseqIn : BitVec 32
  migrating : Bool
  drained : Bool
  una : BitVec 32
  nxt : BitVec 32
  sacked : List (BitVec 32)
  resend : List (BitVec 32)
  tries : List (BitVec 32 × Nat)
  sackSent : List (BitVec 32 × Nat)
  ops : List SendOp
  msn : Nat
  srtt : Option (Rat × Rat)
  backoff : Nat
  timer : Option Nat
  rnrUntil : Option Nat
  rnrCount : Nat
  rnrPsn : BitVec 32
  rnrs : List (BitVec 32 × Nat)
  rate : Nat
  roundEnd : Option (BitVec 32)
  roundMin : Option Nat
  nextSend : Nat
  wireAt : Nat
  lastTagged : Nat
  rcvNxt : BitVec 32
  accepted : List (BitVec 32)
  ackPending : Nat
  ackTimer : Option Nat
  holeAck : Option Nat
  refusals : List RefusedRun
  reads : List ReadRec
  atomics : List AtomicRec
  recvDone : List RecvDone
  imms : List (BitVec 32 × Nat)
  released : BitVec 32
  enable : Nat
  taken : Bool
  deriving DecidableEq, Repr

/-- A queue pair number that names none. -/
def Qp.none : Qp :=
  { state := .none, saved := .none, sq := 0, rcq := 0, rbase := 0, rlog2n := 0, rlog2sz := 0
    ctx := 0, rrpt := 0, port := 0, tc := 0, mtu := 4096, raddr := 0, laddr := 0, nhmac := 0
    rqpn := 0, vmask := 0, mode := 0, tagReq := false, tag := false, window := 0, retry := 0
    ikey := 0xFFFF, version := 0, connid := 0, ipsn := 0, ripsn := 0, sport := 0, passive := false
    repSent := false, connTimer := Option.none, mseq := 0, mseqIn := 0, migrating := false
    drained := false, una := 0, nxt := 0, sacked := [], resend := [], tries := [], sackSent := []
    ops := [], msn := 0, srtt := Option.none, backoff := 0, timer := Option.none
    rnrUntil := Option.none, rnrCount := 0, rnrPsn := 0, rnrs := [], rate := 0
    roundEnd := Option.none, roundMin := Option.none, nextSend := 0, wireAt := 0, lastTagged := 0, rcvNxt := 0, accepted := []
    ackPending := 0, ackTimer := Option.none, holeAck := Option.none, refusals := [], reads := []
    atomics := [], recvDone := [], imms := [], released := 0, enable := 0, taken := false }

/-- A memory key's table entry (R204 to R207); `gen` is the generation last issued, 0 for none. -/
structure KeyEntry where
  live : Bool
  gen : Nat
  ctx : BitVec 20
  base : Nat
  length : Nat
  rights : BitVec 4
  bound : Option Nat
  deriving DecidableEq, Repr

/-- A key index that was never registered. -/
def KeyEntry.none : KeyEntry :=
  { live := false, gen := 0, ctx := 0, base := 0, length := 0, rights := 0, bound := Option.none }

/-- A packet that has arrived, with the port counter as it came (R216). `bad`: its frame failed the FCS,
but Bushel has seen its bytes (R267, R296). -/
structure Arrival extends Packet where
  time : Nat
  bad : Bool
  deriving DecidableEq, Repr

/-- Firkin (R238 to R241): the contexts cached, most recently used first; pin counts; the contexts
wanted and being fetched, each with the port that asked (8: a sender on the device); and the packets
in the miss buffers, in arrival order. -/
structure Firkin where
  cached : List Nat
  pinned : List Nat
  wanted : List (Nat × Nat)
  fetching : List (Nat × Nat)
  missed : List (Nat × Arrival)
  deriving DecidableEq, Repr

/-- Firkin at reset. -/
def Firkin.reset : Firkin := { cached := [], pinned := [], wanted := [], fetching := [], missed := [] }

/-- A key of a slot: its length flag (true: AES-256) and its bytes (R327). -/
structure SlotKey where
  k256 : Bool
  bytes : List Byte
  deriving DecidableEq, Repr

/-- A slot of a key page (R323, R327, R328): staging buffers, keys, the transmit base of E, the
references (E, t) of both receive keys, when the previous key was kept, the failures since the last
event, when that event was, and whether the next failure posts at once. -/
structure KeySlot where
  stageTx : List Word
  stageRx : List Word
  k256 : Bool
  tx : Option SlotKey
  rx : Option SlotKey
  prev : Option SlotKey
  txUsed : Bool
  bound : Option Nat
  txBase : Option (BitVec 32)
  refRx : Option (BitVec 32 × BitVec 32)
  refPrev : Option (BitVec 32 × BitVec 32)
  prevAt : Nat
  fail : BitVec 32
  failSince : Nat
  lastEvent : Option Nat
  armed : Bool
  deriving DecidableEq, Repr

/-- An empty slot. -/
def KeySlot.empty : KeySlot :=
  { stageTx := [0, 0, 0, 0], stageRx := [0, 0, 0, 0], k256 := false, tx := none, rx := none
    prev := none, txUsed := false, bound := none, txBase := none, refRx := none, refPrev := none
    prevAt := 0, fail := 0, failSince := 0, lastEvent := none, armed := true }

/-- A transport packet on its way to the wire: the queue pair, the PTH with a ts of 0, which the port
fills as the frame leaves (R190), and the outer headers' fields (R188). -/
structure TxPkt where
  qp : Nat
  pth : List Byte
  payload : List Byte
  tagged : Bool
  dst : BitVec 128
  src : BitVec 128
  nhmac : BitVec 48
  sport : BitVec 16
  deriving DecidableEq, Repr

/-- What a frame in a transmit buffer holds: bytes from the destination MAC on, or a packet. -/
inductive TxBody where
  | raw (bytes : List Byte)
  | pkt (p : TxPkt)
  deriving DecidableEq, Repr

/-- A frame in a port's transmit buffer (R295, R305, R306): its class, whether it goes ahead of its
class's data (an answer) or of every frame of classes 0 to 5 (Bushel control), and its length with
FCS. `hold` is the twin sequence number whose acknowledgement it waits for: none while the command
that made it has not ended, 0 for no wait (R417). -/
structure TxFrame where
  hold : Option Nat
  cls : Nat
  ctl : Bool
  ahead : Bool
  size : Nat
  body : TxBody
  deriving DecidableEq, Repr

/-- A gate control entry (R307). -/
structure GclEntry where
  open7 : Bool
  excl : Bool
  interval : Nat
  deriving DecidableEq, Repr

/-- A network port (R290 to R319). `gclSwitch` is a pending switch: its time, or none while it waits
for SYNC_IN; `rawWin` the raw transmit window; `wire` the frame sent last; `waiting` the frames whose
sources wait for room in the buffer, in order (R295). -/
structure Port where
  link : Bool
  actMode : Nat
  lpiTx : Bool
  lpiRx : Bool
  txq : List TxFrame
  waiting : List TxFrame
  deficits : Table Nat
  busyUntil : Nat
  idleSince : Nat
  wakeAt : Option Nat
  rawGo : Bool
  rawWin : Table Byte
  delivered : Nat
  rel : Nat
  gclOper : List GclEntry
  gclCur : Nat
  gclEnd : Nat
  gclSwitch : Option (Option Nat)
  gclErr : Bool
  gclSwt : Nat
  syncArm : Bool
  syncValid : Bool
  syncCap : Nat
  neg : Bool
  tlvAt : Nat
  partnerTw : Nat
  lldpAt : Nat
  lldpDue : Bool
  txtw : Nat
  wire : List Byte
  deriving DecidableEq, Repr

/-- A port at reset: link down, no list in force (R290, R307, R318). -/
def Port.reset : Port :=
  { link := false, actMode := 0, lpiTx := false, lpiRx := false, txq := [], waiting := []
    deficits := []
    busyUntil := 0, idleSince := 0, wakeAt := none, rawGo := false, rawWin := [], delivered := 0
    rel := 0, gclOper := [], gclCur := 0, gclEnd := 0, gclSwitch := none, gclErr := false
    gclSwt := 0, syncArm := false, syncValid := false, syncCap := 0, neg := false, tlvAt := 0
    partnerTw := 0, lldpAt := 0, lldpDue := false, txtw := 4, wire := [] }

/-- States of the pair (R421). -/
inductive TwinState where
  | unpaired | syncing | paired | alone | survivor
  deriving DecidableEq, Repr

/-- A sequenced twin frame not yet acknowledged (R412, R414): its sequence number, its kind, its
payload (for DATA the partner address and length; the bytes are read from `pa` as it is sent), the
entries of the mirror ring it carries, and whether it has been sent. -/
structure TwinItem where
  seq : Nat
  kind : Nat
  payload : List Byte
  pa : Nat
  ppa : Nat
  len : Nat
  entries : Nat
  sent : Bool
  deriving DecidableEq, Repr

/-- A completion that waits for the partner (R417): the frame it waits for (none while its command
has not ended), the CQ that takes it if a binding is in force, and the completion. -/
structure HeldDone where
  hold : Option Nat
  cq : Option Nat
  item : CqItem
  deriving DecidableEq, Repr

/-- The twin unit (R412 to R430). `pairAq` and `unpairAq` are the AQ entry of a command under way
with the time it began; `tx` counts the frames sent; `ackIn` is the partner's last ack and `ackAt` when
it advanced; `rxNext` the sequence number expected; `reported` the last one reported and `reportAt`
when; `rxAt` when a valid frame last came; `hbAt` and `hbGill` when this side last sent an HB frame, on
the fabric clock and on Gill's; `hbLow` that this side holds TWIN_HB low, `hbSince` since when the wire
has been inactive; `fenced` that the ports stay stopped; `copyEnd` the last sequence number of the
initial copy; `mate` the partner's PAIR payload; `announces` the announcements left and `annAt` when
takeover began. -/
structure Twin where
  state : TwinState
  link : Bool
  stage : List Word
  k256 : Bool
  key : Option SlotKey
  used : Bool
  peer : Word
  epoch : BitVec 32
  rnd : BitVec 32
  tx : Nat
  txNext : Nat
  ackIn : Nat
  ackAt : Nat
  items : List TwinItem
  rxNext : Nat
  reported : Nat
  reportAt : Nat
  rxAt : Nat
  hbAt : Nat
  hbGill : Nat
  hbLow : Bool
  hbInactive : Bool
  hbSince : Nat
  fenced : Bool
  held : List HeldDone
  pairAq : Option (Nat × RingEntry × Nat)
  unpairAq : Option (Nat × RingEntry × Nat)
  mate : Option (List Byte)
  copyEnd : Nat
  announces : Nat
  annAt : Nat
  wire : List Byte
  deriving DecidableEq, Repr

/-- The twin unit at reset (R421, R430). -/
def Twin.reset : Twin :=
  { state := .unpaired, link := false, stage := [0, 0, 0, 0], k256 := false, key := none
    used := false, peer := 0, epoch := 0, rnd := 0, tx := 0, txNext := 0, ackIn := 0, ackAt := 0
    items := [], rxNext := 0, reported := 0, reportAt := 0, rxAt := 0, hbAt := 0, hbGill := 0, hbLow := false
    hbInactive := false, hbSince := 0, fenced := false, held := [], pairAq := none
    unpairAq := none, mate := none, copyEnd := 0, announces := 0, annAt := 0, wire := [] }

end Sys2Proof.Machine
end

