-- ==== Sys2Proof/Machine/StateUnits.lean ====
section
/-! DEFINITION. State of Bushel and Carder (chapters 10, 11): plain data. -/

namespace Sys2Proof.Machine

/-- Which chunk of an operation a packet carries (R262): axis 0 to 2, or 3 for the tree; its ring;
phase, step and index. -/
structure BshKey where
  axis : Nat
  plus : Bool
  phase : Nat
  step : Nat
  idx : Nat
  deriving DecidableEq, Repr

/-- A contribution received from a member below in the tree: its direction (0 to 5 for X-, X+, Y-,
Y+, Z-, Z+), the members it covers and its value (R259, R263). -/
structure BshUp where
  dir : Nat
  covered : Nat
  value : List Byte
  deriving DecidableEq, Repr

/-- A custom operator's thread (R257): its group, engine and window, the chunk, and where in the
member's data its output goes. -/
structure BshJob where
  group : Nat
  grid : Nat
  engine : Nat
  window : Nat
  key : BshKey
  off : Nat
  len : Nat
  deriving DecidableEq, Repr

/-- A running operation of a member (R251 to R269). `phase` is that of R262, 7 while QUIESCE drains,
8 when only its completion is left; `stage` counts the axes done; `data` is the member's current
slice in the wire format; `map` the bitmaps gathered; `expo` the reduction exponent; `staged` the
chunks received and not consumed, by direction and MTU of the queue pair; `taken` and `sent` the
chunks consumed and sent in this stage; `eaten` the bytes consumed since credit was last returned, by
direction; `taints` the ranges tainted, in bytes; `preAt` when the partition was found pre-empted and
`preStep` the step that ends first, `preMark` the phase and stage it belongs to; `oper` the custom
operator's slot and image as the operation started (R271). -/
structure BshRun where
  gen : Nat
  entry : RingEntry
  attempt : Nat
  phase : Nat
  stage : Nat
  data : List Byte
  map : List Byte
  expo : Int
  staged : List (BshKey × List Byte)
  taken : List BshKey
  sent : List BshKey
  eaten : Table Nat
  ups : List BshUp
  upSent : Bool
  result : Option (List Byte)
  jobs : List BshJob
  taints : List (Nat × Nat)
  tainted : Bool
  status : BitVec 8
  orank : Nat
  reason : Nat
  bytes : Nat
  lastRx : Nat
  preAt : Option Nat
  preStep : Nat
  preMark : Nat
  paused : Bool
  oper : Option (Word × List Word)
  deriving DecidableEq, Repr

/-- A member of a group (R248, R249). `credit` is what the neighbours have granted, by
8 * generation + direction; `early` the packets held for generations not started; `aborted` the
generations aborted before they started here, with reason and rank; `last` the dst and output format
of the last generation where it was a REDUCE_SCATTER. -/
structure BshGroup where
  part : Nat
  cmq : Nat
  rank : Nat
  nx : Nat
  ny : Nat
  nz : Nat
  stall : Nat
  qps : List (Option Nat)
  gen : Nat
  broken : Bool
  run : Option BshRun
  credit : Table Nat
  early : List (Nat × Packet)
  aborted : List (Nat × Nat × Nat)
  last : Option (Nat × Nat)
  deriving DecidableEq, Repr

/-- A group id that no member of this device serves. -/
def BshGroup.none : BshGroup :=
  { part := 0, cmq := 0, rank := 0, nx := 0, ny := 0, nz := 0, stall := 0, qps := [], gen := 0
    broken := false, run := Option.none, credit := [], early := [], aborted := []
    last := Option.none }

/-- An expert table entry (R273). -/
structure CrdExpert where
  cap : Nat
  erank : Nat
  group : Nat
  valid : Bool
  deriving DecidableEq, Repr

/-- A host table entry (R273). -/
structure CrdHost where
  base : Nat
  stride : Nat
  sync : Nat
  nbuf : Nat
  deriving DecidableEq, Repr

/-- A binding of an SQ to a Carder domain (R272, R273): tables are copied on die; `ranks` holds the
queue pair of each rank, 0 for this member's own. -/
structure CrdBind where
  sq : Nat
  part : Nat
  ctx : BitVec 20
  rank : Nat
  tagbase : Nat
  tagcnt : Nat
  tsz : Nat
  stall : Nat
  experts : List CrdExpert
  ranks : List Nat
  hosts : List CrdHost
  deriving DecidableEq, Repr

/-- A choice of a token (R277, R280). -/
structure CrdChoice where
  tok : Nat
  num : Nat
  expert : Nat
  pos : Nat
  assigned : Bool
  rerouted : Bool
  failed : Bool
  gate : BitVec 32
  deriving DecidableEq, Repr

/-- Done messages received, which take effect in PSN order (R282). -/
structure CrdDone where
  qp : Nat
  psn : BitVec 32
  rank : Nat
  last : Bool
  counts : List (Nat × Nat)
  deriving DecidableEq, Repr

/-- A sequence tag (R275). `ntok`, `topk` and `route` are its DISPATCH's tokens, experts per token and
route area. `disp` and `comb` are the running entries of this member, with what they
hold: the choices, the token bytes delivered, a status that stands before those of the tables, and
whether a choice or a return has failed. `dones`, `ranksDone` and `counts` (by 4096 * rank + expert)
are what has arrived for the experts hosted here, `counted` that the counts are written, `holds` that
the receive buffers are held; `got` the output bytes received, by expert, offset and length. -/
structure CrdTag where
  sq : Nat
  inUse : Bool
  ntok : Nat
  topk : Nat
  route : Nat
  disp : Option RingEntry
  comb : Option RingEntry
  choices : List CrdChoice
  bytes : Nat
  failSt : BitVec 8
  nak : Bool
  timeout : Bool
  dones : List CrdDone
  ranksDone : List Nat
  counts : Table Nat
  counted : Bool
  holds : Bool
  got : List (Nat × Nat × Nat)
  startedAt : Nat
  deriving DecidableEq, Repr

/-- A tag not in use. -/
def CrdTag.free : CrdTag :=
  { sq := 0, inUse := false, ntok := 0, topk := 0, route := 0, disp := none, comb := none, choices := [], bytes := 0, failSt := 0
    nak := false, timeout := false, dones := [], ranksDone := [], counts := [], counted := false
    holds := false, got := [], startedAt := 0 }

end Sys2Proof.Machine
end

