-- ==== Sys2Proof/Machine/StateBoard.lean ====
section
/-! DEFINITION. State of the host attachment, of DRDY, of the boot and its mailbox, and of the module's
supply and clocks (chapters 14, 18, 20): plain data. -/

namespace Sys2Proof.Machine

/-- What holds DRDY low as busy (R362): power-up and firmware download, ACTIVATE, PERST_N, PART_FREEZE
and the fatal state. -/
inductive BusyCause where
  | boot | activate | perst | freeze | fatal
  deriving DecidableEq, Repr

/-- Where DRDY stands (R362, R363): released; low for an attention pulse; released with 48 us to the
next pulse; low as busy; released with 10 us to the pulse after busy. -/
inductive DrdyState where
  | ready | pulse | holdoff | busy | after
  deriving DecidableEq, Repr

/-- DRDY: `since` is when it came to where it stands, in Gill cycles; `pending` that entries of PF0's EQ
are not yet signalled. -/
structure Drdy where
  state : DrdyState
  causes : List BusyCause
  since : Nat
  pending : Bool
  deriving DecidableEq, Repr

/-- Host attachment (R336 to R361): the mode in force, the level of PERST_N (true: low), when the link
went down and whether DOWNMS has passed since, accesses lost since then, words of the retained
region poisoned since the last record, and the number of VFs enabled. -/
structure HostAtt where
  proto : Nat
  width : Nat
  speed : Nat
  perst : Bool
  downAt : Option Nat
  timedOut : Bool
  lost : Nat
  retPoison : Nat
  vfs : Nat
  deriving DecidableEq, Repr

/-- MB_STAT.BOOTST but for FATAL, which the error unit holds, and ACTIVATING, which ends within its
command (R433). -/
inductive BootState where
  | rom | starting | service
  deriving DecidableEq, Repr

/-- Boot and mailbox (R431 to R448): `status` and `info` of the last command; `start` a START that waits
for the zero-fill (its source, and whether every component reports ready); `staged` the verified
manifest of the staged slot and `present` its blocks; `slotA` that slot A is the staged slot;
`active` the manifest of the active image; `retained` that of the image kept through Standby;
`gill` that the GILL component is loaded. The module EEPROM holds `floor`, `settings` and `boots`. -/
structure Boot where
  st : BootState
  status : BitVec 8
  info : Nat
  zeroFill : Bool
  start : Option (Bool × Bool)
  staged : Option (List Byte)
  present : List Nat
  slotA : Bool
  active : Option (List Byte)
  retained : Option (List Byte)
  gill : Bool
  floor : Nat
  settings : List Byte
  boots : Nat
  deriving DecidableEq, Repr

/-- Supply and clocks of the module (R467, R479): the over-voltage disconnect is open; REFCLK156
runs. -/
structure Supply where
  ovOpen : Bool
  refclk156 : Bool
  deriving DecidableEq, Repr

end Sys2Proof.Machine
end

