-- ==== Sys2Proof/Machine/State.lean ====
section
/-! DEFINITION. The state of the PG840 block, its faults and refusals, and the state after reset. -/

namespace Sys2Proof.Machine

/-- The state of the whole device. -/
structure State where
  /-- Commands waiting, first in, first out. -/
  pending : List Instr
  /-- Bytes by physical address (R111); an unlisted byte reads 0. -/
  mem : Table Byte
  /-- Check state of each 8-byte word, by address / 8 (R134, R135). -/
  checks : Table WordCheck
  /-- Registers that hold nothing but what was written or counted, by function * 2^26 + offset. -/
  regs : Table Word
  /-- Answer of the last read command (model's own). -/
  readData : List Byte
  /-- Cycles counted in the domains CD 0, FD 1, CX 2, MC 3, MP 4, GL 5 and of port n at 8 + n
  (R17, R21). -/
  clocks : Table Nat
  /-- Which free value comes next (model's own). -/
  freeCtr : Nat
  threads : Table Thread
  groups : Table Group
  grids : Table Grid
  nextGrid : Nat
  images : Table (List Image)
  movers : Table Mover
  /-- Accumulator words by (engine * 8 + accumulator) * 4096 + 64 m + n. -/
  accs : Table (BitVec 32)
  /-- The multiply that holds an engine's MAC array: thread and operation (R74, R107). -/
  macBusy : Table (Option (Nat × Nat))
  /-- A debug HALT in progress: its grid and the context it was given for (R88). -/
  dbgHalt : Option (Nat × Nat)
  tlb : List TlbEntry
  /-- Cached page-owner entries by index (R121). -/
  owners : List (Nat × BitVec 32)
  invs : List Invalidation
  faults : Table FaultTable
  syncs : Table SyncObj
  rings : Table Ring
  err : ErrUnit
  /-- Events the management processor has yet to post (R15). -/
  mpEvents : List Event
  parts : Table Partition
  /-- Queue pairs by partition * 2^22 + number (R194). -/
  qps : Table Qp
  /-- Memory keys by partition * 2^24 + index (R204). -/
  keys : Table KeyEntry
  firkin : Firkin
  /-- Transport packets that a port has received and that no arrival command has taken yet (R301). -/
  arrived : List Arrival
  /-- The function whose AQ the management processor served last (R179). -/
  aqLast : Nat
  /-- What Bushel and Carder have yet to act on. -/
  netEvents : List NetEvent
  twin : Twin
  /-- Bushel's members by group id (R248). -/
  bushel : Table BshGroup
  /-- Carder's bindings and sequence tags (R272, R275). -/
  binds : List CrdBind
  tags : Table CrdTag
  /-- Key slots by function * 2048 + slot (R327). -/
  slots : Table KeySlot
  /-- Packets tagged beyond the last 2^16 that INT_STAT.TAGGED counts (R332). -/
  tagged : Nat
  ports : Table Port
  /-- Partition that owns each compute core (R367). -/
  coreOwner : Table (Option Nat)
  sched : Sched
  gill : Gill
  /-- The host link is up (R359). -/
  linkUp : Bool
  host : HostAtt
  drdy : Drdy
  boot : Boot
  supply : Supply
  deriving DecidableEq, Repr

/-- The device right after power-up, its boot ROM ready (R5, R442): every table at its default but
partition 0, which is in RUN (R389); LPDDR5X is being zeroed, DRDY and TWIN_HB are held low, and no
link is up. Values that the spec does not state are in log entry 2. -/
def State.reset : State :=
  { pending := [], mem := [], checks := [], regs := [], readData := [], clocks := [], freeCtr := 0
    threads := [], groups := [], grids := [], nextGrid := 0, images := [], movers := [], accs := []
    macBusy := [], dbgHalt := none, tlb := [], owners := [], invs := [], faults := [], syncs := [], rings := []
    err := ErrUnit.reset, mpEvents := []
    parts := [(0, { Partition.idle with state := .run })]
    qps := [], keys := [], firkin := Firkin.reset, arrived := [], aqLast := 64, netEvents := []
    twin := { Twin.reset with hbLow := true }
    bushel := [], binds := [], tags := [], slots := [], tagged := 0, ports := [], coreOwner := []
    sched := Sched.reset, gill := Gill.reset, linkUp := false
    host := { proto := 0, width := 0, speed := 0, perst := false, downAt := none, timedOut := false
              lost := 0, retPoison := 0, vfs := 0 }
    drdy := { state := .busy, causes := [.boot], since := 0, pending := false }
    boot := { st := .rom, status := 0, info := 0, zeroFill := true, start := none, staged := none
              present := [], slotA := true, active := none, retained := none, gill := false
              floor := Config.eepromFloor.toNat, settings := Config.eepromSettings
              boots := Config.eepromBoots + 1 }
    supply := { ovOpen := false, refclk156 := true } }

/-- Why the machine stops with a fault. -/
inductive Fault where
  /-- Raised by no command: every address the spec names exists or reports its own failure. Safe. -/
  | noSuchAddress (a : Nat)
  deriving DecidableEq, Repr

/-- Why a command is refused. -/
inductive Refusal where
  /-- The command has no meaning in the model yet; raised by its arm of `exec` alone. Safe. -/
  | notModelled (mnemonic : String)
  deriving DecidableEq, Repr

end Sys2Proof.Machine
end

