-- ==== Sys2Proof/Machine/Flags.lean ====
section
/-! DEFINITION. Thread registers with their fixed ones, the predicate condition of an instruction
and the results that comparisons write (R57, R59, R64, R70). -/

namespace Sys2Proof.Machine

/-- Scalar register read: s0 reads 0 (R57). -/
def readS (th : Thread) (r : BitVec 5) : Word := if r = 0 then 0 else
  match th.s.find? fun e => e.1 == r.toNat with
  | some e => e.2
  | none => 0

/-- Vector register read. -/
def readV (th : Thread) (r : BitVec 4) : Vec :=
  match th.v.find? fun e => e.1 == r.toNat with
  | some e => e.2
  | none => 0

/-- Predicate register read: p0 reads all ones (R57). -/
def readP (th : Thread) (r : BitVec 3) : Word := if r = 0 then BitVec.allOnes 64 else
  match th.p.find? fun e => e.1 == r.toNat with
  | some e => e.2
  | none => 0

/-- R59: c = p[psel], or its complement where pneg is 1. -/
def condWord (th : Thread) (psel : BitVec 3) (pneg : BitVec 1) : Word :=
  if pneg = 0 then readP th psel else ~~~(readP th psel)

/-- R59: the instruction takes effect: bit 0, or the bit of its one lane, or lane by lane. -/
def gateOpen (th : Thread) (i : Insn) : Bool :=
  match i.gate with
  | .bit n => (condWord th i.psel i.pneg).getLsbD n
  | .lanes => true

/-- R64: a comparison writes all 64 bits of its predicate. -/
def predOf (b : Bool) : Word := if b then BitVec.allOnes 64 else 0

/-- R64: `slt` and `sltu` write 1 or 0. -/
def bit01 (b : Bool) : Word := if b then 1 else 0

end Sys2Proof.Machine
end

