-- ==== Sys2Proof/Machine/Regs.lean ====
section
/-! DEFINITION. The register table of BAR0 (R4 to R10): for each register that holds what software
writes or what the device counts, its place, the bits a write sets, the bits a written 1 clears,
the bits a read clears, and its value at reset. Keys are function * 2^26 + offset. -/

namespace Sys2Proof.Machine

/-- A run of `count` registers, `stride` bytes apart. -/
structure RegSpec where
  base : Nat
  stride : Nat
  count : Nat
  rw : Nat
  w1c : Nat
  rc : Nat
  reset : Nat
  deriving DecidableEq, Repr

/-- A contiguous field mask [hi:lo]. -/
def fieldMask (hi lo : Nat) : Nat := (2 ^ (hi - lo + 1) - 1) * 2 ^ lo

/-- Registers of PF0's BAR0, by region. -/
def regSpecsPf0 : List RegSpec := [
  -- HA (R364): LINK, POLICY, RET, RET_GEN, HDM_ID, B2, PATHSTAT
  { base := 0x0008000, stride := 8, count := 1, rw := 0, w1c := 0, rc := fieldMask 47 32, reset := 0 },
  { base := 0x0008008, stride := 8, count := 1, rw := fieldMask 31 16 + 1, w1c := 0, rc := 0
    reset := 1000 * 65536 },
  { base := 0x0008010, stride := 8, count := 1
    rw := fieldMask 63 63 + fieldMask 43 32 + fieldMask 11 0, w1c := 0, rc := 0, reset := 0 },
  { base := 0x0008018, stride := 8, count := 1, rw := 0, w1c := 0, rc := 0, reset := 0 },
  { base := 0x0008020, stride := 8, count := 1, rw := fieldMask 38 32 + fieldMask 20 0, w1c := 0
    rc := 0, reset := 2 ^ 20 },
  { base := 0x0008028, stride := 8, count := 1
    rw := fieldMask 63 62 + fieldMask 56 36 + fieldMask 19 0, w1c := 0, rc := 0, reset := 0 },
  { base := 0x0008030, stride := 8, count := 1, rw := 0, w1c := 0, rc := fieldMask 63 0, reset := 0 },
  -- MBOX (R433): CMD, ARG0 to ARG2
  { base := 0x0010000, stride := 8, count := 1, rw := fieldMask 7 0, w1c := 0, rc := 0, reset := 0 },
  { base := 0x0010008, stride := 8, count := 3, rw := fieldMask 63 0, w1c := 0, rc := 0, reset := 0 },
  -- TWIN (R430): CTL, STAT, PMAP, RGN, TAKE
  { base := 0x0040000, stride := 8, count := 1, rw := 3, w1c := 0, rc := 0, reset := 3 },
  { base := 0x0040008, stride := 8, count := 1, rw := 0, w1c := 0, rc := fieldMask 63 16, reset := 0 },
  { base := 0x0040100, stride := 8, count := 65
    rw := fieldMask 63 62 + fieldMask 54 48 + fieldMask 31 0, w1c := 0, rc := 0, reset := 0 },
  { base := 0x0040400, stride := 16, count := 16, rw := fieldMask 63 63 + fieldMask 47 0, w1c := 0
    rc := 0, reset := 0 },
  { base := 0x0040408, stride := 16, count := 16, rw := fieldMask 47 16, w1c := 0, rc := 0
    reset := 0 },
  { base := 0x0040600, stride := 8, count := 4, rw := fieldMask 63 0, w1c := 0, rc := 0, reset := 0 },
  -- PWR (R411): CTL, STATE, BUDGET, DIE, PART, STAT
  { base := 0x0020000, stride := 8, count := 1, rw := fieldMask 31 16 + 7, w1c := 0, rc := 0
    reset := 16 * 2 ^ 24 + 7 },
  { base := 0x0020008, stride := 8, count := 1, rw := 0, w1c := 0, rc := 0, reset := 0 },
  { base := 0x0020010, stride := 8, count := 1, rw := fieldMask 14 0, w1c := 0, rc := 0
    reset := 7150 * 2 ^ 32 + 26000 },
  { base := 0x0020020, stride := 8, count := 4, rw := fieldMask 14 0, w1c := 0, rc := 0
    reset := 4500 },
  { base := 0x0020040, stride := 8, count := 1, rw := fieldMask 14 0, w1c := 0, rc := 0
    reset := 1000 },
  { base := 0x0020100, stride := 8, count := 65, rw := fieldMask 57 56, w1c := 0, rc := 0
    reset := 2 ^ 56 },
  { base := 0x0020400, stride := 8, count := 1, rw := 0, w1c := 0, rc := fieldMask 63 0, reset := 0 },
  -- GL_CH, GL_DIN (R411)
  { base := 0x0028100, stride := 8, count := 8, rw := fieldMask 31 24 + fieldMask 15 0, w1c := 0
    rc := 0, reset := 2 ^ 30 + 8 * 2 ^ 24 + 250 },
  { base := 0x0028200, stride := 8, count := 2, rw := fieldMask 47 0, w1c := 0, rc := 0
    reset := 1000 * 2 ^ 32 + 250 * 2 ^ 16 + 50 },
  { base := 0x0028210, stride := 8, count := 6, rw := fieldMask 47 0, w1c := 0, rc := 0
    reset := 250 * 2 ^ 16 + 50 },
  -- ERR (R462)
  { base := 0x0030000, stride := 8, count := 1, rw := fieldMask 31 16 + 1, w1c := 0, rc := 0
    reset := 100 * 65536 },
  { base := 0x0030018, stride := 8, count := 1, rw := 0, w1c := 0, rc := fieldMask 63 0, reset := 0 },
  { base := 0x0030020, stride := 8, count := 1, rw := 0, w1c := 0, rc := fieldMask 63 0, reset := 0 },
  -- XU (R114, R120, R121, R137, R355)
  { base := 0x0500000, stride := 8, count := 1, rw := fieldMask 47 16 + 1, w1c := 0, rc := 0
    reset := 0 },
  { base := 0x0500008, stride := 8, count := 1, rw := fieldMask 47 16 + 3, w1c := 0, rc := 0
    reset := 60 * 2 ^ 32 + 1440 * 2 ^ 16 + 3 },
  { base := 0x0500010, stride := 8, count := 1, rw := 0, w1c := 0, rc := fieldMask 63 0, reset := 0 },
  { base := 0x0500100, stride := 8, count := 65, rw := fieldMask 47 12 + fieldMask 5 0, w1c := 0
    rc := 0, reset := 0 },
  { base := 0x0501000, stride := 8, count := 1, rw := fieldMask 56 12, w1c := 0, rc := 0, reset := 0 },
  { base := 0x0501008, stride := 8, count := 1
    rw := fieldMask 38 32 + fieldMask 27 24 + fieldMask 19 0, w1c := 0, rc := 0, reset := 0 },
  { base := 0x0502100, stride := 8, count := 65, rw := fieldMask 25 24 + fieldMask 9 0, w1c := 0
    rc := 0, reset := 2 ^ 24 + 100 },
  -- XPT (R221, R247, R311, R332)
  { base := 0x0200000, stride := 8, count := 1, rw := fieldMask 23 0, w1c := 0, rc := 0
    reset := 64 * 2 ^ 16 + 4821 },
  { base := 0x0200008, stride := 8, count := 1, rw := fieldMask 15 0, w1c := 0, rc := 0
    reset := 8 * 2 ^ 8 + 100 },
  { base := 0x0200010, stride := 8, count := 1, rw := 0, w1c := 0, rc := fieldMask 63 0, reset := 0 },
  { base := 0x0200100, stride := 8, count := 1, rw := fieldMask 31 0, w1c := 0, rc := 0
    reset := 16 * 2 ^ 24 + 3 * 2 ^ 16 + 32 },
  { base := 0x0200108, stride := 8, count := 1, rw := fieldMask 47 0, w1c := 0, rc := 0
    reset := 100000 * 2 ^ 24 + 20 },
  { base := 0x0200110, stride := 8, count := 1, rw := fieldMask 23 0, w1c := 0, rc := 0, reset := 10 },
  { base := 0x0200118, stride := 8, count := 1, rw := fieldMask 47 0, w1c := 0, rc := 0
    reset := 0x7F * 2 ^ 40 + 128 * 2 ^ 32 + 1000 * 2 ^ 16 + 1000 },
  { base := 0x0200120, stride := 8, count := 1, rw := 0, w1c := 0, rc := fieldMask 63 0, reset := 0 },
  { base := 0x0200200, stride := 8, count := 6
    rw := fieldMask 47 32 + fieldMask 27 16 + fieldMask 15 0, w1c := 0, rc := 0
    reset := 16000 * 2 ^ 32 + 80 * 2 ^ 16 + 16000 },
  { base := 0x0200230, stride := 8, count := 2
    rw := fieldMask 47 32 + fieldMask 27 16 + fieldMask 15 0, w1c := 0, rc := 0
    reset := 4000 * 2 ^ 32 + 250 * 2 ^ 16 + 16000 },
  { base := 0x0200300, stride := 8, count := 1, rw := fieldMask 31 16 + fieldMask 9 0, w1c := 0
    rc := 0, reset := 512 * 2 ^ 16 + 512 },
  { base := 0x0200308, stride := 8, count := 1, rw := 0, w1c := 0, rc := fieldMask 63 0, reset := 0 },
  { base := 0x0200340, stride := 8, count := 8, rw := 0, w1c := 0
    rc := fieldMask 63 32 + fieldMask 21 0, reset := 0 },
  { base := 0x0200400, stride := 8, count := 1, rw := fieldMask 7 0, w1c := 0, rc := 0, reset := 0xFF },
  { base := 0x0200500, stride := 8, count := 1, rw := fieldMask 10 8 + 1, w1c := 0, rc := 0
    reset := 4 * 2 ^ 8 + 1 },
  { base := 0x0200508, stride := 8, count := 1, rw := 0, w1c := 0, rc := fieldMask 63 0, reset := 0 },
  { base := 0x0201000, stride := 32, count := 256, rw := fieldMask 63 0, w1c := 0, rc := 0
    reset := 0 },
  { base := 0x0201008, stride := 32, count := 256, rw := fieldMask 63 0, w1c := 0, rc := 0
    reset := 0 },
  { base := 0x0201010, stride := 32, count := 256, rw := fieldMask 23 7, w1c := 0, rc := 0
    reset := 0xFF * 2 ^ 16 },
  -- BSH (R271)
  { base := 0x0300000, stride := 8, count := 1, rw := fieldMask 10 8, w1c := 0, rc := 0
    reset := 6 * 2 ^ 8 },
  { base := 0x0300008, stride := 8, count := 1, rw := 0, w1c := 0, rc := fieldMask 63 0, reset := 0 },
  { base := 0x0301100, stride := 16, count := 48, rw := fieldMask 47 6, w1c := 0, rc := 0
    reset := 0 },
  { base := 0x0301108, stride := 16, count := 48
    rw := fieldMask 63 63 + fieldMask 57 16 + fieldMask 10 0, w1c := 0, rc := 0, reset := 0 },
  -- CRD (R289)
  { base := 0x0400000, stride := 8, count := 1, rw := fieldMask 10 8, w1c := 0, rc := 0
    reset := 5 * 2 ^ 8 },
  { base := 0x0400008, stride := 8, count := 1
    rw := fieldMask 63 63 + fieldMask 58 48 + fieldMask 47 6, w1c := 0, rc := 0, reset := 0 },
  { base := 0x0400010, stride := 8, count := 1, rw := 0, w1c := 0, rc := fieldMask 63 0, reset := 0 },
  -- PART (R389)
  { base := 0x0600000, stride := 8, count := 1, rw := fieldMask 63 63 + fieldMask 47 22, w1c := 0
    rc := 0, reset := 0 },
  { base := 0x0601008, stride := 256, count := 65, rw := fieldMask 47 12 + fieldMask 4 0, w1c := 0
    rc := 0, reset := 0 },
  { base := 0x0601010, stride := 256, count := 65, rw := fieldMask 47 12 + fieldMask 4 0, w1c := 0
    rc := 0, reset := 0 },
  { base := 0x0601038, stride := 256, count := 65, rw := fieldMask 63 28, w1c := 0, rc := 0
    reset := 0 },
  -- DBG (R87)
  { base := 0x2000000, stride := 8, count := 1, rw := fieldMask 29 24 + fieldMask 14 0, w1c := 0
    rc := 0, reset := 0 } ]

/-- Host windows of the partition blocks (R389), and the registers of each port (R318, R319), which
repeat within a block: the specification of a key, if it is one of these. -/
def blockSpec (key : Nat) : Option RegSpec :=
  let one (rw rc reset : Nat) : Option RegSpec :=
    some { base := key, stride := 8, count := 1, rw := rw, w1c := 0, rc := rc, reset := reset }
  if 0x0601000 ≤ key ∧ key < 0x0605100 then
    let o := key % 256
    if 0x40 ≤ o ∧ o < 0xC0 ∧ o % 8 = 0 then
      one (if o % 16 = 0 then fieldMask 63 63 + fieldMask 46 12 else fieldMask 46 12) 0 0
    else none
  else if 0x0100000 ≤ key ∧ key < 0x0200000 then
    let n := (key - 0x0100000) / 0x20000
    let o := key % 0x20000
    if 0x1000 ≤ o ∧ o < 0x10F8 ∧ o % 8 = 0 then one 0 (fieldMask 63 0) 0
    else if 0x200 ≤ o ∧ o < 0x400 ∧ o % 8 = 0 then
      one (fieldMask 31 30 + fieldMask 20 0) 0 0
    else match o with
      | 0x08 => one (fieldMask 31 16 + fieldMask 9 8 + fieldMask 3 0) 0 1
      | 0x18 => one (fieldMask 47 32 + fieldMask 29 29 + fieldMask 27 16 + 7) 0 (9216 * 2 ^ 32 + 6)
      | 0x20 => one (fieldMask 5 0) 0 3
      | 0x28 => one (fieldMask 32 32 + fieldMask 19 0) 0 0
      | 0x30 => one (fieldMask 56 14) 0 0
      | 0x40 => one (fieldMask 22 20 + fieldMask 17 16 + fieldMask 13 0) 0 0
      | 0x48 => one 0x3F3F3F3F3F3F3F3F 0 0x3830282018100800
      | 0x50 => one (fieldMask 55 0) 0 0x0040201010101010
      | 0x58 => one (fieldMask 47 32 + fieldMask 15 8 + fieldMask 3 0) 0
          (4 * 2 ^ 32 + 10 * 2 ^ 8 + 8 + (if n < 6 then 2 else 0))
      | 0x100 => one (fieldMask 16 16 + fieldMask 6 0) 0 0
      | 0x108 => one (fieldMask 20 0) 0 0
      | 0x110 => one (fieldMask 63 0) 0 0
      | _ => none
  else none

/-- The row of the table that holds a key's register. -/
def findSpec (l : List RegSpec) (key : Nat) : Option RegSpec :=
  l.find? fun r => decide (r.base ≤ key ∧ key < r.base + r.stride * r.count ∧
    (key - r.base) % r.stride = 0)

/-- GL_RULE_A of a rule from its fields (R411). -/
def ruleA (action level dies dig ch below thresh hyst : Nat) : Nat :=
  2 ^ 63 + action * 2 ^ 60 + level * 2 ^ 57 + dies * 2 ^ 52 + dig * 2 ^ 51 + ch * 2 ^ 48 +
    below * 2 ^ 47 + thresh * 2 ^ 16 + hyst

/-- R407: GL_RULE_A and GL_RULE_B of rules 0 to 15 at reset; rules 16 to 31 reset to zero. -/
def gillRuleReset (i : Nat) : Nat × Nat :=
  match i with
  | 0 => (ruleA 2 3 1 0 0 0 1520 48, 1000)
  | 1 => (ruleA 2 3 2 0 1 0 1520 48, 1000)
  | 2 => (ruleA 2 3 4 0 2 0 1520 48, 1000)
  | 3 => (ruleA 2 3 8 0 3 0 1520 48, 1000)
  | 4 => (ruleA 3 0 0 0 0 0 1840 0, 100)
  | 5 => (ruleA 3 0 0 0 1 0 1840 0, 100)
  | 6 => (ruleA 3 0 0 0 2 0 1840 0, 100)
  | 7 => (ruleA 3 0 0 0 3 0 1840 0, 100)
  | 8 => (ruleA 3 0 0 0 4 0 1760 0, 100)
  | 9 => (ruleA 2 7 0x1F 0 5 1 5800 50, 1000)
  | 10 => (ruleA 3 0 0 0 5 0 6800 0, 10)
  | 11 => (ruleA 2 4 0x0F 0 6 0 4600 100, 1000)
  | 12 => (ruleA 0 0 0 0 7 0 720 32, 10000)
  | 13 => (ruleA 2 7 0x1F 1 0 0 0 0, 20)
  | 14 => (ruleA 2 4 0x0F 1 1 0 0 0, 20)
  | 15 => (ruleA 1 0 0 1 4 0 0 0, 1000)
  | _ => (0, 0)

/-- Gill rule registers at reset, for keys of their range (R407, R411). -/
def gillReset (key : Nat) : Nat :=
  let r := gillRuleReset ((key - 0x0028400) / 16)
  if (key - 0x0028400) % 16 = 0 then r.1 else r.2

/-- GL_RULE_A and GL_RULE_B: the fields a write sets (R411). -/
def gillSpec (key : Nat) : RegSpec :=
  { base := key, stride := 8, count := 1
    rw := if (key - 0x0028400) % 16 = 0 then fieldMask 63 47 + fieldMask 31 0 else fieldMask 23 0
    w1c := 0, rc := 0, reset := gillReset key }

/-- PORT_ID of port `n`: its MAC, from the module EEPROM (R318). -/
def portIdKey (key : Nat) : Option Nat :=
  if 0x0100000 ≤ key ∧ key < 0x0200000 ∧ key % 0x20000 = 0 then some ((key - 0x0100000) / 0x20000)
  else none

/-- Registers of a VF's BAR0 (R341): VF_B2, XU_INV_VA, XU_INV_CTL. -/
def vfSpec (off : Nat) : Option RegSpec :=
  let one (rw : Nat) : Option RegSpec :=
    some { base := off, stride := 8, count := 1, rw := rw, w1c := 0, rc := 0, reset := 0 }
  match off with
  | 0x8 => one (fieldMask 63 63 + fieldMask 56 36 + fieldMask 19 0)
  | 0x2000 => one (fieldMask 56 12)
  | 0x2008 => one (fieldMask 27 24 + fieldMask 19 0)
  | _ => none

/-- The specification of a key's register, if the device has one there that holds what is written or
counted. -/
def specOf (key : Nat) : Option RegSpec :=
  if 2 ^ 26 ≤ key then (if key / 2 ^ 26 ≤ 64 then vfSpec (key % 2 ^ 26) else none)
  else if 0x0028400 ≤ key ∧ key < 0x0028600 ∧ key % 8 = 0 then some (gillSpec key)
  else match findSpec regSpecsPf0 key with
    | some r => some r
    | none =>
      match portIdKey key with
      | some n => some { base := key, stride := 8, count := 1, rw := fieldMask 47 0, w1c := 0, rc := 0
                         reset := (Config.portMac n).toNat }
      | none => blockSpec key

/-- Reset value of a register by key (R5); 0 for a key that is no register of `specOf`. -/
def regReset (key : Nat) : BitVec 64 :=
  match specOf key with
  | some r => BitVec.ofNat 64 r.reset
  | none => 0

end Sys2Proof.Machine
end

