-- ==== Sys2Proof/Machine/Ops.lean ====
section
/-! DEFINITION. Named operations over the finite maps, memory, check bits, registers, clocks, free
values and error records. -/

namespace Sys2Proof.Machine

/-! Finite maps. -/

/-- The value at a key; `d` where the map lists none. -/
def tget {α : Type} (d : α) : Table α → Nat → α
  | [], _ => d
  | (k, v) :: m, q => if q = k then v else tget d m q

/-- The entry at a key, if the map lists one. -/
def tfind {α : Type} : Table α → Nat → Option α
  | [], _ => none
  | (k, v) :: m, q => if q = k then some v else tfind m q

/-- List a value at a key, keys rising. -/
def tput {α : Type} (k : Nat) (v : α) : Table α → Table α
  | [] => [(k, v)]
  | (q, w) :: m =>
    if k < q then (k, v) :: (q, w) :: m
    else if k = q then (k, v) :: m
    else (q, w) :: tput k v m

/-- Unlist a key. -/
def tdel {α : Type} (k : Nat) : Table α → Table α
  | [] => []
  | (q, w) :: m => if k = q then m else (q, w) :: tdel k m

/-- Set a key: the default is never listed. -/
def tset {α : Type} [DecidableEq α] (d : α) (m : Table α) (k : Nat) (v : α) : Table α :=
  if v = d then tdel k m else tput k v m

/-- Keys strictly rising from above `lo`. -/
def risingFrom {α : Type} : Option Nat → Table α → Bool
  | _, [] => true
  | lo, (k, _) :: m =>
    (match lo with | none => true | some l => decide (l < k)) && risingFrom (some k) m

/-- The canonical form of a finite map: keys strictly rising, no default listed. -/
def tableWf {α : Type} [DecidableEq α] (d : α) (m : Table α) : Bool :=
  risingFrom none m && m.all fun e => decide (e.2 ≠ d)

/-- The canonical form of memory: addresses strictly rising and no byte listed that reads 0. -/
def Memory.wf (m : Table Byte) : Bool := tableWf (0 : Byte) m

/-! Clocks and free values. -/

/-- Fabric-die cycles since power-up: the time of events, faults and error records. -/
def fdTime (s : State) : Nat := tget 0 s.clocks 1

/-- Gill's time, in cycles of 20 ns. -/
def glTime (s : State) : Nat := tget 0 s.clocks 5

/-- A port's counter (R21). -/
def portTime (s : State) (n : Nat) : Nat := tget 0 s.clocks (8 + n)

/-- The next free value, and the state that has used it up (log entry 4). -/
def takeFree (s : State) : Word × State :=
  (Config.freeWord s.freeCtr, { s with freeCtr := s.freeCtr + 1 })

/-- The dies have power (R401). -/
def powered (s : State) : Bool := s.sched.power != .standby && s.sched.power != .off

/-- R460: a register write is acted on: not in Standby or Off, nor in the fatal state. -/
def bar0 (s : State) : Bool := powered s && !s.err.fatal

/-- The firmware components serve (R436, R440). -/
def inService (s : State) : Bool := powered s && s.boot.st == .service

/-! Registers (R4 to R6). -/

/-- Key of a register: function 0 for PF0, n for VFn. -/
def regKey (fn off : Nat) : Nat := fn * 2 ^ 26 + off

/-- A PF0 register's stored value; its reset value until something is stored. -/
def reg (s : State) (off : Nat) : Word := tget (regReset off) s.regs off

/-- A function's register. -/
def regFn (s : State) (fn off : Nat) : Word := tget (regReset (regKey fn off)) s.regs (regKey fn off)

/-- Store a register's value by key. -/
def setReg (s : State) (key : Nat) (v : Word) : State :=
  { s with regs := tset (regReset key) s.regs key v }

/-- Bits `lo .. lo + n - 1` of a word as a number. -/
def bits (w : Word) (lo n : Nat) : Nat := (w.extractLsb' lo n).toNat

/-- Replace bits `lo .. lo + n - 1` of a word. -/
def setBits (w : Word) (lo n v : Nat) : Word :=
  let m : Word := BitVec.ofNat 64 ((2 ^ n - 1) * 2 ^ lo)
  (w &&& ~~~m) ||| (BitVec.ofNat 64 (v % 2 ^ n * 2 ^ lo))

/-- Add to a saturating counter field of a register. -/
def bump (s : State) (key lo n k : Nat) : State :=
  let w := tget (regReset key) s.regs key
  setReg s key (setBits w lo n (min (2 ^ n - 1) (bits w lo n + k)))

/-! Memory. -/

/-- Physical address map (R111). -/
inductive Region where
  | lpddr | sram | localStore | syncObj | hostMem | reserved
  deriving DecidableEq, Repr

/-- The range a 48-bit physical address lies in (R111). -/
def regionOf (pa : Nat) : Region :=
  if pa < 0x010000000000 then .lpddr
  else if pa < 0x010080000000 then .sram
  else if pa < 0x0100A0800000 then .localStore
  else if pa < 0x010100000000 then .reserved
  else if pa < 0x010100800000 then .syncObj
  else if pa < 0x800000000000 then .reserved
  else if pa < 0x1000000000000 then .hostMem
  else .reserved

/-- Physical address of byte `off` of the local store of engine `e` (R112). -/
def localPa (e off : Nat) : Nat := 0x010080000000 + 32768 * e + off

/-- One byte of memory. -/
def memByte (s : State) (pa : Nat) : Byte := tget 0 s.mem pa

/-- Bytes of memory, as they stand. -/
def peek (s : State) (pa : Nat) : Nat → List Byte
  | 0 => []
  | n + 1 => memByte s pa :: peek s (pa + 1) n

/-- Store bytes, whatever the check state of their words. -/
def pokeMem (m : Table Byte) (pa : Nat) : List Byte → Table Byte
  | [] => m
  | b :: bs => pokeMem (tset 0 m pa b) (pa + 1) bs

/-- Store bytes, whatever the check state of their words. -/
def poke (s : State) (pa : Nat) (bs : List Byte) : State := { s with mem := pokeMem s.mem pa bs }

/-- Check state of the word that holds an address; host memory holds no check bits (R133). -/
def wordCheck (s : State) (pa : Nat) : WordCheck :=
  if regionOf pa = .hostMem then .good else tget .good s.checks (pa / 8)

/-- HA registers (R364). -/
def haPolicy : Nat := 0x0008008
def haRet : Nat := 0x0008010
def haRetGen : Nat := 0x0008018
def haHdmId : Nat := 0x0008020
def haB2 : Nat := 0x0008028
def haPathstat : Nat := 0x0008030

/-- R357: the base and size of the retained region, where it is in force. -/
def retained (s : State) : Option (Nat × Nat) :=
  let w := reg s haRet
  if w.getLsbD 63 ∧ bits w 0 12 + bits w 32 12 ≤ 4095 then
    some (bits w 0 12 * 2 ^ 28, (bits w 32 12 + 1) * 2 ^ 28)
  else none

/-- An address lies in the retained region. -/
def inRetained (s : State) (pa : Nat) : Bool :=
  match retained s with
  | some (base, size) => decide (base ≤ pa ∧ pa < base + size)
  | none => false

/-- Set the check state of the word that holds an address; words of the retained region that become
poisoned are counted (R358). -/
def setCheck (s : State) (pa : Nat) (c : WordCheck) : State :=
  let new := c == .poison && tget .good s.checks (pa / 8) != .poison && inRetained s pa
  { s with
    checks := tset .good s.checks (pa / 8) c
    host := if new then { s.host with retPoison := s.host.retPoison + 1 } else s.host }

/-! Engine numbers (R11, R112, R451). -/

/-- Die of an engine: 4 for the fabric die. -/
def dieOf (e : Nat) : Nat := if e < 16384 then e / 4096 else 4

/-- Cluster of an engine, over the whole device: 64 on the compute dies, then 4. -/
def clusterOf (e : Nat) : Nat := if e < 16384 then e / 256 else 64 + (e - 16384) / 64

/-- Core of an engine, over the whole device: 1,024 on the compute dies, then 64 (R451). -/
def coreOf (e : Nat) : Nat := if e < 16384 then e / 16 else 1024 + (e - 16384) / 4

/-- First engine and number of engines of a core (R11). -/
def coreEngines (c : Nat) : Nat × Nat :=
  if c < 1024 then (16 * c, 16) else (16384 + 4 * (c - 1024), 4)

/-- Engine within its core, core within its cluster, cluster within its die (R58). -/
def engineCoords (e : Nat) : Nat × Nat × Nat :=
  if e < 16384 then (e % 16, e / 16 % 16, e / 256 % 16)
  else ((e - 16384) % 4, (e - 16384) / 4 % 16, (e - 16384) / 64)

/-- The unit code and instance that own a word (R451): engine core, SRAM slice, LPDDR5X channel
(R113) or sync home core. -/
def unitOf (pa : Nat) : Nat × Nat :=
  match regionOf pa with
  | .localStore => (0x01, coreOf ((pa - 0x010080000000) / 32768))
  | .sram => (0x04, (pa - 0x010000000000) / 0x2000000)
  | .syncObj => (0x03, (pa - 0x010100000000) / 8 / 1024)
  | _ =>
    let b := pa / 512
    let check := b / 2 % 9
    let i := pa / 64 % 8
    (0x05, 9 * (b % 2) + (if i < check then i else i + 1))

/-! Error records (R450 to R459). -/

/-- What a unit reports of an error it has detected. -/
structure ErrInfo where
  code : Nat
  unit : Nat
  inst : Nat
  part : Option Nat
  status : BitVec 8
  addr : Nat
  isVa : Bool
  ctx : BitVec 20
  data0 : Word
  deriving DecidableEq, Repr

/-- The class that a code fixes (R450): 1 corrected, 2 contained, 3 fatal. -/
def errClass (code : Nat) : Nat :=
  if code = 0x01 ∨ code = 0x09 ∨ code = 0x0D ∨ code = 0x0E then 1
  else if code = 0x0A ∨ code = 0x0B ∨ code = 0x0C ∨ code = 0x0F ∨ code = 0x10 then 3
  else 2

/-- PF0's EQ and the EQ of a partition (R157). -/
def eqOf (p : Nat) : Nat := 0x90 + p

/-- Give the management processor an event to post (R15, R455). -/
def mpPost (s : State) (e : Event) : State := { s with mpEvents := s.mpEvents ++ [e] }

/-- ERR registers (R462). -/
def errCtl : Nat := 0x0030000
def errOvf : Nat := 0x0030018
def errCnt : Nat := 0x0030020

/-- R454: the first fatal record is also kept in ERR_FATAL and GL_FATAL. -/
def keepFatal (s : State) (r : ErrRec) : State :=
  { s with err := { s.err with
      firstFatal := if s.err.firstFatal.isNone then some r else s.err.firstFatal
      glFatal := if s.err.glFatal.isNone then some r else s.err.glFatal } }

/-- Put a record into the queue, or count it as dropped (R454), and tell of it (R455). -/
def writeRecord (s : State) (r : ErrRec) : State :=
  let full := (s.err.tail - s.err.head).toNat = 256
  let s1 : State :=
    if full then
      let e := { s.err with
        seq := max s.err.seq (r.seq + 1)
        dropped := s.err.dropped + 1
        firstDropped := if s.err.dropped = 0 then r.seq else s.err.firstDropped }
      bump { s with err := e } errOvf (if r.cls = 1 then 0 else 32) 32 1
    else
      { s with err := { s.err with
          seq := max s.err.seq (r.seq + 1)
          queue := tput (s.err.tail.toNat % 256) r s.err.queue
          tail := s.err.tail + 1 } }
  let s2 : State := if r.cls = 3 then keepFatal s1 r else s1
  let s3 : State :=
    if r.cls ≠ 1 ∨ (reg s2 errCtl).getLsbD 0 then
      mpPost s2 { eq := eqOf 0, code := 0x80, source := r.unit, data0 := BitVec.ofNat 64 r.seq
                  data1 := BitVec.ofNat 64 (r.cls + 65536 * r.code) }
    else s2
  match r.part with
  | some p =>
    if r.cls = 2 then
      mpPost s3 { eq := eqOf p, code := 0x83, source := r.unit, data0 := BitVec.ofNat 64 r.seq
                  data1 := BitVec.ofNat 64 (r.code + 65536 * r.status.toNat) }
    else s3
  | none => s3

/-- The record of an error, not yet escalated. -/
def recordOf (s : State) (i : ErrInfo) (count : Nat) : ErrRec :=
  { seq := s.err.seq, time := fdTime s, cls := errClass i.code, unit := i.unit, inst := i.inst
    code := i.code, part := i.part, status := i.status, addr := i.addr, isVa := i.isVa
    ctx := i.ctx, count := count, escalated := false, fenced := false, data0 := i.data0, data1 := 0 }

/-- R453: count a corrected error, and record it when its window has passed. -/
def recordCorrected (s : State) (i : ErrInfo) : State :=
  let s := bump s errCnt 32 32 1
  let same (f : CorrFold) : Bool := f.unit == i.unit && f.inst == i.inst && f.code == i.code
  let cwin := max 1 (bits (reg s errCtl) 16 16)
  match s.err.folds.find? same with
  | none =>
    let s1 := writeRecord s (recordOf s i 1)
    { s1 with err := { s1.err with
        folds := s1.err.folds ++
          [{ unit := i.unit, inst := i.inst, code := i.code, last := fdTime s, folded := 0 }] } }
  | some f =>
    let others := s.err.folds.filter fun g => !same g
    if cwin * 1500000 ≤ fdTime s - f.last then
      let s1 := writeRecord s (recordOf s i (f.folded + 1))
      { s1 with err := { s1.err with
          folds := others ++ [{ f with last := fdTime s, folded := 0 }] } }
    else { s with err := { s.err with folds := others ++ [{ f with folded := f.folded + 1 }] } }

/-- R362: DRDY is held low as busy; a pulse that runs merges into it. -/
def drdyBusy (s : State) (c : BusyCause) : State :=
  { s with drdy := { s.drdy with
      state := .busy, causes := c :: s.drdy.causes.filter fun x => x != c
      since := if s.drdy.state = .busy then s.drdy.since else glTime s } }

/-- Busy ends: DRDY is released; entries posted meanwhile wait for their pulse. -/
def drdyRelease (s : State) : State :=
  { s with drdy := { s.drdy with
      state := if s.drdy.pending then .after else .ready, since := glTime s } }

/-- Busy has lasted 100 us. -/
def busyLong (s : State) : Bool := decide (s.drdy.since + 5000 ≤ glTime s)

/-- R362: an operation that held DRDY low has finished: it is released once nothing holds it and busy
has lasted 100 us. -/
def drdyDone (s : State) (c : BusyCause) : State :=
  let s1 := { s with drdy := { s.drdy with causes := s.drdy.causes.filter fun x => x != c } }
  if s1.drdy.state = .busy ∧ s1.drdy.causes.isEmpty ∧ busyLong s1 then drdyRelease s1 else s1

/-- R423: this module holds TWIN_HB low; while PAIRED its ports stop transmitting. -/
def holdHb (s : State) : State :=
  { s with twin := { s.twin with
      hbLow := true, fenced := s.twin.fenced || s.twin.state == .paired } }

/-- R459: what entering the fatal state changes at once; units test `fatal` and stop. A fence that runs
is abandoned (R461). -/
def enterFatal (s : State) : State :=
  let s1 := holdHb (drdyBusy s .fatal)
  { s1 with err := { s1.err with fatal := true, fences := [] } }

/-- R457, R458: partitions to fence for an error that two records name. -/
def fenceTargets (s : State) (a b : Option Nat) : List Nat :=
  let ps := (a.toList ++ b.toList).eraseDups
  ps.filter fun p => (tget Partition.idle s.parts p).state ≠ .resetting &&
    !(s.err.fences.any fun f => f.1 == p)

/-- R379 step 1, R458: a partition fence starts: the partition is RESETTING, its rings are polled no
more and write no completion, and ERR_FENCE is posted. -/
def startFence (s : State) (p seq : Nat) : State :=
  let s1 := bump s errCnt 8 8 1
  let old := tget Partition.idle s1.parts p
  mpPost { s1 with
    err := { s1.err with fences := s1.err.fences ++ [(p, seq, fdTime s, old.state == .frozen)] }
    rings := s1.rings.map fun x =>
      if x.2.part = p ∨ (x.1 < 0x90 ∧ x.1 / 2 = p) then
        (x.1, { x.2 with held := true, bindEn := false }) else x
    parts := tset Partition.idle s1.parts p { old with state := .resetting } }
    { eq := eqOf 0, code := 0x81, source := p, data0 := BitVec.ofNat 64 seq, data1 := 0 }

/-- The oldest error that a unit instance is handling; handling lasts at most 1 ms (R456). -/
def handlingOf (s : State) (unit inst : Nat) : Option Handling :=
  s.err.handling.find? fun h => h.unit == unit && h.inst == inst && fdTime s < h.since + 1500000

/-- A unit instance detects a contained error: its number, its time, and the error being handled
(R456, R457). Errors of a partition under a fence do not escalate (R458). -/
def detectNow (s : State) (unit inst : Nat) (part : Option Nat) : Detected :=
  let fenced := s.err.fences.any fun f => some f.1 == part
  { seq := s.err.seq, time := fdTime s
    earlier := if fenced then none else (handlingOf s unit inst).map fun h => (h.seq, h.part) }

/-- Record a contained error, with escalation (R453, R457). -/
def recordContained (s : State) (i : ErrInfo) (x : Detected) : State :=
  let s := bump s errCnt 16 16 1
  let r := { recordOf s i 1 with seq := x.seq, time := x.time }
  match x.earlier with
  | none => writeRecord s r
  | some (seq, part) =>
    let r := { r with escalated := true, data1 := BitVec.ofNat 64 seq }
    if part = some 0 ∨ i.part = some 0 then
      enterFatal (keepFatal (writeRecord s r) r)
    else
      let ts := fenceTargets s part i.part
      ts.foldl (fun s p => startFence s p r.seq) (writeRecord s { r with fenced := !ts.isEmpty })

/-- Record an error by its class (R453). -/
def recordError (s : State) (i : ErrInfo) : State :=
  if errClass i.code = 1 then recordCorrected s i
  else if errClass i.code = 3 then
    enterFatal (writeRecord (bump s errCnt 0 8 1) (recordOf s i 1))
  else recordContained s i (detectNow s i.unit i.inst i.part)

/-- R456: a unit instance begins handling a contained error whose record follows later. -/
def beginHandling (s : State) (unit inst : Nat) (part : Option Nat) : Detected × State :=
  let h : Handling := { unit := unit, inst := inst, seq := s.err.seq, part := part, since := fdTime s }
  (detectNow s unit inst part,
    { s with err := { s.err with seq := s.err.seq + 1, handling := s.err.handling ++ [h] } })

/-- R456: the containment action of an error has completed. -/
def endHandling (s : State) (seq : Nat) : State :=
  { s with err := { s.err with handling := s.err.handling.filter fun h => h.seq != seq } }

/-- XU registers (R114, R120, R121, R137). -/
def xuPotBase : Nat := 0x0500000
def xuScrubCtl : Nat := 0x0500008
def xuScrubStat : Nat := 0x0500010
def xuCtxtBase (p : Nat) : Nat := 0x0500100 + 8 * p

/-- Owner partition of a device-memory word by the owner table as it stands (R121, R450). -/
def granuleOwner (s : State) (pa : Nat) : Option Nat :=
  let idx := if pa < 0x010000000000 then pa / 65536 else 2 ^ 24 + (pa - 0x010000000000) / 65536
  let base := bits (reg s xuPotBase) 16 32 * 65536
  let e := leNat (peek s (base + 4 * idx) 4)
  match regionOf pa with
  | .lpddr | .sram =>
    if (reg s xuPotBase).getLsbD 0 ∧ e / 2 ^ 31 % 2 = 1 then some (e / 2 ^ 20 % 128) else none
  | .localStore => tget none s.coreOwner (coreOf ((pa - 0x010080000000) / 32768))
  | _ => none

/-- R134, R135: what reading one word of device memory finds and does about it; the flag says that
the word reads as poison. -/
def checkWord (s : State) (pa : Nat) : Bool × State :=
  let u := unitOf pa
  let info (code : Nat) (st : BitVec 8) : ErrInfo :=
    { code := code, unit := u.1, inst := u.2, part := granuleOwner s pa, status := st
      addr := pa / 8 * 8, isVa := false, ctx := 0, data0 := 0 }
  match wordCheck s pa with
  | .good => (false, s)
  | .poison => (true, s)
  | .single =>
    let s1 := bump (setCheck s pa .good) xuScrubStat 32 32 1
    (false, recordError s1 (info 0x01 0))
  | .uncorrectable =>
    let s1 := bump (setCheck s pa .poison) xuScrubStat 0 32 1
    (true, recordError s1 (info 0x02 0))

/-- Check `n` words from the word that holds an address. -/
def checkWords (s : State) (pa : Nat) : Nat → Bool × State
  | 0 => (false, s)
  | n + 1 =>
    let r := checkWord s pa
    let rest := checkWords r.2 (pa / 8 * 8 + 8) n
    (r.1 || rest.1, rest.2)

/-- Words touched by `n` bytes at an address. -/
def wordSpan (pa n : Nat) : Nat := if n = 0 then 0 else (pa + n - 1) / 8 - pa / 8 + 1

/-- R401: an access to LPDDR5X brings its channels out of self-refresh. -/
def lpddrAwake (s : State) (pa : Nat) : State :=
  if s.sched.selfRefresh ∧ regionOf pa = .lpddr then
    { s with sched := { s.sched with selfRefresh := false } }
  else s

/-- R401: the local store of a gated compute die has lost its contents. -/
def localLost (s : State) (pa : Nat) : Bool :=
  s.sched.gated && regionOf pa == .localStore && decide (pa < localPa 16384 0)

/-- Free bytes. -/
def takeBytes (s : State) : Nat → List Byte × State
  | 0 => ([], s)
  | n + 1 =>
    let f := takeFree s
    let r := takeBytes f.2 n
    (f.1.setWidth 8 :: r.1, r.2)

/-- Read bytes at a physical address: whether any word reads as poison, the bytes, and the state
after the corrections that reading makes (R66, R134, R135). What a gated die has lost reads as free
bytes (log entry 32). -/
def readMem (s : State) (pa n : Nat) : Bool × List Byte × State :=
  let r := checkWords (lpddrAwake s pa) pa (wordSpan pa n)
  if localLost s pa then
    let f := takeBytes r.2 n
    (r.1, f.1, f.2)
  else (r.1, peek r.2 pa n, r.2)

/-- R136: write the bytes of one word (at most 8, within it): a whole word clears poison, a
narrower write leaves a poisoned word as it was and is counted in a record. -/
def writeWord (s : State) (pa : Nat) (bs : List Byte) : State :=
  if pa % 8 = 0 ∧ bs.length = 8 then poke (setCheck s pa .good) pa bs
  else
    let r := checkWord s pa
    if r.1 then
      let u := unitOf pa
      recordError r.2 { code := 0x06, unit := u.1, inst := u.2, part := granuleOwner s pa
                        status := 0, addr := pa / 8 * 8, isVa := false, ctx := 0, data0 := 0 }
    else poke r.2 pa bs

/-- Write bytes at a physical address, word by word; `n` bounds the number of words. -/
def writeWords (s : State) (pa : Nat) (bs : List Byte) : Nat → State
  | 0 => s
  | n + 1 =>
    let k := 8 - pa % 8
    writeWords (writeWord s pa (bs.take k)) (pa + k) (bs.drop k) n

/-- Write bytes at a physical address (R124, R136). -/
def writeMem (s : State) (pa : Nat) (bs : List Byte) : State :=
  writeWords (lpddrAwake s pa) pa bs (wordSpan pa bs.length)

/-- Mark `n` words from an address on as poisoned, as a mover does with a poisoned line (R133): each that
was not is counted (R137). -/
def poisonMem (s : State) (pa : Nat) : Nat → State
  | 0 => s
  | n + 1 =>
    let s1 := if wordCheck s pa = .poison then s else bump s xuScrubStat 0 32 1
    poisonMem (setCheck s1 pa .poison) (pa + 8) n

end Sys2Proof.Machine
end

