-- ==== Sys2Proof/Machine/Xlate.lean ====
section
/-! DEFINITION. Translation of device virtual addresses, the owner check, and reads and writes
through both (R110 to R123, R343, R349, R375). -/

namespace Sys2Proof.Machine

/-- The translation cache of the fabric die's own units: rings, transport, Bushel, Carder, BAR2. -/
def fabricUnit : Nat := 68

/-- Who makes an access: it decides which ranges the page may map (R112, R118, R343). `sync` is a
sync instruction's address and `post` a first byte of `mvpost`, which are translated without an
owner check here (R68, R75). -/
inductive AccessKind where
  | engine | mover | fabric | bar2 | sync | post
  deriving DecidableEq, Repr

/-- PF0's partition block registers (R389). -/
def ptReg (p off : Nat) : Nat := 0x0601000 + 256 * p + off

/-- R375: a host physical address lies inside one of the partition's host windows. -/
def hostWindowOk (s : State) (p pa : Nat) : Bool :=
  (List.range 8).any fun w =>
    let lo := reg s (ptReg p (0x40 + 16 * w))
    let hi := reg s (ptReg p (0x48 + 16 * w))
    lo.getLsbD 63 && decide (bits lo 12 35 * 4096 ≤ pa - 0x800000000000) &&
      decide (pa - 0x800000000000 < bits hi 12 35 * 4096 + 4096)

/-- Index of a granule's owner entry (R121). -/
def granuleIndex (pa : Nat) : Nat :=
  if pa < 0x010000000000 then pa / 65536 else 2 ^ 24 + (pa - 0x010000000000) / 65536

/-- The owner entry of a granule, from the cache or the table (R121). A poisoned entry matches no
request; the controllers keep what they have read until it is invalidated (log entry 12). -/
def ownerEntry (s : State) (idx : Nat) : BitVec 32 × State :=
  match tfind s.owners idx with
  | some e => (e, s)
  | none =>
    let pa := bits (reg s xuPotBase) 16 32 * 65536 + 4 * idx
    let r := readMem s pa 4
    let e : BitVec 32 := if r.1 then 0 else BitVec.ofNat 32 (leNat r.2.1)
    (e, { r.2.2 with owners := tput idx e r.2.2.owners })

/-- R121: an owner entry lets partition `p` and context `c` read, or write. -/
def ownerMatches (e : BitVec 32) (p : Nat) (c : BitVec 20) (write : Bool) : Bool :=
  e.getLsbD 31 && (e.extractLsb' 20 7).toNat == p &&
    (e.getLsbD 29 || e.extractLsb' 0 20 == c) && (!write || e.getLsbD 30)

/-- The owner check of R122 at an address's home, but for a sync object's own. -/
def ownerCheck (s : State) (p : Nat) (c : BitVec 20) (pa : Nat) (write : Bool) : Bool × State :=
  match regionOf pa with
  | .lpddr | .sram =>
    if (reg s xuPotBase).getLsbD 0 then
      let r := ownerEntry s (granuleIndex pa)
      (ownerMatches r.1 p c write, r.2)
    else (p == 0, s)
  | .localStore =>
    (tget none s.coreOwner (coreOf ((pa - 0x010080000000) / 32768)) == some p, s)
  | .hostMem => (hostWindowOk s p pa, s)
  | .syncObj => (true, s)
  | .reserved => (false, s)

/-- Bytes of a page. -/
def pageBytes (z : PageSize) : Nat :=
  match z with
  | .k4 => 4096 | .k64 => 65536 | .m2 => 0x200000 | .g1 => 0x40000000

/-- A mapping that a completed walk has read: page number, size, frame and rights. -/
structure Mapping where
  page : Nat
  size : PageSize
  frame : Nat
  rd : Bool
  wr : Bool
  deriving DecidableEq, Repr

/-- R116: a reserved bit, the LEAF rules, WR without RD, or a misaligned frame breaks an entry. -/
def entryBroken (level : Nat) (e : Word) : Bool :=
  let leaf := e.getLsbD 4
  bits e 48 16 != 0 || bits e 6 6 != 0 || e.getLsbD 3 ||
  (level == 3 && leaf) || (level == 0 && !leaf) ||
  (e.getLsbD 2 && !e.getLsbD 1) ||
  (!leaf && (e.getLsbD 1 || e.getLsbD 2 || e.getLsbD 5)) ||
  (leaf && level != 0 && e.getLsbD 5) ||
  (leaf && level == 2 && bits e 12 18 != 0) ||
  (leaf && level == 1 && bits e 12 9 != 0) ||
  (leaf && level == 0 && e.getLsbD 5 && bits e 12 4 != 0)

/-- The mapping of a leaf entry at a level (R115 to R117). -/
def leafMapping (level : Nat) (e : Word) (va : Nat) : Mapping :=
  let size : PageSize :=
    if level = 2 then .g1 else if level = 1 then .m2
    else if e.getLsbD 5 then .k64 else .k4
  { page := va / pageBytes size, size := size, frame := bits e 12 36 * 4096
    rd := e.getLsbD 1, wr := e.getLsbD 2 }

/-- One page-table level (R115, R118): the table at `table` is read with the requester's identity;
the answer is a leaf's mapping or the table of the level below. -/
def walkStep (s : State) (p : Nat) (c : BitVec 20) (va table level : Nat) :
    Except XlateCause (Mapping ⊕ Nat) × State :=
  let idx := va / 2 ^ (12 + 9 * level) % (if level = 3 then 2 ^ 18 else 512)
  let pa := table + 8 * idx
  if regionOf table ≠ .lpddr then (.error .walk, s)
  else
    let o := ownerCheck s p c pa false
    if !o.1 then (.error .walk, o.2)
    else
      let r := readMem o.2 pa 8
      if r.1 then (.error .walk, r.2.2)
      else
        let e : Word := BitVec.ofNat 64 (leNat r.2.1)
        if !e.getLsbD 0 then (.error .notPresent, r.2.2)
        else if entryBroken level e then (.error .walk, r.2.2)
        else if e.getLsbD 4 then (.ok (.inl (leafMapping level e va)), r.2.2)
        else (.ok (.inr (bits e 12 36 * 4096)), r.2.2)

/-- Page-table levels from `level` down to the leaf (R115). -/
def walkLevels (s : State) (p : Nat) (c : BitVec 20) (va table : Nat) :
    Nat → Except XlateCause Mapping × State
  | 0 =>
    let r := walkStep s p c va table 0
    match r.1 with
    | .ok (.inl m) => (.ok m, r.2)
    | .ok (.inr _) => (.error .walk, r.2)
    | .error e => (.error e, r.2)
  | l + 1 =>
    let r := walkStep s p c va table (l + 1)
    match r.1 with
    | .ok (.inl m) => (.ok m, r.2)
    | .ok (.inr t) => walkLevels r.2 p c va t l
    | .error e => (.error e, r.2)

/-- A walk from memory (R114 to R118), without the checks on the access itself. -/
def walk (s : State) (p : Nat) (c : BitVec 20) (va : Nat) : Except XlateCause Mapping × State :=
  let cb := reg s (xuCtxtBase p)
  let n := 2 ^ (min 20 (bits cb 0 5))
  let base := bits cb 12 36 * 4096
  if !cb.getLsbD 5 ∨ n ≤ c.toNat then (.error .ctx, s)
  else if 0x010000000000 < base + 16 * n then (.error .walk, s)
  else
    let r := readMem s (base + 16 * c.toNat) 16
    if r.1 then (.error .walk, r.2.2)
    else
      let root : Word := BitVec.ofNat 64 (leNat (r.2.1.take 8))
      let rsv := leNat (r.2.1.drop 8)
      if !root.getLsbD 0 ∨ bits root 48 16 ≠ 0 ∨ bits root 1 20 ≠ 0 ∨ rsv ≠ 0 then
        (.error .ctx, r.2.2)
      else walkLevels r.2.2 p c va (bits root 21 27 * 0x200000) 3

/-- The cached entry that serves an address (R119). -/
def tlbFind (s : State) (unit p : Nat) (c : BitVec 20) (va : Nat) : Option TlbEntry :=
  s.tlb.find? fun e => e.unit == unit && e.part == p && e.ctx == c &&
    e.page == va / pageBytes e.size

/-- Keep the mapping of a completed walk (R119). -/
def tlbFill (s : State) (unit p : Nat) (c : BitVec 20) (m : Mapping) : State :=
  let e : TlbEntry := { unit := unit, part := p, ctx := c, page := m.page, size := m.size
                        frame := m.frame, rd := m.rd, wr := m.wr }
  { s with tlb := e :: s.tlb.filter fun x =>
      !(x.unit == unit && x.part == p && x.ctx == c && x.size == m.size && x.page == m.page) }

/-- R112, R118, R343: a frame the agent may use. A local-store frame needs a 4 KiB page and the
mover. -/
def targetOk (k : AccessKind) (size : PageSize) (pa : Nat) : Bool :=
  match regionOf pa, k with
  | .lpddr, _ => true
  | .sram, _ => true
  | .hostMem, .bar2 => false
  | .hostMem, _ => true
  | .localStore, .mover => size == .k4
  | .localStore, .post => size == .k4
  | .localStore, .sync => true
  | .syncObj, .sync => true
  | _, _ => false

/-- Checks on the access itself, in the order of R118: RIGHTS, TARGET, OWNER. -/
def checkAccess (s : State) (k : AccessKind) (p : Nat) (c : BitVec 20) (va : Nat) (write : Bool)
    (m : Mapping) : Except XlateCause Nat × State :=
  let pa := m.frame + va % pageBytes m.size
  if !m.rd ∨ (write ∧ !m.wr) then (.error .rights, s)
  else if !targetOk k m.size pa then (.error .target, s)
  else if k = .sync ∨ k = .post then (.ok pa, s)
  else
    let o := ownerCheck s p c pa write
    if o.1 then (.ok pa, o.2) else (.error .owner, o.2)

/-- Walk from memory for an access, filling the unit's cache. -/
def walkAccess (s : State) (k : AccessKind) (unit p : Nat) (c : BitVec 20) (va : Nat)
    (write : Bool) : Except XlateCause Nat × State :=
  let w := walk s p c va
  match w.1 with
  | .error e => (.error e, w.2)
  | .ok m => checkAccess (tlbFill w.2 unit p c m) k p c va write m

/-- An access served by the unit's cache: none when the cache has no entry for it. A RIGHTS result
that rests on a cached entry is confirmed by a walk (R119). -/
def cachedAccess (s : State) (k : AccessKind) (unit p : Nat) (c : BitVec 20) (va : Nat)
    (write : Bool) : Option (Except XlateCause Nat × State) :=
  match tlbFind s unit p c va with
  | none => none
  | some e =>
    let m : Mapping := { page := e.page, size := e.size, frame := e.frame, rd := e.rd, wr := e.wr }
    if !m.rd ∨ (write ∧ !m.wr) then none
    else some (checkAccess s k p c va write m)

/-- Translate and check one access: from the cache, or by a walk. -/
def access (s : State) (k : AccessKind) (unit p : Nat) (c : BitVec 20) (va : Nat) (write : Bool) :
    Except XlateCause Nat × State :=
  match cachedAccess s k unit p c va write with
  | some r => r
  | none => walkAccess s k unit p c va write

/-- The frame byte that an address maps, before any check of the access itself. -/
def frameOf (s : State) (unit p : Nat) (c : BitVec 20) (va : Nat) : Option Nat × State :=
  match tlbFind s unit p c va with
  | some e => (some (e.frame + va % pageBytes e.size), s)
  | none =>
    let w := walk s p c va
    match w.1 with
    | .error _ => (none, w.2)
    | .ok m => (some (m.frame + va % pageBytes m.size), tlbFill w.2 unit p c m)

/-- Why a transfer by a unit of the device did not happen. -/
inductive MemFail where
  | xlate (c : XlateCause) (va : Nat)
  | poison (va : Nat)
  | hostLost
  deriving DecidableEq, Repr

/-- The status a unit reports for a failed transfer (R123, R135, R178, R361). -/
def failStatus (f : MemFail) : BitVec 8 :=
  match f with
  | .xlate _ _ => 0x05 | .poison _ => 0x0D | .hostLost => 0x08

/-- R361: a host-memory access is lost. -/
def loseHost (s : State) : State :=
  bump { s with host := { s.host with lost := s.host.lost + 1 } } haPathstat 32 32 1

/-- The chunks of a transfer, each within one 4 KiB page (R349), with their physical addresses.
`n` bounds the number of chunks. -/
def chunks (s : State) (k : AccessKind) (unit p : Nat) (c : BitVec 20) (va len : Nat)
    (write : Bool) : Nat → Except MemFail (List (Nat × Nat)) × State
  | 0 => (.ok [], s)
  | n + 1 =>
    if len = 0 then (.ok [], s)
    else
      let l := min len (4096 - va % 4096)
      let r := access s k unit p c va write
      match r.1 with
      | .error e => (.error (.xlate e va), r.2)
      | .ok pa =>
        if regionOf pa = .hostMem ∧ !s.linkUp then (.error .hostLost, loseHost r.2)
        else
          let rest := chunks r.2 k unit p c (va + l) (len - l) write n
          match rest.1 with
          | .error e => (.error e, rest.2)
          | .ok cs => (.ok ((pa, l) :: cs), rest.2)

/-- Number of 4 KiB pages that `len` bytes at an address touch. -/
def pageSpan (va len : Nat) : Nat := (va % 4096 + len + 4095) / 4096

/-- Read the chunks of a transfer; none when a word reads as poison. -/
def readChunks (s : State) : List (Nat × Nat) → Option (List Byte) × State
  | [] => (some [], s)
  | (pa, l) :: cs =>
    let r := readMem s pa l
    let rest := readChunks r.2.2 cs
    match rest.1 with
    | none => (none, rest.2)
    | some bs => (if r.1 then none else some (r.2.1 ++ bs), rest.2)

/-- Write bytes over the chunks of a transfer. -/
def writeChunks (s : State) : List (Nat × Nat) → List Byte → State
  | [], _ => s
  | (pa, l) :: cs, bs => writeChunks (writeMem s pa (bs.take l)) cs (bs.drop l)

/-- Read `len` bytes of a partition's virtual memory as a unit of the device. -/
def readVa (s : State) (k : AccessKind) (unit p : Nat) (c : BitVec 20) (va len : Nat) :
    Except MemFail (List Byte) × State :=
  let r := chunks s k unit p c va len false (pageSpan va len)
  match r.1 with
  | .error e => (.error e, r.2)
  | .ok cs =>
    let d := readChunks r.2 cs
    match d.1 with
    | none => (.error (.poison va), d.2)
    | some bs => (.ok bs, d.2)

/-- Write bytes to a partition's virtual memory as a unit of the device: all of them, or none when
a part of the range fails its translation or check. -/
def writeVa (s : State) (k : AccessKind) (unit p : Nat) (c : BitVec 20) (va : Nat)
    (bs : List Byte) : Except MemFail Unit × State :=
  let r := chunks s k unit p c va bs.length true (pageSpan va bs.length)
  match r.1 with
  | .error e => (.error e, r.2)
  | .ok cs => (.ok (), writeChunks r.2 cs bs)

/-- R181: every byte of a range passes translation and the owner check, for reading and, where
`write`, for writing. -/
def rangeOk (s : State) (p : Nat) (c : BitVec 20) (va len : Nat) (write : Bool) : Bool × State :=
  let r := chunks s .fabric fabricUnit p c va len write (pageSpan va len)
  (match r.1 with | .ok _ => true | .error _ => false, r.2)

end Sys2Proof.Machine
end

