-- ==== Sys2Proof/Machine/SyncOps.lean ====
section
/-! DEFINITION. Operations on sync objects at their home (R138 to R155). -/

namespace Sys2Proof.Machine

/-- The object at an index. -/
def syncObj (s : State) (i : Nat) : SyncObj := tget SyncObj.free s.syncs i

/-- Put an object back. -/
def setSync (s : State) (i : Nat) (o : SyncObj) : State :=
  { s with syncs := tset SyncObj.free s.syncs i o }

/-- Index of the object at a physical address of the sync range (R138): the object that contains the
byte, also for the sync address of a descriptor or an entry, to which the spec gives no alignment
(DESIGN CHOICE, log entry 81). -/
def syncIndex (pa : Nat) : Nat := (pa - 0x010100000000) / 8

/-- R152: revoke an object in one step: REVOKED, count 0. Its waiters find it so at their next
retry. -/
def revokeObj (o : SyncObj) : SyncObj := { o with state := .revoked, count := 0 }

/-- R155: an object whose attribute word is lost: REVOKED, owner 0, no sharer, count 0. -/
def lostAttrObj : SyncObj := { SyncObj.free with state := .revoked }

/-- The SYNC_UNCORR record of an object (R155, R450). -/
def syncUncorr (i : Nat) (p : Option Nat) (st : BitVec 8) : ErrInfo :=
  { code := 0x08, unit := 0x03, inst := i / 1024, part := p, status := st
    addr := 0x010100000000 + 8 * i, isVa := false, ctx := 0, data0 := BitVec.ofNat 64 i }

/-- The corrected-error record of a sync word (R134, R155). -/
def syncCorrected (i : Nat) (p : Option Nat) : ErrInfo :=
  { code := 0x01, unit := 0x03, inst := i / 1024, part := p, status := 0
    addr := 0x010100000000 + 8 * i, isVa := false, ctx := 0, data0 := 0 }

/-- A word that cannot be corrected. -/
def wordLost (c : WordCheck) : Bool := c == .uncorrectable || c == .poison

/-- A waiter on object `i` leaves SPIN, or its saved SPIN, with ST_REVOKED (R152, R155). -/
def releaseWaiter (i : Nat) (th : Thread) : Thread :=
  match th.spin with
  | none => th
  | some sp =>
    if sp.pa ≠ 0x010100000000 + 8 * i then th
    else { th with
      spin := none, state := if th.state = .spin ∨ th.state = .wait then .ready else th.state
      s := if sp.dst = 0 then th.s else tset 0 th.s sp.dst.toNat 0x09 }

/-- R155: release every waiter on an object whose attribute word is lost. -/
def releaseWaiters (s : State) (i : Nat) : State :=
  { s with
    threads := s.threads.map fun x => (x.1, releaseWaiter i x.2)
    grids := s.grids.map fun x => (x.1, { x.2 with saved := x.2.saved.map fun y =>
      { y with threads := y.threads.map (releaseWaiter i) } }) }

/-- R134, R155: a single-bit error of an object's word has been corrected: it is counted and
recorded. -/
def syncWordCorrected (s : State) (i : Nat) (owner : Option Nat) (c : WordCheck) : State :=
  if c = .single then recordError (bump s xuScrubStat 32 32 1) (syncCorrected i owner) else s

/-- R155: the home checks an object's words at every operation on it. -/
def checkSync (s : State) (i : Nat) : State :=
  let o := syncObj s i
  let owner : Option Nat := if o.state = .free then none else some o.part.toNat
  if wordLost o.badAttr then
    recordError (releaseWaiters (setSync s i lostAttrObj) i) (syncUncorr i none 0x09)
  else if wordLost o.badCount then
    let o' : SyncObj :=
      match o.state with
      | .free => { o with count := 0, badCount := .good }
      | .revoked => { o with count := 0, badCount := .good }
      | _ => { revokeObj o with badCount := .good }
    recordError (setSync s i o') (syncUncorr i owner 0x09)
  else if o.badAttr = .single ∨ o.badCount = .single then
    syncWordCorrected (syncWordCorrected (setSync s i { o with badAttr := .good, badCount := .good })
      i owner o.badAttr) i owner o.badCount
  else s

/-- R140: the owner check of an object for partition `p` and context `c`; `any`: the request is
made as any context of its partition; `sig`: it signals. FREE fails every request. -/
def syncPasses (o : SyncObj) (p : Nat) (c : BitVec 20) (any sig : Bool) : Bool :=
  o.state != .free &&
    ((o.part.toNat == p && (any || o.anyCtx || o.ctx == c)) ||
      (o.shPart.toNat == p && (if sig then o.shSig else o.shWait)))

/-- What a signal came to at its object's home (R142, R151). -/
inductive SigResult where
  | applied | refused | frozen | revoked
  deriving DecidableEq, Repr

/-- The status of a signal that was not applied (R151, R207). -/
def sigStatus (r : SigResult) : BitVec 8 :=
  match r with
  | .applied => 0x00 | .refused => 0x03 | .frozen => 0x11 | .revoked => 0x09

/-- A signal of `n` reaches object `i` (R140, R142, R151). -/
def signalObj (s : State) (p : Nat) (c : BitVec 20) (any : Bool) (i : Nat) (n : Word) :
    SigResult × State :=
  let s := checkSync s i
  let o := syncObj s i
  if !syncPasses o p c any true then (.refused, s)
  else match o.state with
    | .live => (.applied, setSync s i { o with count := o.count + n })
    | .frozen => (.frozen, s)
    | _ => (.revoked, s)

/-- The contained record of a discarded signal (R151, R450): the unit that made it, its partition
and the object, all ones where the signal reached none. -/
def discardInfo (unit inst p : Nat) (obj : Option Nat) (st : BitVec 8) : ErrInfo :=
  { code := 0x05, unit := unit, inst := inst, part := some p, status := st
    addr := match obj with | some i => 0x010100000000 + 8 * i | none => 0
    isVa := false, ctx := 0
    data0 := match obj with | some i => BitVec.ofNat 64 i | none => BitVec.allOnes 64 }

/-- Signal the object at a virtual address as a unit that can only discard (mover, ring manager):
what came of it (none: the address reached no object), and the state with the discard recorded. -/
def signalVa (s : State) (unit inst : Nat) (xu p : Nat) (c : BitVec 20) (va : Nat) (n : Word) :
    State :=
  let a := access s .sync xu p c va true
  match a.1 with
  | .error _ => recordError a.2 (discardInfo unit inst p none 0x05)
  | .ok pa =>
    if regionOf pa = .syncObj then
      let r := signalObj a.2 p c false (syncIndex pa) n
      if r.1 = .applied then r.2
      else recordError r.2 (discardInfo unit inst p (some (syncIndex pa)) (sigStatus r.1))
    else recordError a.2 (discardInfo unit inst p none 0x04)

/-- The answer of one retry of `wait.ge` or `take` (R143, R144, R152 to R154). -/
inductive RetryAnswer where
  | satisfied | again | revoked | notSync
  deriving DecidableEq, Repr

/-- R153: the owner partition of an object is pre-empted. -/
def ownerPreempted (s : State) (o : SyncObj) : Bool :=
  (tget Partition.idle s.parts o.part.toNat).state == .preempted

/-- One retry at the home: `take` consumes 1 (R144), otherwise the count is compared with the
target (R143). -/
def retryObj (s : State) (p : Nat) (c : BitVec 20) (i : Nat) (take : Bool) (target : Word) :
    RetryAnswer × State :=
  let lost := wordLost (syncObj s i).badAttr
  let s := checkSync s i
  let o := syncObj s i
  let sharer := o.part.toNat != p
  if lost then (.revoked, s)
  else if !syncPasses o p c false false then (.notSync, s)
  else match o.state with
    | .revoked => (.revoked, s)
    | .frozen => if sharer then (.revoked, s) else (.again, s)
    | _ =>
      if sharer ∧ ownerPreempted s o then (.revoked, s)
      else if take then
        (if o.count = 0 then (.again, s)
          else (.satisfied, setSync s i { o with count := o.count - 1 }))
      else if target.toNat ≤ o.count.toNat then (.satisfied, s) else (.again, s)

/-- R145: the count as `sread` returns it; none where the owner check fails. -/
def readObj (s : State) (p : Nat) (c : BitVec 20) (any : Bool) (i : Nat) : Option Word × State :=
  let s := checkSync s i
  let o := syncObj s i
  if !syncPasses o p c any false then (none, s)
  else (some (if o.state = .revoked then 0 else o.count), s)

end Sys2Proof.Machine
end

