-- ==== Sys2Proof/Machine/RingOps.lean ====
section
/-! DEFINITION. Operations of the ring manager: owner marks, produced entries, events, completions
and their overflow, ring errors and head reports (R158 to R177, R186). -/

namespace Sys2Proof.Machine

/-- A ring. -/
def ring (s : State) (r : Nat) : Ring := tget Ring.idle s.rings r

/-- Put a ring back. -/
def setRing (s : State) (r : Nat) (x : Ring) : State :=
  { s with rings := tset Ring.idle s.rings r x }

/-- Change one ring. -/
def modRing (s : State) (r : Nat) (f : Ring → Ring) : State := setRing s r (f (ring s r))

/-- R158: the owner mark of the lap of an index. -/
def ownerMark (log2sz : Nat) (i : BitVec 32) : Nat := (i.toNat / 2 ^ log2sz + 1) % 2

/-- Bytes of one slot of a ring type (R156). -/
def slotBytes (typ : Nat) : Nat := if typ = 2 ∨ typ = 4 ∨ typ = 5 then 32 else 64

/-- Virtual address of the slot of an index (R158). -/
def slotVa (x : Ring) (i : BitVec 32) : Nat :=
  x.base.toNat + i.toNat % 2 ^ x.log2sz * slotBytes x.typ

/-- A byte of a list replaced. -/
def setByte (bs : List Byte) (i : Nat) (b : Byte) : List Byte := bs.set i b

/-- R175: a produced ring that is full by its own count reads its consumer report; a report out of
range counts in MALF. A failed read is reported as a status. -/
def readReport (s : State) (r : Nat) : Option (BitVec 8) × State :=
  let x := ring s r
  let d := readVa s .fabric fabricUnit x.part x.ctx x.rpt.toNat 8
  match d.1 with
  | .error e => (some (failStatus e), d.2)
  | .ok bs =>
    let rep : BitVec 32 := BitVec.ofNat 32 (leNat (bs.take 4))
    if (rep - x.cons).toNat ≤ (x.prod - x.cons).toNat then
      (none, setRing d.2 r { x with cons := rep })
    else (none, setRing d.2 r { x with malf := min 65535 (x.malf + 1) })

/-- A produced ring is full by its own count (R175); a CQ that is to switch takes nothing (R185). -/
def ringFull (x : Ring) : Bool :=
  decide (2 ^ x.log2sz ≤ (x.prod - x.cons).toNat) || (x.typ == 2 && x.resize.isSome)

/-- Read the report if the ring is full by its own count. -/
def refreshReport (s : State) (r : Nat) : Option (BitVec 8) × State :=
  if ringFull (ring s r) then readReport s r else (none, s)

/-- A ring access failed: STATE goes to ERROR with the status in LASTST (R177). An access lost to a
link that is down leaves the ring held as it is (R186, R361). -/
def ringFail (s : State) (r : Nat) (st : BitVec 8) : State :=
  if st = 0x08 ∧ !s.linkUp then s
  else modRing s r fun x => { x with state := .error, lastSt := st }

/-- A produced ring that takes entries: in RUN, or STOPPING while the last are written (R184). -/
def ringTakes (x : Ring) : Bool := x.state == .run || x.state == .stopping

/-- The sync object of a CQ or EQ is signalled with 1 per entry written (R166, R170). -/
def signalRing (s : State) (r : Nat) : State :=
  let x := ring s r
  if x.sync = 0 ∨ (x.typ ≠ 2 ∧ x.typ ≠ 4) then s else signalVa s 0x08 r fabricUnit x.part x.ctx x.sync.toNat 1

/-- Write one 32 B entry at PROD of a produced ring, its owner mark last (R164); the status of a
failed access, or none. -/
def produce (s : State) (r : Nat) (bytes : List Byte) : Option (BitVec 8) × State :=
  let x := ring s r
  let m := ownerMark x.log2sz x.prod
  let bs := setByte bytes 9 (BitVec.ofNat 8 m)
  let w := writeVa s .fabric fabricUnit x.part x.ctx (slotVa x x.prod) bs
  match w.1 with
  | .error e => (some (failStatus e), w.2)
  | .ok _ => (none, signalRing (modRing w.2 r fun y => { y with prod := y.prod + 1 }) r)

/-- The 32 bytes of an EQ entry (R167). -/
def eqBytes (code source : Nat) (data0 data1 : Word) (seq : BitVec 32) (time : Nat) : List Byte :=
  leBytes 8 data0.toNat ++ [BitVec.ofNat 8 code, 0] ++ leBytes 2 source ++ leBytes 4 seq.toNat ++
    leBytes 8 time ++ leBytes 8 data1.toNat

/-- R363: an entry of PF0's EQ has become visible: DRDY pulses at once where it may, and later
otherwise. -/
def attention (s : State) : State :=
  { s with drdy :=
      if s.drdy.state = .ready then { s.drdy with state := .pulse, since := glTime s }
      else { s.drdy with pending := true } }

/-- An EQ takes an event: dropped unless RUN (R167); in overflow or lost when full (R176). The
answer is the status of a failed access. OVFEV counts each filling of the overflow (log entry 39). -/
def eqTake (s : State) (e : Event) : Option (BitVec 8) × State :=
  let r := e.eq
  if (ring s r).state ≠ .run then (none, s)
  else
    let s := modRing s r fun x => { x with seq := x.seq + 1 }
    let bs := eqBytes e.code e.source e.data0 e.data1 ((ring s r).seq - 1) (fdTime s)
    let item : CqItem := { ring := r, counts := false, bytes := bs, write := true }
    let lost (st : BitVec 8) (s : State) : Bool := st == 0x08 && !s.linkUp
    let hold (s : State) : State :=
      let x := ring s r
      if x.overflow.length < 16 then setRing s r { x with overflow := x.overflow ++ [item] }
      else
        setRing s r { x with
          ovfev := if x.lost = 0 then min 65535 (x.ovfev + 1) else x.ovfev
          lost := x.lost + 1
          firstLost := if x.lost = 0 then x.seq - 1 else x.firstLost }
    let f := refreshReport s r
    let x := ring f.2 r
    match f.1 with
    | some st => if lost st f.2 then (none, hold f.2) else (some st, ringFail f.2 r st)
    | none =>
      if x.overflow.isEmpty ∧ !ringFull x then
        let p := produce f.2 r bs
        match p.1 with
        | some st => if lost st p.2 then (none, hold p.2) else (some st, ringFail p.2 r st)
        | none => (none, if r = eqOf 0 then attention p.2 else p.2)
      else (none, hold f.2)

/-- Post an event. When the EQ itself fails, RING_ERROR goes to PF0's EQ; when that fails, LASTST
alone records it (R177). -/
def post (s : State) (eq code source : Nat) (data0 data1 : Word) : State :=
  let r := eqTake s { eq := eq, code := code, source := source, data0 := data0, data1 := data1 }
  match r.1 with
  | none => r.2
  | some st =>
    if eq = eqOf 0 then r.2
    else (eqTake r.2 { eq := eqOf 0, code := 0x01, source := eq
                       data0 := st.setWidth 64
                       data1 := (ring r.2 eq).prod.setWidth 64 }).2

/-- R174: the head report of a consumed ring that leaves RUN for ERROR. A report that itself fails
changes nothing more. -/
def errorReport (s : State) (r : Nat) : State :=
  let x := ring s r
  if x.state ≠ .run ∨ (x.typ ≠ 1 ∧ x.typ ≠ 3 ∧ x.typ ≠ 6) ∨ x.rpt = 0 then s
  else
    let w := writeVa s .fabric fabricUnit x.part x.ctx x.rpt.toNat
      (leBytes 4 x.cons.toNat ++ leBytes 4 (x.ccnt.toNat % 2 ^ 32))
    match w.1 with
    | .ok _ => modRing w.2 r fun y => { y with reported := y.cons }
    | .error _ => w.2

/-- R177: a failed access of ring `r` at an index: ERROR, LASTST, and RING_ERROR on the partition's
EQ, or PF0's when that is the failing ring or not in RUN. -/
def ringError (s : State) (r : Nat) (st : BitVec 8) (index : BitVec 32) : State :=
  if st = 0x08 ∧ !s.linkUp then s else
  let s1 := ringFail (errorReport s r) r st
  let own := eqOf (ring s r).part
  let eq := if own = r ∨ (ring s1 own).state ≠ .run then eqOf 0 else own
  if r = eqOf 0 then s1
  else post s1 eq 0x01 r (st.setWidth 64) (index.setWidth 64)

/-- The rings bound to a CQ (R170). -/
def boundRings (s : State) (cq : Nat) : List Nat :=
  (s.rings.filter fun e => e.2.bindEn && e.2.target == cq && (e.2.typ == 1 || e.2.typ == 3 ||
    e.2.typ == 6)).map Prod.fst

/-- Stop or resume fetch on every ring bound to a CQ (R176). -/
def setFetchStopped (s : State) (cq : Nat) (v : Bool) : State :=
  (boundRings s cq).foldl (fun s r => modRing s r fun x => { x with fetchStopped := v }) s

/-- Write one completion to its CQ, or count it where none is written; the ring it belongs to
counts it as delivered (R165). -/
def cqWrite (s : State) (cq : Nat) (it : CqItem) : Option (BitVec 8) × State :=
  let count (s : State) : State :=
    if it.counts then modRing s it.ring fun x => { x with ccnt := x.ccnt + 1 } else s
  if it.write then
    let p := produce s cq it.bytes
    match p.1 with
    | some st => (some st, p.2)
    | none => (none, count p.2)
  else (none, count s)

/-- A CQ takes a completion: written, held in overflow, or held in its unit (R165, R176). -/
def cqTake (s : State) (cq : Nat) (it : CqItem) : State :=
  let live (s : State) : Bool := ringTakes (ring s cq) && !s.err.fatal
  let f := if live s then refreshReport s cq else (none, s)
  let s := match f.1 with
    | some st => ringError f.2 cq st (ring f.2 cq).cons
    | none => f.2
  let x := ring s cq
  if live s ∧ x.overflow.isEmpty ∧ x.unitHeld.isEmpty ∧ !ringFull x then
    let w := cqWrite s cq it
    match w.1 with
    | none => w.2
    | some st =>
      let s1 := ringError w.2 cq st (ring w.2 cq).prod
      modRing s1 cq fun x => { x with overflow := x.overflow ++ [it] }
  else if x.overflow.length < 16 ∧ x.unitHeld.isEmpty then
    setRing s cq { x with overflow := x.overflow ++ [it] }
  else if x.unitHeld.isEmpty then
    let s1 := setRing s cq { x with ovfev := min 65535 (x.ovfev + 1), unitHeld := [it] }
    let s2 := setFetchStopped s1 cq true
    let n := (boundRings s2 cq).length
    if x.bindEn then post s2 x.target 0x02 cq (x.prod.setWidth 64) (BitVec.ofNat 64 n) else s2
  else setRing s cq { x with unitHeld := x.unitHeld ++ [it] }

/-- A CQ has no room for one more completion, so that senders whose work would complete on it
receive receiver-not-ready (R176). -/
def cqBlocked (s : State) (cq : Nat) : Bool :=
  let x := ring s cq
  !x.unitHeld.isEmpty || decide (16 ≤ x.overflow.length)

/-- The 32 bytes of a CQ entry, without its mark (R164). -/
def cqBytes (cookie : Word) (st : BitVec 8) (r bytes : Nat) (d0 d1 : Word) : List Byte :=
  leBytes 8 cookie.toNat ++ [st, 0] ++ leBytes 2 r ++ leBytes 4 bytes ++ leBytes 8 d0.toNat ++
    leBytes 8 d1.toNat

/-- Deliver one completion of a consumed ring (R165): to the bound CQ, or counted at once where no
binding is in force. -/
def deliver (s : State) (r : Nat) (cookie : Word) (noCqe : Bool) (st : BitVec 8) (bytes : Nat)
    (d0 d1 : Word) : State :=
  let x := ring s r
  if !x.bindEn then setRing s r { x with ccnt := x.ccnt + 1 }
  else cqTake s x.target
    { ring := r, counts := true, bytes := cqBytes cookie st r bytes d0 d1
      write := !(noCqe && st == 0) }

/-- Fields of a 64 B entry (R162). -/
def entryOpcode (e : RingEntry) : Nat := (e.bytes.getD 0 0).toNat
def entryFlags (e : RingEntry) : Byte := e.bytes.getD 1 0
def entryExt (e : RingEntry) : Nat := (e.bytes.getD 2 0).toNat
def entryByte (e : RingEntry) (off : Nat) : Nat := (e.bytes.getD off 0).toNat
def entryField (e : RingEntry) (off n : Nat) : Nat := leNat ((e.bytes.drop off).take n)
def entryWord (e : RingEntry) (off : Nat) : Word := BitVec.ofNat 64 (entryField e off 8)
def entryCookie (e : RingEntry) : Word := entryWord e 8
def entryNoCqe (e : RingEntry) : Bool := (entryFlags e).getLsbD 2
def entryOrder (e : RingEntry) : Bool := (entryFlags e).getLsbD 1

/-- Complete an entry that has started: it leaves the ring's started list and is delivered. -/
def completeEntry (s : State) (r : Nat) (e : RingEntry) (st : BitVec 8) (bytes : Nat)
    (d0 d1 : Word) : State :=
  let s1 := modRing s r fun x => { x with started := x.started.filter fun y => y.index != e.index }
  deliver s1 r (entryCookie e) (entryNoCqe e) st bytes d0 d1

/-- The oldest started entry of a ring that carries an opcode and has not been acted on. -/
def startedOp (s : State) (r op : Nat) : Option RingEntry :=
  (ring s r).started.find? fun e => entryOpcode e == op && !e.gated

/-- The started entry at an index. -/
def startedAt (s : State) (r : Nat) (i : BitVec 32) : Option RingEntry :=
  (ring s r).started.find? fun e => e.index == i

/-! The management processor (R15, R179). -/

/-- An AQ has an entry that waits for the management processor. -/
def aqWaits (s : State) (r : Nat) : Bool := (ring s r).started.any fun e => !e.gated

/-- R15, R179: the management processor carries out an entry of AQ `r` next: it serves the AQs of
different functions in rotation, and carries out none once the device has failed. -/
def mpServes (s : State) (r : Nat) : Bool :=
  let turn (n : Nat) : Nat := (n + 64 - s.aqLast) % 65
  !s.err.fatal && (List.range 65).all fun n =>
    n == r / 2 || !aqWaits s (2 * n) || decide (turn (r / 2) ≤ turn n)

/-- MALF counts a malformed entry (R170). -/
def countMalf (s : State) (r : Nat) (st : BitVec 8) : State :=
  if st = 0x02 then modRing s r fun x => { x with malf := min 65535 (x.malf + 1) } else s

/-- The management processor has served AQ `r`, whose entry it answers with a status. -/
def mpTook (s : State) (r : Nat) (st : BitVec 8) : State := countMalf { s with aqLast := r / 2 } r st

/-! Holds (R186). -/

/-- A virtual address of a ring lies in host memory. -/
def hostVa (s : State) (p : Nat) (c : BitVec 20) (va : Nat) : Bool :=
  match (access s .fabric fabricUnit p c va false).1 with
  | .ok pa => regionOf pa == .hostMem
  | .error _ => false

/-- R186: polling and dispatch of a ring pause: it is held, or it lies in host memory while the link
retrains. -/
def ringPaused (s : State) (r : Nat) : Bool :=
  let x := ring s r
  x.held || (!s.linkUp && !s.host.timedOut && hostVa s x.part x.ctx x.base.toNat)

/-- Firkin is asked for a context on behalf of a port, or of a sender on the device (8) (R240, R241). -/
def fkWant (s : State) (k port : Nat) : State :=
  let f := s.firkin
  if f.cached.contains k ∨ f.wanted.any (fun x => x.1 == k) ∨ f.fetching.any (fun x => x.1 == k) then s
  else { s with firkin := { f with wanted := f.wanted ++ [(k, port)] } }

/-- R241: an SQ entry taken in that names a queue pair starts the fetch of its context. -/
def wantEntry (s : State) (r : Nat) (e : RingEntry) : State :=
  let op := entryOpcode e
  let k := (ring s r).part * 2 ^ 22 + entryField e 0x10 4 % 2 ^ 22
  if (ring s r).typ = 1 ∧ 0x10 ≤ op ∧ op ≤ 0x17 ∧ (tget Qp.none s.qps k).state ≠ .none then
    fkWant s k 8
  else s

/-- R174: the head report, one 8 B store of CONS and the low half of CCNT. -/
def headReport (s : State) (r : Nat) : State :=
  let x := ring s r
  if x.rpt = 0 then setRing s r { x with reported := x.cons }
  else
    let w := writeVa s .fabric fabricUnit x.part x.ctx x.rpt.toNat
      (leBytes 4 x.cons.toNat ++ leBytes 4 (x.ccnt.toNat % 2 ^ 32))
    match w.1 with
    | .ok _ => modRing w.2 r fun y => { y with reported := y.cons }
    | .error e => ringError w.2 r (failStatus e) x.cons

/-- Write one entry that a CQ or EQ held; `x`: the ring without it. -/
def drainOne (s : State) (q : Nat) (x : Ring) (it : CqItem) : Option (BitVec 8) × State :=
  if x.typ = 4 then
    let p := produce (setRing s q x) q it.bytes
    (p.1, if p.1.isNone ∧ q = eqOf 0 then attention p.2 else p.2)
  else cqWrite (setRing s q x) q it

/-- R176: write what a CQ or EQ holds in overflow, in order, and then the completions held in their
units, while there is room; at most `n` entries. -/
def drainOverflow (s : State) (q : Nat) : Nat → State
  | 0 => s
  | n + 1 =>
    let x := ring s q
    if !ringTakes x ∨ ringFull x ∨ s.err.fatal then s
    else match x.overflow, x.unitHeld with
      | it :: rest, _ =>
        let w := drainOne s q { x with overflow := rest } it
        match w.1 with
        | none => drainOverflow w.2 q n
        | some st => ringError (setRing w.2 q x) q st x.prod
      | [], it :: rest =>
        let w := drainOne s q { x with unitHeld := rest } it
        match w.1 with
        | none => drainOverflow w.2 q n
        | some st => ringError (setRing w.2 q x) q st x.prod
      | [], [] => s

/-- R176: what a consumer report with room brings: overflow and held completions written in order,
fetch resumed and CQ_RESUMED or EQ_OVERRUN posted. -/
def drainRing (s : State) (q : Nat) : State :=
  let x := ring s q
  let s1 := drainOverflow s q (x.overflow.length + x.unitHeld.length)
  let y := ring s1 q
  if x.typ = 4 then
    if y.lost ≠ 0 ∧ y.overflow.isEmpty ∧ y.state = .run ∧ !ringFull y then
      post (setRing s1 q { y with lost := 0 }) q 0x04 q (BitVec.ofNat 64 y.lost)
        (y.firstLost.setWidth 64)
    else s1
  else if !x.unitHeld.isEmpty ∧ y.unitHeld.isEmpty ∧ y.state = .run then
    let s2 := setFetchStopped s1 q false
    if y.bindEn then post s2 y.target 0x03 q (y.prod.setWidth 64) 0 else s2
  else s1

end Sys2Proof.Machine
end

