-- ==== Sys2Proof/Machine/FaultOps.lean ====
section
/-! DEFINITION. Translation faults: raising, ids, fault-queue entries and FAULT_POSTED (R351 to
R355). -/

namespace Sys2Proof.Machine

/-- FQ_CFG of a partition (R355). -/
def fqCfg (p : Nat) : Nat := 0x0502100 + 8 * p

/-- Ring id of a partition's FQ (R157). -/
def fqOf (p : Nat) : Nat := 0xE0 + p

/-- log2 of a partition's fault unit (R351, R355). -/
def faultLog2 (s : State) (p : Nat) : Nat :=
  match bits (reg s (fqCfg p)) 24 2 with
  | 0 => 12 | 2 => 21 | _ => 16

/-- Code of a translation cause (R118). -/
def causeCode (c : XlateCause) : Nat :=
  match c with
  | .notPresent => 1 | .rights => 2 | .owner => 3 | .target => 4 | .ctx => 5 | .walk => 6

/-- The 32 bytes of an FQ entry (R351). -/
def fqBytes (p fid : Nat) (f : FaultRec) : List Byte :=
  leBytes 8 f.va.toNat ++ [BitVec.ofNat 8 (causeCode f.cause), 0] ++ leBytes 2 fid ++
    leBytes 4 (f.ctx.toNat + 2 ^ 20 * f.agent + 2 ^ 23 * (if f.write then 1 else 0) + 2 ^ 24 * p) ++
    leBytes 8 f.time ++ [BitVec.ofNat 8 f.ulog2] ++ leBytes 7 0

/-- A partition's faults. -/
def faultTable (s : State) (p : Nat) : FaultTable := tget FaultTable.empty s.faults p

/-- Put a partition's faults back. -/
def setFaults (s : State) (p : Nat) (t : FaultTable) : State :=
  { s with faults := tset FaultTable.empty s.faults p t }

/-- Lowest id from `k` up that no fault of the table holds, below `k + n`. -/
def lowestFid (t : FaultTable) (k : Nat) : Nat → Option Nat
  | 0 => none
  | n + 1 => if t.faults.any fun f => f.fid == some k then lowestFid t (k + 1) n else some k

/-- R353: the FQ has gained its first unread entry. -/
def faultPosted (s : State) (p : Nat) : State :=
  let t := faultTable s p
  if t.holdoff then setFaults s p { t with withheld := true }
  else post (setFaults s p { t with holdoff := true, since := fdTime s }) (eqOf 0) 0x50 (fqOf p)
    ((ring s (fqOf p)).prod.setWidth 64) 0

/-- R353: whether the FQ holds an unread entry is judged by its consumer report, which is read while
some entry has not been accepted as read. The answer is the status of a failed access. -/
def fqReport (s : State) (p : Nat) : Option (BitVec 8) × State :=
  let x := ring s (fqOf p)
  if x.prod = x.cons then (none, s) else readReport s (fqOf p)

/-- The FQ has room and is in RUN (R352). -/
def fqReady (s : State) (p : Nat) : Bool × State :=
  let r := fqOf p
  if (ring s r).state ≠ .run then (false, s)
  else
    let f := fqReport s p
    match f.1 with
    | some st => (false, ringError f.2 r st (ring f.2 r).cons)
    | none => (!ringFull (ring f.2 r), f.2)

/-- Write the FQ entry of a fault that has an id (R352, R353). -/
def writeFq (s : State) (p fid : Nat) (f : FaultRec) : State :=
  let r := fqOf p
  let fresh := (ring s r).prod == (ring s r).cons
  let w := produce s r (fqBytes p fid f)
  match w.1 with
  | some st => ringError w.2 r st (ring w.2 r).prod
  | none => if fresh then faultPosted w.2 p else w.2

/-- R352: a new fault joins one of its key, waits on die, or takes the lowest free id. `agent` is
the code of R351. -/
def raiseFault (s : State) (p : Nat) (c : BitVec 20) (va : Nat) (cause : XlateCause) (write : Bool)
    (agent : Nat) (who : FaultAgent) : State :=
  let u := faultLog2 s p
  let key := va / 2 ^ u
  let base : FaultRec :=
    { fid := none, ctx := c, key := key, va := BitVec.ofNat 64 va, cause := cause, write := write
      agent := agent, ulog2 := u, time := fdTime s, joined := false, waiters := [who] }
  let t := faultTable s p
  if t.faults.any fun f => f.ctx == c && f.key == key && f.ulog2 == u then
    setFaults s p { t with faults := t.faults ++ [{ base with joined := true }] }
  else
    let q := fqReady s p
    let waiting := t.faults.any fun f => f.fid.isNone && !f.joined
    match lowestFid t 0 4096, q.1 && !waiting with
    | some fid, true =>
      let f := { base with fid := some fid }
      let t := faultTable q.2 p
      writeFq (setFaults q.2 p { t with faults := t.faults ++ [f] }) p fid f
    | _, _ =>
      let t := faultTable q.2 p
      setFaults q.2 p { t with faults := t.faults ++ [base] }

end Sys2Proof.Machine
end

