-- ==== Sys2Proof/Machine/SchedOps.lean ====
section
/-! DEFINITION. The energy ledger and the power scheduler's sums, choice of dies and corrections
(R390 to R400). Charges are counted in 1/8192 pJ. -/

namespace Sys2Proof.Machine

/-- A grid. -/
def grid (s : State) (g : Nat) : Grid := tget Grid.none s.grids g

/-- Put a grid back. -/
def setGrid (s : State) (g : Nat) (x : Grid) : State :=
  { s with grids := tset Grid.none s.grids g x }

/-- Change one grid. -/
def modGrid (s : State) (g : Nat) (f : Grid → Grid) : State := setGrid s g (f (grid s g))

/-- Change the scheduler's state. -/
def modSched (s : State) (f : Sched → Sched) : State := { s with sched := f s.sched }

/-- PWR registers (R411). -/
def pwrCtl : Nat := 0x0020000
def pwrBudget : Nat := 0x0020010
def pwrDie (d : Nat) : Nat := 0x0020020 + 8 * d
def pwrPart (p : Nat) : Nat := 0x0020100 + 8 * p
def pwrStat : Nat := 0x0020400

/-- Charge units in one grain (10 uJ) and in 1 pJ. -/
def unitsPerPj : Nat := 8192
def unitsPerGrain : Nat := 10000000 * 8192

/-- Whole grains of a charge, rounded up (R390). -/
def grainsUp (u : Nat) : Nat := (u + unitsPerGrain - 1) / unitsPerGrain

/-- R392: nominal energy of calibration entry `i`, in 1/64 pJ. -/
def nominalEnergy (i : Nat) : Nat :=
  match i with
  | 0 => 128 | 1 => 512 | 2 => 896 | 3 => 1280 | 4 => 7680 | 5 => 96 | 6 => 384 | 7 => 640
  | 8 => 768 | 9 => 640 | 10 => 192 | _ => 0

/-- Charge of one event under the common factor (R392). -/
def eventCharge (s : State) (i : Nat) : Nat := nominalEnergy i * s.sched.calF

/-- R392: the calibration entry of an instruction word's issue; none for a tensor instruction, which
R93 and R108 charge. -/
def issueEntry (w : Word) : Option Nat :=
  let minor := bits w 48 6
  match bits w 58 6 with
  | 0x0C | 0x0D => some (if minor = 7 then 6 else 5)
  | 0x0E | 0x0F => some 7
  | 0x14 | 0x18 => some 1
  | 0x15 => some (if minor ≤ 8 then 2 else if minor ≤ 0x0A then 4 else 3)
  | 0x16 => some (if minor = 1 ∨ minor = 2 then 3 else 2)
  | 0x17 => some (if minor ≤ 4 then 1 else 3)
  | 0x1D => some (if minor ≤ 1 then 1 else 3)
  | 0x20 | 0x21 => none
  | 0x28 | 0x29 => some 10
  | 0x2C => some 9
  | _ => some 0

/-- A thread of an engine is in SPIN (R149). -/
def engineSpins (s : State) (e : Nat) : Bool :=
  (List.range 64).any fun k => (tget Thread.free s.threads (64 * e + k)).state == .spin

/-- Add to the charges of a die, a partition, a core and a grid. -/
def addCharge (s : State) (e p g u : Nat) : State :=
  let s1 := modSched s fun x => { x with
    dieCharge := tset 0 x.dieCharge (dieOf e) (tget 0 x.dieCharge (dieOf e) + u)
    partCharge := tset 0 x.partCharge p (tget 0 x.partCharge p + u)
    coreCharge := tset 0 x.coreCharge (coreOf e) (tget 0 x.coreCharge (coreOf e) + u) }
  if (grid s1 g).state = .gone then s1
  else modGrid s1 g fun x => { x with charge := x.charge + u }

/-- R391: charge an event of a thread: in a cycle where a resident thread of the engine is in SPIN
the spin charge replaces every event charge. -/
def chargeThread (s : State) (t u : Nat) : State :=
  let th := tget Thread.free s.threads t
  if engineSpins s (t / 64) then s
  else addCharge s (t / 64) (grid s th.grid).part th.grid u

/-- Charge the issue of an instruction word. -/
def chargeIssue (s : State) (t : Nat) (w : Word) : State :=
  match issueEntry w with
  | some i => chargeThread s t (eventCharge s i)
  | none => s

/-- Idle charge of a fully powered compute die per window, in grains (R391). -/
def idleGrains : Nat := 443

/-- A compute die is powered (R401). -/
def diePowered (s : State) : Bool := !s.sched.gated

/-- Idle charge of one engine over a window: 6 pJ in each of 180,000 compute cycles (R391). -/
def engineIdle : Nat := 6 * 180000 * unitsPerPj

/-- A core holds a resident group. -/
def coreBusy (s : State) (c : Nat) : Bool := s.groups.any fun x => coreOf x.2.engine == c

/-- A core is powered (R401): in Trim those with a resident group, in Full every one. -/
def corePowered (s : State) (c : Nat) : Bool :=
  diePowered s && (s.sched.power != .trim || coreBusy s c)

/-- Idle grains of die `d` per window: those of the engines of its powered cores, of which a compute die
has 256, of 16 engines each (R391, R401). -/
def idleOf (s : State) (d : Nat) : Nat :=
  if 4 ≤ d ∨ !diePowered s then 0
  else if s.sched.power = .trim then
    grainsUp (16 * engineIdle *
      ((List.range 256).filter fun c => coreBusy s (256 * d + c)).length)
  else idleGrains

/-- Grids that hold a reservation. -/
def admitted (s : State) : List (Nat × Grid) :=
  s.grids.filter fun e => e.2.state == .running || e.2.state == .stopping

/-- Sum of a list of numbers. -/
def sumList (l : List Nat) : Nat := l.foldl (· + ·) 0

/-- A grid's reservation, in all and on one die (R398). -/
def gridReserve (g : Grid) : Nat := sumList (g.shares.map Prod.snd)
def gridReserveOn (g : Grid) (d : Nat) : Nat :=
  sumList ((g.shares.filter fun x => x.1 == d).map Prod.snd)

/-- Reservations of all admitted grids, of a partition and of a die (R395). -/
def reserveAll (s : State) : Nat := sumList ((admitted s).map fun e => gridReserve e.2)
def reservePart (s : State) (p : Nat) : Nat :=
  sumList (((admitted s).filter fun e => e.2.part == p).map fun e => gridReserve e.2)
def reserveDie (s : State) (d : Nat) : Nat :=
  sumList ((admitted s).map fun e => gridReserveOn e.2 d)

/-- R393: the fixed reserve. -/
def fixedReserve : Nat := 7150

/-- R393: MODULE less FIXED, of the budget in force. -/
def allowance (s : State) : Nat := s.sched.moduleBudget - fixedReserve

/-- Unthrottled budget of a die, as in force (R24, R394). -/
def dieBudget (s : State) (d : Nat) : Nat := tget (if d < 4 then 4500 else 1000) s.sched.budget d

/-- R394: a die's budget scaled by its throttle level in force. -/
def dieLevel (s : State) (d : Nat) : Nat := tget 0 s.sched.levels d
def scaledBudget (s : State) (d : Nat) : Nat := dieBudget s d * (8 - dieLevel s d) / 8

/-- What a die's budget still holds (R395). -/
def dieRemaining (s : State) (d : Nat) : Nat := scaledBudget s d - idleOf s d - reserveDie s d

/-- R399: the correction ratio of a grid's key, in 1/64. -/
def correctionOf (s : State) (p : Nat) (prog : Word) : Nat :=
  if !(reg s pwrCtl).getLsbD 0 then 64
  else match s.sched.corrections.find? fun c => c.part == p && c.prog == prog with
    | some c => c.ratio
    | none => 64

/-- A partition. -/
def partition (s : State) (p : Nat) : Partition := tget Partition.idle s.parts p

/-- Put a partition back. -/
def setPart (s : State) (p : Nat) (x : Partition) : State :=
  { s with parts := tset Partition.idle s.parts p x }

/-- Change one partition. -/
def modPart (s : State) (p : Nat) (f : Partition → Partition) : State :=
  setPart s p (f (partition s p))

/-- Engines with a resident group of a partition. -/
def partEngines (s : State) (p : Nat) : Nat :=
  (((s.groups.filter fun x => (grid s x.2.grid).part == p && decide (x.2.engine < 16384)).map
    fun x => x.2.engine).eraseDups).length

/-- Fabric cycles of a ledger window (R390). -/
def windowCycles : Nat := 150000

/-- What a partition has been charged in the window so far: its threads' events, and the idle charges
of the engines that hold its groups (R391). -/
def partSpent (s : State) (p : Nat) : Nat :=
  tget 0 s.sched.partCharge p +
    partEngines s p * (engineIdle * min windowCycles (fdTime s - s.sched.windowStart) / windowCycles)

/-- R398: an admitted grid's charge has reached its reservation. -/
def gridSpent (g : Grid) : Bool :=
  !g.shares.isEmpty && decide (gridReserve g * unitsPerGrain ≤ g.charge)

/-- R398: a partition's charge has reached its energy budget. -/
def partOverspent (s : State) (p : Nat) : Bool :=
  decide ((partition s p).energy * unitsPerGrain ≤ partSpent s p)

/-- R398: a grid is paced: it, or its partition, has spent what it may in this window. -/
def pacedNow (s : State) (g : Grid) : Bool := g.paced || gridSpent g || partOverspent s g.part

/-- R395: the effective estimate, clamped to the partition's budget. -/
def effectiveEstimate (s : State) (g : Grid) : Nat :=
  min ((g.energy * correctionOf s g.part g.prog + 63) / 64) (partition s g.part).energy

/-- Global cores that a partition holds on a die (R367). -/
def coresOn (s : State) (p d : Nat) : List Nat :=
  (s.coreOwner.filter fun e => e.2 == some p && e.1 / 256 == d && decide (e.1 < 1024)).map Prod.fst

/-- R396: candidate dies of a grid: those its dies field allows and on which its partition holds
cores; the fabric die for a FABRIC grid. -/
def candidateDies (s : State) (g : Grid) : List Nat :=
  if g.fabric then [4]
  else (List.range 4).filter fun d => g.dies.getLsbD d && !(coresOn s g.part d).isEmpty

/-- Sort key order of dies (R396): by throttle level, then by temperature, coolest first. -/
def dieBefore (s : State) (a b : Nat) : Bool :=
  decide (dieLevel s a < dieLevel s b) ||
    (dieLevel s a == dieLevel s b && decide (tget 0 s.sched.temps a ≤ tget 0 s.sched.temps b))

/-- Insert a die into a sorted list. -/
def insertDie (s : State) (d : Nat) : List Nat → List Nat
  | [] => [d]
  | x :: xs => if dieBefore s x d then x :: insertDie s d xs else d :: x :: xs

/-- Dies sorted by `dieBefore`. -/
def sortDies (s : State) : List Nat → List Nat
  | [] => []
  | d :: ds => insertDie s d (sortDies s ds)

/-- R396: the dies and the share for an estimate, trying `k` dies downward. -/
def chooseDies (s : State) (cand : List Nat) (est : Nat) : Nat → Option (List (Nat × Nat))
  | 0 => none
  | k + 1 =>
    let share := (est + k) / (k + 1)
    let fit := sortDies s (cand.filter fun d => decide (share ≤ dieRemaining s d))
    if k + 1 ≤ fit.length then some ((fit.take (k + 1)).map fun d => (d, share))
    else chooseDies s cand est k

/-- R395: the module and partition sums hold a new estimate. A FABRIC grid is checked against the
fabric die alone. -/
def sumsFit (s : State) (g : Grid) (est : Nat) : Bool :=
  g.fabric ||
    (decide (sumList ((List.range 4).map (idleOf s)) + reserveAll s + est ≤ allowance s) &&
      decide (reservePart s g.part + est ≤ (partition s g.part).energy))

/-- R395, R396: the shares a candidate would be admitted with. -/
def admission (s : State) (g : Grid) : Option (List (Nat × Nat)) :=
  let est := effectiveEstimate s g
  let cand := candidateDies s g
  if sumsFit s g est then chooseDies s cand est cand.length else none

/-- R397: an estimate that can never fit. A pre-empted grid whose partition has no cores left waits for
some (R372). -/
def neverFits (s : State) (g : Grid) : Bool :=
  let est := effectiveEstimate s g
  let cand := candidateDies s g
  if g.fabric then decide (dieBudget s 4 < est)
  else if g.state = .preempted ∧ cand = [] then false
  else decide (s.sched.moduleBudget - fixedReserve - cand.length * idleGrains < est) ||
    decide (sumList (cand.map fun d => dieBudget s d - idleGrains) < est)

/-- R399: what the ratio of a key becomes when its grid completes, rounded up to 1/64 and clamped to
1/4 to 4. -/
def newRatio (g : Grid) : Nat :=
  let e := g.energy * unitsPerGrain
  max 16 (min 256 ((g.demand * 64 + e - 1) / e))

/-- R399: update the correction table, most recently used first, 256 entries. -/
def putCorrection (l : List Correction) (c : Correction) : List Correction :=
  (c :: l.filter fun x => !(x.part == c.part && x.prog == c.prog)).take 256

/-- R399: a LAUNCH with a key of the table uses its entry. -/
def useCorrection (s : State) (g : Grid) : State :=
  modSched s fun z => match z.corrections.find? fun c => c.part == g.part && c.prog == g.prog with
    | some c => { z with corrections := putCorrection z.corrections c }
    | none => z

/-- R399: a partition's reset clears its entries of the table. -/
def dropCorrections (s : State) (p : Nat) : State :=
  modSched s fun z => { z with corrections := z.corrections.filter fun c => c.part != p }

/-- A grid leaves the scheduler: its reservation returns, and its key's ratio is updated where it
ran a full window (R398, R399). -/
def schedRelease (s : State) (n : Nat) : State :=
  let g := grid s n
  let s1 :=
    if (reg s pwrCtl).getLsbD 0 ∧ g.demand ≠ 0 ∧ g.energy ≠ 0 then
      let c : Correction := { part := g.part, prog := g.prog, ratio := newRatio g }
      modSched s fun x => { x with corrections := putCorrection x.corrections c }
    else s
  setGrid s1 n Grid.none

end Sys2Proof.Machine
end

