-- ==== Sys2Proof/Machine/EngineOps.lean ====
section
/-! DEFINITION. Operations on threads: registers, issue, stopping at a boundary, taking an exception,
and the end of groups and grids (R52 to R62, R81 to R86). -/

namespace Sys2Proof.Machine

/-- A thread, numbered 64 * engine + context. -/
def thread (s : State) (t : Nat) : Thread := tget Thread.free s.threads t

/-- Put a thread back. -/
def setThread (s : State) (t : Nat) (x : Thread) : State :=
  { s with threads := tset Thread.free s.threads t x }

/-- Change one thread. -/
def modThread (s : State) (t : Nat) (f : Thread → Thread) : State :=
  setThread s t (f (thread s t))

/-- A name, beyond every thread context, for a thread of a saved group. -/
def savedName (g idx lane : Nat) : Nat := 2 ^ 24 + (g * 2 ^ 48 + idx) * 64 + lane

/-- The saved group that a saved thread's name tells of: grid, group index and lane. -/
def savedPlace (t : Nat) : Nat × Nat × Nat :=
  let m := t - 2 ^ 24
  (m / 64 / 2 ^ 48, m / 64 % 2 ^ 48, m % 64)

/-- The saved group of a saved thread's name. -/
def savedGroupOf (s : State) (t : Nat) : Option SavedGroup :=
  let p := savedPlace t
  (grid s p.1).saved.find? fun x => x.group.index == p.2.1

/-- A thread that is resident or saved. -/
def agentThread (s : State) (t : Nat) : Thread :=
  if t < 2 ^ 24 then thread s t
  else match savedGroupOf s t with
    | some x => (x.threads.find? fun th => th.lane == (savedPlace t).2.2).getD Thread.free
    | none => Thread.free

/-- Change a thread that is resident or saved. -/
def modAgent (s : State) (t : Nat) (f : Thread → Thread) : State :=
  if t < 2 ^ 24 then modThread s t f
  else
    let p := savedPlace t
    modGrid s p.1 fun g => { g with saved := g.saved.map fun x =>
      if x.group.index = p.2.1 then
        { x with threads := x.threads.map fun th => if th.lane = p.2.2 then f th else th }
      else x }

/-- Scalar register write: a write to s0 is discarded (R57). -/
def writeS (th : Thread) (r : BitVec 5) (v : Word) : Thread :=
  if r = 0 then th else { th with s := tset 0 th.s r.toNat v }

/-- Vector register write. -/
def writeV (th : Thread) (r : BitVec 4) (v : Vec) : Thread :=
  { th with v := tset 0 th.v r.toNat v }

/-- Predicate register write: a write to p0 is discarded (R57). -/
def writeP (th : Thread) (r : BitVec 3) (v : Word) : Thread :=
  if r = 0 then th else { th with p := tset 0 th.p r.toNat v }

/-- The engine of a thread. -/
def engineOf (t : Nat) : Nat := t / 64

/-- A thread's group and grid. -/
def groupOf (s : State) (th : Thread) : Group := tget Group.none s.groups th.group
def gridOf (s : State) (th : Thread) : Grid := tget Grid.none s.grids th.grid

/-- Linear thread index within the grid: g * tpg + l. -/
def tidOf (s : State) (th : Thread) : Nat := (groupOf s th).index * (gridOf s th).tpg + th.lane

/-- The instruction word at a pc of the thread's program image (R60); none outside the image. -/
def imageWord (s : State) (t : Nat) (pc : BitVec 57) : Option Word :=
  let g := gridOf s (thread s t)
  let imgs := tget [] s.images (coreOf (engineOf t))
  match imgs.find? fun i => i.part == g.part && i.ctx == g.ctx && i.prog == g.prog &&
      i.words.length == 8 * g.psz with
  | none => none
  | some i =>
    if pc.toNat % 8 = 0 ∧ g.prog.toNat ≤ pc.toNat then i.words[(pc.toNat - g.prog.toNat) / 8]?
    else none

/-- Exception codes (R82). -/
def excCode (c : Cause) : Nat :=
  match c with
  | .illegal => 0x01 | .pcrange => 0x02 | .align => 0x03 | .lbounds => 0x04 | .canon => 0x05
  | .tacc => 0x06 | .notsync => 0x07 | .format => 0x08 | .poison => 0x09 | .net => 0x0A
  | .context => 0x0B | .trap => 0x0C | .brk => 0x0D

/-- Status of an exception (R82); NET carries the transport's own. -/
def excStatus (c : Cause) : BitVec 8 :=
  match c with
  | .illegal => 0x02 | .pcrange => 0x04 | .align => 0x04 | .lbounds => 0x04 | .canon => 0x04
  | .tacc => 0x04 | .notsync => 0x04 | .format => 0x02 | .poison => 0x0D | .net => 0x06
  | .context => 0x05 | .trap => 0x01 | .brk => 0x01

/-- The exception record (R84). -/
def excBytes (r : ExcRec) (more : Nat) : List Byte :=
  let e := engineCoords r.engine
  leBytes 8 r.pc.toNat ++ leBytes 8 r.insn.toNat ++ leBytes 8 r.tid ++ leBytes 8 r.addr.toNat ++
    [BitVec.ofNat 8 (excCode r.cause), r.status, BitVec.ofNat 8 (dieOf r.engine),
      BitVec.ofNat 8 e.2.2, BitVec.ofNat 8 e.2.1, BitVec.ofNat 8 e.1] ++ leBytes 2 0 ++
    leBytes 4 more ++ leBytes 4 0

/-- R83: write the grid's exception record, unless its address is 0 or does not translate. -/
def writeExcRec (s : State) (g : Grid) (r : ExcRec) : State :=
  if g.excrec = 0 then s
  else (writeVa s .fabric fabricUnit g.part g.ctx g.excrec.toNat (excBytes r g.more)).2

/-- Operations that wait for a walk (R118). -/
def walking (th : Thread) : Bool := th.ops.any fun o => o.phase == OpPhase.walk

/-- The clock of a thread's engine, in its cycles. -/
def engineNow (s : State) (t : Nat) : Nat := tget 0 s.clocks (if engineOf t < 16384 then 0 else 1)

/-- R86: a thread stops, and in SPIN keeps the unused part of its limit. Operations in flight stay
outstanding and drain. An ENDING thread drains to its end. -/
def stopThread (now : Nat) (th : Thread) : Thread :=
  match th.state with
  | .spin =>
    { th with state := .halted
              spin := th.spin.map fun x => { x with left := x.left - (now - x.since), since := now } }
  | .ready | .wait | .parked => { th with state := .halted }
  | _ => th

/-- Operations that have retired, although the far side has yet to acknowledge them (R78). -/
def opRetired (o : Op) : Bool := o.kind == .put || o.kind == .sigR

/-- R86: the operations in flight of a thread have delivered their data or their failure. -/
def atBoundary (th : Thread) : Bool := th.ops.all opRetired

/-- R86, R88: a thread that is to halt for debug does so at its boundary. -/
def haltThread (now : Nat) (th : Thread) : Thread :=
  if th.halting ∧ atBoundary th then
    { stopThread now th with debug := true, halting := false, stepping := false }
  else th

/-- R86, R88: halt a thread that is to halt, if it has reached its boundary. -/
def haltAtBoundary (s : State) (t : Nat) : State := modThread s t (haltThread (engineNow s t))

/-- A stopped thread goes on (R86, R88): into SPIN with the rest of its limit, back to its fence, or
to its next instruction. -/
def resumeThread (now : Nat) (th : Thread) : Thread :=
  if th.state = .halted ∧ th.cause.isNone then
    { th with
      debug := false
      spin := th.spin.map fun x => { x with since := now }
      state := if th.spin.isSome then .spin else if th.fence.isSome then .wait else .ready }
  else th

/-- Thread numbers of a grid's resident groups. -/
def gridThreads (s : State) (g : Nat) : List Nat :=
  (s.groups.filter fun e => e.2.grid == g).flatMap fun e => e.2.threads

/-- R83, R86: stop every thread of a grid. -/
def stopGridThreads (s : State) (g : Nat) : State :=
  (gridThreads s g).foldl (fun s t => modThread s t (stopThread (engineNow s t))) s

/-- A descriptor that a thread has posted has not completed (R54). -/
def moverPending (s : State) (t : Nat) : Bool :=
  (tget Mover.empty s.movers (coreOf (engineOf t))).queue.any fun d => d.thread == t

/-- R54: a thread that counts as ended or stopped, its issued operations drained. A debug-halted
thread does not (R88). -/
def threadGone (s : State) (t : Nat) : Bool :=
  let th := thread s t
  th.state == .free ||
    (th.state == .halted && !th.debug && th.ops.isEmpty && !moverPending s t)

/-- A thread waits on no fault any longer; the faults stay (R85). -/
def forgetWaiter (s : State) (t : Nat) : State :=
  { s with faults := s.faults.map fun x => (x.1, { x.2 with
      faults := x.2.faults.map fun f => { f with
        waiters := f.waiters.filter fun w => w != FaultAgent.thread t } }) }

/-- R52: release a group: its threads' contexts, its window and its accumulators. -/
def releaseGroup (s : State) (key : Nat) : State :=
  let g := tget Group.none s.groups key
  let s1 := g.threads.foldl (fun s t => setThread (forgetWaiter s t) t Thread.free) s
  let gr := grid s1 g.grid
  let s2 := setGrid s1 g.grid { gr with doneGroups := gr.doneGroups + 1 }
  { s2 with groups := tset Group.none s2.groups key Group.none }

/-- Groups of a grid by key. -/
def groupKeys (s : State) (g : Nat) : List Nat :=
  (s.groups.filter fun e => e.2.grid == g).map Prod.fst

/-- Number of groups of a grid. -/
def gridGroups (g : Grid) : Nat := g.gx * g.gy * g.gz

/-- R54, R83: complete a grid: the record's count of later exceptions, the LAUNCH completion, and
the scheduler's side. -/
def completeGrid (s : State) (n : Nat) : State :=
  let g := grid s n
  let s1 := match g.exc with
    | some r => if g.more = 0 then s else writeExcRec s g r
    | none => s
  let st : BitVec 8 := match g.exc, g.abort with
    | _, some a => a
    | some r, none => r.status
    | none, none => 0
  let s2 := (groupKeys s1 n).foldl releaseGroup s1
  let s3 := modRing s2 g.ring fun x =>
    { x with started := x.started.filter fun y => y.index != g.index }
  schedRelease (deliver s3 g.ring g.cookie g.noCqe st 0 0 0) n

/-- The ring number of a custom operator's pseudo-grid (R257), whose end Bushel collects. -/
def jobRing : Nat := 2 ^ 20

/-- R83: the operations that a saved group's threads have issued have drained. -/
def savedGone (s : State) (n : Nat) (x : SavedGroup) : Bool :=
  x.threads.all fun th => th.ops.isEmpty &&
    s.movers.all fun m => m.2.queue.all fun d => d.thread != savedName n x.group.index th.lane

/-- DBG_HALT (R88): the debug-halt event on PF0's EQ. -/
def dbgHaltEvent (s : State) (t : Nat) : State :=
  let th := thread s t
  post s (eqOf 0) 0x90 (gridOf s th).ring (BitVec.ofNat 64 (engineOf t + 65536 * (t % 64)))
    (th.pc.setWidth 64)

/-- R88: a HALT ends, and its event is posted, once every thread of the grid has stopped. -/
def settleDebug (s : State) : State :=
  match s.dbgHalt with
  | none => s
  | some (n, t) =>
    if (gridThreads s n).all fun u => (thread s u).state == .halted || (thread s u).state == .free then
      { dbgHaltEvent s t with dbgHalt := none }
    else s

/-- R54, R83: every thread of every group of a grid has ended or been stopped: groups not yet started
count unless the grid has been stopped, and saved ones then need only drain. -/
def gridDone (s : State) (n : Nat) : Bool :=
  let g := grid s n
  (g.state == .running || g.state == .stopping) && g.ring != jobRing &&
    (gridThreads s n).all (threadGone s) &&
    (if g.state = .stopping then g.saved.all (savedGone s n)
      else g.saved.isEmpty && g.nextGroup == gridGroups g)

/-- R54, R83, R88: a HALT that is over is told, and a grid whose threads have all ended completes. -/
def settleGrid (s : State) (n : Nat) : State :=
  if gridDone s n then completeGrid (settleDebug s) n else settleDebug s

/-- R81 to R84: a thread takes an exception. It becomes HALTED, and its operations in flight, those
that wait for a walk included, drain; the first exception of the grid is recorded and later ones are
counted; without EXC_MODE the rest of the grid stops. -/
def takeException (s : State) (t : Nat) (pc : BitVec 57) (word addr : Word) (c : Cause)
    (st : BitVec 8) : State :=
  let th := thread s t
  let g := grid s th.grid
  let rec_ : ExcRec :=
    { pc := pc, insn := word, tid := tidOf s th, addr := addr, cause := c, status := st
      engine := engineOf t }
  let s1 := setThread s t
    { th with state := .halted, fence := none, spin := none, debug := false, stepping := false
              halting := false, cause := some c }
  let s2 := match g.exc with
    | none =>
      let g' := { g with exc := some rec_ }
      writeExcRec (setGrid s1 th.grid g') g' rec_
    | some _ => setGrid s1 th.grid { g with more := g.more + 1 }
  let s3 := if g.excMode then s2
    else
      let s' := stopGridThreads s2 th.grid
      setGrid s' th.grid { grid s' th.grid with state := .stopping }
  settleGrid s3 th.grid

/-- What one issued instruction does: change only its thread, raise an exception with an address and
a status, change the state, wait for a unit, or wait and ask for something. -/
inductive Eff where
  | done (th : Thread)
  | exc (s : State) (c : Cause) (addr : Word) (st : BitVec 8)
  | state (s : State)
  | wait
  | ask (f : State → State)

/-- Raise an exception with the status R82 gives its cause. -/
def raise (s : State) (c : Cause) (addr : Word) : Eff := .exc s c addr (excStatus c)

/-- The registers an outstanding operation has yet to write, and its accumulator (R56). -/
def opBlocks (i : Insn) (o : Op) : Bool :=
  match o.kind with
  | .load | .sread | .atomAdd | .atomCas | .mvpost =>
    o.dst != 0 && i.useS.any fun r => r.toNat == o.dst
  | .vload | .get => i.useV.any fun r => r.toNat == o.dst
  | .tensor | .tileLoad | .tileStore =>
    match i.useT, o.acc with
    | some a, some b => a.toNat == b
    | _, _ => false
  | _ => false

/-- R56: the thread's next instruction waits for an operand, a destination or an accumulator. -/
def blocked (th : Thread) (i : Insn) : Bool := th.ops.any (opBlocks i)

/-- A thread whose next instruction may issue: READY or WAIT, no fence, walk or debug halt pending,
its grid running and not paced (R55, R398), its partition not about to be pre-empted, its core not about
to be removed (R86, R372), the device not in the fatal state (R459). -/
def mayIssue (s : State) (t : Nat) : Bool :=
  let th := thread s t
  (th.state == .ready || th.state == .wait) && th.fence.isNone && !walking th && !th.halting &&
    !pacedNow s (gridOf s th) && !(partition s (gridOf s th).part).draining &&
    !s.sched.moving.contains (coreOf (engineOf t)) && !s.err.fatal

/-- The thread after an instruction that goes on to the next word: pc + 8, READY, and the
stochastic-rounding count advanced by an instruction whose rnd is SR (R43). -/
def advance (i : Insn) (th : Thread) : Thread :=
  { th with pc := th.pc + 8, state := .ready
            srCount := if i.sr then th.srCount + 1 else th.srCount }

/-- R88: a stepped thread halts again once its instruction has come to a boundary; one that has parked
goes on with the STEP when its fault is resolved. -/
def stepEnd (now : Nat) (th : Thread) : Thread :=
  match th.state with
  | .parked => th
  | .halted | .free | .ending => { th with stepping := false }
  | _ => haltThread now { th with halting := true }

/-- R88: the end of a stepped thread's instruction. -/
def afterStep (s : State) (t : Nat) (stepping : Bool) : State :=
  if stepping then modThread s t (stepEnd (engineNow s t)) else s

/-- Issue one instruction of a thread (R56, R59 to R62, R81): `body` is given the state, the thread
before, and the thread advanced past the instruction. The command takes effect only where the word
at the thread's pc is the command's word. Which ready thread a pipe takes (R12) turns on the cycle in
which each is ready, so the command names the thread (log entry 84). -/
def issue (t : Nat) (i : Insn) (body : State → Thread → Thread → Eff) (s : State) : State :=
  let th := thread s t
  if !mayIssue s t then s
  else match imageWord s t th.pc with
  | none => takeException s t th.pc 0 (th.pc.setWidth 64) .pcrange (excStatus .pcrange)
  | some w =>
    if opcodeReserved w then takeException s t th.pc w 0 .illegal (excStatus .illegal)
    else if w ≠ i.word then s
    else if i.illegal then takeException s t th.pc w 0 .illegal (excStatus .illegal)
    else if blocked th i then setThread s t { th with state := .wait }
    else
      let th' := advance i th
      let sc := chargeIssue s t w
      if !gateOpen th i then afterStep (setThread sc t th') t th.stepping
      else match body sc th th' with
        | .done x => afterStep (setThread sc t x) t th.stepping
        | .exc x c a st => takeException x t th.pc (if c = .pcrange then 0 else w) a c st
        | .state x => afterStep x t th.stepping
        | .wait => setThread s t { th with state := .wait }
        | .ask g => setThread (g s) t { th with state := .wait }

/-- An instruction that changes only its thread's registers. -/
def issueReg (t : Nat) (i : Insn) (f : Thread → Thread → Thread) (s : State) : State :=
  issue t i (fun _ th th' => .done (f th th')) s

/-- An outstanding operation by id. -/
def findOp (th : Thread) (id : Nat) : Option Op := th.ops.find? fun o => o.id == id

/-- Drop an operation. -/
def dropOp (th : Thread) (id : Nat) : Thread :=
  { th with ops := th.ops.filter fun o => o.id != id }

/-- Replace an operation. -/
def putOp (th : Thread) (o : Op) : Thread :=
  { th with ops := th.ops.map fun x => if x.id = o.id then o else x }

/-- Add an operation. -/
def pushOp (th : Thread) (o : Op) : Thread :=
  { th with ops := th.ops ++ [{ o with id := th.nextOp }], nextOp := th.nextOp + 1 }

/-- A new operation of the instruction at the thread's pc. -/
def newOp (th : Thread) (i : Insn) (k : OpKind) (va : Word) (size : Nat) (dst : Nat) : Op :=
  { id := th.nextOp, kind := k, phase := .flight, pc := th.pc, word := i.word, va := va, pa := 0
    size := size, sext := false, dst := dst, acc := none, x := 0, y := 0, data := [], fail := none
    answer := none }

end Sys2Proof.Machine
end

