-- ==== Sys2Proof/Machine/Scalar.lean ====
section
/-! DEFINITION. Scalar, constant, compare, branch and jump instructions (R64, R65) and mask
instructions on whole predicates (R73). -/

namespace Sys2Proof.Machine

/-- Outcome of a command of this model. -/
abbrev Res := Host.Outcome State Fault Refusal

/-- The sign-extended immediate of format I (R61). -/
def simm (f : IForm) : Word := f.imm.signExtend 64

/-- Number of set bits. -/
def popCount (x : Word) : Nat := ((List.range 64).filter fun i => x.getLsbD i).length

/-- Leading zeros; 64 for zero (R64). -/
def leadingZeros (x : Word) : Nat := if x = 0 then 64 else 63 - Nat.log2 x.toNat

/-- Index of the lowest set bit; 64 for zero (R64, R73). -/
def lowestSet (x : Word) : Nat :=
  match (List.range 64).find? fun i => x.getLsbD i with
  | some i => i
  | none => 64

/-- Signed minimum and maximum. -/
def minS (a b : Word) : Word := if a.slt b then a else b
def maxS (a b : Word) : Word := if a.slt b then b else a
def minU (a b : Word) : Word := if a.ult b then a else b
def maxU (a b : Word) : Word := if a.ult b then b else a

/-- High halves of 128-bit products (R64). -/
def mulHiS (a b : Word) : Word := BitVec.ofInt 64 (a.toInt * b.toInt / 2 ^ 64)
def mulHiU (a b : Word) : Word := BitVec.ofNat 64 (a.toNat * b.toNat / 2 ^ 64)

/-- R64: quotient of a division by zero is all ones; -2^63 by -1 gives -2^63. -/
def divS (a b : Word) : Word := if b = 0 then BitVec.allOnes 64 else a.sdiv b
def divU (a b : Word) : Word := if b = 0 then BitVec.allOnes 64 else a / b

/-- R64: remainder of a division by zero is the dividend; -2^63 by -1 gives 0. -/
def remS (a b : Word) : Word := if b = 0 then a else a.srem b
def remU (a b : Word) : Word := if b = 0 then a else a % b

/-- Shifts by the low six bits (R64). -/
def shl6 (a b : Word) : Word := a <<< (bits b 0 6)
def shr6 (a b : Word) : Word := a >>> (bits b 0 6)
def sar6 (a b : Word) : Word := a.sshiftRight (bits b 0 6)

/-- A format R instruction that writes rd from ra and rb. -/
def aluR (major minor : BitVec 6) (op : Word → Word → Word) (t : Nat) (f : RForm) (s : State) :
    State :=
  issueReg t (insnR major minor true true true false false f)
    (fun th th' => writeS th' f.rd (op (readS th f.ra) (readS th f.rb))) s

/-- A format R instruction that writes rd from ra alone. -/
def aluR1 (minor : BitVec 6) (op : Word → Word) (t : Nat) (f : RForm) (s : State) : State :=
  issueReg t (insnR 0x01 minor true true false false false f)
    (fun th th' => writeS th' f.rd (op (readS th f.ra))) s

/-- A format I instruction that writes rd from ra and the immediate. -/
def aluI (minor : BitVec 6) (op : Word → Word → Word) (t : Nat) (f : IForm) (s : State) : State :=
  issueReg t (insnI 0x02 minor .scalar true f)
    (fun th th' => writeS th' f.rd (op (readS th f.ra) (simm f))) s

/-- A shift by an immediate, ILLEGAL above 63 (R62). -/
def shiftI (minor : BitVec 6) (op : Word → Word → Word) (t : Nat) (f : IForm) (s : State) : State :=
  let i := insnI 0x02 minor .scalar true f
  issueReg t { i with illegal := i.illegal || decide (63 < f.imm.toNat) }
    (fun th th' => writeS th' f.rd (op (readS th f.ra) (simm f))) s

/-- A comparison of registers into a predicate. -/
def cmpR (minor : BitVec 6) (op : Word → Word → Bool) (t : Nat) (f : RForm) (s : State) : State :=
  issueReg t (insnR 0x05 minor true true true false true f)
    (fun th th' => writeP th' (f.rd.setWidth 3) (predOf (op (readS th f.ra) (readS th f.rb)))) s

/-- A comparison with the immediate into a predicate. -/
def cmpI (minor : BitVec 6) (op : Word → Word → Bool) (t : Nat) (f : IForm) (s : State) : State :=
  issueReg t (insnI 0x05 minor .predicate true f)
    (fun th th' => writeP th' (f.rd.setWidth 3) (predOf (op (readS th f.ra) (simm f)))) s

/-- R65: pc + 8 * off38. -/
def branchTarget (th : Thread) (f : BForm) : BitVec 57 := th.pc + (f.off.signExtend 57 <<< 3)

/-- A conditional branch. -/
def branch (minor : BitVec 6) (op : Word → Word → Bool) (t : Nat) (f : BForm) (s : State) : State :=
  issueReg t (insnB 0x08 minor true true f)
    (fun th th' =>
      if op (readS th f.ra) (readS th f.rb) then { th' with pc := branchTarget th f } else th') s

/-- R65: a jump to an address: ALIGN unless a multiple of 8; an address that no pc can hold lies
outside the image. -/
def jumpTo (s : State) (th : Thread) (a : Word) : Eff :=
  if bits a 0 3 ≠ 0 then raise s .align a
  else if bits a 57 7 ≠ 0 then raise s .pcrange a
  else .done { th with pc := a.setWidth 57 }

/-- A mask instruction that writes pd from pa and pb. -/
def maskOp (minor : BitVec 6) (op : Word → Word → Word) (t : Nat) (f : PForm) (s : State) : State :=
  issueReg t (insnP minor true true true false false f)
    (fun th th' => writeP th' f.pd (op (readP th f.pa) (readP th f.pb))) s

/-- `add` (R64). -/
def execAdd (t : Nat) (f : RForm) (s : State) : Res :=
  .next (aluR 0x01 0x00 (· + ·) t f s)

/-- `sub` (R64). -/
def execSub (t : Nat) (f : RForm) (s : State) : Res :=
  .next (aluR 0x01 0x01 (· - ·) t f s)

/-- `and` (R64). -/
def execAnd (t : Nat) (f : RForm) (s : State) : Res :=
  .next (aluR 0x01 0x02 (· &&& ·) t f s)

/-- `or` (R64). -/
def execOr (t : Nat) (f : RForm) (s : State) : Res :=
  .next (aluR 0x01 0x03 (· ||| ·) t f s)

/-- `xor` (R64). -/
def execXor (t : Nat) (f : RForm) (s : State) : Res :=
  .next (aluR 0x01 0x04 (· ^^^ ·) t f s)

/-- `shl` (R64). -/
def execShl (t : Nat) (f : RForm) (s : State) : Res :=
  .next (aluR 0x01 0x05 shl6 t f s)

/-- `shr` (R64). -/
def execShr (t : Nat) (f : RForm) (s : State) : Res :=
  .next (aluR 0x01 0x06 shr6 t f s)

/-- `sar` (R64). -/
def execSar (t : Nat) (f : RForm) (s : State) : Res :=
  .next (aluR 0x01 0x07 sar6 t f s)

/-- `min` (R64). -/
def execMin (t : Nat) (f : RForm) (s : State) : Res :=
  .next (aluR 0x01 0x08 minS t f s)

/-- `max` (R64). -/
def execMax (t : Nat) (f : RForm) (s : State) : Res :=
  .next (aluR 0x01 0x09 maxS t f s)

/-- `minu` (R64). -/
def execMinu (t : Nat) (f : RForm) (s : State) : Res :=
  .next (aluR 0x01 0x0A minU t f s)

/-- `maxu` (R64). -/
def execMaxu (t : Nat) (f : RForm) (s : State) : Res :=
  .next (aluR 0x01 0x0B maxU t f s)

/-- `slt` (R64). -/
def execSlt (t : Nat) (f : RForm) (s : State) : Res :=
  .next (aluR 0x01 0x0C (fun a b => bit01 (a.slt b)) t f s)

/-- `sltu` (R64). -/
def execSltu (t : Nat) (f : RForm) (s : State) : Res :=
  .next (aluR 0x01 0x0D (fun a b => bit01 (a.ult b)) t f s)

/-- `popc` (R64). -/
def execPopc (t : Nat) (f : RForm) (s : State) : Res :=
  .next (aluR1 0x0E (fun x => BitVec.ofNat 64 (popCount x)) t f s)

/-- `clz` (R64). -/
def execClz (t : Nat) (f : RForm) (s : State) : Res :=
  .next (aluR1 0x0F (fun x => BitVec.ofNat 64 (leadingZeros x)) t f s)

/-- `ctz` (R64). -/
def execCtz (t : Nat) (f : RForm) (s : State) : Res :=
  .next (aluR1 0x10 (fun x => BitVec.ofNat 64 (lowestSet x)) t f s)

/-- `addi` (R64). -/
def execAddi (t : Nat) (f : IForm) (s : State) : Res :=
  .next (aluI 0x00 (· + ·) t f s)

/-- `subi` (R64). -/
def execSubi (t : Nat) (f : IForm) (s : State) : Res :=
  .next (aluI 0x01 (· - ·) t f s)

/-- `andi` (R64). -/
def execAndi (t : Nat) (f : IForm) (s : State) : Res :=
  .next (aluI 0x02 (· &&& ·) t f s)

/-- `ori` (R64). -/
def execOri (t : Nat) (f : IForm) (s : State) : Res :=
  .next (aluI 0x03 (· ||| ·) t f s)

/-- `xori` (R64). -/
def execXori (t : Nat) (f : IForm) (s : State) : Res :=
  .next (aluI 0x04 (· ^^^ ·) t f s)

/-- `shli` (R64, R62). -/
def execShli (t : Nat) (f : IForm) (s : State) : Res :=
  .next (shiftI 0x05 shl6 t f s)

/-- `shri` (R64, R62). -/
def execShri (t : Nat) (f : IForm) (s : State) : Res :=
  .next (shiftI 0x06 shr6 t f s)

/-- `sari` (R64, R62). -/
def execSari (t : Nat) (f : IForm) (s : State) : Res :=
  .next (shiftI 0x07 sar6 t f s)

/-- `mini` (R64). -/
def execMini (t : Nat) (f : IForm) (s : State) : Res :=
  .next (aluI 0x08 minS t f s)

/-- `maxi` (R64). -/
def execMaxi (t : Nat) (f : IForm) (s : State) : Res :=
  .next (aluI 0x09 maxS t f s)

/-- `minui` (R64). -/
def execMinui (t : Nat) (f : IForm) (s : State) : Res :=
  .next (aluI 0x0A minU t f s)

/-- `maxui` (R64). -/
def execMaxui (t : Nat) (f : IForm) (s : State) : Res :=
  .next (aluI 0x0B maxU t f s)

/-- `slti` (R64). -/
def execSlti (t : Nat) (f : IForm) (s : State) : Res :=
  .next (aluI 0x0C (fun a b => bit01 (a.slt b)) t f s)

/-- `sltui` (R64). -/
def execSltui (t : Nat) (f : IForm) (s : State) : Res :=
  .next (aluI 0x0D (fun a b => bit01 (a.ult b)) t f s)

/-- `mul` (R64). -/
def execMul (t : Nat) (f : RForm) (s : State) : Res :=
  .next (aluR 0x03 0x00 (· * ·) t f s)

/-- `mulh` (R64). -/
def execMulh (t : Nat) (f : RForm) (s : State) : Res :=
  .next (aluR 0x03 0x01 mulHiS t f s)

/-- `mulhu` (R64). -/
def execMulhu (t : Nat) (f : RForm) (s : State) : Res :=
  .next (aluR 0x03 0x02 mulHiU t f s)

/-- `madd` (R64): ra * rb + rc, low 64 bits. -/
def execMadd (t : Nat) (f : RForm) (s : State) : Res :=
  .next (issueReg t (insnR 0x03 0x03 true true true true false f)
    (fun th th' => writeS th' f.rd (readS th f.ra * readS th f.rb + readS th f.rc)) s)

/-- `div` (R64). -/
def execDiv (t : Nat) (f : RForm) (s : State) : Res :=
  .next (aluR 0x03 0x04 divS t f s)

/-- `divu` (R64). -/
def execDivu (t : Nat) (f : RForm) (s : State) : Res :=
  .next (aluR 0x03 0x05 divU t f s)

/-- `rem` (R64). -/
def execRem (t : Nat) (f : RForm) (s : State) : Res :=
  .next (aluR 0x03 0x06 remS t f s)

/-- `remu` (R64). -/
def execRemu (t : Nat) (f : RForm) (s : State) : Res :=
  .next (aluR 0x03 0x07 remU t f s)

/-- `movi` (R64): imm43, sign-extended. -/
def execMovi (t : Nat) (f : WForm) (s : State) : Res :=
  .next (issueReg t (insnW 0x04 0x00 f) (fun _ th' => writeS th' f.rd (f.imm.signExtend 64)) s)

/-- `movh` (R64): replaces rd[63:43] with imm43[20:0]; ILLEGAL unless imm43[42:21] is 0 (R62). -/
def execMovh (t : Nat) (f : WForm) (s : State) : Res :=
  let i := insnW 0x04 0x01 f
  .next (issueReg t { i with illegal := f.imm.extractLsb' 21 22 != 0 }
    (fun th th' => writeS th' f.rd (f.imm.extractLsb' 0 21 ++ (readS th f.rd).extractLsb' 0 43)) s)

/-- `cmp.eq` (R64). -/
def execCmpEq (t : Nat) (f : RForm) (s : State) : Res :=
  .next (cmpR 0x00 (fun a b => a == b) t f s)

/-- `cmp.ne` (R64). -/
def execCmpNe (t : Nat) (f : RForm) (s : State) : Res :=
  .next (cmpR 0x01 (fun a b => a != b) t f s)

/-- `cmp.lt` (R64). -/
def execCmpLt (t : Nat) (f : RForm) (s : State) : Res :=
  .next (cmpR 0x02 (fun a b => a.slt b) t f s)

/-- `cmp.ge` (R64). -/
def execCmpGe (t : Nat) (f : RForm) (s : State) : Res :=
  .next (cmpR 0x03 (fun a b => !a.slt b) t f s)

/-- `cmp.ltu` (R64). -/
def execCmpLtu (t : Nat) (f : RForm) (s : State) : Res :=
  .next (cmpR 0x04 (fun a b => a.ult b) t f s)

/-- `cmp.geu` (R64). -/
def execCmpGeu (t : Nat) (f : RForm) (s : State) : Res :=
  .next (cmpR 0x05 (fun a b => !a.ult b) t f s)

/-- `cmpi.eq` (R64). -/
def execCmpiEq (t : Nat) (f : IForm) (s : State) : Res :=
  .next (cmpI 0x10 (fun a b => a == b) t f s)

/-- `cmpi.ne` (R64). -/
def execCmpiNe (t : Nat) (f : IForm) (s : State) : Res :=
  .next (cmpI 0x11 (fun a b => a != b) t f s)

/-- `cmpi.lt` (R64). -/
def execCmpiLt (t : Nat) (f : IForm) (s : State) : Res :=
  .next (cmpI 0x12 (fun a b => a.slt b) t f s)

/-- `cmpi.ge` (R64). -/
def execCmpiGe (t : Nat) (f : IForm) (s : State) : Res :=
  .next (cmpI 0x13 (fun a b => !a.slt b) t f s)

/-- `cmpi.ltu` (R64). -/
def execCmpiLtu (t : Nat) (f : IForm) (s : State) : Res :=
  .next (cmpI 0x14 (fun a b => a.ult b) t f s)

/-- `cmpi.geu` (R64). -/
def execCmpiGeu (t : Nat) (f : IForm) (s : State) : Res :=
  .next (cmpI 0x15 (fun a b => !a.ult b) t f s)

/-- `beq` (R65). -/
def execBeq (t : Nat) (f : BForm) (s : State) : Res :=
  .next (branch 0x00 (fun a b => a == b) t f s)

/-- `bne` (R65). -/
def execBne (t : Nat) (f : BForm) (s : State) : Res :=
  .next (branch 0x01 (fun a b => a != b) t f s)

/-- `blt` (R65). -/
def execBlt (t : Nat) (f : BForm) (s : State) : Res :=
  .next (branch 0x02 (fun a b => a.slt b) t f s)

/-- `bge` (R65). -/
def execBge (t : Nat) (f : BForm) (s : State) : Res :=
  .next (branch 0x03 (fun a b => !a.slt b) t f s)

/-- `bltu` (R65). -/
def execBltu (t : Nat) (f : BForm) (s : State) : Res :=
  .next (branch 0x04 (fun a b => a.ult b) t f s)

/-- `bgeu` (R65). -/
def execBgeu (t : Nat) (f : BForm) (s : State) : Res :=
  .next (branch 0x05 (fun a b => !a.ult b) t f s)

/-- `br` (R65). -/
def execBr (t : Nat) (f : BForm) (s : State) : Res :=
  .next (issueReg t (insnB 0x09 0x00 false false f)
    (fun th th' => { th' with pc := branchTarget th f }) s)

/-- `jal` (R65): pc + 8 to ra, then the branch. -/
def execJal (t : Nat) (f : BForm) (s : State) : Res :=
  .next (issueReg t (insnB 0x09 0x01 true false f)
    (fun th th' =>
      writeS { th' with pc := branchTarget th f } f.ra ((th.pc + 8).setWidth 64)) s)

/-- `jr` (R65): jumps to the address in ra. -/
def execJr (t : Nat) (f : BForm) (s : State) : Res :=
  .next (issue t (insnB 0x09 0x02 true false f)
    (fun s th th' => jumpTo s th' (readS th f.ra)) s)

/-- `jalr` (R65): pc + 8 to ra, and a jump to the address rb held before. -/
def execJalr (t : Nat) (f : BForm) (s : State) : Res :=
  .next (issue t (insnB 0x09 0x03 true true f)
    (fun s th th' => jumpTo s (writeS th' f.ra ((th.pc + 8).setWidth 64)) (readS th f.rb)) s)

/-- `pand` (R73). -/
def execPand (t : Nat) (f : PForm) (s : State) : Res :=
  .next (maskOp 0x00 (· &&& ·) t f s)

/-- `por` (R73). -/
def execPor (t : Nat) (f : PForm) (s : State) : Res :=
  .next (maskOp 0x01 (· ||| ·) t f s)

/-- `pxor` (R73). -/
def execPxor (t : Nat) (f : PForm) (s : State) : Res :=
  .next (maskOp 0x02 (· ^^^ ·) t f s)

/-- `pandn` (R73). -/
def execPandn (t : Nat) (f : PForm) (s : State) : Res :=
  .next (maskOp 0x03 (fun a b => a &&& ~~~b) t f s)

/-- `pnot` (R73). -/
def execPnot (t : Nat) (f : PForm) (s : State) : Res :=
  .next (issueReg t (insnP 0x04 true true false false false f)
    (fun th th' => writeP th' f.pd (~~~(readP th f.pa))) s)

/-- `pmov` (R73): copies ra to pd. -/
def execPmov (t : Nat) (f : PForm) (s : State) : Res :=
  .next (issueReg t (insnP 0x05 true false false false true f)
    (fun th th' => writeP th' f.pd (readS th f.ra)) s)

/-- `pget` (R73): copies pa to rd. -/
def execPget (t : Nat) (f : PForm) (s : State) : Res :=
  .next (issueReg t (insnP 0x06 false true false true false f)
    (fun th th' => writeS th' f.rd (readP th f.pa)) s)

/-- `ppopc` (R73). -/
def execPpopc (t : Nat) (f : PForm) (s : State) : Res :=
  .next (issueReg t (insnP 0x07 false true false true false f)
    (fun th th' => writeS th' f.rd (BitVec.ofNat 64 (popCount (readP th f.pa)))) s)

/-- `pfirst` (R73): 64 when pa is zero. -/
def execPfirst (t : Nat) (f : PForm) (s : State) : Res :=
  .next (issueReg t (insnP 0x08 false true false true false f)
    (fun th th' => writeS th' f.rd (BitVec.ofNat 64 (lowestSet (readP th f.pa)))) s)

end Sys2Proof.Machine
end

