-- ==== Sys2Proof/Machine/LocalOps.lean ====
section
/-! DEFINITION. Local store as a thread sees it: its window, the checks on an access, operand tiles
of tensor instructions in flight, and packed elements (R52, R66, R67, R94, R102, R109). -/

namespace Sys2Proof.Machine

/-- Physical address of a window offset of a thread's group (R52, R112). -/
def windowPa (s : State) (th : Thread) (off : Nat) : Nat :=
  localPa (groupOf s th).engine ((groupOf s th).winBase + off)

/-- R66, R82: the first check that a local access of `n` bytes fails: alignment to `a`, then the
window. -/
def checkLocal (s : State) (th : Thread) (addr : Word) (n a : Nat) : Option Cause :=
  if addr.toNat % a ≠ 0 then some .align
  else if 2 ^ 15 ≤ addr.toNat ∨ (groupOf s th).winSize < addr.toNat + n then some .lbounds
  else none

/-- Bytes of one record of a dense tile (R94) and of a compressed one (R102). -/
def recordStride (f : Fmt) : Nat := 64 * fmtWidth f / 8
def sparseStride (f : Fmt) : Nat := recordStride f / 2

/-- Bytes of a tile: 64 records, and 128 scale bytes for an MX format (R94, R102). -/
def tileBytes (stride : Nat) (f : Fmt) : Nat := 64 * stride + (if fmtIsMx f then 128 else 0)

/-- Format and minor opcode of a tensor instruction's word (R61). -/
def tensorFmtA (w : Word) : Fmt := (fmtOfCode (w.extractLsb' 26 4)).getD .fp32
def tensorFmtB (w : Word) : Fmt := (fmtOfCode (w.extractLsb' 22 4)).getD .fp32
def tensorMinor (w : Word) : Nat := bits w 48 6

/-- Window ranges that a tensor multiply reads: A, B and its metadata or mask (R95, R102, R103,
R105). -/
def multiplyRanges (o : Op) : List (Nat × Nat) :=
  let fa := tensorFmtA o.word
  let m := tensorMinor o.word
  let sa := if m = 1 ∨ m = 2 then sparseStride fa else recordStride fa
  [(o.x.toNat, tileBytes sa fa), (o.y.toNat, tileBytes (recordStride (tensorFmtB o.word))
    (tensorFmtB o.word))] ++
    (if m = 0 then [] else [(o.va.toNat, if m = 3 then 8 else 512)])

/-- Two ranges of one engine's local store overlap. -/
def overlaps (a n b m : Nat) : Bool := decide (a < b + m ∧ b < a + n)

/-- Operations in flight of the threads resident on an engine, with the base of their window. -/
def engineOps (s : State) (e : Nat) : List (Nat × Op) :=
  (List.range 64).flatMap fun k =>
    let th := thread s (64 * e + k)
    th.ops.map fun o => ((groupOf s th).winBase, o)

/-- R67, R109: a store of `n` bytes at engine offset `off` overlaps bytes that a multiply in
flight reads, or bytes that a `tld` in flight has yet to read. -/
def storeMustWait (s : State) (e off n : Nat) : Bool :=
  (engineOps s e).any fun bo =>
    match bo.2.kind with
    | .tensor => (multiplyRanges bo.2).any fun r => overlaps off n (bo.1 + r.1) r.2
    | .tileLoad | .tileStore => overlaps off n (bo.1 + bo.2.va.toNat) bo.2.size
    | _ => false

/-- R67: a read of `n` bytes at engine offset `off` overlaps bytes that a `tst` in flight has yet
to write. -/
def readMustWait (s : State) (e off n : Nat) : Bool :=
  (engineOps s e).any fun bo =>
    match bo.2.kind with
    | .tileStore => overlaps off n (bo.1 + bo.2.va.toNat) bo.2.size
    | _ => false

/-- Read window bytes of a thread: the flag says that a word reads as poison. -/
def readWindow (s : State) (th : Thread) (off n : Nat) : Bool × List Byte × State :=
  readMem s (windowPa s th off) n

/-- Write window bytes of a thread. -/
def writeWindow (s : State) (th : Thread) (off : Nat) (bs : List Byte) : State :=
  writeMem s (windowPa s th off) bs

/-- The value of a scalar load's bytes (R66). -/
def loadValue (sext : Bool) (bs : List Byte) : Word :=
  let v := leNat bs
  if sext then (BitVec.ofNat 64 v <<< (64 - 8 * bs.length)).sshiftRight (64 - 8 * bs.length)
  else BitVec.ofNat 64 v

end Sys2Proof.Machine
end

