-- ==== Sys2Proof/Machine/Global.lean ====
section
/-! DEFINITION. Operations of a thread that leave its engine: translation, parking, and what the
access then does (R66, R68, R75, R81, R85, R119, R123). -/

namespace Sys2Proof.Machine

/-- Little-endian field of a mover descriptor (R130). -/
def descField (bs : List Byte) (off n : Nat) : Nat := leNat ((bs.drop off).take n)

/-- R68: the first bytes of a descriptor that `mvpost` translates, with whether each is written. An
address that is not canonical has no translation; its descriptor is malformed (R131, log entry 66). -/
def postTargets (bs : List Byte) : List (Nat × Bool) :=
  let op := descField bs 0 1
  let sloc := (bs.getD 1 0).getLsbD 0
  let dloc := (bs.getD 1 0).getLsbD 1
  let sides : List (Nat × Bool) :=
    (if (op == 1 || op == 3 || op == 4) && !sloc then [(descField bs 8 8, false)] else []) ++
      (if (op == 1 || op == 2 || op == 3 || op == 5) && !dloc then [(descField bs 16 8, true)] else [])
  sides.filter fun x => decide (x.1 < 2 ^ 57)

/-- Slots of a core's mover queue (R68). -/
def moverSlots : Nat := 256

/-- A core's mover. -/
def mover (s : State) (c : Nat) : Mover := tget Mover.empty s.movers c

/-- Put a core's mover back. -/
def setMover (s : State) (c : Nat) (m : Mover) : State :=
  { s with movers := tset Mover.empty s.movers c m }

/-- R68: a descriptor is accepted into the core's queue, and rd receives ST_OK. -/
def acceptDesc (s : State) (t : Nat) (o : Op) : State :=
  let th := thread s t
  let c := coreOf (engineOf t)
  let m := mover s c
  let g := gridOf s th
  let d : MoverDesc :=
    { id := m.nextId, thread := t, grid := th.grid, part := g.part, ctx := g.ctx
      engine := engineOf t, winBase := (groupOf s th).winBase, winSize := (groupOf s th).winSize
      bytes := o.data, running := false, done := 0, stalled := false, poisoned := false
      remote := false, statBad := false, statDone := false, syncBad := false, result := none, err := none
      errAddr := 0 }
  let s1 := setMover s c { queue := m.queue ++ [d], nextId := m.nextId + 1 }
  setThread s1 t (writeS th (BitVec.ofNat 5 o.dst) 0)

/-- What an access of an operation of this kind is (R112, R118). -/
def opAccess (k : OpKind) : AccessKind :=
  match k with
  | .sig | .sread | .wait | .take => .sync
  | .mvpost => .post
  | _ => .engine

/-- The right an operation needs: WR for a store, `sig` and `take` (R75). -/
def opWrites (o : Op) : Bool :=
  match o.kind with
  | .store | .vstore | .sig | .take => true
  | .mvpost => ((postTargets o.data)[o.size]?.map Prod.snd).getD false
  | _ => false

/-- The address an operation is translating; a descriptor's `size` counts the bytes done. -/
def opVa (o : Op) : Nat :=
  match o.kind with
  | .mvpost => ((postTargets o.data)[o.size]?.map Prod.fst).getD 0
  | _ => o.va.toNat

/-- R85: the translation of a thread's operation failed: a fault is raised, the thread is PARKED at
the instruction, and nothing of it has taken effect. A thread that has been stopped meanwhile stays
so, and resolving the fault has no effect on it. -/
def park (s : State) (t : Nat) (o : Op) (cause : XlateCause) : State :=
  let th := thread s t
  let g := gridOf s th
  let stopped := th.state == .halted
  let s1 := setThread s t
    { th with state := if stopped then .halted else .parked
              pc := o.pc, spin := none, halting := th.halting && !th.stepping
              ops := th.ops.filter fun x => x.phase != OpPhase.walk }
  let s2 := raiseFault s1 g.part g.ctx (opVa o) cause (opWrites o) 0 (.thread t)
  if stopped then forgetWaiter s2 t else s2

/-- The operation's translation has completed at `pa`: it goes to its target. A store takes effect,
a load, `sig` or `sread` is in flight, `wait.ge` and `take` enter SPIN, and an address that is no
sync object raises NOTSYNC (R66, R75). -/
def goTo (s : State) (t : Nat) (o : Op) (pa : Nat) : State :=
  let th := thread s t
  let isSync := o.kind == .sig || o.kind == .sread || o.kind == .wait || o.kind == .take
  if isSync ∧ regionOf pa ≠ .syncObj then
    takeException s t o.pc o.word o.va .notsync (excStatus .notsync)
  else match o.kind with
  | .store | .vstore => writeMem s pa o.data
  | .wait | .take =>
    if th.state = .halted then s
    else setThread s t { th with
      state := .spin
      spin := some { take := o.kind == .take, va := o.va, pa := pa, target := o.x
                     dst := BitVec.ofNat 5 o.dst, left := o.size, since := engineNow s t
                     stale := false, pc := o.pc, word := o.word } }
  | _ => setThread s t (pushOp th { o with phase := .flight, pa := pa })

/-- R126: a store at a physical address whose bytes an earlier load of the thread, still in flight,
has yet to read: it waits, as for a walk. -/
def loadOverlap (th : Thread) (o : Op) (pa : Nat) : Bool :=
  (o.kind == .store || o.kind == .vstore) && th.ops.any fun l =>
    (l.kind == .load || l.kind == .vload) && l.phase == .flight && l.fail.isNone &&
      overlaps pa o.size l.pa l.size

/-- Translate and start an operation, whose thread has already been advanced: a hit in the cluster
router's cache goes on at once; a miss waits for a walk (R119). `n` bounds the first bytes of a
descriptor. -/
def startOp (s : State) (t : Nat) (o : Op) : Nat → State
  | 0 => s
  | n + 1 =>
    if o.kind = .mvpost ∧ (postTargets o.data).length ≤ o.size then acceptDesc s t o
    else
      let th := thread s t
      let g := gridOf s th
      match cachedAccess s (opAccess o.kind) (clusterOf (engineOf t)) g.part g.ctx (opVa o)
          (opWrites o) with
      | none => setThread s t (pushOp { th with state := .wait } { o with phase := .walk })
      | some (.error c, s1) => park s1 t o c
      | some (.ok pa, s1) =>
        if o.kind = .mvpost then startOp s1 t { o with size := o.size + 1 } n
        else if loadOverlap th o pa then
          setThread s1 t (pushOp { th with state := .wait } { o with phase := .walk })
        else goTo s1 t o pa

/-- R66: the checks on a global address: alignment, then canonical form. -/
def checkGlobal (addr : Word) (n : Nat) : Option Cause :=
  if addr.toNat % n ≠ 0 then some .align
  else if bits addr 57 7 ≠ 0 then some .canon
  else none

/-- An operation of a thread has completed: a thread that is to halt may have reached its boundary
(R86), and the grid of a stopped one may complete (R83). -/
def settleThread (s : State) (t : Nat) : State :=
  settleGrid (haltAtBoundary s t) (thread s t).grid

/-- PAGE_WALK (R118, R119, R123): the walk that a thread waits for completes: the cache is filled and
the operation goes on, or the fault is raised and the thread parks. -/
def pageWalk (s : State) (t : Nat) : State :=
  let th := thread s t
  match th.ops.find? fun o => o.phase == OpPhase.walk with
  | none => s
  | some o =>
    let g := gridOf s th
    let th1 := { th with ops := th.ops.filter fun x => x.phase != OpPhase.walk
                         state := if th.state = .wait then .ready else th.state }
    let r := walkAccess s (opAccess o.kind) (clusterOf (engineOf t)) g.part g.ctx (opVa o)
      (opWrites o)
    match r.1 with
    | .error c => settleThread (park r.2 t o c) t
    | .ok pa =>
      if loadOverlap th o pa then r.2
      else
        let s1 := setThread r.2 t th1
        settleThread (if o.kind = .mvpost then startOp s1 t { o with size := o.size + 1 } 2
          else goTo s1 t o pa) t

end Sys2Proof.Machine
end

