-- ==== Sys2Proof/Machine/LoadStore.lean ====
section
/-! DEFINITION. Local and global loads and stores, and mover posts (R66 to R68, R81). -/

namespace Sys2Proof.Machine

/-- The address ra + imm32. -/
def effAddr (th : Thread) (f : IForm) : Word := readS th f.ra + simm f

/-- A local load of `n` bytes into a scalar register. -/
def localLoad (minor : BitVec 6) (n : Nat) (sext : Bool) (t : Nat) (f : IForm) (s : State) : State :=
  issue t (insnI 0x0C minor .scalar true f)
    (fun s th th' =>
      let a := effAddr th f
      match checkLocal s th a n n with
      | some c => raise s c a
      | none =>
        if readMustWait s (engineOf t) ((groupOf s th).winBase + a.toNat) n then .wait
        else
          let r := readWindow s th a.toNat n
          if r.1 then raise r.2.2 .poison a
          else .state (setThread r.2.2 t (writeS th' f.rd (loadValue sext r.2.1)))) s

/-- A local store of the low `n` bytes of rd. -/
def localStore (minor : BitVec 6) (n : Nat) (t : Nat) (f : IForm) (s : State) : State :=
  issue t (insnI 0x0D minor .scalar true f)
    (fun s th th' =>
      let a := effAddr th f
      match checkLocal s th a n n with
      | some c => raise s c a
      | none =>
        if storeMustWait s (engineOf t) ((groupOf s th).winBase + a.toNat) n then .wait
        else .state (writeWindow (setThread s t th') th a.toNat (leBytes n (readS th f.rd).toNat)))
    s

/-- A global load of `n` bytes into a register: it goes to its target, and its data arrive with
GLOBAL_LOAD_RESPONSE. -/
def globalLoad (minor : BitVec 6) (k : OpKind) (n : Nat) (sext : Bool) (t : Nat) (f : IForm)
    (s : State) : State :=
  let i := insnI 0x0E minor (if k = .vload then .vector else .scalar) true f
  issue t i
    (fun s th th' =>
      let a := effAddr th f
      match checkGlobal a n with
      | some c => raise s c a
      | none => .state (startOp (setThread s t th') t
          { newOp th i k a n f.rd.toNat with sext := sext } 1)) s

/-- A global store of `n` bytes. -/
def globalStore (minor : BitVec 6) (k : OpKind) (n : Nat) (t : Nat) (f : IForm) (s : State) :
    State :=
  let i := insnI 0x0F minor (if k = .vstore then .vector else .scalar) true f
  issue t i
    (fun s th th' =>
      let a := effAddr th f
      let v := if k = .vstore then (readV th (f.rd.setWidth 4)).toNat else (readS th f.rd).toNat
      match checkGlobal a n with
      | some c => raise s c a
      | none => .state (startOp (setThread s t th') t
          { newOp th i k a n 0 with data := leBytes n v } 1)) s

/-- `ld.b` (R66). -/
def execLdB (t : Nat) (f : IForm) (s : State) : Res :=
  .next (localLoad 0x00 1 true t f s)

/-- `ld.h` (R66). -/
def execLdH (t : Nat) (f : IForm) (s : State) : Res :=
  .next (localLoad 0x01 2 true t f s)

/-- `ld.w` (R66). -/
def execLdW (t : Nat) (f : IForm) (s : State) : Res :=
  .next (localLoad 0x02 4 true t f s)

/-- `ld.d` (R66). -/
def execLdD (t : Nat) (f : IForm) (s : State) : Res :=
  .next (localLoad 0x03 8 false t f s)

/-- `ld.bu` (R66). -/
def execLdBu (t : Nat) (f : IForm) (s : State) : Res :=
  .next (localLoad 0x04 1 false t f s)

/-- `ld.hu` (R66). -/
def execLdHu (t : Nat) (f : IForm) (s : State) : Res :=
  .next (localLoad 0x05 2 false t f s)

/-- `ld.wu` (R66). -/
def execLdWu (t : Nat) (f : IForm) (s : State) : Res :=
  .next (localLoad 0x06 4 false t f s)

/-- `ld.v` (R66): 64 B into a vector register. -/
def execLdV (t : Nat) (f : IForm) (s : State) : Res :=
  .next (issue t (insnI 0x0C 0x07 .vector true f)
    (fun s th th' =>
      let a := effAddr th f
      match checkLocal s th a 64 64 with
      | some c => raise s c a
      | none =>
        if readMustWait s (engineOf t) ((groupOf s th).winBase + a.toNat) 64 then .wait
        else
          let r := readWindow s th a.toNat 64
          if r.1 then raise r.2.2 .poison a
          else .state (setThread r.2.2 t (writeV th' (f.rd.setWidth 4) (vecOfBytes r.2.1)))) s)

/-- `st.b` (R66). -/
def execStB (t : Nat) (f : IForm) (s : State) : Res :=
  .next (localStore 0x00 1 t f s)

/-- `st.h` (R66). -/
def execStH (t : Nat) (f : IForm) (s : State) : Res :=
  .next (localStore 0x01 2 t f s)

/-- `st.w` (R66). -/
def execStW (t : Nat) (f : IForm) (s : State) : Res :=
  .next (localStore 0x02 4 t f s)

/-- `st.d` (R66). -/
def execStD (t : Nat) (f : IForm) (s : State) : Res :=
  .next (localStore 0x03 8 t f s)

/-- `st.v` (R66): 64 B from a vector register. -/
def execStV (t : Nat) (f : IForm) (s : State) : Res :=
  .next (issue t (insnI 0x0D 0x07 .vector true f)
    (fun s th th' =>
      let a := effAddr th f
      match checkLocal s th a 64 64 with
      | some c => raise s c a
      | none =>
        if storeMustWait s (engineOf t) ((groupOf s th).winBase + a.toNat) 64 then .wait
        else .state (writeWindow (setThread s t th') th a.toNat
          (leBytes 64 (readV th (f.rd.setWidth 4)).toNat))) s)

/-- `ldg.b` (R66). -/
def execLdgB (t : Nat) (f : IForm) (s : State) : Res :=
  .next (globalLoad 0x00 .load 1 true t f s)

/-- `ldg.h` (R66). -/
def execLdgH (t : Nat) (f : IForm) (s : State) : Res :=
  .next (globalLoad 0x01 .load 2 true t f s)

/-- `ldg.w` (R66). -/
def execLdgW (t : Nat) (f : IForm) (s : State) : Res :=
  .next (globalLoad 0x02 .load 4 true t f s)

/-- `ldg.d` (R66). -/
def execLdgD (t : Nat) (f : IForm) (s : State) : Res :=
  .next (globalLoad 0x03 .load 8 false t f s)

/-- `ldg.bu` (R66). -/
def execLdgBu (t : Nat) (f : IForm) (s : State) : Res :=
  .next (globalLoad 0x04 .load 1 false t f s)

/-- `ldg.hu` (R66). -/
def execLdgHu (t : Nat) (f : IForm) (s : State) : Res :=
  .next (globalLoad 0x05 .load 2 false t f s)

/-- `ldg.wu` (R66). -/
def execLdgWu (t : Nat) (f : IForm) (s : State) : Res :=
  .next (globalLoad 0x06 .load 4 false t f s)

/-- `ldg.v` (R66). -/
def execLdgV (t : Nat) (f : IForm) (s : State) : Res :=
  .next (globalLoad 0x07 .vload 64 false t f s)

/-- `stg.b` (R66). -/
def execStgB (t : Nat) (f : IForm) (s : State) : Res :=
  .next (globalStore 0x00 .store 1 t f s)

/-- `stg.h` (R66). -/
def execStgH (t : Nat) (f : IForm) (s : State) : Res :=
  .next (globalStore 0x01 .store 2 t f s)

/-- `stg.w` (R66). -/
def execStgW (t : Nat) (f : IForm) (s : State) : Res :=
  .next (globalStore 0x02 .store 4 t f s)

/-- `stg.d` (R66). -/
def execStgD (t : Nat) (f : IForm) (s : State) : Res :=
  .next (globalStore 0x03 .store 8 t f s)

/-- `stg.v` (R66). -/
def execStgV (t : Nat) (f : IForm) (s : State) : Res :=
  .next (globalStore 0x07 .vstore 64 t f s)

/-- R126: an earlier load of the thread, still in flight, reads some of the bytes of load `o`. -/
def loadBefore (th : Thread) (o : Op) : Bool :=
  (th.ops.takeWhile fun l => l.id != o.id).any fun l =>
    (l.kind == .load || l.kind == .vload) && l.phase == .flight && l.fail.isNone &&
      overlaps o.pa o.size l.pa l.size

/-- GLOBAL_LOAD_RESPONSE (R66, R81, R126): the data of a global load arrive and are written; a poisoned
word gives no data and a deferred POISON. Loads of the same bytes are answered in program order, and
host memory answers only while its path is up. -/
def execGlobalLoadResponse (t id : Nat) (s : State) : Res :=
  .next (
    let th := thread s t
    match findOp th id with
    | none => s
    | some o =>
      if (o.kind ≠ .load ∧ o.kind ≠ .vload) ∨ o.phase ≠ .flight ∨ o.fail.isSome ∨
          (regionOf o.pa = .hostMem ∧ !s.linkUp) ∨ loadBefore th o then s
      else
        let r := readMem s o.pa o.size
        if r.1 then
          setThread r.2.2 t (putOp th
            { o with fail := some { cause := .poison, status := 0x0D, addr := o.va } })
        else
          let th1 := dropOp th id
          let th2 := if o.kind = .vload then writeV th1 (BitVec.ofNat 4 o.dst) (vecOfBytes r.2.1)
            else writeS th1 (BitVec.ofNat 5 o.dst) (loadValue o.sext r.2.1)
          settleThread (setThread r.2.2 t th2) t)

/-- R68: slots of a core's mover queue that are held: by descriptors accepted and not yet complete, and
by each `mvpost` whose first bytes are being translated (log entry 66). -/
def slotsHeld (s : State) (c : Nat) : Nat :=
  (mover s c).queue.length +
    (s.threads.flatMap fun x => if coreOf (x.1 / 64) = c then
      x.2.ops.filter fun o => o.kind == .mvpost else []).length

/-- `mvpost` (R68): reads a 64 B descriptor at the local address in ra, translates its first bytes
and posts it; waits while the core's queue is full. -/
def execMvpost (t : Nat) (f : RForm) (s : State) : Res :=
  let i := insnR 0x10 0x00 true true false false false f
  .next (issue t i
    (fun s th th' =>
      let a := readS th f.ra
      if moverSlots ≤ slotsHeld s (coreOf (engineOf t)) then .wait
      else match checkLocal s th a 64 64 with
        | some c => raise s c a
        | none =>
          if readMustWait s (engineOf t) ((groupOf s th).winBase + a.toNat) 64 then .wait
          else
          let r := readWindow s th a.toNat 64
          if r.1 then raise r.2.2 .poison a
          else .state (startOp (setThread r.2.2 t th') t
            { newOp th i .mvpost a 0 f.rd.toNat with data := r.2.1 } 3)) s)

/-- `mvslots` (R68): free slots of the core's mover queue. -/
def execMvslots (t : Nat) (f : RForm) (s : State) : Res :=
  .next (issue t (insnR 0x10 0x01 true false false false false f)
    (fun s _ th' => .done (writeS th' f.rd (BitVec.ofNat 64
      (moverSlots - slotsHeld s (coreOf (engineOf t)))))) s)

/-- PAGE_WALK (R118): the walk that thread `t` waits for completes. -/
def execPageWalk (t : Nat) (s : State) : Res := .next (pageWalk s t)

/-- DEFERRED_EXCEPTION (R81): a failure found at the target stops the thread at its boundary. The
record names the failing instruction; the failing instruction writes no register. -/
def execDeferredException (t : Nat) (s : State) : Res :=
  .next (
    let th := thread s t
    match th.ops.find? fun o => o.fail.isSome with
    | none => s
    | some o =>
      match o.fail with
      | none => s
      | some x => takeException (setThread s t (dropOp th o.id)) t o.pc o.word x.addr x.cause x.status)

end Sys2Proof.Machine
end

