-- ==== Sys2Proof/Machine/SyncInsn.lean ====
section
/-! DEFINITION. Sync instructions, fences and the responses that end them (R75, R76, R142 to R150). -/

namespace Sys2Proof.Machine

/-- R66, R75: the checks on a sync object's address. -/
def checkSyncAddr (a : Word) : Option Cause := checkGlobal a 8

/-- Issue a sync instruction on the object at ra. -/
def syncIssue (i : Insn) (k : OpKind) (t : Nat) (f : SForm) (arg : Thread → Word) (limit : Nat)
    (s : State) : State :=
  issue t i
    (fun s th th' =>
      let a := readS th f.ra
      match checkSyncAddr a with
      | some c => raise s c a
      | none => .state (startOp (setThread s t th') t
          { newOp th i k a limit f.rd.toNat with x := arg th } 1)) s

/-- `sig` (R75, R142): sends rb + imm20 to the object; it is applied at its home. -/
def execSig (t : Nat) (f : SForm) (s : State) : Res :=
  .next (syncIssue (insnS 0x28 0x00 false true true false f) .sig t f
    (fun th => readS th f.rb + f.imm.setWidth 64) 0 s)

/-- `wait.ge` (R75, R143): enters SPIN until the count reaches rb, for imm20 units of 64 cycles. -/
def execWaitGe (t : Nat) (f : SForm) (s : State) : Res :=
  .next (syncIssue (insnS 0x28 0x01 true true true true f) .wait t f
    (fun th => readS th f.rb) (64 * f.imm.toNat) s)

/-- `take` (R75, R144): enters SPIN until it consumes 1 from a non-zero count. -/
def execTake (t : Nat) (f : SForm) (s : State) : Res :=
  .next (syncIssue (insnS 0x28 0x02 true true false true f) .take t f
    (fun _ => 0) (64 * f.imm.toNat) s)

/-- `sread` (R75, R145): reads the count at its home. -/
def execSread (t : Nat) (f : SForm) (s : State) : Res :=
  .next (syncIssue (insnS 0x28 0x03 true true false false f) .sread t f (fun _ => 0) 0 s)

/-- SIGNAL_AT_HOME (R142, R151): a thread's `sig` reaches the object's home. A failed owner check is
a deferred NOTSYNC (R81); a FROZEN or REVOKED object discards it, counted in a record. -/
def execSignalAtHome (t id : Nat) (s : State) : Res :=
  .next (
    let th := thread s t
    match findOp th id with
    | none => s
    | some o =>
      if o.kind ≠ .sig ∨ o.phase ≠ .flight ∨ o.fail.isSome then s
      else
        let g := gridOf s th
        let r := signalObj s g.part g.ctx false (syncIndex o.pa) o.x
        match r.1 with
        | .applied => settleThread (setThread r.2 t (dropOp th id)) t
        | .refused => setThread r.2 t
            (putOp th { o with fail := some { cause := .notsync, status := 0x04, addr := o.va } })
        | x => settleThread (recordError (setThread r.2 t (dropOp th id))
            (discardInfo 0x01 (coreOf (engineOf t)) g.part (some (syncIndex o.pa)) (sigStatus x))) t)

/-- SREAD_RESPONSE (R145): the count arrives, or a deferred NOTSYNC. -/
def execSreadResponse (t id : Nat) (s : State) : Res :=
  .next (
    let th := thread s t
    match findOp th id with
    | none => s
    | some o =>
      if o.kind ≠ .sread ∨ o.phase ≠ .flight ∨ o.fail.isSome then s
      else
        let g := gridOf s th
        let r := readObj s g.part g.ctx false (syncIndex o.pa)
        match r.1 with
        | some v =>
          settleThread (setThread r.2 t (writeS (dropOp th id) (BitVec.ofNat 5 o.dst) v)) t
        | none => setThread r.2 t
            (putOp th { o with fail := some { cause := .notsync, status := 0x04, addr := o.va } }))

/-- A thread leaves SPIN with a status in rd, and goes on (R75, R150). -/
def leaveSpin (s : State) (t : Nat) (st : Word) : State :=
  let th := thread s t
  match th.spin with
  | none => s
  | some sp => setThread s t (writeS { th with state := .ready, spin := none } sp.dst st)

/-- R75, R150: the spin limit has run out. -/
def spinOver (s : State) (t : Nat) (sp : Spin) : Bool := decide (sp.since + sp.left ≤ engineNow s t)

/-- R120: a retry whose translation has been invalidated translates anew. The address of the object,
or none where the retry has come to another end: the thread parks, or takes NOTSYNC. -/
def retryTarget (s : State) (t : Nat) (sp : Spin) : Option Nat × State :=
  if !sp.stale then (some sp.pa, s)
  else
    let th := thread s t
    let g := gridOf s th
    let a := access s .sync (clusterOf (engineOf t)) g.part g.ctx sp.va.toNat sp.take
    match a.1 with
    | .error c =>
      let s1 := setThread a.2 t { th with state := .parked, pc := sp.pc, spin := none }
      (none, raiseFault s1 g.part g.ctx sp.va.toNat c sp.take 0 (.thread t))
    | .ok pa =>
      if regionOf pa = .syncObj then
        (some pa, setThread a.2 t { th with spin := some { sp with pa := pa, stale := false } })
      else (none, takeException a.2 t sp.pc sp.word sp.va .notsync (excStatus .notsync))

/-- One retry of a thread in SPIN, not paced and within its limit, is answered (R143, R144, R148). A failed
owner check raises NOTSYNC when the response arrives (R75). -/
def retryResponse (s : State) (t : Nat) (take : Bool) : State :=
  let th := thread s t
  match th.spin with
  | none => s
  | some sp =>
    if th.state ≠ .spin ∨ sp.take ≠ take ∨ s.err.fatal ∨ pacedNow s (gridOf s th) ∨
        spinOver s t sp then s
    else
      let g := gridOf s th
      let a := retryTarget s t sp
      match a.1 with
      | none => a.2
      | some pa =>
        let r := retryObj a.2 g.part g.ctx (syncIndex pa) take sp.target
        match r.1 with
        | .satisfied => leaveSpin r.2 t 0x00
        | .revoked => leaveSpin r.2 t 0x09
        | .again => r.2
        | .notSync =>
          takeException r.2 t sp.pc sp.word sp.va .notsync (excStatus .notsync)

/-- WAIT_RETRY_RESPONSE (R143). -/
def execWaitRetryResponse (t : Nat) (s : State) : Res := .next (retryResponse s t false)

/-- TAKE_RETRY_RESPONSE (R144). -/
def execTakeRetryResponse (t : Nat) (s : State) : Res := .next (retryResponse s t true)

/-- SPIN_LIMIT_EXPIRY (R75, R150): the limit has run out: ST_TIMEOUT, and nothing consumed. -/
def execSpinLimitExpiry (t : Nat) (s : State) : Res :=
  .next (match (thread s t).spin with
    | none => s
    | some sp =>
      if (thread s t).state = .spin ∧ spinOver s t sp ∧ !s.err.fatal ∧
          !pacedNow s (gridOf s (thread s t)) then leaveSpin s t 0x0E else s)

/-- Operations a fence waits for (R76): memory, sync and mover posts, or put and sig.r. -/
def fenceWaits (sc : FenceScope) (o : Op) : Bool :=
  match sc, o.kind with
  | .net, .put => true
  | .net, .sigR => true
  | .net, _ => false
  | _, .load => true
  | _, .vload => true
  | _, .store => true
  | _, .vstore => true
  | _, .sig => true
  | _, .sread => true
  | _, .mvpost => true
  | _, .tileLoad => true
  | _, .tileStore => true
  | _, _ => false

/-- A fence retires (R76): `fence.n` writes ST_OK, or the status of the first put or sig.r that has
failed since the thread's previous one. -/
def retireFence (th : Thread) : Thread :=
  match th.fence with
  | none => th
  | some (.net, rd) =>
    writeS { th with fence := none, netFail := none, state := .ready } rd
      ((th.netFail.getD 0).setWidth 64)
  | some _ => { th with fence := none, state := .ready }

/-- Issue a fence: it retires at once with nothing outstanding, and otherwise holds the thread in
WAIT. -/
def fence (i : Insn) (sc : FenceScope) (rd : BitVec 5) (t : Nat) (s : State) : State :=
  issue t i
    (fun _ _ th' =>
      let x := { th' with fence := some (sc, rd), state := .wait }
      .done (if th'.ops.any (fenceWaits sc) then x else retireFence x)) s

/-- `fence.c` (R76). -/
def execFenceC (t : Nat) (f : SForm) (s : State) : Res :=
  .next (fence (insnS 0x29 0x00 false false false false f) .core 0 t s)

/-- `fence.d` (R76). -/
def execFenceD (t : Nat) (f : SForm) (s : State) : Res :=
  .next (fence (insnS 0x29 0x01 false false false false f) .die 0 t s)

/-- `fence.p` (R76). -/
def execFenceP (t : Nat) (f : SForm) (s : State) : Res :=
  .next (fence (insnS 0x29 0x02 false false false false f) .package 0 t s)

/-- `fence.n` (R76): rd receives a status. -/
def execFenceN (t : Nat) (f : SForm) (s : State) : Res :=
  .next (fence (insnS 0x29 0x03 true false false false f) .net f.rd t s)

/-- FENCE_RETIRE (R76): a waiting fence retires once its earlier operations have completed. -/
def execFenceRetire (t : Nat) (s : State) : Res :=
  .next (
    let th := thread s t
    match th.fence with
    | none => s
    | some (sc, _) =>
      if th.state ≠ .wait ∨ th.ops.any (fenceWaits sc) then s else setThread s t (retireFence th))

end Sys2Proof.Machine
end

