-- ==== Sys2Proof/Machine/SystemInsn.lean ====
section
/-! DEFINITION. System instructions and the end of a thread (R54, R58, R78, R79, R88). -/

namespace Sys2Proof.Machine

/-- `nop` (R79). -/
def execNopInsn (t : Nat) (f : IForm) (s : State) : Res :=
  .next (issueReg t (insnI 0x30 0x00 .none false f) (fun _ th' => th') s)

/-- R54: a thread has ended: its accumulators are released, its group with its last thread, and its
grid with the last of all. -/
def endThread (s : State) (t : Nat) : State :=
  let th := thread s t
  let g := groupOf s th
  let owners := g.owners.map fun o => if o = some th.lane then none else o
  let s1 := { s with groups := tset Group.none s.groups th.group { g with owners := owners } }
  let s2 := setThread s1 t Thread.free
  let s3 := if g.threads.all fun u => (thread s2 u).state == .free then releaseGroup s2 th.group
    else s2
  settleGrid s3 th.grid

/-- An ENDING thread whose operations have drained ends; a failure that no `fence.n` has reported
raises NET instead (R54, R78). -/
def finishThread (s : State) (t : Nat) : State :=
  let th := thread s t
  if th.state ≠ .ending ∨ !th.ops.isEmpty ∨ moverPending s t then s
  else match th.netFail with
    | some st => takeException s t th.pc ((imageWord s t th.pc).getD 0) 0 .net st
    | none => endThread s t

/-- `end` (R54, R79): the thread becomes ENDING and ends once its operations have drained. -/
def execEnd (t : Nat) (f : IForm) (s : State) : Res :=
  .next (issue t (insnI 0x30 0x01 .none false f)
    (fun s th _ => .state (finishThread (setThread s t { th with state := .ending }) t)) s)

/-- THREAD_END (R54): an ENDING thread's operations have completed and it ends. -/
def execThreadEnd (t : Nat) (s : State) : Res := .next (finishThread s t)

/-- `trap` (R79): raises TRAP with imm32[15:0] in the record. -/
def execTrap (t : Nat) (f : IForm) (s : State) : Res :=
  .next (issue t (insnI 0x30 0x02 .none false f)
    (fun s _ _ => raise s .trap ((f.imm.extractLsb' 0 16).setWidth 64)) s)

/-- `brk` (R79, R86, R88): debug-halts the thread where its grid has DEBUG set, its operations in flight
having delivered, else raises BREAK. -/
def execBrk (t : Nat) (f : IForm) (s : State) : Res :=
  .next (issue t (insnI 0x30 0x03 .none false f)
    (fun s th th' =>
      if (gridOf s th).debug then
        if !atBoundary th then .wait
        else .state (dbgHaltEvent (setThread s t
          { th' with state := .halted, debug := true, stepping := false }) t)
      else raise s .brk 0) s)

/-- R58: the special registers. -/
def specialReg (s : State) (t : Nat) (n : Nat) : Word :=
  let th := thread s t
  let e := engineOf t
  let c := engineCoords e
  BitVec.ofNat 64 (match n with
    | 0 => tidOf s th
    | 1 => c.1
    | 2 => c.2.1
    | 3 => c.2.2
    | 4 => dieOf e
    | 5 => (gridOf s th).part
    | 6 => (gridOf s th).ctx.toNat
    | _ => tget 0 s.clocks (if e < 16384 then 0 else 1))

/-- `mfs` (R58, R79): reads a special register; a reserved number is ILLEGAL (R62). -/
def execMfs (t : Nat) (f : IForm) (s : State) : Res :=
  let i := insnI 0x30 0x04 .scalar false f
  .next (issue t { i with illegal := i.illegal || decide (7 < f.imm.toNat) }
    (fun s _ th' => .done (writeS th' f.rd (specialReg s t f.imm.toNat))) s)

end Sys2Proof.Machine
end

