-- ==== Sys2Proof/Machine/Vector.lean ====
section
/-! DEFINITION. Vector and sparse instructions (R59, R69 to R73). -/

namespace Sys2Proof.Machine

/-- The format of a legal format V instruction, and its second one. -/
def vFmt (f : VForm) : Fmt := (fmtOfCode f.fmt).getD .fp32
def vFmt2 (f : VForm) : Fmt := (fmtOfCode f.fmt2).getD .fp32
def vRnd (f : VForm) : Rnd := (rndOfCode f.rnd).getD .rne

/-- R59: lane `i` is active. -/
def active (th : Thread) (f : VForm) (i : Nat) : Bool := (condWord th f.psel f.pneg).getLsbD i

/-- The random value of element `i` of a thread's instruction (R43). -/
def srOf (s : State) (th : Thread) (i : Nat) : Nat :=
  srRandom (gridOf s th).seed (tidOf s th) th.srCount i

/-- The formats that the vector classes accept (R69). -/
def fmtsInt : List Fmt := [.int32, .int8]
def fmtsAdd : List Fmt := [.int32, .int8, .foir64, .foir128]
def fmtsFp : List Fmt := [.fp32, .bf16, .fp16]
def fmtsAll : List Fmt := [.fp32, .bf16, .fp16, .int32, .int8]
def fmtsMx : List Fmt := [.e2m1, .e2m3, .e3m2, .e4m3, .e5m2, .mxint8]
def fmtsFoir : List Fmt := [.foir64, .foir128]

/-- An instruction that writes each active lane of vd: `g` is given the format, the rounding, the
random value of the lane, the thread and the lane. -/
def vecLanes (major minor : BitVec 6) (u : VUse) (fmts : List Fmt)
    (g : Fmt → Rnd → Nat → Thread → Nat → Nat) (t : Nat) (f : VForm) (s : State) : State :=
  issue t (insnV major minor u fmts [] .lanes false false false f)
    (fun s th th' =>
      let fm := vFmt f
      .done (writeV th' f.vd (lanesWhere fm (readV th f.vd) (active th f)
        fun i => g fm (vRnd f) (srOf s th i) th i))) s

/-- Lane `i` of a source register of a format. -/
def srcLane (fm : Fmt) (th : Thread) (r : BitVec 4) (i : Nat) : Nat :=
  lane (fmtWidth fm) (readV th r) i

/-- A lane as a signed integer. -/
def sLane (fm : Fmt) (th : Thread) (r : BitVec 4) (i : Nat) : Int :=
  (BitVec.ofNat (fmtWidth fm) (srcLane fm th r i)).toInt

/-- Lane-wise integer instruction on va and vb, results modulo the lane width. -/
def vecInt (minor : BitVec 6) (op : Nat → Int → Int → Int) (t : Nat) (f : VForm) (s : State) :
    State :=
  vecLanes 0x14 minor { vd := true, va := true, vb := true } fmtsInt
    (fun fm _ _ th i => intBits (fmtWidth fm)
      (op (fmtWidth fm) (sLane fm th f.va i) (sLane fm th f.vb i))) t f s

/-- Lane-wise logical instruction on va and vb. -/
def vecLogic (minor : BitVec 6) (op : Nat → Nat → Nat → Nat) (t : Nat) (f : VForm) (s : State) :
    State :=
  vecLanes 0x14 minor { vd := true, va := true, vb := true } fmtsInt
    (fun fm _ _ th i => op (fmtWidth fm) (srcLane fm th f.va i) (srcLane fm th f.vb i)) t f s

/-- Vector add or subtract of integers, or of FOIR lanes under R47. -/
def vecAddSub (minor : BitVec 6) (sub : Bool) (t : Nat) (f : VForm) (s : State) : State :=
  vecLanes 0x14 minor { vd := true, va := true, vb := true } fmtsAdd
    (fun fm _ _ th i =>
      let w := fmtWidth fm
      if fmtIsFoir fm then
        let b := foirOfBits w (srcLane fm th f.vb i)
        foirBits w (foirAdd w (foirOfBits w (srcLane fm th f.va i)) (if sub then foirNeg b else b))
      else
        let a := sLane fm th f.va i
        let b := sLane fm th f.vb i
        intBits w (if sub then a - b else a + b)) t f s

/-- Clamp to a lane's signed range (R69). -/
def satLane (w : Nat) (v : Int) : Int := clampInt (-(2 ^ (w - 1) : Nat)) ((2 ^ (w - 1) : Nat) - 1) v

/-- Lane-wise floating-point instruction on va and vb, rounded under rnd (R70). -/
def vecFp2 (minor : BitVec 6) (op : Val → Val → Val) (t : Nat) (f : VForm) (s : State) : State :=
  vecLanes 0x15 minor { vd := true, va := true, vb := true } fmtsFp
    (fun fm r x th i => encodeFloat fm r x
      (op (decodeElem fm (srcLane fm th f.va i)) (decodeElem fm (srcLane fm th f.vb i)))) t f s

/-- Lane-wise floating-point instruction on va alone. -/
def vecFp1 (minor : BitVec 6) (op : Fmt → Rnd → Nat → Nat → Nat) (t : Nat) (f : VForm)
    (s : State) : State :=
  vecLanes 0x15 minor { vd := true, va := true } fmtsFp
    (fun fm r x th i => op fm r x (srcLane fm th f.va i)) t f s

/-- Fused multiply-add with a single rounding (R70). -/
def vecFma (minor : BitVec 6) (neg : Bool) (t : Nat) (f : VForm) (s : State) : State :=
  vecLanes 0x15 minor { vd := true, va := true, vb := true, vc := true } fmtsFp
    (fun fm r x th i =>
      let c := decodeElem fm (srcLane fm th f.vc i)
      encodeFloat fm r x (valAdd
        (valMul (decodeElem fm (srcLane fm th f.va i)) (decodeElem fm (srcLane fm th f.vb i)))
        (if neg then valNeg c else c))) t f s

/-- Magnitude of a value. -/
def valAbs (v : Val) : Val :=
  match v with
  | .nan => .nan | .inf _ => .inf false | .fin _ m e => .fin false m e

/-- A comparison of two lanes, floating or integer. -/
def cmpLanes (op : Val → Val → Bool) (fm : Fmt) (a b : Nat) : Bool :=
  op (decodeElem fm a) (decodeElem fm b)

/-- `vcmp` (R70): bit i of p[pd] for each active lane i; the other bits keep their value. -/
def vecCmp (minor : BitVec 6) (op : Val → Val → Bool) (t : Nat) (f : VForm) (s : State) : State :=
  issue t (insnV 0x18 minor { va := true, vb := true, pd := true } fmtsAll [] .lanes false false
      false f)
    (fun _ th th' =>
      let fm := vFmt f
      let old := readP th f.pd
      .done (writeP th' f.pd (wordOfBits 64 fun i =>
        if active th f i ∧ i < fmtLanes fm then
          cmpLanes op fm (srcLane fm th f.va i) (srcLane fm th f.vb i)
        else old.getLsbD i))) s

/-- R70: the fixed pairwise tree over lanes a to a + 2^m - 1; `comb` combines two results, given
the element index of the combination. -/
def reduceTree (act : Nat → Bool) (x : Nat → Nat) (comb : Nat → Nat → Nat → Nat) :
    Nat → Nat → Option Nat
  | 0, a => if act a then some (x a) else none
  | m + 1, a =>
    match reduceTree act x comb m a, reduceTree act x comb m (a + 2 ^ m) with
    | some l, some r => some (comb (a + 2 ^ m - 1) l r)
    | some l, none => some l
    | none, r => r

/-- R30: a NaN that is delivered as a result is the canonical one of its format. -/
def quietResult (fm : Fmt) (x : Nat) : Nat :=
  if !fmtIsInt fm && decodeElem fm x == .nan then canonicalNaN fm else x

/-- A reduction: its result in lane 0 of vd, the other lanes zeroed (R70). -/
def vecReduce (minor : BitVec 6) (comb : Fmt → Rnd → (Nat → Nat) → Nat → Nat → Nat → Nat)
    (t : Nat) (f : VForm) (s : State) : State :=
  issue t (insnV 0x17 minor { vd := true, va := true } fmtsAll [] .lanes false false false f)
    (fun s th th' =>
      let fm := vFmt f
      let r := reduceTree (active th f) (srcLane fm th f.va)
        (comb fm (vRnd f) (srOf s th)) (Nat.log2 (fmtLanes fm)) 0
      .done (writeV th' f.vd (vecOfLanes (fmtWidth fm) 1 fun _ => quietResult fm (r.getD 0)))) s

/-- Sum of two elements of a format: integers wrap (R32), floats round. -/
def addElems (fm : Fmt) (r : Rnd) (x a b : Nat) : Nat :=
  if fmtIsInt fm then (a + b) % 2 ^ fmtWidth fm
  else encodeFloat fm r x (valAdd (decodeElem fm a) (decodeElem fm b))

/-- Minimum or maximum of two elements of a format. -/
def pickElems (op : Val → Val → Val) (fm : Fmt) (a b : Nat) : Nat :=
  let v := op (decodeElem fm a) (decodeElem fm b)
  if fmtIsInt fm then (if v = decodeElem fm a then a else b) else encodeFloat fm .rne 0 v

/-- An MX block in the MX register layout (R71). -/
def mxRegister (fm : Fmt) (b : MxBlock) : Vec :=
  BitVec.ofNat 512 (packElems (fmtWidth fm) b.elems + b.scale * 2 ^ 256 +
    (codeOfFmt fm).toNat * 2 ^ 264)

/-- Scale byte and elements of an MX register layout (R71). -/
def mxScale (v : Vec) : Nat := (v.extractLsb' 256 8).toNat
def mxElem (fm : Fmt) (v : Vec) (i : Nat) : Nat := lane (fmtWidth fm) v i

/-- The k-th selected lane number (R73). -/
def selectedLanes (fm : Fmt) (p : Word) : List Nat :=
  (List.range (fmtLanes fm)).filter fun i => p.getLsbD i

/-- `vadd` (R69, R47). -/
def execVaddInt (t : Nat) (f : VForm) (s : State) : Res :=
  .next (vecAddSub 0x00 false t f s)

/-- `vsub` (R69, R47). -/
def execVsubInt (t : Nat) (f : VForm) (s : State) : Res :=
  .next (vecAddSub 0x01 true t f s)

/-- `vmul` (R69). -/
def execVmulInt (t : Nat) (f : VForm) (s : State) : Res :=
  .next (vecInt 0x02 (fun _ a b => a * b) t f s)

/-- `vadds` (R69). -/
def execVadds (t : Nat) (f : VForm) (s : State) : Res :=
  .next (vecInt 0x03 (fun w a b => satLane w (a + b)) t f s)

/-- `vsubs` (R69). -/
def execVsubs (t : Nat) (f : VForm) (s : State) : Res :=
  .next (vecInt 0x04 (fun w a b => satLane w (a - b)) t f s)

/-- `vmin` (R69). -/
def execVminInt (t : Nat) (f : VForm) (s : State) : Res :=
  .next (vecInt 0x05 (fun _ a b => min a b) t f s)

/-- `vmax` (R69). -/
def execVmaxInt (t : Nat) (f : VForm) (s : State) : Res :=
  .next (vecInt 0x06 (fun _ a b => max a b) t f s)

/-- `vand` (R69). -/
def execVand (t : Nat) (f : VForm) (s : State) : Res :=
  .next (vecLogic 0x07 (fun _ a b => a &&& b) t f s)

/-- `vor` (R69). -/
def execVor (t : Nat) (f : VForm) (s : State) : Res :=
  .next (vecLogic 0x08 (fun _ a b => a ||| b) t f s)

/-- `vxor` (R69). -/
def execVxor (t : Nat) (f : VForm) (s : State) : Res :=
  .next (vecLogic 0x09 (fun _ a b => a ^^^ b) t f s)

/-- `vshl` (R69: the shift lane modulo the lane width). -/
def execVshl (t : Nat) (f : VForm) (s : State) : Res :=
  .next (vecLogic 0x0A (fun w a b => a * 2 ^ (b % w)) t f s)

/-- `vshr` (R69). -/
def execVshr (t : Nat) (f : VForm) (s : State) : Res :=
  .next (vecLogic 0x0B (fun w a b => a / 2 ^ (b % w)) t f s)

/-- `vsar` (R69). -/
def execVsar (t : Nat) (f : VForm) (s : State) : Res :=
  .next (vecInt 0x0C (fun w a b => a / (2 ^ (intBits w b % w) : Nat)) t f s)

/-- `vmov` (R69). -/
def execVmov (t : Nat) (f : VForm) (s : State) : Res :=
  .next (vecLanes 0x14 0x0D { vd := true, va := true } fmtsInt
    (fun fm _ _ th i => srcLane fm th f.va i) t f s)

/-- `vsel` (R69): lane i of va where bit i of p[pd] is set, of vb elsewhere. -/
def execVsel (t : Nat) (f : VForm) (s : State) : Res :=
  .next (vecLanes 0x14 0x0E { vd := true, va := true, vb := true, pd := true } fmtsInt
    (fun fm _ _ th i =>
      if (readP th f.pd).getLsbD i then srcLane fm th f.va i else srcLane fm th f.vb i) t f s)

/-- `vadd` (R70). -/
def execVaddFp (t : Nat) (f : VForm) (s : State) : Res :=
  .next (vecFp2 0x00 valAdd t f s)

/-- `vsub` (R70). -/
def execVsubFp (t : Nat) (f : VForm) (s : State) : Res :=
  .next (vecFp2 0x01 (fun a b => valAdd a (valNeg b)) t f s)

/-- `vmul` (R70). -/
def execVmulFp (t : Nat) (f : VForm) (s : State) : Res :=
  .next (vecFp2 0x02 valMul t f s)

/-- `vfma` (R70). -/
def execVfma (t : Nat) (f : VForm) (s : State) : Res :=
  .next (vecFma 0x03 false t f s)

/-- `vfms` (R70). -/
def execVfms (t : Nat) (f : VForm) (s : State) : Res :=
  .next (vecFma 0x04 true t f s)

/-- `vmin` (R70). -/
def execVminFp (t : Nat) (f : VForm) (s : State) : Res :=
  .next (vecFp2 0x05 valMin t f s)

/-- `vmax` (R70). -/
def execVmaxFp (t : Nat) (f : VForm) (s : State) : Res :=
  .next (vecFp2 0x06 valMax t f s)

/-- `vabs` (R70). -/
def execVabs (t : Nat) (f : VForm) (s : State) : Res :=
  .next (vecFp1 0x07 (fun fm r x a => encodeFloat fm r x (valAbs (decodeElem fm a))) t f s)

/-- `vneg` (R70). -/
def execVneg (t : Nat) (f : VForm) (s : State) : Res :=
  .next (vecFp1 0x08 (fun fm r x a => encodeFloat fm r x (valNeg (decodeElem fm a))) t f s)

/-- `vdiv` (R70: correctly rounded). -/
def execVdiv (t : Nat) (f : VForm) (s : State) : Res :=
  .next (vecFp2 0x09 valDiv t f s)

/-- `vsqrt` (R70: correctly rounded). -/
def execVsqrt (t : Nat) (f : VForm) (s : State) : Res :=
  .next (vecFp1 0x0A (fun fm r x a => encodeFloat fm r x (valSqrt (decodeElem fm a))) t f s)

/-- `vrsqrt` (R70: within one unit in the last place). -/
def execVrsqrt (t : Nat) (f : VForm) (s : State) : Res :=
  .next (vecFp1 0x0B (fun fm _ _ a => rsqrtBits fm a) t f s)

/-- `vexp2` (R70: within one unit in the last place). -/
def execVexp2 (t : Nat) (f : VForm) (s : State) : Res :=
  .next (vecFp1 0x0C (fun fm r _ a => exp2Bits fm r a) t f s)

/-- Number of lane groups of a conversion: the larger lane count over the smaller (R71, R72). -/
def laneGroups (a b : Fmt) : Nat := max (fmtLanes a) (fmtLanes b) / min (fmtLanes a) (fmtLanes b)

/-- A conversion between lane groups (R71, R72): group imm14 of the register with more lanes takes
part; lanes of vd outside it, and inactive ones, keep their value. -/
def vecConvert (minor : BitVec 6) (u : VUse) (fa fb : List Fmt)
    (g : Fmt → Fmt → Rnd → Nat → Thread → Nat → Nat) (t : Nat) (f : VForm) (s : State) : State :=
  let a := vFmt f
  let b := vFmt2 f
  issue t (insnV 0x16 minor u fa fb .lanes (decide (laneGroups a b ≤ f.imm.toNat)) false false f)
    (fun s th th' =>
      let n := min (fmtLanes a) (fmtLanes b)
      let k := f.imm.toNat * n
      let so := if fmtLanes b < fmtLanes a then k else 0
      let d := if fmtLanes a < fmtLanes b then k else 0
      .done (writeV th' f.vd (lanesWhere b (readV th f.vd)
        (fun j => decide (d ≤ j ∧ j < d + n) && active th f j)
        fun j => g a b (vRnd f) (srOf s th j) th (srcLane a th f.va (so + (j - d)))))) s

/-- `vcvt` (R71). -/
def execVcvt (t : Nat) (f : VForm) (s : State) : Res :=
  .next (vecConvert 0x00 { vd := true, va := true } fmtsAll fmtsAll
    (fun a b r x _ e => convertElem a b r x e) t f s)

/-- `vqmx` (R71, R37): 32 values of va (and va + 1 for FP32) into one MX block of format fmt2. -/
def execVqmx (t : Nat) (f : VForm) (s : State) : Res :=
  let wide := f.fmt == 0
  .next (issue t (insnV 0x16 0x01 { vd := true, va := true } fmtsFp fmtsMx (.bit 0)
      (wide && f.va.getLsbD 0) wide false f)
    (fun s th th' =>
      let fm := vFmt f
      let vs := (List.range 32).map fun i =>
        decodeElem fm (if wide && decide (16 ≤ i) then srcLane fm th (f.va + 1) (i - 16)
          else srcLane fm th f.va i)
      .done (writeV th' f.vd
        (mxRegister (vFmt2 f) (quantise (vFmt2 f) (vRnd f) (srOf s th) vs)))) s)

/-- `vdqmx` (R71, R36): one MX block into 32 FP32 values in vd and vd + 1. -/
def execVdqmx (t : Nat) (f : VForm) (s : State) : Res :=
  .next (issue t (insnV 0x16 0x02 { vd := true, va := true } fmtsMx [.fp32] (.bit 0)
      (f.vd.getLsbD 0) false true f)
    (fun _ th th' =>
      let fm := vFmt f
      let v := readV th f.va
      let g (k i : Nat) : Nat :=
        encodeFloat .fp32 .rne 0 (decodeMx fm (mxScale v) (mxElem fm v (16 * k + i)))
      .done (writeV (writeV th' f.vd (vecOfLanes 32 16 (g 0))) (f.vd + 1)
        (vecOfLanes 32 16 (g 1)))) s)

/-- `vfoir` (R72, R46): a lane group of va to FOIR with reduction exponent rs. -/
def execVfoir (t : Nat) (f : VForm) (s : State) : Res :=
  .next (vecConvert 0x03 { vd := true, va := true, rs := true } fmtsFp fmtsFoir
    (fun a b _ _ th e => foirBits (fmtWidth b)
      (toFoir (fmtWidth b) (readS th f.rs).toInt (decodeElem a e))) t f s)

/-- `vufoir` (R72, R48): FOIR lanes of va to a lane group of vd. -/
def execVufoir (t : Nat) (f : VForm) (s : State) : Res :=
  .next (vecConvert 0x04 { vd := true, va := true, rs := true } fmtsFoir fmtsFp
    (fun a b _ _ th e => foirToFloat b (fmtWidth a) (readS th f.rs).toInt
      (foirOfBits (fmtWidth a) e)) t f s)

/-- `vemax` (R72, R45): the largest exponent of the active finite non-zero lanes, or -2^63. -/
def execVemax (t : Nat) (f : VForm) (s : State) : Res :=
  .next (issue t (insnV 0x16 0x05 { va := true, rs := true } fmtsFp [] .lanes false false false f)
    (fun _ th th' =>
      let fm := vFmt f
      let es := (List.range (fmtLanes fm)).filterMap fun i =>
        if active th f i then elemExponent fm (srcLane fm th f.va i) else none
      .done (writeS th' f.rs (match es with
        | [] => 0x8000000000000000
        | e :: rest => BitVec.ofInt 64 (rest.foldl max e)))) s)

/-- `vbcast` (R70): rs into every active lane. -/
def execVbcast (t : Nat) (f : VForm) (s : State) : Res :=
  .next (vecLanes 0x17 0x00 { vd := true, rs := true } fmtsAll
    (fun _ _ _ th _ => (readS th f.rs).toNat) t f s)

/-- `vext` (R70): lane imm14 of va, zero-extended, to rs; gated by that lane's bit (R59). -/
def execVext (t : Nat) (f : VForm) (s : State) : Res :=
  .next (issue t (insnV 0x17 0x01 { va := true, rs := true } fmtsAll [] (.bit f.imm.toNat)
      (decide (fmtLanes (vFmt f) ≤ f.imm.toNat)) false false f)
    (fun _ th th' =>
      .done (writeS th' f.rs (BitVec.ofNat 64 (srcLane (vFmt f) th f.va f.imm.toNat)))) s)

/-- `vins` (R70): rs to lane imm14 of vd; gated by that lane's bit (R59). -/
def execVins (t : Nat) (f : VForm) (s : State) : Res :=
  .next (issue t (insnV 0x17 0x02 { vd := true, rs := true } fmtsAll [] (.bit f.imm.toNat)
      (decide (fmtLanes (vFmt f) ≤ f.imm.toNat)) false false f)
    (fun _ th th' =>
      .done (writeV th' f.vd (lanesWhere (vFmt f) (readV th f.vd) (fun i => i == f.imm.toNat)
        fun _ => (readS th f.rs).toNat))) s)

/-- `vperm` (R70): lane (vb lane i mod n) of va to lane i. -/
def execVperm (t : Nat) (f : VForm) (s : State) : Res :=
  .next (vecLanes 0x17 0x03 { vd := true, va := true, vb := true } fmtsAll
    (fun fm _ _ th i => srcLane fm th f.va (srcLane fm th f.vb i % fmtLanes fm)) t f s)

/-- `vrot` (R70, R62): lanes upward by imm14 modulo the lane count. -/
def execVrot (t : Nat) (f : VForm) (s : State) : Res :=
  .next (vecLanes 0x17 0x04 { vd := true, va := true } fmtsAll
    (fun fm _ _ th i =>
      srcLane fm th f.va ((i + fmtLanes fm - f.imm.toNat % fmtLanes fm) % fmtLanes fm)) t f s)

/-- `vredsum` (R70, R43). -/
def execVredsum (t : Nat) (f : VForm) (s : State) : Res :=
  .next (vecReduce 0x05 (fun fm r x i a b => addElems fm r (x i) a b) t f s)

/-- `vredmax` (R70). -/
def execVredmax (t : Nat) (f : VForm) (s : State) : Res :=
  .next (vecReduce 0x06 (fun fm _ _ _ a b => pickElems valMax fm a b) t f s)

/-- `vredmin` (R70). -/
def execVredmin (t : Nat) (f : VForm) (s : State) : Res :=
  .next (vecReduce 0x07 (fun fm _ _ _ a b => pickElems valMin fm a b) t f s)

/-- `vcmp.eq` (R70). -/
def execVcmpEq (t : Nat) (f : VForm) (s : State) : Res :=
  .next (vecCmp 0x00 valEq t f s)

/-- `vcmp.ne` (R70). -/
def execVcmpNe (t : Nat) (f : VForm) (s : State) : Res :=
  .next (vecCmp 0x01 (fun a b => !valEq a b) t f s)

/-- `vcmp.lt` (R70). -/
def execVcmpLt (t : Nat) (f : VForm) (s : State) : Res :=
  .next (vecCmp 0x02 valLtNum t f s)

/-- `vcmp.le` (R70). -/
def execVcmpLe (t : Nat) (f : VForm) (s : State) : Res :=
  .next (vecCmp 0x03 (fun a b => valLtNum a b || valEq a b) t f s)

/-- `vcmp.gt` (R70). -/
def execVcmpGt (t : Nat) (f : VForm) (s : State) : Res :=
  .next (vecCmp 0x04 (fun a b => valLtNum b a) t f s)

/-- `vcmp.ge` (R70). -/
def execVcmpGe (t : Nat) (f : VForm) (s : State) : Res :=
  .next (vecCmp 0x05 (fun a b => valLtNum b a || valEq a b) t f s)

/-- `vcmpr` (R73): packs the lanes of va selected by p[pd] downward and zeroes the rest. -/
def execVcmpr (t : Nat) (f : VForm) (s : State) : Res :=
  .next (vecLanes 0x1D 0x00 { vd := true, va := true, pd := true } fmtsAll
    (fun fm _ _ th i =>
      match (selectedLanes fm (readP th f.pd))[i]? with
      | some j => srcLane fm th f.va j
      | none => 0) t f s)

/-- `vexpd` (R73): the k-th set bit of p[pd] receives lane k of va; other lanes are zeroed. -/
def execVexpd (t : Nat) (f : VForm) (s : State) : Res :=
  .next (vecLanes 0x1D 0x01 { vd := true, va := true, pd := true } fmtsAll
    (fun fm _ _ th i =>
      let p := readP th f.pd
      if p.getLsbD i then
        srcLane fm th f.va ((selectedLanes fm p).filter fun j => decide (j < i)).length
      else 0) t f s)

/-- Size of a BSMX container of `n` stored elements of width `w` (R38). -/
def bsmxSize (n w : Nat) : Nat := 8 + 8 * ((n * w + 63) / 64)

/-- The bytes of a BSMX container (R38): every element whose encoding is not all zero is stored. -/
def bsmxBytes (fm : Fmt) (scale : Nat) (elems : List Nat) : List Byte :=
  let stored := elems.filter fun e => e != 0
  let mask := (elems.mapIdx fun i e => if e = 0 then 0 else 2 ^ i).foldl (· + ·) 0
  leBytes 4 mask ++ leBytes 1 scale ++ leBytes 1 (codeOfFmt fm).toNat ++
    leBytes 1 stored.length ++ leBytes 1 0 ++
    leBytes (bsmxSize stored.length (fmtWidth fm) - 8) (packElems (fmtWidth fm) stored)

/-- `vbspk` (R73, R38): the MX block in vd as a BSMX container at the local address in rs. -/
def execVbspk (t : Nat) (f : VForm) (s : State) : Res :=
  .next (issue t (insnV 0x1D 0x02 { vd := true, rs := true } fmtsMx [] (.bit 0) false false false f)
    (fun s th th' =>
      let fm := vFmt f
      let v := readV th f.vd
      let a := readS th f.rs
      let bs := bsmxBytes fm (mxScale v) ((List.range 32).map (mxElem fm v))
      match checkLocal s th a bs.length 8 with
      | some c => raise s c a
      | none =>
        if storeMustWait s (engineOf t) ((groupOf s th).winBase + a.toNat) bs.length then .wait
        else .state (writeWindow (setThread s t th') th a.toNat bs)) s)

/-- The dense elements of a BSMX container body: the j-th set bit of the mask takes element j. -/
def bsmxDense (fm : Fmt) (mask : Nat) (body : List Byte) : List Nat :=
  let field := leNat body
  (List.range 32).map fun i =>
    if mask.testBit i then
      let j := ((List.range i).filter fun k => mask.testBit k).length
      field / 2 ^ (fmtWidth fm * j) % 2 ^ fmtWidth fm
    else 0

/-- `vbsup` (R73, R39): reads and checks a BSMX container in three steps and writes the dense
block. -/
def execVbsup (t : Nat) (f : VForm) (s : State) : Res :=
  .next (issue t (insnV 0x1D 0x03 { vd := true, rs := true } fmtsMx [] (.bit 0) false false false f)
    (fun s th th' =>
      let fm := vFmt f
      let a := readS th f.rs
      match checkLocal s th a 8 8 with
      | some c => raise s c a
      | none =>
        let h := readWindow s th a.toNat 8
        let mask := leNat (h.2.1.take 4)
        let count := (h.2.1.getD 6 0).toNat
        let ones := ((List.range 32).filter fun i => mask.testBit i).length
        if readMustWait s (engineOf t) ((groupOf s th).winBase + a.toNat) 40 then .wait
        else if h.1 then raise h.2.2 .poison a
        else if count ≠ ones ∨ h.2.1.getD 5 0 ≠ (codeOfFmt fm).setWidth 8 ∨ h.2.1.getD 7 0 ≠ 0 then
          raise h.2.2 .format 0
        else
          let n := bsmxSize count (fmtWidth fm)
          match checkLocal s th a n 8 with
          | some c => raise h.2.2 c a
          | none =>
            let b := readWindow h.2.2 th (a.toNat + 8) (n - 8)
            if b.1 then raise b.2.2 .poison a
            else .state (setThread b.2.2 t (writeV th' f.vd
              (mxRegister fm { scale := (h.2.1.getD 4 0).toNat
                               elems := bsmxDense fm mask b.2.1 })))) s)

end Sys2Proof.Machine
end

