-- ==== Sys2Proof/Machine/Tensor.lean ====
section
/-! DEFINITION. Tensor instructions: multiplies, accumulators and tile moves (R74, R92 to R109). -/

namespace Sys2Proof.Machine

/-- R92: the pairs of formats a multiply accepts. -/
def pairOk (a b : Option Fmt) : Bool :=
  match a, b with
  | some x, some y =>
    (fmtIsMx x && fmtIsMx y) || ((x == .bf16 || x == .fp16) && (y == .bf16 || y == .fp16))
  | _, _ => false

/-- Physical accumulator that a name of a thread's group maps to (R98); none beyond the
reservation. -/
def physAcc (s : State) (th : Thread) (ta : Nat) : Option Nat := (groupOf s th).accs[ta]?

/-- R98, R99: the lane that owns an accumulator name. -/
def accOwner (s : State) (th : Thread) (ta : Nat) : Option Nat :=
  ((groupOf s th).owners[ta]?).join

/-- R74: an instruction names an accumulator that the thread does not own. -/
def accBad (s : State) (th : Thread) (ta : Nat) : Bool :=
  (physAcc s th ta).isNone || accOwner s th ta != some th.lane

/-- Set the owner of an accumulator name. -/
def setOwner (s : State) (th : Thread) (ta : Nat) (o : Option Nat) : State :=
  let g := groupOf s th
  { s with groups := tset Group.none s.groups th.group { g with owners := g.owners.set ta o } }

/-- Key of element (m, n) of a physical accumulator of an engine. -/
def accKey (e a m n : Nat) : Nat := (e * 8 + a) * 4096 + 64 * m + n

/-- One element of an accumulator. -/
def accGet (s : State) (e a m n : Nat) : BitVec 32 := tget 0 s.accs (accKey e a m n)

/-- Write elements of an accumulator: element `i` for each `i` below `n`. -/
def accFill (s : State) (base : Nat) (g : Nat → BitVec 32) : Nat → State
  | 0 => s
  | n + 1 =>
    let s1 := accFill s base g n
    { s1 with accs := tset 0 s1.accs (base + n) (g n) }

/-- Whole contents of an accumulator: element (m, n) is `g m n`. -/
def accWrite (s : State) (e a : Nat) (g : Nat → Nat → BitVec 32) : State :=
  accFill s ((e * 8 + a) * 4096) (fun i => g (i / 64) (i % 64)) 4096

/-- Element `k` of record `r` of a tile held in the number `tile`, without its scale (R35, R94). -/
def tileElem (f : Fmt) (stride tile r k : Nat) : Nat :=
  tile / 2 ^ (8 * stride * r + fmtWidth f * k) % 2 ^ fmtWidth f

/-- Scale byte 2r + b of a tile (R94, R102). -/
def tileScale (stride tile r b : Nat) : Nat := tile / 2 ^ (8 * (64 * stride + 2 * r + b)) % 256

/-- The value of an element with its scale (R36, R96). -/
def tileVal (f : Fmt) (stride tile r k b : Nat) : Val :=
  if fmtIsMx f then decodeMx f (tileScale stride tile r b) (tileElem f stride tile r k)
  else decodeElem f (tileElem f stride tile r k)

/-- Occupancy word or mask from metadata bytes. -/
def metaWord (bs : List Byte) (r : Nat) : Nat := leNat ((bs.drop (8 * r)).take 8)

/-- Number of set bits of `w` below bit `k`. -/
def onesBelow (w k : Nat) : Nat := ((List.range k).filter fun i => w.testBit i).length

/-- The logical A operand of a multiply (R94, R102 to R104): a position not stored holds +0 under
its block's scale. -/
def operandA (minor : Nat) (f : Fmt) (tile : Nat) (md : List Byte) (m k : Nat) : Val :=
  if minor = 1 ∨ minor = 2 then
    let w := metaWord md m
    let stride := sparseStride f
    if w.testBit k then tileVal f stride tile m (onesBelow w k) (k / 32)
    else if fmtIsMx f then decodeMx f (tileScale stride tile m (k / 32)) 0
    else .fin false 0 0
  else tileVal f (recordStride f) tile m k (k / 32)

/-- R96: the exact sum of group `j`'s products, rounded once to FP32. -/
def groupSum (a b : Nat → Val) (j : Nat) : Nat :=
  encodeFloat .fp32 .rne 0
    ((List.range 8).foldl (fun acc i =>
      let p := valMul (a (8 * j + i)) (b (8 * j + i))
      match acc with
      | none => some p
      | some x => some (valAdd x p)) none |>.getD (.fin false 0 0))

/-- R96, R105: one element of the product: the group sums not omitted are added in ascending order,
each addition rounded to nearest even in FP32. -/
def multiplyElem (use : Nat → Bool) (start : Option (BitVec 32)) (a b : Nat → Val) : BitVec 32 :=
  let r := (List.range 8).foldl (fun (acc : Option Nat) j =>
    if use j then
      match acc with
      | none => some (groupSum a b j)
      | some x => some (encodeFloat .fp32 .rne 0
          (valAdd (decodeElem .fp32 x) (decodeElem .fp32 (groupSum a b j))))
    else acc) (start.map BitVec.toNat)
  BitVec.ofNat 32 (r.getD 0)

/-- R105: bit 8i + j of the block mask stands for records 8i to 8i + 7 and K group j. -/
def blockUsed (minor mask m j : Nat) : Bool := minor != 3 || mask.testBit (8 * (m / 8) + j)

/-- R109: the bytes of a tile that a multiply uses, where a mover may have written since it issued: each
64 B line as it was then (`old`) or as it stands now, in full, which a free value decides (log entry 68).
A line that holds a poisoned word now is used as it was. -/
def operandLines (s : State) (pa : Nat) (old : List Byte) : Nat → List Byte
  | 0 => old
  | n + 1 =>
    let now := peek s pa (old.take 64).length
    let poisoned := (List.range 8).any fun i => wordCheck s (pa + 8 * i) == .poison
    let new := !poisoned && (Config.freeWord (s.freeCtr + 2 ^ 64 * (pa + 1))).getLsbD 0
    (if new then now else old.take 64) ++ operandLines s (pa + 64) (old.drop 64) n

/-- The operand bytes that a multiply in flight uses: of A, of B, and of its metadata or mask, which it
read and checked as it issued (R103, R109). -/
def multiplyBytes (s : State) (th : Thread) (o : Op) : List Byte × List Byte × List Byte :=
  let fa := tensorFmtA o.word
  let minor := tensorMinor o.word
  let na := tileBytes (if minor = 1 ∨ minor = 2 then sparseStride fa else recordStride fa) fa
  let nb := tileBytes (recordStride (tensorFmtB o.word)) (tensorFmtB o.word)
  (operandLines s (windowPa s th o.x.toNat) (o.data.take na) (na / 64 + 1),
    operandLines s (windowPa s th o.y.toNat) ((o.data.drop na).take nb) (nb / 64 + 1),
    o.data.drop (na + nb))

/-- The result of a multiply in flight (R96, R104, R105). -/
def multiplyResult (s : State) (th : Thread) (o : Op) (e a : Nat) : Nat → Nat → BitVec 32 :=
  let fa := tensorFmtA o.word
  let fb := tensorFmtB o.word
  let minor := tensorMinor o.word
  let bytes := multiplyBytes s th o
  let ta := leNat bytes.1
  let tb := leNat bytes.2.1
  let md := bytes.2.2
  let mask := metaWord md 0
  let acc := o.word.getLsbD 19
  fun m n => multiplyElem (blockUsed minor mask m)
    (if acc then some (accGet s e a m n) else none)
    (fun k => operandA minor fa ta md m k)
    (fun k => tileVal fb (recordStride fb) tb n k (k / 32))

/-- R103: an occupancy word meets its variant's constraint. -/
def metaOk (minor w : Nat) : Bool :=
  if minor = 1 then (List.range 16).all fun g => onesBelow (w / 2 ^ (4 * g) % 16) 4 == 2
  else (List.range 8).all fun g => onesBelow (w / 2 ^ (8 * g) % 256) 8 == 4

/-- Window byte ranges whose words a multiply reads, given its mask (R105, R109): for `tmmak` only
the blocks set, and their scales. -/
def bytesRead (minor mask : Nat) (o : Op) : List (Nat × Nat) :=
  if minor ≠ 3 then multiplyRanges o
  else
    let part (base : Nat) (f : Fmt) (used : Nat → Nat → Bool) : List (Nat × Nat) :=
      (List.range 64).flatMap fun r =>
        ((List.range 8).filterMap fun j =>
          if used r j then some (base + r * recordStride f + j * fmtWidth f, fmtWidth f) else none) ++
        (if fmtIsMx f then
          (List.range 2).filterMap fun b =>
            if (List.range 4).any fun j => used r (4 * b + j) then
              some (base + 64 * recordStride f + 2 * r + b, 1) else none
         else [])
    part o.x.toNat (tensorFmtA o.word) (fun r j => mask.testBit (8 * (r / 8) + j)) ++
      part o.y.toNat (tensorFmtB o.word)
        (fun _ j => (List.range 8).any fun i => mask.testBit (8 * i + j)) ++ [(o.va.toNat, 8)]

/-- R135: check the words of several window ranges; the flag says that one reads as poison. -/
def checkRanges (s : State) (th : Thread) : List (Nat × Nat) → Bool × State
  | [] => (false, s)
  | (off, n) :: rs =>
    let r := checkWords s (windowPa s th off) (wordSpan (windowPa s th off) n)
    let rest := checkRanges r.2 th rs
    (r.1 || rest.1, rest.2)

/-- The first failing check of several window operands, in the order of R82: alignment to 64 of
each address, then the window. -/
def checkTiles (s : State) (th : Thread) (rs : List (Word × Nat)) : Option (Cause × Word) :=
  match rs.find? fun r => r.1.toNat % 64 ≠ 0 with
  | some r => some (.align, r.1)
  | none =>
    match rs.find? fun r => (checkLocal s th r.1 r.2 64).isSome with
    | some r => some (.lbounds, r.1)
    | none => none

/-- R103, R82: an occupancy word that can be read breaks its variant's constraint. A poisoned word is not
judged. -/
def metaBroken (s : State) (th : Thread) (minor : Nat) (va : Nat) (md : List Byte) : Bool :=
  (minor == 1 || minor == 2) && (List.range 64).any fun k =>
    wordCheck s (windowPa s th va + 8 * k) != .poison && !metaOk minor (metaWord md k)

/-- R84: the address that a POISON of a multiply names: that of the first of A, B and the metadata in
which a word read is poisoned (log entry 68). -/
def poisonAddr (s : State) (th : Thread) (o : Op) (rs : List (Nat × Nat)) (na nb : Nat) : Word :=
  let bad := (rs.filter fun r => (checkRanges s th [r]).1).map Prod.fst
  if bad.any fun a => decide (o.x.toNat ≤ a ∧ a < o.x.toNat + na) then o.x
  else if bad.any fun a => decide (o.y.toNat ≤ a ∧ a < o.y.toNat + nb) then o.y
  else o.va

/-- Issue a tensor multiply (R74, R92, R95, R96, R103 to R107): its operands are checked, the MAC
array is taken, and its result stands with TENSOR_COMPLETE. -/
def multiply (minor : BitVec 6) (t : Nat) (f : TForm) (s : State) : State :=
  let i := insnT 0x20 minor (pairOk (fmtOfCode f.fmtA) (fmtOfCode f.fmtB) && f.rnd == 0) true true
    (minor != 0) f
  issue t i
    (fun s th th' =>
      let e := engineOf t
      let op0 := newOp th i .tensor (readS th f.sm) 0 0
      let o : Op := { op0 with x := readS th f.sa, y := readS th f.sb, acc := some f.ta.toNat }
      let mn := minor.toNat
      let fa := tensorFmtA i.word
      let fb := tensorFmtB i.word
      let sa := if mn = 1 ∨ mn = 2 then sparseStride fa else recordStride fa
      let tiles := [(o.x, tileBytes sa fa), (o.y, tileBytes (recordStride fb) fb)] ++
        (if mn = 0 then [] else [(o.va, if mn = 3 then 8 else 512)])
      if (tget none s.macBusy e).isSome then .wait
      else match checkTiles s th tiles with
      | some ca => raise s ca.1 ca.2
      | none =>
        if accBad s th f.ta.toNat then raise s .tacc 0
        else if tiles.any fun r => readMustWait s e ((groupOf s th).winBase + r.1.toNat) r.2 then
          .wait
        else
          let md := if mn = 0 then [] else peek s (windowPa s th o.va.toNat) (if mn = 3 then 8 else 512)
          let rs := bytesRead mn (metaWord md 0) o
          let r := checkRanges s th rs
          let na := tileBytes sa fa
          let nb := tileBytes (recordStride fb) fb
          if metaBroken r.2 th mn o.va.toNat md then raise r.2 .format 0
          else if r.1 then raise r.2 .poison (poisonAddr r.2 th o rs na nb)
          else
            let bytes := peek s (windowPa s th o.x.toNat) na ++ peek s (windowPa s th o.y.toNat) nb ++ md
            .state (setThread
              { r.2 with macBusy := tset none r.2.macBusy e (some (t, th.nextOp)) } t
              (pushOp th' { o with data := bytes }))) s

/-- `tmma` (R96). -/
def execTmma (t : Nat) (f : TForm) (s : State) : Res := .next (multiply 0x00 t f s)

/-- `tmma.s24` (R104). -/
def execTmmaS24 (t : Nat) (f : TForm) (s : State) : Res := .next (multiply 0x01 t f s)

/-- `tmma.s48` (R104). -/
def execTmmaS48 (t : Nat) (f : TForm) (s : State) : Res := .next (multiply 0x02 t f s)

/-- `tmmak` (R105). -/
def execTmmak (t : Nat) (f : TForm) (s : State) : Res := .next (multiply 0x03 t f s)

/-- R93: energy of one MAC of a format's class, in 0.01 pJ. -/
def macEnergy (f : Fmt) : Nat :=
  match f with
  | .e2m1 => 12
  | .e2m3 | .e3m2 => 20
  | .e4m3 | .e5m2 | .mxint8 => 24
  | _ => 45

/-- R93: the charge of a multiply: of a pair the costlier class; sparse variants 0.55 of the dense;
`tmmak` for the blocks of its mask. -/
def multiplyCharge (s : State) (th : Thread) (o : Op) : Nat :=
  let c := max (macEnergy (tensorFmtA o.word)) (macEnergy (tensorFmtB o.word))
  match tensorMinor o.word with
  | 0 => 262144 * c * unitsPerPj / 100
  | 3 =>
    let mask := metaWord (multiplyBytes s th o).2.2 0
    4096 * onesBelow mask 64 * c * unitsPerPj / 100
  | _ => 262144 * c * 55 * unitsPerPj / 10000

/-- R108: the charge of a `tld` or `tst`, 2.0 nJ. -/
def tileCharge : Nat := 2000 * unitsPerPj

/-- TENSOR_COMPLETE (R107): a multiply frees the MAC array and its result stands in the
accumulator. -/
def execTensorComplete (t id : Nat) (s : State) : Res :=
  .next (
    let th := thread s t
    match findOp th id with
    | none => s
    | some o =>
      if o.kind ≠ .tensor then s
      else
        let e := engineOf t
        let s1 := match o.acc.bind (physAcc s th) with
          | some a => accWrite s e a (multiplyResult s th o e a)
          | none => s
        let s2 := chargeThread (takeFree s1).2 t (multiplyCharge s th o)
        settleThread (setThread { s2 with macBusy := tset none s2.macBusy e none } t (dropOp th id)) t)

/-- The fields that `talloc`, `tfree` and `tzero` leave unused must be zero (R100). -/
def accFieldsZero (f : TForm) : Bool :=
  f.sb == 0 && f.sm == 0 && f.fmtA == 0 && f.fmtB == 0 && f.rnd == 0 && f.acc == 0

/-- `talloc` (R99): claims ta for the thread and writes ST_OK to sa, or ST_QUOTA where another
thread owns it. -/
def execTalloc (t : Nat) (f : TForm) (s : State) : Res :=
  .next (issue t (insnT 0x21 0x00 (accFieldsZero f) true false false f)
    (fun s th th' =>
      if (physAcc s th f.ta.toNat).isNone then raise s .tacc 0
      else match accOwner s th f.ta.toNat with
        | some l =>
          .done (writeS th' f.sa (if l = th.lane then 0 else 0x10))
        | none => .state (setThread (setOwner s th f.ta.toNat (some th.lane)) t
            (writeS th' f.sa 0))) s)

/-- `tfree` (R100): releases ta and leaves its contents; it has waited for every earlier use. -/
def execTfree (t : Nat) (f : TForm) (s : State) : Res :=
  .next (issue t (insnT 0x21 0x01 (accFieldsZero f) false false false f)
    (fun s th th' =>
      if accBad s th f.ta.toNat then raise s .tacc 0
      else .state (setThread (setOwner s th f.ta.toNat none) t th')) s)

/-- `tzero` (R100): every element of ta becomes +0. -/
def execTzero (t : Nat) (f : TForm) (s : State) : Res :=
  .next (issue t (insnT 0x21 0x02 (accFieldsZero f) false false false f)
    (fun s th th' =>
      match physAcc s th f.ta.toNat with
      | none => raise s .tacc 0
      | some a =>
        if accBad s th f.ta.toNat then raise s .tacc 0
        else .state (setThread (accWrite s (engineOf t) a fun _ _ => 0) t th')) s)

/-- R108: the engine's accumulator port moves a tile. -/
def portBusy (s : State) (e : Nat) : Bool :=
  (engineOps s e).any fun bo => bo.2.kind == .tileLoad || bo.2.kind == .tileStore

/-- Issue `tld` or `tst` (R101, R108). -/
def tileMove (minor : BitVec 6) (k : OpKind) (fmts : List Fmt) (t : Nat) (f : TForm) (s : State) :
    State :=
  let ok := (match fmtOfCode f.fmtA with | some x => fmts.contains x | none => false) &&
    f.sb == 0 && f.sm == 0 && f.fmtB == 0 && (k == .tileStore || f.rnd == 0)
  let i := insnT 0x21 minor ok true false false f
  issue t i
    (fun s th th' =>
      let e := engineOf t
      let a := readS th f.sa
      let n := tileBytes (recordStride (tensorFmtA i.word)) (tensorFmtA i.word)
      let off := (groupOf s th).winBase + a.toNat
      if portBusy s e then .wait
      else match checkTiles s th [(a, n)] with
      | some ca => raise s ca.1 ca.2
      | none =>
        if accBad s th f.ta.toNat then raise s .tacc 0
        else
          let op0 := newOp th i k a n 0
          let o : Op := { op0 with acc := some f.ta.toNat, y := th.srCount.setWidth 64 }
          if k = .tileStore then
            (if storeMustWait s e off n then .wait else .state (setThread s t (pushOp th' o)))
          else
            let r := checkRanges s th [(a.toNat, n)]
            if r.1 then raise r.2 .poison a else .state (setThread r.2 t (pushOp th' o))) s

/-- `tld` (R101). -/
def execTld (t : Nat) (f : TForm) (s : State) : Res :=
  .next (tileMove 0x03 .tileLoad fmtsFp t f s)

/-- `tst` (R101). -/
def execTst (t : Nat) (f : TForm) (s : State) : Res :=
  .next (tileMove 0x04 .tileStore (fmtsFp ++ fmtsMx) t f s)

/-- The bytes that a `tst` writes (R94, R101): record r is row r or, with dir 1, column r. -/
def tileImage (s : State) (th : Thread) (o : Op) (e a : Nat) : List Byte :=
  let fm := tensorFmtA o.word
  let rnd := (rndOfCode (o.word.extractLsb' 20 2)).getD .rne
  let dir := o.word.getLsbD 19
  let elem (r k : Nat) : Nat := (if dir then accGet s e a k r else accGet s e a r k).toNat
  let rand (i : Nat) : Nat := srRandom (gridOf s th).seed (tidOf s th) (o.y.setWidth 32) i
  if fmtIsMx fm then
    let blocks := (List.range 128).map fun rb =>
      let r := rb / 2
      let b := rb % 2
      quantise fm rnd (fun i => rand (64 * r + 32 * b + i))
        ((List.range 32).map fun i => decodeElem .fp32 (elem r (32 * b + i)))
    (blocks.flatMap fun x => leBytes (4 * fmtWidth fm) (packElems (fmtWidth fm) x.elems)) ++
      blocks.map fun x => BitVec.ofNat 8 x.scale
  else
    (List.range 4096).flatMap fun i =>
      leBytes (fmtWidth fm / 8) (convertElem .fp32 fm rnd (rand i) (elem (i / 64) (i % 64)))

/-- TILE_MOVE_COMPLETE (R108): a `tld` or `tst` finishes on the accumulator port. -/
def execTileMoveComplete (t id : Nat) (s : State) : Res :=
  .next (
    let th := thread s t
    match findOp th id with
    | none => s
    | some o =>
      let e := engineOf t
      match o.kind, o.acc.bind (physAcc s th) with
      | .tileLoad, some a =>
        let fm := tensorFmtA o.word
        let tile := leNat (peek s (windowPa s th o.va.toNat) o.size)
        let g (r k : Nat) : BitVec 32 :=
          BitVec.ofNat 32 (convertElem fm .fp32 .rne 0 (tileElem fm (recordStride fm) tile r k))
        let s1 := accWrite s e a fun m n => if o.word.getLsbD 19 then g n m else g m n
        settleThread (setThread (chargeThread s1 t tileCharge) t (dropOp th id)) t
      | .tileStore, some a =>
        let s1 := writeWindow s th o.va.toNat (tileImage s th o e a)
        settleThread (setThread (chargeThread s1 t tileCharge) t (dropOp th id)) t
      | _, _ => s)

end Sys2Proof.Machine
end

