-- ==== Sys2Proof/Machine/PreemptOps.lean ====
section
/-! DEFINITION. Stopping threads at a boundary, saving groups into the pre-emption area, placing
groups on engines, and pre-empting and resuming partitions (R51 to R53, R60, R86, R372, R378, R386,
R400). -/

namespace Sys2Proof.Machine

/-- The next state of an answer; the state before where there is none. -/
def resState (s : State) (r : Res) : State :=
  match r with
  | .next x => x
  | _ => s

/-- R86: complete one operation that needs nothing from the network: one in flight, or one that waits
for a walk. -/
def drainOp (t : Nat) (s : State) (o : Op) : State :=
  match o.phase, o.kind with
  | .walk, _ => pageWalk s t
  | .flight, .load => resState s (execGlobalLoadResponse t o.id s)
  | .flight, .vload => resState s (execGlobalLoadResponse t o.id s)
  | .flight, .sig => resState s (execSignalAtHome t o.id s)
  | .flight, .sread => resState s (execSreadResponse t o.id s)
  | .flight, .tensor => resState s (execTensorComplete t o.id s)
  | .flight, .tileLoad => resState s (execTileMoveComplete t o.id s)
  | .flight, .tileStore => resState s (execTileMoveComplete t o.id s)
  | _, _ => s

/-- R86: the operations of a thread in flight complete or fail, an exception raised at the boundary
is taken, and an ENDING thread that has drained ends. What a walk lets go completes in a second pass. -/
def drainThread (s : State) (t : Nat) : State :=
  let s0 := (thread s t).ops.foldl (drainOp t) s
  let s1 := (thread s0 t).ops.foldl (drainOp t) s0
  let s2 := resState s1 (execDeferredException t s1)
  let s3 := resState s2 (execFenceRetire t s2)
  resState s3 (execThreadEnd t s3)

/-- R86: what threads have in flight does not yet let them stop at a boundary: a response of the network,
or of host memory, is still to come. -/
def mustDrain (s : State) (ts : List Nat) : Bool := ts.any fun t => !atBoundary (thread s t)

/-! Group records (R386). -/

/-- Code of a thread state in a thread record: WAIT is saved as READY. -/
def threadStateCode (x : ThreadState) : Nat :=
  match x with
  | .free => 0 | .ready => 1 | .wait => 1 | .spin => 3 | .parked => 4 | .ending => 5 | .halted => 6

/-- R386: the state a thread is saved in. A thread stopped for the save, other than by an exception
or for debug, goes on where it stood. -/
def savedState (th : Thread) : ThreadState :=
  if th.state = .halted ∧ th.cause.isNone ∧ !th.debug then
    (if th.spin.isSome then .spin else .ready)
  else th.state

/-- The accumulators a lane owns, as bits (R386). -/
def ownBits (g : Group) (lane : Nat) : Nat :=
  ((List.range 8).filter fun a => (g.owners[a]?.getD none) == some lane).foldl (fun n a => n + 2 ^ a) 0

/-- A thread record (R386). -/
def threadRecord (g : Group) (th : Thread) (fault : Nat) : List Byte :=
  ((List.range 32).flatMap fun i => leBytes 8 (tget 0 th.s i).toNat) ++
  ((List.range 16).flatMap fun i => leBytes 64 (tget 0 th.v i).toNat) ++
  ((List.range 8).flatMap fun i =>
    leBytes 8 (if i = 0 then 2 ^ 64 - 1 else (tget 0 th.p i).toNat)) ++
  leBytes 8 th.pc.toNat ++ leBytes 4 th.srCount.toNat ++
  leBytes 4 ((th.spin.map Spin.left).getD 0) ++
  [BitVec.ofNat 8 (threadStateCode (savedState th)), BitVec.ofNat 8 th.lane,
    BitVec.ofNat 8 (ownBits g th.lane), 0] ++ leBytes 2 fault ++ leBytes 42 0

/-- Words of one accumulator by 64 m + n, of those listed. -/
def accSlice (s : State) (e a : Nat) : Table (BitVec 32) :=
  let base := accKey e a 0 0
  (s.accs.filter fun x => decide (base ≤ x.1 ∧ x.1 < base + 4096)).map fun x => (x.1 - base, x.2)

/-- Zero an accumulator. -/
def clearAcc (s : State) (e a : Nat) : State :=
  let base := accKey e a 0 0
  { s with accs := s.accs.filter fun x => !decide (base ≤ x.1 ∧ x.1 < base + 4096) }

/-- Give an accumulator its words. -/
def loadAcc (s : State) (e a : Nat) (w : Table (BitVec 32)) : State :=
  let s1 := clearAcc s e a
  { s1 with accs := w.foldl (fun m x => tset 0 m (accKey e a 0 0 + x.1) x.2) s1.accs }

/-- The 16 KiB of an accumulator: element (m, n) at 256m + 4n. -/
def accImage (w : Table (BitVec 32)) : List Byte :=
  (List.range 4096).flatMap fun i => leBytes 4 (tget 0 w i).toNat

/-- A group record (R386); `fault` gives a PARKED lane the number of its fault's record. -/
def groupRecord (gridNo : Nat) (x : SavedGroup) (fault : Nat → Nat) : List Byte :=
  leBytes 8 gridNo ++ leBytes 8 x.group.index ++
  [BitVec.ofNat 8 x.threads.length, BitVec.ofNat 8 x.accs.length] ++
  leBytes 2 (x.group.winSize / 64) ++ leBytes 44 0 ++ x.window ++
  x.accs.flatMap accImage ++
  x.threads.flatMap fun th => threadRecord x.group th (fault th.lane)

/-- Bytes of a group record (R385). -/
def groupRecordSize (x : SavedGroup) : Nat :=
  64 + x.group.winSize + x.accs.length * 16384 + x.threads.length * 1408

/-! Saving and placing groups. -/

/-- Give an agent or descriptor of thread `a` the name `b`. -/
def renameThread (s : State) (a b : Nat) : State :=
  let agent (w : FaultAgent) : FaultAgent := if w = .thread a then .thread b else w
  { s with
    faults := s.faults.map fun e => (e.1, { e.2 with
      faults := e.2.faults.map fun f => { f with waiters := f.waiters.map agent } })
    movers := s.movers.map fun e => (e.1, { e.2 with
      queue := e.2.queue.map fun d => if d.thread = a then { d with thread := b } else d })
    qps := s.qps.map fun e => (e.1, { e.2 with
      ops := e.2.ops.map fun o => match o.src with
        | .thread t id => if t = a then { o with src := .thread b id } else o
        | _ => o }) }

/-- PART_PREBASE (R389). -/
def partPrebase : Nat := 0x0600000

/-- The pre-emption area is in force (R378). -/
def preEnabled (s : State) : Bool := (reg s partPrebase).getLsbD 63

/-- Address in the pre-emption area of a group saved from engine `e`: its engine's share of the
core's slot, after the groups saved from that engine already (log entry 13). -/
def slotPa (s : State) (e : Nat) : Nat :=
  let before := s.grids.flatMap fun x => x.2.saved.filter fun y => y.group.engine == e
  bits (reg s partPrebase) 22 26 * 2 ^ 22 + 2 ^ 22 * coreOf e + 258048 * (e % 16) +
    (before.map groupRecordSize).foldl (· + ·) 0

/-- Insert a saved group in ascending group order. -/
def insertSaved (x : SavedGroup) : List SavedGroup → List SavedGroup
  | [] => [x]
  | y :: ys => if x.group.index < y.group.index then x :: y :: ys else y :: insertSaved x ys

/-- Release a resident group's contexts, leaving its grid's counts as they are. -/
def unloadGroup (s : State) (key : Nat) : State :=
  let g := tget Group.none s.groups key
  let s1 := g.threads.foldl (fun s t => setThread s t Thread.free) s
  { s1 with groups := tset Group.none s1.groups key Group.none }

/-- Poison the words that the check states of a window say are poisoned. -/
def poisonWords (s : State) (pa : Nat) (cs : List WordCheck) : State :=
  ((List.range cs.length).zip cs).foldl
    (fun s c => if c.2 = .poison then setCheck s (pa + 8 * c.1) .poison else s) s

/-- R372, R378: stop a resident group at boundaries and save it: into the pre-emption slot of its
core, and as what its placing again needs. A SPIN thread placed again translates anew. Its window is read as any agent reads it (R134, R135). -/
def saveGroup (s : State) (key : Nat) : State :=
  let s := (tget Group.none s.groups key).threads.foldl drainThread s
  let g := tget Group.none s.groups key
  if g.threads = [] then s
  else
    let keep (t : Nat) : Thread :=
      let th := { thread s t with halting := false }
      if th.state = .parked then th
      else
        let x := stopThread (engineNow s t) th
        { x with spin := x.spin.map fun y => { y with stale := true } }
    let pa := localPa g.engine g.winBase
    let w := readMem s pa g.winSize
    let s := w.2.2
    let x : SavedGroup :=
      { group := g, threads := g.threads.map keep, window := w.2.1
        checks := (List.range (g.winSize / 8)).map fun i => wordCheck s (pa + 8 * i)
        accs := g.accs.map (accSlice s g.engine)
        slot := if g.engine < 16384 then slotPa s g.engine else 0 }
    let s1 := if g.engine < 16384 then
        poisonWords (writeMem s x.slot (groupRecord g.grid x fun _ => 0)) (x.slot + 64) x.checks
      else s
    let s2 := x.threads.foldl (fun s th =>
      match g.threads[th.lane]? with
      | some t => renameThread s t (savedName g.grid g.index th.lane)
      | none => s) s1
    let s3 := unloadGroup s2 key
    modGrid s3 g.grid fun gr => { gr with saved := insertSaved x gr.saved }

/-- Resident groups of an engine. -/
def engineGroups (s : State) (e : Nat) : List Group :=
  (s.groups.filter fun x => x.2.engine == e && !x.2.threads.isEmpty).map Prod.snd

/-- R52: the lowest engine offset, a multiple of 64 B from `k` on, where `size` bytes fit beside the
windows given. -/
def findWindow (ws : List (Nat × Nat)) (size k : Nat) : Nat → Option Nat
  | 0 => none
  | n + 1 =>
    if 32768 < 64 * k + size then none
    else if ws.any fun w => decide (64 * k < w.1 + w.2 ∧ w.1 < 64 * k + size) then
      findWindow ws size (k + 1) n
    else some (64 * k)

/-- Grids resident on a core. -/
def coreGrids (s : State) (c : Nat) : List Grid :=
  (s.groups.filter fun x => coreOf x.2.engine == c && !x.2.threads.isEmpty).map fun x =>
    grid s x.2.grid

/-- An image is the one a grid runs (R60). -/
def imageOf (i : Image) (g : Grid) : Bool :=
  i.part == g.part && i.ctx == g.ctx && i.prog == g.prog && i.words.length == 8 * g.psz

/-- Images of a core that a resident grid runs; the store gives up the others. -/
def liveImages (s : State) (c : Nat) : List Image :=
  let gs := coreGrids s c
  (tget [] s.images c).filter fun i => gs.any (imageOf i)

/-- What a group needs of an engine (R51). -/
structure Placing where
  ctxs : List Nat
  window : Nat
  accs : List Nat
  deriving DecidableEq, Repr

/-- R51: where a group of grid `g` fits on an engine: its thread contexts, its window and its
accumulators, the lowest free of each, and its program image within the 64 KiB store. -/
def fitOn (s : State) (g : Grid) (e : Nat) : Option Placing :=
  let gs := engineGroups s e
  let ctxs := ((List.range 64).filter fun k => (thread s (64 * e + k)).state == .free &&
    !gs.any fun x => x.threads.contains (64 * e + k)).take g.tpg
  let used := gs.flatMap Group.accs
  let accs := ((List.range 8).filter fun a => !used.contains a).take g.nacc
  let win := if g.lsz = 0 then some 0
    else findWindow ((gs.filter fun x => x.winSize != 0).map fun x => (x.winBase, x.winSize))
      (64 * g.lsz) 0 512
  let imgs := liveImages s (coreOf e)
  let room := imgs.any (fun i => imageOf i g) ||
    decide ((imgs.map fun i => 8 * i.words.length).foldl (· + ·) 0 + 64 * g.psz ≤ 65536)
  let job := s.bushel.any fun b => match b.2.run with
    | some r => r.jobs.any fun j => j.engine == e
    | none => false
  match win with
  | none => none
  | some w =>
    if !job ∧ ctxs.length = g.tpg ∧ accs.length = g.nacc ∧ room then
      some { ctxs := ctxs.map fun k => 64 * e + k, window := w, accs := accs }
    else none

/-- Words of a byte list. -/
def wordsOf : Nat → List Byte → List Word
  | 0, _ => []
  | n + 1, bs => BitVec.ofNat 64 (leNat (bs.take 8)) :: wordsOf n (bs.drop 8)

/-- R60: the copy of a grid's image that another live grid of its context, program address and size
has taken, which the two share. -/
def sharedImage (s : State) (g : Grid) : Option (List Word) :=
  (s.grids.find? fun x => x.2.state != .gone && x.2.part == g.part && x.2.ctx == g.ctx &&
    x.2.prog == g.prog && x.2.psz == g.psz && x.2.image.isSome).bind fun x => x.2.image

/-- R60: the core's instruction store holds the grid's image; the status of a failed copy. The copy
is taken once for a grid, or for the grids that share it, so writes after its launch are not seen. -/
def loadImage (s : State) (gn c : Nat) : Option (BitVec 8) × State :=
  let g := grid s gn
  let imgs := liveImages s c
  let put (s : State) (ws : List Word) : State :=
    let i : Image := { part := g.part, ctx := g.ctx, prog := g.prog, words := ws }
    let kept := if imgs.any fun i => imageOf i g then imgs else imgs ++ [i]
    modGrid { s with images := tset [] s.images c kept } gn fun x => { x with image := some ws }
  match (if g.image.isSome then g.image else sharedImage s g) with
  | some ws => (none, put s ws)
  | none =>
    match imgs.find? fun i => imageOf i g with
    | some i => (none, put s i.words)
    | none =>
      let d := readVa s .fabric fabricUnit g.part g.ctx g.prog.toNat (64 * g.psz)
      match d.1 with
      | .error e => (some (failStatus e), d.2)
      | .ok bs => (none, put d.2 (wordsOf (8 * g.psz) bs))

/-- A group key not in use. -/
def freshGroup (s : State) : Nat := (s.groups.map fun x => x.1 + 1).foldl max 0

/-- Stop a grid whose image or state cannot be had: it completes with the status. -/
def abortGrid (s : State) (gn : Nat) (st : BitVec 8) : State :=
  let s1 := stopGridThreads s gn
  settleGrid (modGrid s1 gn fun g => { g with state := .stopping, abort := some st, saved := [] }) gn

/-- R53: a thread as its group starts. R90 gives prog no range: the pc takes its 57 bits of address, and
bits [63:57] are ignored (DESIGN CHOICE, log entry 80). -/
def startThread (gr : Grid) (gn key idx lane : Nat) : Thread :=
  let shape := gr.gx + 2 ^ 16 * gr.gy + 2 ^ 32 * gr.gz + 2 ^ 48 * gr.tpg
  let put (r : Nat) (v : Word) (m : Table Word) : Table Word := tset 0 m r v
  { Thread.free with
    state := .ready, group := key, grid := gn, lane := lane, pc := gr.prog.setWidth 57
    s := put 4 (BitVec.ofNat 64 shape) (put 3 (BitVec.ofNat 64 lane)
      (put 2 (BitVec.ofNat 64 idx) (put 1 gr.param []))) }

/-- Zero the bytes of a range of memory and give its words good check bits. -/
def zeroMem (s : State) (pa n : Nat) : State :=
  { s with
    mem := s.mem.filter fun e => !decide (pa ≤ e.1 ∧ e.1 < pa + n)
    checks := s.checks.filter fun e => !decide (pa / 8 ≤ e.1 ∧ e.1 < (pa + n) / 8) }

/-- R52, R53: start a new group at a placing. -/
def startGroup (s : State) (gn e : Nat) (p : Placing) : State :=
  let g := grid s gn
  let idx := g.nextGroup
  let key := freshGroup s
  let x : Group :=
    { grid := gn, index := idx, engine := e, threads := p.ctxs, winBase := p.window
      winSize := 64 * g.lsz, accs := p.accs, owners := List.replicate g.nacc none }
  let s1 := zeroMem { s with groups := tset Group.none s.groups key x }
    (localPa e p.window) (64 * g.lsz)
  let s2 := p.accs.foldl (fun s a => clearAcc s e a) s1
  let s3 := (p.ctxs.zip (List.range g.tpg)).foldl (fun s c =>
    setThread s c.1 (startThread g gn key idx c.2)) s2
  modGrid s3 gn fun y => { y with nextGroup := y.nextGroup + 1 }

/-- R372: place a saved group again, whole: its window, accumulators and threads come with it. -/
def replaceGroup (s : State) (gn e : Nat) (p : Placing) (x : SavedGroup) : State :=
  let key := freshGroup s
  let g : Group := { x.group with
    grid := gn, engine := e, threads := p.ctxs, winBase := p.window, accs := p.accs }
  let pa := localPa e p.window
  let s1 := zeroMem { s with groups := tset Group.none s.groups key g } pa x.group.winSize
  let s2 := poke s1 pa x.window
  let s3 := ((List.range x.checks.length).zip x.checks).foldl
    (fun s c => setCheck s (pa + 8 * c.1) c.2) s2
  let s4 := (p.accs.zip x.accs).foldl (fun s a => loadAcc s e a.1 a.2) s3
  let s5 := (p.ctxs.zip x.threads).foldl (fun s c =>
    let th : Thread := { c.2 with group := key, grid := gn }
    let th : Thread := if th.debug ∨ th.state = .parked then th else resumeThread (engineNow s c.1) th
    let th : Thread := { th with spin := th.spin.map fun y => { y with stale := true } }
    let s' := renameThread (setThread s c.1 th) (savedName gn x.group.index th.lane) c.1
    if th.faulted then
      takeException (modThread s' c.1 fun y => { y with faulted := false }) c.1 th.pc
        ((imageWord s' c.1 th.pc).getD 0) 0 .context (excStatus .context)
    else s') s4
  modGrid s5 gn fun y => { y with
    saved := y.saved.filter fun z => z.group.index != x.group.index }

/-- Keys of resident groups of the grids of a partition. -/
def partGroupKeys (s : State) (p : Nat) : List Nat :=
  (s.groups.filter fun x => (grid s x.2.grid).part == p &&
    (grid s x.2.grid).state != .gone).map Prod.fst

/-- General rings and privileged rings of a partition, by id. -/
def partRings (s : State) (p : Nat) : List Nat :=
  (s.rings.filter fun x => x.2.part == p).map Prod.fst

/-- Hold or release the consumed general rings of a partition (R186). -/
def holdRings (s : State) (p : Nat) (v : Bool) : State :=
  ((partRings s p).filter fun r => decide (0x200 ≤ r)).foldl
    (fun s r => modRing s r fun x => { x with held := v }) s

/-- R378, R400: a partition whose threads have come to a boundary is pre-empted: its groups are saved, its
grids release their reservations and become candidates, and its rings are held. -/
def preemptNow (s : State) (p : Nat) : State :=
  let s1 := (partGroupKeys s p).foldl saveGroup s
  let keys := (s1.grids.filter fun x => x.2.part == p && x.2.state == .running).map Prod.fst
  let s2 := keys.foldl (fun s g =>
    let n := s.sched.nextOrder
    modSched (modGrid s g fun y => { y with
      state := .preempted, shares := [], order := n, skipped := 0, paced := false })
      fun z => { z with nextOrder := n + 1 }) s1
  modPart (holdRings s2 p true) p fun x => { x with state := .preempted, draining := false }

/-- Threads of the resident groups of a partition. -/
def partThreads (s : State) (p : Nat) : List Nat :=
  (partGroupKeys s p).flatMap fun k => (tget Group.none s.groups k).threads

/-- R86, R378, R400: pre-empt a partition. Its threads issue no more; it is pre-empted at once, or when
the answers that they still wait for have come. -/
def preemptPartition (s : State) (p : Nat) : State :=
  let s1 := (partThreads s p).foldl drainThread s
  if mustDrain s1 (partThreads s1 p) then
    modPart (holdRings s1 p true) p fun x => { x with draining := true }
  else preemptNow s1 p

/-- R86: pre-emptions whose threads have come to their boundaries take place. -/
def settlePreempts (s : State) : State :=
  ((List.range 65).filter fun p => (partition s p).draining &&
    (partition s p).state == .run).foldl preemptPartition s

/-- A pre-empted partition, or one about to be, runs again: its rings are released. -/
def unholdPartition (s : State) (p : Nat) : State :=
  if (partition s p).state = .preempted ∨
      ((partition s p).draining ∧ (partition s p).state = .run) then
    modPart (holdRings s p false) p fun x => { x with state := .run, draining := false }
  else s

end Sys2Proof.Machine
end

