-- ==== Sys2Proof/Machine/MoverOps.lean ====
section
/-! DEFINITION. What the mover does for a descriptor: its checks, the window of its group, the
transfer line by line, and its faults (R68, R123, R130 to R133). -/

namespace Sys2Proof.Machine

/-- Fields of a descriptor (R130). -/
def descOp (d : MoverDesc) : Nat := descField d.bytes 0 1
def descFlags (d : MoverDesc) : Byte := d.bytes.getD 1 0
def descSloc (d : MoverDesc) : Bool := (descFlags d).getLsbD 0
def descDloc (d : MoverDesc) : Bool := (descFlags d).getLsbD 1
def descOrder (d : MoverDesc) : Bool := (descFlags d).getLsbD 2
def descRows (d : MoverDesc) : Nat := descField d.bytes 2 2
def descLen (d : MoverDesc) : Nat := descField d.bytes 4 4
def descSrc (d : MoverDesc) : Nat := descField d.bytes 8 8
def descDst (d : MoverDesc) : Nat := descField d.bytes 16 8
def descSstride (d : MoverDesc) : Nat := descField d.bytes 24 4
def descDstride (d : MoverDesc) : Nat := descField d.bytes 28 4
def descQpkey (d : MoverDesc) : Nat := descField d.bytes 32 8
def descSync (d : MoverDesc) : Nat := descField d.bytes 40 8
def descStat (d : MoverDesc) : Nat := descField d.bytes 48 8
def descSigcnt (d : MoverDesc) : Nat := descField d.bytes 56 4

/-- The transport carries the descriptor: PUT or GET. -/
def descRemote (d : MoverDesc) : Bool := descOp d == 4 || descOp d == 5

/-- Bytes that the descriptor moves. -/
def descTotal (d : MoverDesc) : Nat := descRows d * descLen d

/-- Bytes from the start of the first row to the end of the last. -/
def descExtent (d : MoverDesc) (stride : Nat) : Nat := (descRows d - 1) * stride + descLen d

/-- R131: a virtual address of the descriptor is outside its range, 57 bits (R110). -/
def vaOutside (d : MoverDesc) : Bool :=
  let op := descOp d
  ((op == 1 || op == 3 || op == 4) && !descSloc d &&
    decide (2 ^ 57 < descSrc d + descExtent d (descSstride d))) ||
  ((op == 1 || op == 2 || op == 3 || op == 5) && !descDloc d &&
    decide (2 ^ 57 < descDst d + descExtent d (descDstride d))) ||
  decide (2 ^ 57 ≤ descSync d) || decide (2 ^ 57 ≤ descStat d)

/-- R131: the descriptor is malformed. -/
def descMalformed (d : MoverDesc) : Bool :=
  let op := descOp d
  decide (op = 0 ∨ 5 < op) || (descFlags d).extractLsb' 3 5 != 0 || descField d.bytes 60 4 != 0 ||
  (if op = 3 then descRows d == 0 || decide (descDstride d < descLen d)
    else descRows d != 1 || descSstride d != 0 || descDstride d != 0) ||
  decide (descLen d = 0 ∨ 268435456 < descLen d) || (op == 2 && descLen d % 8 != 0) ||
  (descSloc d && (op == 2 || op == 5)) || (descDloc d && op == 4) ||
  (if descRemote d then descQpkey d / 2 ^ 22 % 2 ^ 10 != 0 else descQpkey d != 0) ||
  descStat d % 8 != 0 || vaOutside d

/-- R131: a window offset lies outside the posting group's window. -/
def descOutside (d : MoverDesc) : Bool :=
  (descSloc d && decide (d.winSize < descSrc d + descExtent d (descSstride d))) ||
    (descDloc d && decide (d.winSize < descDst d + descExtent d (descDstride d)))

/-- Where the window of the descriptor's group stands, if the group is resident. -/
def descWindow (s : State) (d : MoverDesc) : Nat × Nat :=
  let g := groupOf s (thread s d.thread)
  if d.thread < 2 ^ 24 ∧ !g.threads.isEmpty then (g.engine, g.winBase) else (d.engine, d.winBase)

/-- The saved group that holds the descriptor's window, if its group is saved. -/
def descSaved (s : State) (d : MoverDesc) : Option SavedGroup :=
  if d.thread < 2 ^ 24 then none else savedGroupOf s d.thread

/-- Change the saved group of a descriptor. -/
def modSaved (s : State) (d : MoverDesc) (f : SavedGroup → SavedGroup) : State :=
  let p := savedPlace d.thread
  modGrid s p.1 fun g => { g with saved := g.saved.map fun x =>
    if x.group.index = p.2.1 then f x else x }

/-- The check state of a word of a saved window. -/
def savedCheck (x : SavedGroup) (i : Nat) : WordCheck := x.checks.getD i .good

/-- Give a word of a descriptor's saved window a check state. -/
def setSavedCheck (s : State) (d : MoverDesc) (i : Nat) (c : WordCheck) : State :=
  modSaved s d fun x => { x with checks := x.checks.set i c }

/-- The record of an error in a word of a saved window, which stands in the pre-emption area. -/
def savedError (s : State) (d : MoverDesc) (code : Nat) (x : SavedGroup) (i : Nat) : State :=
  let pa := x.slot + 64 + 8 * i
  let u := unitOf pa
  recordError s { code := code, unit := u.1, inst := u.2, part := some d.part, status := 0
                  addr := pa, isVa := false, ctx := 0, data0 := 0 }

/-- R134, R135: check a word of a saved window, as a word of memory is checked. -/
def checkSaved (s : State) (d : MoverDesc) (x : SavedGroup) (i : Nat) : Bool × State :=
  match savedCheck x i with
  | .good => (false, s)
  | .poison => (true, s)
  | .single => (false, savedError (bump (setSavedCheck s d i .good) xuScrubStat 32 32 1) d 0x01 x i)
  | .uncorrectable =>
    (true, savedError (bump (setSavedCheck s d i .poison) xuScrubStat 0 32 1) d 0x02 x i)

/-- Check `n` words of a saved window from word `i` on. -/
def checkSavedWords (s : State) (d : MoverDesc) (x : SavedGroup) (i : Nat) : Nat → Bool × State
  | 0 => (false, s)
  | n + 1 =>
    let r := checkSaved s d x i
    let rest := checkSavedWords r.2 d x (i + 1) n
    (r.1 || rest.1, rest.2)

/-- Read a window: whether a word is poisoned, the bytes and the state. -/
def windowRead (s : State) (d : MoverDesc) (off n : Nat) : Bool × List Byte × State :=
  match descSaved s d with
  | some x =>
    let r := checkSavedWords s d x (off / 8) (wordSpan off n)
    (r.1, (x.window.drop off).take n, r.2)
  | none =>
    let w := descWindow s d
    readMem s (localPa w.1 (w.2 + off)) n

/-- Put bytes into a descriptor's saved window. -/
def pokeSaved (s : State) (d : MoverDesc) (off : Nat) (bs : List Byte) : State :=
  modSaved s d fun x => { x with
    window := x.window.take off ++ bs ++ x.window.drop (off + bs.length) }

/-- R136: write bytes of one word of a saved window, as a word of memory is written. -/
def writeSaved (s : State) (d : MoverDesc) (x : SavedGroup) (off : Nat) (bs : List Byte) : State :=
  if off % 8 = 0 ∧ bs.length = 8 then pokeSaved (setSavedCheck s d (off / 8) .good) d off bs
  else
    let r := checkSaved s d x (off / 8)
    if r.1 then savedError r.2 d 0x06 x (off / 8) else pokeSaved r.2 d off bs

/-- Write bytes of a saved window word by word; `n` bounds the number of words. -/
def writeSavedWords (s : State) (d : MoverDesc) (x : SavedGroup) (off : Nat) (bs : List Byte) :
    Nat → State
  | 0 => s
  | n + 1 =>
    let k := 8 - off % 8
    writeSavedWords (writeSaved s d x off (bs.take k)) d x (off + k) (bs.drop k) n

/-- Write a window. -/
def windowWrite (s : State) (d : MoverDesc) (off : Nat) (bs : List Byte) : State :=
  match descSaved s d with
  | some x => writeSavedWords s d x off bs (wordSpan off bs.length)
  | none =>
    let w := descWindow s d
    writeMem s (localPa w.1 (w.2 + off)) bs

/-- Poison the words of a window that a line touches. -/
def windowPoison (s : State) (d : MoverDesc) (off n : Nat) : State :=
  match descSaved s d with
  | some x =>
    ((List.range (wordSpan off n)).map (· + off / 8)).foldl (fun s i =>
      setSavedCheck (if savedCheck x i = .poison then s else bump s xuScrubStat 0 32 1) d i .poison) s
  | none =>
    let w := descWindow s d
    poisonMem s (localPa w.1 (w.2 + off)) (wordSpan (w.2 + off) n)

/-- Poison what is written over the chunks of a line. What host memory then holds is the host's to
decide (R133): free bytes. -/
def poisonChunks (s : State) : List (Nat × Nat) → State
  | [] => s
  | (pa, l) :: cs =>
    if regionOf pa = .hostMem then
      let f := takeFree s
      poisonChunks (poke f.2 pa ((List.range l).map fun i =>
        (Config.freeWord (s.freeCtr + 2 ^ 64 * (i + 1))).setWidth 8)) cs
    else poisonChunks (poisonMem s pa (wordSpan pa l)) cs

/-- Why a line did not move. -/
inductive LineFail where
  | xlate (c : XlateCause) (va : Nat) (write : Bool)
  | hostLost
  deriving DecidableEq, Repr

/-- Read `n` bytes of the source at an offset or address: the bytes, or none where poisoned. -/
def lineRead (s : State) (d : MoverDesc) (loc : Bool) (a n : Nat) :
    Except LineFail (Option (List Byte)) × State :=
  if loc then
    let r := windowRead s d a n
    (.ok (if r.1 then none else some r.2.1), r.2.2)
  else
    let r := readVa s .mover (clusterOf d.engine) d.part d.ctx a n
    match r.1 with
    | .ok bs => (.ok (some bs), r.2)
    | .error (.poison _) => (.ok none, r.2)
    | .error (.xlate c va) => (.error (.xlate c va false), r.2)
    | .error .hostLost => (.error .hostLost, r.2)

/-- Write bytes, or poison (none), at the destination. -/
def lineWrite (s : State) (d : MoverDesc) (loc : Bool) (a n : Nat) (bs : Option (List Byte)) :
    Except LineFail Unit × State :=
  if loc then
    match bs with
    | some x => (.ok (), windowWrite s d a x)
    | none => (.ok (), windowPoison s d a n)
  else
    let r := chunks s .mover (clusterOf d.engine) d.part d.ctx a n true (pageSpan a n)
    match r.1 with
    | .error (.xlate c va) => (.error (.xlate c va true), r.2)
    | .error _ => (.error .hostLost, r.2)
    | .ok cs =>
      match bs with
      | some x => (.ok (), writeChunks r.2 cs x)
      | none => (.ok (), poisonChunks r.2 cs)

/-- Put a descriptor back into its core's queue. -/
def putDesc (s : State) (c : Nat) (d : MoverDesc) : State :=
  let m := mover s c
  setMover s c { m with queue := m.queue.map fun x => if x.id = d.id then d else x }

/-- A descriptor by id. -/
def findDesc (s : State) (c id : Nat) : Option MoverDesc :=
  (mover s c).queue.find? fun d => d.id == id

/-- R123: a descriptor stalls on a fault of its agent code 1. -/
def descFault (s : State) (c : Nat) (d : MoverDesc) (cause : XlateCause) (va : Nat) (write : Bool) :
    State :=
  raiseFault (putDesc s c { d with stalled := true }) d.part d.ctx va cause write 1 (.mover c d.id)

/-- Source bytes of a line: of FILL its 8 B pattern, repeated. -/
def fillBytes (d : MoverDesc) (at_ n : Nat) : List Byte :=
  (List.range n).map fun i => d.bytes.getD (8 + (at_ + i) % 8) 0

/-- R391, R392, R398: a line moved is charged to the descriptor's grid and die. -/
def chargeLine (s : State) (d : MoverDesc) : State :=
  if engineSpins s d.engine then s else addCharge s d.engine d.part d.grid (eventCharge s 8)

/-- First poisoned word among the chunks of a line; 0 for none. -/
def poisonWord (s : State) : List (Nat × Nat) → Nat
  | [] => 0
  | (pa, l) :: cs =>
    match (List.range (wordSpan pa l)).find? fun i => wordCheck s (pa / 8 * 8 + 8 * i) == .poison with
    | some i => pa / 8 * 8 + 8 * i
    | none => poisonWord s cs

/-- Physical address of the poisoned word that a line read found. -/
def sourcePoison (s : State) (d : MoverDesc) (loc : Bool) (a n : Nat) : Nat :=
  if loc then
    match descSaved s d with
    | some _ => 0
    | none => poisonWord s [(localPa (descWindow s d).1 ((descWindow s d).2 + a), n)]
  else
    match (chunks s .mover (clusterOf d.engine) d.part d.ctx a n false (pageSpan a n)).1 with
    | .ok cs => poisonWord s cs
    | .error _ => 0

/-- R132, R456: a descriptor with no status word has failed, or has read poison: its core's mover
begins to handle the error that its completion will record. -/
def descError (s : State) (c : Nat) (d : MoverDesc) (addr : Nat) : MoverDesc × State :=
  if descStat d ≠ 0 ∨ d.err.isSome then (d, s)
  else
    let r := beginHandling s 0x02 c (some d.part)
    ({ d with err := some r.1, errAddr := addr }, r.2)

/-- A descriptor stops with a failure, and its sync object is signalled. -/
def stopDesc (s : State) (c : Nat) (d : MoverDesc) (st : BitVec 8) : State :=
  let r := descError s c d 0
  putDesc r.2 c { r.1 with result := some st }

/-- R131 to R133: move lines until the descriptor stops; `n` bounds their number. A line ends at a
multiple of 64 B of the destination and at the end of a row. -/
def moveLines (s : State) (c : Nat) (d : MoverDesc) : Nat → State
  | 0 => putDesc s c d
  | n + 1 =>
    if descTotal d ≤ d.done then
      putDesc s c { d with result := some (if d.poisoned then 0x0D else 0x00) }
    else
      let row := d.done / descLen d
      let at_ := d.done % descLen d
      let dst := descDst d + row * descDstride d + at_
      let l := min (descLen d - at_) (64 - dst % 64)
      let src := if descOp d = 2 then (Except.ok (some (fillBytes d at_ l)), s)
        else lineRead s d (descSloc d) (descSrc d + row * descSstride d + at_) l
      match src.1 with
      | .error (.xlate e va w) => descFault src.2 c d e va w
      | .error .hostLost => stopDesc src.2 c d 0x08
      | .ok bs =>
        let w := lineWrite src.2 d (descDloc d) dst l bs
        match w.1 with
        | .error (.xlate e va x) => descFault w.2 c d e va x
        | .error .hostLost => stopDesc w.2 c d 0x08
        | .ok _ =>
          let e := if bs.isNone then descError w.2 c d
              (sourcePoison w.2 d (descSloc d) (descSrc d + row * descSstride d + at_) l)
            else (d, w.2)
          moveLines (chargeLine e.2 d) c
            { e.1 with done := d.done + l, poisoned := d.poisoned || bs.isNone } n

/-- A bound on the lines of a descriptor. -/
def lineBound (d : MoverDesc) : Nat := descRows d * (descLen d / 64 + 2) + 1

/-- R132: the descriptor that starts next: the first not running, with fewer than 8 running, and
with ORDER only when it heads the queue. -/
def nextDesc (m : Mover) : Option MoverDesc :=
  if 8 ≤ (m.queue.filter fun d => d.running).length then none
  else match m.queue.find? fun d => !d.running with
    | none => none
    | some d =>
      if descOrder d ∧ (m.queue.head?.map MoverDesc.id) ≠ some d.id then none else some d

/-- R132, R452: the record of a descriptor that failed with no status word: the status it would have
delivered, and the word that it found poisoned. -/
def recordDesc (s : State) (c : Nat) (d : MoverDesc) (st : BitVec 8) (x : Detected) : State :=
  recordContained s { code := 0x03, unit := 0x02, inst := c, part := some d.part, status := st
                      addr := d.errAddr, isVa := false, ctx := d.ctx, data0 := 0 } x

/-- R132 step 2: the status word is written, once; with none, a failure leaves a contained record. The
failure of the write, if any, the descriptor and the state. -/
def descStatus (s : State) (c : Nat) (d : MoverDesc) (st : BitVec 8) :
    Option (XlateCause × Nat × Bool) × MoverDesc × State :=
  if d.statDone then (none, d, s)
  else
    let moved := if st = 0 then descTotal d else d.done
    let w :=
      if descStat d = 0 ∨ d.statBad then (Except.ok (), s)
      else lineWrite s d false (descStat d) 8 (some (leBytes 8 (st.toNat + 65536 * moved)))
    match w.1 with
    | .error (.xlate e va x) => (some (e, va, x), d, w.2)
    | _ =>
      if (descStat d == 0 || d.statBad) && st != 0 then
        let b := match d.err with
          | some x => (x, w.2)
          | none => beginHandling w.2 0x02 c (some d.part)
        (none, { d with err := some b.1, statDone := true }, recordDesc b.2 c d st b.1)
      else (none, { d with statDone := true }, w.2)

/-- R132 step 3: the sync object is signalled. An address without a translation is a fault (R123), and a
signal that is not applied is discarded and recorded (R151). The fault, if any. -/
def descSignal (s : State) (c : Nat) (d : MoverDesc) : Option (XlateCause × Nat × Bool) × State :=
  if descSync d = 0 ∨ d.syncBad then (none, s)
  else match (access s .sync (clusterOf d.engine) d.part d.ctx (descSync d) true).1 with
    | .error e => (some (e, descSync d, true),
        (access s .sync (clusterOf d.engine) d.part d.ctx (descSync d) true).2)
    | .ok _ => (none, signalVa s 0x02 c (clusterOf d.engine) d.part d.ctx (descSync d)
        (BitVec.ofNat 64 (descSigcnt d)))

/-- R132, R456: after its data, the status word is written and the sync object signalled. Each stalls the
descriptor at a fault of its own; an error of it is handled until the signal has been sent. -/
def completeDesc (s : State) (c : Nat) (d : MoverDesc) (st : BitVec 8) : State :=
  let w := descStatus s c d st
  let d1 := { w.2.1 with result := some st }
  match w.1 with
  | some f => descFault w.2.2 c d1 f.1 f.2.1 f.2.2
  | none =>
    let x := descSignal w.2.2 c d1
    match x.1 with
    | some f => descFault x.2 c d1 f.1 f.2.1 f.2.2
    | none =>
      let s1 := match d1.err with
        | some e => endHandling x.2 e.seq
        | none => x.2
      let m := mover s1 c
      setMover s1 c { m with queue := m.queue.filter fun y => y.id != d.id }

end Sys2Proof.Machine
end

