-- ==== Sys2Proof/Machine/RingSteps.lean ====
section
/-! DEFINITION. Polling, taking in and consuming entries, consumer reports, overflow, starting a
privileged ring, and ring fences (R158 to R177). -/

namespace Sys2Proof.Machine

/-- A ring the device reads: SQ, AQ or CMQ (R156). -/
def ringConsumed (x : Ring) : Bool := x.typ == 1 || x.typ == 3 || x.typ == 6

/-- A ring the device writes: CQ, EQ or FQ (R156). -/
def ringProduced (x : Ring) : Bool := x.typ == 2 || x.typ == 4 || x.typ == 5

/-- Extension slots of a base entry as they count for the index: above 3 counts as 0 (R177). -/
def extCount (bs : List Byte) : Nat :=
  let n := (bs.getD 2 0).toNat
  if n ≤ 3 then n else 0

/-- Slots of the prefetch store that entries taken in hold (R14). -/
def takenSlots (x : Ring) : Nat := (x.taken.map fun e => e.bytes.length / 64).foldl (· + ·) 0

/-- R171 exponents: POLL_K, and the cap. -/
def pollK (x : Ring) : Nat := min 20 x.pollK
def capK (x : Ring) : Nat := max (min 20 x.capK) (pollK x)

/-- R171, R176, R186: a consumed ring whose poll may issue. -/
def mayPoll (s : State) (r : Nat) : Bool :=
  let x := ring s r
  inService s && ringConsumed x && x.state == .run && !ringPaused s r && !x.fetchStopped && !s.err.fatal &&
    decide (takenSlots x < 9) && decide (x.pollsOut < if x.cont then 8 else 1)

/-- RING_POLL (R171): a poll of the ring's expected index issues. Values of RING_POLL written since
the previous poll apply from it on (R169): the exponent in use moves between POLL_K and the cap. -/
def execRingPoll (r : Nat) (s : State) : Res :=
  .next (if mayPoll s r then
      modRing s r fun x =>
        { x with pollsOut := x.pollsOut + 1, curK := min (capK x) (max (pollK x) x.curK) }
    else s)

/-- Read one slot of a ring (R158, R177). -/
def readSlot (s : State) (r : Nat) (i : BitVec 32) : Except MemFail (List Byte) × State :=
  let x := ring s r
  readVa s .fabric fabricUnit x.part x.ctx (slotVa x i) (slotBytes x.typ)

/-- The owner mark of an entry's bytes is that of an index (R158). -/
def markPresent (x : Ring) (i : BitVec 32) (bs : List Byte) : Bool :=
  (if (bs.getD 1 0).getLsbD 0 then 1 else 0) == ownerMark x.log2sz i

/-- R173: read `n` further slots and keep those whose owner mark is present. A slot already held is
not read again. -/
def prefetchSlots (s : State) (r : Nat) (i : BitVec 32) : Nat → State
  | 0 => s
  | n + 1 =>
    let x := ring s r
    if x.state ≠ .run then s
    else if x.prefetch.any fun e => e.1 == i.toNat then prefetchSlots s r (i + 1) n
    else
      let d := readSlot s r i
      match d.1 with
      | .error e => ringError d.2 r (failStatus e) i
      | .ok bs =>
        prefetchSlots
          (if markPresent x i bs then
            modRing d.2 r fun y => { y with prefetch := tput i.toNat bs y.prefetch } else d.2)
          r (i + 1) n

/-- R160: read the extension slots at `i` and on again, rewriting byte 1 of each with its lap's
mark; their bytes, or none when an access failed. -/
def takeExts (s : State) (r : Nat) (i : BitVec 32) : Nat → Option (List Byte) × State
  | 0 => (some [], s)
  | n + 1 =>
    let x := ring s r
    let d := readSlot s r i
    match d.1 with
    | .error e => (none, ringError d.2 r (failStatus e) i)
    | .ok bs =>
      let w := writeVa d.2 .fabric fabricUnit x.part x.ctx (slotVa x i + 1)
        [BitVec.ofNat 8 (ownerMark x.log2sz i)]
      match w.1 with
      | .error e => (none, ringError w.2 r (failStatus e) i)
      | .ok _ =>
        let rest := takeExts (modRing w.2 r fun y =>
          { y with prefetch := tdel i.toNat y.prefetch }) r (i + 1) n
        (rest.1.map fun es => bs ++ es, rest.2)

/-- R174: take in the entries that stand at the expected index, at most `n`. -/
def takeIn (s : State) (r : Nat) : Nat → State
  | 0 => s
  | n + 1 =>
    let x := ring s r
    match tfind x.prefetch x.prod.toNat with
    | none => s
    | some bs =>
      let ext := extCount bs
      if 9 < takenSlots x + 1 + ext then s
      else
        let s1 := setRing s r { x with prefetch := tdel x.prod.toNat x.prefetch }
        let e := takeExts s1 r (x.prod + 1) ext
        match e.1 with
        | none => e.2
        | some es =>
          let entry : RingEntry :=
            { index := x.prod + x.shift, bytes := bs ++ es, gated := false, gateAt := 0
              order := s.sched.nextOrder }
          let s2 := modSched e.2 fun z => { z with nextOrder := z.nextOrder + 1 }
          takeIn (wantEntry (modRing s2 r fun y =>
            { y with taken := y.taken ++ [entry], prod := y.prod + 1 + BitVec.ofNat 32 ext }) r entry) r n

/-- R171: the back-off after an empty poll. -/
def backOff (x : Ring) : Ring :=
  if x.cont then x
  else if x.emptyN ≠ 0 ∧ x.emptyN ≤ x.emptyRun + 1 then
    { x with emptyRun := 0, curK := min (capK x) (x.curK + 1) }
  else { x with emptyRun := x.emptyRun + 1 }

/-- POLL_RESPONSE without the wake from Doze (R160, R171, R173, R174): the poll's answer arrives. -/
def pollResponse (s : State) (r : Nat) : State :=
  let x := ring s r
  if x.pollsOut = 0 then s
  else
    let s := setRing s r { x with pollsOut := x.pollsOut - 1 }
    let x := ring s r
    if x.state ≠ .run ∨ ringPaused s r ∨ x.fetchStopped ∨ s.err.fatal then s
    else
      let held := tfind x.prefetch x.prod.toNat
      let d := match held with
        | some bs => (Except.ok bs, s)
        | none => readSlot s r x.prod
      match d.1 with
      | .error e => ringError d.2 r (failStatus e) x.prod
      | .ok bs =>
        if held.isSome ∨ markPresent x x.prod bs then
          let s1 := modRing d.2 r fun y =>
            { y with curK := pollK y, emptyRun := 0, prefetch := tput x.prod.toNat bs y.prefetch }
          takeIn (prefetchSlots s1 r (x.prod + 1) (8 - takenSlots x)) r 9
        else
          let s1 := modRing d.2 r backOff
          if x.reported ≠ x.cons then headReport s1 r else s1

/-- Largest ext of an opcode on a ring type; none where the type does not accept it (R163, R180). -/
def opMaxExt (typ op : Nat) : Option Nat :=
  if op = 0x02 then some 3
  else if typ = 1 then
    (match op with
      | 0x01 => some 0
      | 0x10 => some 3 | 0x11 => some 3 | 0x12 => some 3
      | 0x13 => some 0 | 0x14 => some 0 | 0x15 => some 0 | 0x16 => some 0 | 0x17 => some 0
      | 0x30 => some 1 | 0x31 => some 1
      | _ => none)
  else if typ = 6 then
    (match op with
      | 0x20 => some 1 | 0x21 => some 1 | 0x22 => some 1 | 0x23 => some 0 | 0x24 => some 1
      | 0x25 => some 0 | 0x26 => some 1
      | _ => none)
  else
    (match op with
      | 0x40 => some 0 | 0x41 => some 0 | 0x42 => some 0 | 0x43 => some 0 | 0x44 => some 0
      | 0x45 => some 0 | 0x48 => some 0 | 0x49 => some 0 | 0x4A => some 0 | 0x50 => some 0
      | 0x51 => some 0 | 0x52 => some 0 | 0x53 => some 0 | 0x54 => some 0 | 0x58 => some 0
      | 0x59 => some 0 | 0x5A => some 0 | 0x60 => some 0 | 0x61 => some 0 | 0x62 => some 0
      | 0x63 => some 0 | 0x64 => some 0 | 0x68 => some 0 | 0x69 => some 0 | 0x6A => some 0
      | _ => none)

/-- Commands only PF0 may issue (R180). -/
def opPf0Only (op : Nat) : Bool :=
  op == 0x49 || op == 0x60 || op == 0x61 || op == 0x62 || op == 0x63 || op == 0x64 ||
    op == 0x68 || op == 0x69 || op == 0x6A

/-- R179: an AQ entry whose target partition its function may not name. -/
def aqTargetBad (p : Nat) (e : RingEntry) : Bool :=
  let target := entryByte e 3
  decide (64 < target) || (p != 0 && (target != p || opPf0Only (entryOpcode e)))

/-- R177, R179: an entry that the ring manager completes with ST_MALFORMED. -/
def headerBad (x : Ring) (e : RingEntry) : Bool :=
  (match opMaxExt x.typ (entryOpcode e) with
    | none => true
    | some m => decide (m < entryExt e)) ||
  ((entryFlags e).extractLsb' 3 5 != 0) || entryField e 4 4 != 0 ||
  (x.typ == 3 && aqTargetBad x.part e)

/-- R174: the entry at the head of those taken in leaves the prefetch store to start: CONS advances,
with a head report when it crosses a multiple of 2^HR_K. -/
def consumeHead (s : State) (r : Nat) : State :=
  let x := ring s r
  match x.taken with
  | [] => s
  | e :: rest =>
    let cons := x.cons + BitVec.ofNat 32 (e.bytes.length / 64)
    let k := min x.hrK (x.log2sz - 1)
    let s1 := setRing s r { x with taken := rest, started := x.started ++ [e], cons := cons }
    if x.cons.toNat / 2 ^ k ≠ cons.toNat / 2 ^ k then headReport s1 r else s1

/-- R162, R179: the entry at the head may start: its ORDER flag, and one AQ entry at a time. -/
def headReady (s : State) (r : Nat) (e : RingEntry) : Bool :=
  let x := ring s r
  !ringPaused s r && (x.state == .run || x.state == .error) && !s.err.fatal &&
    !((entryOrder e || x.typ == 3) && !x.started.isEmpty)

/-- Complete the entry at the head of a ring, which has started nothing. -/
def finishHead (s : State) (r : Nat) (e : RingEntry) (st : BitVec 8) : State :=
  completeEntry (countMalf (consumeHead s r) r st) r e st 0 0 0

/-- R177: complete the head entry as malformed. -/
def consumeMalformed (s : State) (r : Nat) (e : RingEntry) : State :=
  finishHead s r e 0x02

/-- R175: a ring that is full reads its report again; a failed read is a ring error. -/
def reportAgain (s : State) (r : Nat) : State :=
  let f := readReport s r
  match f.1 with
  | some st => ringError f.2 r st (ring s r).prod
  | none => f.2

/-- CONSUMER_REPORT_READ (R175): a full produced ring reads its consumer report at the poll
interval. -/
def execConsumerReportRead (r : Nat) (s : State) : Res :=
  let x := ring s r
  .next (if ringProduced x ∧ ringTakes x ∧ ringFull x ∧ !s.err.fatal then reportAgain s r else s)

/-- OVERFLOW_DRAIN (R176): room has returned. -/
def execOverflowDrain (r : Nat) (s : State) : Res :=
  .next (if (ring s r).typ = 2 ∨ (ring s r).typ = 4 then drainRing s r else s)

/-- Type, partition and binding that a privileged ring id fixes (R157, R170); none where the id is
reserved or general. -/
def privRing (r : Nat) : Option (Nat × Nat × Option Nat) :=
  if r ≤ 0x80 ∧ r % 2 = 0 then some (3, r / 2, some (r + 1))
  else if r ≤ 0x81 then some (2, r / 2, some (eqOf (r / 2)))
  else if 0x90 ≤ r ∧ r ≤ 0xD0 then some (4, r - 0x90, none)
  else if 0xE0 ≤ r ∧ r ≤ 0x120 then some (5, r - 0xE0, some (eqOf (r - 0xE0)))
  else if r = 0x130 then some (7, 0, none)
  else none

/-- R181: field checks of a ring's settings. -/
def ringFieldsOk (typ log2sz : Nat) (base rpt : Word) : Bool :=
  let size := 2 ^ log2sz * slotBytes typ
  decide (4 ≤ log2sz ∧ log2sz ≤ 20) && (typ != 5 || log2sz == 12) &&
    base.toNat % (min size 4096) == 0 &&
    !((typ == 2 || typ == 4 || typ == 5) && rpt == 0)

/-- R181: ring memory and report word pass translation and the owner check. A consumed ring needs RD
and WR, a produced ring WR; WR comes with RD (R116). The report is written for a consumed ring and
read for a produced one. -/
def ringRangeOk (s : State) (p : Nat) (c : BitVec 20) (typ log2sz : Nat) (base rpt : Word) :
    Bool × State :=
  let a := rangeOk s p c base.toNat (2 ^ log2sz * slotBytes typ) true
  if !a.1 then (false, a.2)
  else if rpt = 0 then (true, a.2)
  else rangeOk a.2 p c rpt.toNat 8 (typ == 1 || typ == 3 || typ == 6 || typ == 7)

/-- A ring that enters RUN with both indices and CCNT at 0 (R170, R181). -/
def ringFresh (x : Ring) : Ring :=
  { x with
    state := .run, prod := 0, cons := 0, ccnt := 0, reported := 0, prefetch := [], taken := []
    started := [], overflow := [], unitHeld := [], fetchStopped := false, seq := 0, lost := 0
    curK := pollK x, emptyRun := 0, pollsOut := 0 }

/-- R359: when an FQ re-enters RUN, each outstanding fault that has an id is posted to it again. -/
def repostFaults (s : State) (p : Nat) : State :=
  (faultTable s p).faults.foldl (fun s f => match f.fid with
    | some fid => writeFq s p fid f
    | none => s) s

/-- RING_START_PRIV (R170): RING_CTL.START of a privileged ring in IDLE checks its settings and
enters RUN, or ERROR. -/
def execRingStartPriv (r : Nat) (s : State) : Res :=
  .next (match privRing r with
    | none => s
    | some (typ, p, bind) =>
      let x := ring s r
      if x.state ≠ .idle ∨ !bar0 s then s
      else
        let x : Ring := { x with typ := typ, part := p, bindEn := bind.isSome
                                 target := bind.getD 0 }
        if !ringFieldsOk typ x.log2sz x.base x.rpt ∨ 20 < x.hrK then
          setRing s r { x with state := .error, lastSt := 0x02 }
        else
          let c := ringRangeOk s p x.ctx typ x.log2sz x.base x.rpt
          if !c.1 then setRing c.2 r { x with state := .error, lastSt := 0x05 }
          else
            let s1 := setRing c.2 r (ringFresh x)
            if typ = 5 then repostFaults s1 p else s1)

/-- RING_FENCE_READ (R166, R170): of a CQ or EQ, PROD once every entry's results are visible on every
path; of other types 0. Every effect of the model is visible on every path at once. -/
def execRingFenceRead (r : Nat) (s : State) : Res :=
  let x := ring s r
  let v := if x.typ = 2 ∨ x.typ = 4 then x.prod.toNat else 0
  .next { s with readData := leBytes 8 v }

/-- NOP (R163): completes with ST_OK and byte count 0; that of an AQ is the management processor's
(R179). -/
def execNop (r : Nat) (s : State) : Res :=
  .next (match startedOp s r 0x02 with
    | none => s
    | some e =>
      if (ring s r).typ = 3 then
        if mpServes s r then completeEntry (mpTook s r 0) r e 0 0 0 0 else s
      else completeEntry s r e 0 0 0 0)

end Sys2Proof.Machine
end

