-- ==== Sys2Proof/Machine/XptOps.lean ====
section
/-! DEFINITION. The transport's packets and frames, its tables, Firkin, the integrity tag, and the
answers of a receiver (R187 to R192, R221 to R231, R238 to R247, R320 to R329). -/

namespace Sys2Proof.Machine

/-! Registers (R221, R247, R271, R289, R311, R332). -/

def xptUdp : Nat := 0x0200000
def xptCm : Nat := 0x0200008
def xptDrop : Nat := 0x0200010
def xptSr : Nat := 0x0200100
def xptRto : Nat := 0x0200108
def xptRnr : Nat := 0x0200110
def xptCc : Nat := 0x0200118
def xptSrstat : Nat := 0x0200120
def xptCcPort (n : Nat) : Nat := 0x0200200 + 8 * n
def fkCtl : Nat := 0x0200300
def fkStat : Nat := 0x0200308
def fkDrop (n : Nat) : Nat := 0x0200340 + 8 * n
def xptTc7 : Nat := 0x0200400
def intStat : Nat := 0x0200508
def xptAddrHi (n : Nat) : Nat := 0x0201000 + 32 * n
def xptAddrLo (n : Nat) : Nat := 0x0201008 + 32 * n
def xptAddrCtl (n : Nat) : Nat := 0x0201010 + 32 * n
def bshCtl : Nat := 0x0300000
def bshStat : Nat := 0x0300008
def crdCtl : Nat := 0x0400000
def crdStat : Nat := 0x0400010
def twinCtl : Nat := 0x0040000
def twinStat : Nat := 0x0040008
def twinPmap (p : Nat) : Nat := 0x0040100 + 8 * p
def twinRgnL (i : Nat) : Nat := 0x0040400 + 16 * i
def twinRgnP (i : Nat) : Nat := 0x0040408 + 16 * i
def twinTake (j : Nat) : Nat := 0x0040600 + 8 * j

/-- A register of port `n`'s region (R318). -/
def portReg (n off : Nat) : Nat := 0x0100000 + 0x20000 * n + off

/-! Queue pairs, ports and key slots. -/

def qpKey (p n : Nat) : Nat := p * 2 ^ 22 + n
def qpPart (k : Nat) : Nat := k / 2 ^ 22
def qpNum (k : Nat) : Nat := k % 2 ^ 22
def qp (s : State) (k : Nat) : Qp := tget Qp.none s.qps k
def setQp (s : State) (k : Nat) (q : Qp) : State := { s with qps := tset Qp.none s.qps k q }
def modQp (s : State) (k : Nat) (f : Qp → Qp) : State := setQp s k (f (qp s k))
def portOf (s : State) (n : Nat) : Port := tget Port.reset s.ports n
def setPort (s : State) (n : Nat) (p : Port) : State :=
  { s with ports := tset Port.reset s.ports n p }
def modPort (s : State) (n : Nat) (f : Port → Port) : State := setPort s n (f (portOf s n))
def slotKey (fn i : Nat) : Nat := fn * 2048 + i
def keySlot (s : State) (k : Nat) : KeySlot := tget KeySlot.empty s.slots k
def setSlot (s : State) (k : Nat) (x : KeySlot) : State :=
  { s with slots := tset KeySlot.empty s.slots k x }
def modSlot (s : State) (k : Nat) (f : KeySlot → KeySlot) : State := setSlot s k (f (keySlot s k))
def memKey (s : State) (p i : Nat) : KeyEntry := tget KeyEntry.none s.keys (p * 2 ^ 24 + i)
def setMemKey (s : State) (p i : Nat) (e : KeyEntry) : State :=
  { s with keys := tset KeyEntry.none s.keys (p * 2 ^ 24 + i) e }

/-- Add to counter `k` of a port (R319). -/
def portCount (s : State) (n k v : Nat) : State := bump s (portReg n (0x1000 + 8 * k)) 0 64 v

/-- Port ticks (6.4 ns) that a number of microseconds takes, and units of 64 ns (R21). -/
def usTicks (us : Nat) : Nat := (us * 625 + 3) / 4
def ns64Ticks (n : Nat) : Nat := 10 * n

/-- The mirror is in force for a partition (R416, R421). -/
def mirroring (s : State) : Bool := s.twin.state == .syncing || s.twin.state == .paired
def mirrored (s : State) (p : Nat) : Bool := mirroring s && (reg s (twinPmap p)).getLsbD 63

/-! The Plyngeos Transport Header (R190, R191). -/

/-- A PTH: `key`, `aux` and `off` are the 4 B, 4 B and 8 B of the opcode area. -/
structure Pth where
  ver : Nat
  op : Nat
  tagpos : Nat
  first : Bool
  last : Bool
  ackreq : Bool
  retx : Bool
  qpn : Nat
  psn : BitVec 32
  ts : BitVec 32
  key : BitVec 32
  aux : BitVec 32
  off : Word
  deriving DecidableEq, Repr

/-- A header with no flag set and a zero area. -/
def Pth.plain (ver op qpn : Nat) : Pth :=
  { ver := ver, op := op, tagpos := 0, first := false, last := false, ackreq := false
    retx := false, qpn := qpn, psn := 0, ts := 0, key := 0, aux := 0, off := 0 }

def flagBit (b : Bool) (n : Nat) : Nat := if b then 2 ^ n else 0

/-- The 32 bytes of a PTH. -/
def pthBytes (h : Pth) : List Byte :=
  [BitVec.ofNat 8 (h.ver * 16), BitVec.ofNat 8 h.op] ++ beBytes 2 h.tagpos ++
    beBytes 4 (flagBit h.first 31 + flagBit h.last 30 + flagBit h.ackreq 29 + flagBit h.retx 28 +
      h.qpn % 2 ^ 22) ++
    beBytes 4 h.psn.toNat ++ beBytes 4 h.ts.toNat ++ beBytes 4 h.key.toNat ++
    beBytes 4 h.aux.toNat ++ beBytes 8 h.off.toNat

/-- Big-endian field of a byte list. -/
def beField (bs : List Byte) (off n : Nat) : Nat := beNat ((bs.drop off).take n)

/-- R192: least version that carries an opcode; none for a reserved one. -/
def opMinVersion (op : Nat) : Option Nat :=
  if 0x01 ≤ op ∧ op ≤ 0x08 then some 1
  else if op = 0x09 ∨ op = 0x0A then some 2
  else if 0x10 ≤ op ∧ op ≤ 0x12 then some 1
  else if 0x20 ≤ op ∧ op ≤ 0x24 then some 1
  else if op = 0x28 ∨ op = 0x29 then some 2
  else if 0x30 ≤ op ∧ op ≤ 0x34 then some 3
  else if 0x38 ≤ op ∧ op ≤ 0x3A then some 3
  else none

/-- Connection messages, and answers (R191, R201). -/
def isConnOp (op : Nat) : Bool := decide (0x20 ≤ op ∧ op ≤ 0x24)
def isAnswerOp (op : Nat) : Bool := decide (0x10 ≤ op ∧ op ≤ 0x12)
def isRespOp (op : Nat) : Bool := op == 0x05 || op == 0x08

/-- A packet that carries a PSN of its sender (R191, R222). -/
def isRequestOp (op : Nat) : Bool :=
  !(isConnOp op || isAnswerOp op || isRespOp op || op == 0x28 || op == 0x29)

/-- Payload bytes that R192 allows an opcode. -/
def payloadOk (op n : Nat) : Bool :=
  if op = 0x04 ∨ op = 0x0A ∨ op = 0x12 ∨ op = 0x31 then n == 0
  else if op = 0x06 ∨ op = 0x08 ∨ op = 0x09 then n == 8
  else if op = 0x07 ∨ op = 0x33 ∨ op = 0x34 then n == 16
  else if op = 0x10 ∨ op = 0x11 then n % 4 == 0 && decide (n ≤ 32)
  else if (0x20 ≤ op ∧ op ≤ 0x24) ∨ op = 0x28 ∨ op = 0x29 then n == 32
  else if op = 0x32 then decide (8 ≤ n ∧ n ≤ 72)
  else decide (n ≤ 9000)

/-- The 4 B entries of CRD_DONE have their top bits zero; `n` bounds the entries (R281). -/
def doneRsvOk : Nat → List Byte → Bool
  | 0, _ => true
  | n + 1, bs => beField bs 0 1 / 16 == 0 && doneRsvOk n (bs.drop 4)

/-- R7: the reserved fields of a packet's opcode area and payload are zero (R191, R201, R220, R262,
R263, R281; log entry 70). -/
def areaRsvOk (h : Pth) (payload : List Byte) : Bool :=
  if isAnswerOp h.op then bits h.off 16 8 == 0
  else if isConnOp h.op then
    ((payload.getD 0 0) &&& 0xF1) == 0 && beField payload 4 4 / 2 ^ 22 == 0 &&
      beField payload 14 1 / 2 == 0 && beField payload 24 8 == 0
  else match h.op with
  | 0x28 | 0x29 => beField payload 28 4 / 2 ^ 22 == 0
  | 0x32 => beField payload 0 2 / 4096 == 0 && beField payload 6 2 == 0
  | 0x33 => beField payload 2 2 == 0
  | 0x34 => beField payload 3 13 == 0
  | 0x38 | 0x39 | 0x3A =>
    bits (h.key.setWidth 64) 26 6 == 0 && bits (h.key.setWidth 64) 12 4 == 0 && bits h.off 0 32 == 0 &&
      (h.op != 0x39 || doneRsvOk (payload.length / 4) payload)
  | _ => true

/-- R189 step 2: the PTH, the payload and the tag of a UDP payload, where it is well formed. -/
def parsePth (bs : List Byte) : Option (Pth × List Byte × List Byte) :=
  if bs.length < 32 then none
  else
    let f := beField bs 4 4
    let h : Pth :=
      { ver := beField bs 0 1 / 16, op := beField bs 1 1, tagpos := beField bs 2 2
        first := f / 2 ^ 31 == 1, last := f / 2 ^ 30 % 2 == 1, ackreq := f / 2 ^ 29 % 2 == 1
        retx := f / 2 ^ 28 % 2 == 1, qpn := f % 2 ^ 22
        psn := BitVec.ofNat 32 (beField bs 8 4), ts := BitVec.ofNat 32 (beField bs 12 4)
        key := BitVec.ofNat 32 (beField bs 16 4), aux := BitVec.ofNat 32 (beField bs 20 4)
        off := BitVec.ofNat 64 (beField bs 24 8) }
    let n := if h.tagpos = 0 then bs.length - 32 else h.tagpos - 32
    let sizeOk := h.tagpos == 0 || (decide (32 ≤ h.tagpos) && bs.length == h.tagpos + 16)
    let known := match opMinVersion h.op with
      | none => false
      | some v => decide (v ≤ h.ver) && (!isConnOp h.op || h.ver == 1)
    let rsvOk := beField bs 0 1 % 16 == 0 && f / 2 ^ 22 % 64 == 0 &&
      areaRsvOk h ((bs.drop 32).take n)
    if decide (1 ≤ h.ver ∧ h.ver ≤ 3) && known && rsvOk && sizeOk && payloadOk h.op n then
      some (h, (bs.drop 32).take n, bs.drop (32 + n))
    else none

/-! Addresses (R188, R221). -/

/-- An IPv4 address, held as ::ffff:a.b.c.d. -/
def isV4 (a : BitVec 128) : Bool := a.extractLsb' 32 96 == 0xFFFF#96

/-- The address of an XPT_ADDR entry. -/
def entryAddr (s : State) (n : Nat) : BitVec 128 :=
  if (reg s (xptAddrCtl n)).getLsbD 14 then reg s (xptAddrHi n) ++ reg s (xptAddrLo n)
  else (0xFFFF#96) ++ (reg s (xptAddrLo n)).setWidth 32

/-- An XPT_ADDR entry is valid and its PORTMASK includes a port. -/
def entryOn (s : State) (n port : Nat) : Bool :=
  (reg s (xptAddrCtl n)).getLsbD 15 && (reg s (xptAddrCtl n)).getLsbD (16 + port)

/-- Owner partition of an XPT_ADDR entry. -/
def entryPart (s : State) (n : Nat) : Nat := bits (reg s (xptAddrCtl n)) 7 7

/-- R221: the address a queue pair sends from: the first valid entry of its partition, of the
remote address's family, on its port. -/
def sourceAddr (s : State) (part port : Nat) (v4 : Bool) : Option (BitVec 128) :=
  ((List.range 256).find? fun n => entryOn s n port && entryPart s n == part &&
    (reg s (xptAddrCtl n)).getLsbD 14 == !v4).map (entryAddr s)

/-- R189 step 1: the partition that an arriving packet's destination address names. -/
def targetPart (s : State) (p : Packet) : Option Nat :=
  ((List.range 256).find? fun n => entryOn s n p.port && entryAddr s n == p.dst).map (entryPart s)

/-! Frames (R187, R295, R298). -/

/-- PORT_MAC of a port. -/
def portMacReg (n : Nat) : Nat := portReg n 0x18

/-- Bytes of a transport frame with its FCS. -/
def frameSize (s : State) (n : Nat) (v4 : Bool) (payload : Nat) (tagged : Bool) : Nat :=
  18 + (if (reg s (portMacReg n)).getLsbD 29 then 4 else 0) + (if v4 then 20 else 40) + 8 + 32 +
    payload + (if tagged then 16 else 0)

/-- Bytes that wait in a port's transmit half: of class 7, and of the others (R295). -/
def txBytes (p : Port) (seven : Bool) : Nat :=
  ((p.txq.filter fun f => (f.cls == 7) == seven).map TxFrame.size).foldl (· + ·) 0

/-- R295: the part of a port's transmit half of a frame's class has room for it. -/
def halfFits (p : Port) (cls size : Nat) : Bool :=
  if cls = 7 then decide (txBytes p true + size ≤ 131072)
  else decide (txBytes p false + size ≤ 1048576 - 131072)

/-- R295: a port's transmit half has room for a frame, and no frame waits for that part of it. -/
def roomFor (p : Port) (cls size : Nat) : Bool :=
  !(p.waiting.any fun f => (f.cls == 7) == (cls == 7)) && halfFits p cls size

/-- R295: a port's transmit half has room for a frame. -/
def txRoom (s : State) (n cls size : Nat) : Bool := roomFor (portOf s n) cls size

/-- R295: a frame goes into the transmit buffer, or its source waits for room. One of class 7 waits in
the transport also while XPT_TC7 is clear for the port (`seven`, R311). -/
def enqueue (seven : Bool) (p : Port) (f : TxFrame) : Port :=
  if roomFor p f.cls f.size ∧ (f.cls ≠ 7 ∨ seven) then { p with txq := p.txq ++ [f] }
  else { p with waiting := p.waiting ++ [f] }

/-- R295: frames whose sources wait go into the room there is, in order. -/
def refill (seven : Bool) (p : Port) : Port :=
  p.waiting.foldl (enqueue seven) { p with waiting := [] }

/-- XPT_TC7.EN of a port (R311). -/
def tc7On (s : State) (n : Nat) : Bool := (reg s xptTc7).getLsbD n

/-- Queue a packet of a queue pair on its port. `ctl`: an answer, ahead of its class's data. The
UDP source port is 0xC000 | h (R188). -/
def queuePkt (s : State) (k : Nat) (ctl ahead : Bool) (cls : Nat) (h : Pth) (payload : List Byte)
    (tagged : Bool) (dst : BitVec 128) : State :=
  let q := qp s k
  let h' : Pth := { h with tagpos := if tagged then 32 + payload.length else 0 }
  let src := (sourceAddr s (qpPart k) q.port (isV4 dst)).getD q.laddr
  let f : TxFrame :=
    { hold := none, cls := cls, ctl := ctl, ahead := ahead
      size := frameSize s q.port (isV4 dst) payload.length tagged
      body := .pkt { qp := k, pth := pthBytes h', payload := payload, tagged := tagged, dst := dst
                     src := src, nhmac := q.nhmac, sport := q.sport } }
  modPort s q.port fun p => enqueue (tc7On s q.port) p f

/-- Queue an answer or a response of a queue pair. -/
def queueAnswer (s : State) (k : Nat) (h : Pth) (payload : List Byte) : State :=
  let q := qp s k
  queuePkt s k true false q.tc h payload q.tag q.raddr

/-- The UDP source port of a queue pair (R188). -/
def sportOf (k mig : Nat) : BitVec 16 := 0xC000#16 ||| (Config.sportHash (qpNum k) mig).setWidth 16

/-! PSNs (R222). -/

/-- The signed distance from `b` to `a`. -/
def psnDiff (a b : BitVec 32) : Int := (a - b).toInt

/-- Insert into a rising list of numbers without repeats. -/
def insertNat (x : Nat) : List Nat → List Nat
  | [] => [x]
  | y :: ys => if x < y then x :: y :: ys else if x = y then y :: ys else y :: insertNat x ys

/-- The runs (start, length) of a rising list of offsets. -/
def runsOf : List Nat → List (Nat × Nat)
  | [] => []
  | x :: xs =>
    match runsOf xs with
    | (y, n) :: rest => if y = x + 1 then (x, n + 1) :: rest else (x, 1) :: (y, n) :: rest
    | [] => [(x, 1)]

/-- R229: runs of accepted PSNs above rcv_nxt, as offsets. -/
def sackRuns (q : Qp) : List (Nat × Nat) :=
  runsOf (q.accepted.foldl (fun l p => insertNat (p - q.rcvNxt).toNat l) [])

/-! The receiver's answers (R228 to R231). -/

/-- W, as in force (R223). -/
def qpWindow (q : Qp) : Nat := if q.version = 1 then min 256 q.window else q.window

/-- The header of an answer. -/
def answerPth (q : Qp) (op : Nat) (ackpsn echo : BitVec 32) (start len st wait : Nat) : Pth :=
  { Pth.plain q.version op q.rqpn with
    key := ackpsn, aux := echo
    off := BitVec.ofNat 64 (start * 2 ^ 48 + len * 2 ^ 32 + st * 2 ^ 24 + wait) }

/-- An ACK or NAK has been sent: the counts of triggers 3 and 4 start again. -/
def ackSent (q : Qp) : Qp := { q with ackPending := 0, ackTimer := none }

/-- Send an ACK (R229). -/
def sendAck (s : State) (k : Nat) (echo : BitVec 32) : State :=
  let q := qp s k
  let runs := (sackRuns q).take (if q.version = 1 then 1 else 9)
  let r := runs.headD (0, 0)
  let more := (runs.drop 1).flatMap fun x => beBytes 2 x.1 ++ beBytes 2 x.2
  queueAnswer (setQp s k (ackSent q)) k (answerPth q 0x10 q.rcvNxt echo r.1 r.2 0 0) more

/-- Send the NAK of a refused run (R230). -/
def sendNak (s : State) (k : Nat) (r : RefusedRun) (echo : BitVec 32) : State :=
  let q := qp s k
  let ackpsn := if psnDiff r.first q.rcvNxt < 0 then r.first else q.rcvNxt
  queueAnswer (setQp s k (ackSent q)) k
    (answerPth q 0x11 ackpsn echo (r.first - ackpsn).toNat r.count r.status.toNat 0) []

/-- Send an RNR for a PSN (R231). -/
def sendRnr (s : State) (k : Nat) (psn echo : BitVec 32) : State :=
  let q := qp s k
  queueAnswer (setQp s k (ackSent q)) k
    (answerPth q 0x12 q.rcvNxt echo (psn - q.rcvNxt).toNat 1 0 (bits (reg s xptRnr) 0 16)) []

/-- rcv_nxt passes every PSN accepted in a row above it (R224); `n` bounds the row. -/
def advanceRcv (q : Qp) : Nat → Qp
  | 0 => q
  | n + 1 =>
    if q.accepted.contains q.rcvNxt then
      advanceRcv { q with accepted := q.accepted.erase q.rcvNxt, rcvNxt := q.rcvNxt + 1 } n
    else q

/-- What a receiver retires when rcv_nxt advances (R226, R227). -/
def retireLogs (q : Qp) : Qp :=
  let low := q.rcvNxt - BitVec.ofNat 32 (qpWindow q)
  let live (p : BitVec 32) : Bool := decide (0 ≤ psnDiff p low)
  { q with
    atomics := q.atomics.filter fun a => live a.psn
    refusals := q.refusals.filter fun r => live r.first }

/-- The last PSN of an accepted READ. -/
def readLast (r : ReadRec) : BitVec 32 := r.first + BitVec.ofNat 32 r.count - 1

/-- Accept `n` PSNs from `p` on (R224). A READ is kept while its requester may ask for it again: a first
packet W beyond its last PSN shows that every response of it has come (R223, R237). -/
def acceptPsns (q : Qp) (p : BitVec 32) (n : Nat) : Qp :=
  let ps := (List.range n).map fun i => p + BitVec.ofNat 32 i
  let new := ps.filter fun x => decide (0 ≤ psnDiff x q.rcvNxt) && !q.accepted.contains x
  let q1 := { q with
    accepted := q.accepted ++ new
    reads := q.reads.filter fun r => decide (psnDiff p (readLast r) < qpWindow q) }
  retireLogs (advanceRcv q1 q1.accepted.length)

/-- An arriving request's class (R224). -/
inductive PsnClass where
  | dup | new | outside
  deriving DecidableEq, Repr

/-- Classify a PSN. -/
def psnClass (q : Qp) (p : BitVec 32) : PsnClass :=
  let d := psnDiff p q.rcvNxt
  if d < 0 then .dup
  else if (qpWindow q : Int) ≤ d then .outside
  else if q.accepted.contains p then .dup else .new

/-- R228 triggers 1 to 3 for a packet just accepted: `d` was its distance from rcv_nxt. -/
def ackTriggers (s : State) (k : Nat) (h : Pth) (d : Int) : State :=
  let q := qp s k
  let q1 := { q with
    ackPending := q.ackPending + 1
    ackTimer := if q.ackTimer.isNone then some (portTime s q.port) else q.ackTimer }
  let s1 := setQp s k q1
  let hole : Bool := decide (0 < d) && (match q.holeAck with
    | none => true
    | some t => decide (t + 96 ≤ fdTime s))
  if h.ackreq then sendAck s1 k h.ts
  else if hole then sendAck (setQp s1 k { q1 with holeAck := some (fdTime s) }) k h.ts
  else if max 1 (bits (reg s xptSr) 24 8) ≤ q1.ackPending then sendAck s1 k h.ts
  else s1

/-- R227, R230: refuse `n` PSNs from an arriving packet's with a final status. -/
def refuse (s : State) (k : Nat) (h : Pth) (n : Nat) (st : BitVec 8) : State :=
  let q := qp s k
  if 4 ≤ q.refusals.length then bump s xptSrstat 8 8 1
  else
    let r : RefusedRun := { first := h.psn, count := n, status := st }
    let above := !q.accepted.isEmpty
    let s1 := sendNak s k r h.ts
    let q1 := acceptPsns { qp s1 k with refusals := (qp s1 k).refusals ++ [r] } h.psn n
    let s2 := setQp s1 k q1
    if above ∧ q1.accepted.isEmpty then sendAck s2 k h.ts else s2

/-! Firkin (R238 to R241). -/

/-- The set of a context (R238). -/
def fkSet (k : Nat) : Nat :=
  let q := qpNum k
  (((q % 4096) ^^^ (q / 4096 * 4)) ^^^ (qpPart k * 64)) % 4096

/-- A context is cached. -/
def fkCached (s : State) (k : Nat) : Bool := s.firkin.cached.contains k

/-- A context has been used. -/
def fkTouch (s : State) (k : Nat) : State :=
  if fkCached s k then
    { s with firkin := { s.firkin with cached := k :: s.firkin.cached.erase k } }
  else s

/-- Bytes of port `n`'s miss buffer in use, and of those the bytes held for one queue pair. -/
def missBytes (s : State) (n : Nat) : Nat :=
  ((s.firkin.missed.filter fun x => x.2.port == n).map fun x => x.2.bytes.length).foldl (· + ·) 0
def missBytesOf (s : State) (n k : Nat) : Nat :=
  ((s.firkin.missed.filter fun x => x.2.port == n && x.1 == k).map fun x =>
    x.2.bytes.length).foldl (· + ·) 0

/-- R240: a packet for an uncached context enters its port's miss buffer, or is dropped. -/
def missPacket (s : State) (k : Nat) (p : Arrival) : State :=
  let n := p.bytes.length
  let f := s.firkin
  let queued := f.wanted.any (fun x => x.1 == k) || f.fetching.any (fun x => x.1 == k)
  let outstanding := (f.wanted.filter fun x => x.2 == p.port).length +
    (f.fetching.filter fun x => x.2 == p.port).length
  let qmax := max 1 (bits (reg s fkCtl) 16 16) * 1024
  let fmax := min 512 (max 1 (bits (reg s fkCtl) 0 10))
  if 2097152 < missBytes s p.port + n ∨ qmax ≤ missBytesOf s p.port k ∨
      (!queued ∧ fmax ≤ outstanding) then
    bump s (fkDrop p.port) 32 32 1
  else
    let s1 := { s with firkin := { f with missed := f.missed ++ [(k, p)] } }
    let occ := missBytes s1 p.port / 8
    let w := reg s1 (fkDrop p.port)
    fkWant (setReg s1 (fkDrop p.port) (setBits w 0 22 (max (bits w 0 22) occ))) k p.port

/-- Distinct contexts pinned (R25, R238). -/
def fkPinned (s : State) : List Nat := s.firkin.pinned.eraseDups

/-- R25, R238: further contexts may be pinned. -/
def fkCanPin (s : State) (ks : List Nat) : Bool :=
  let all := (s.firkin.pinned ++ ks).eraseDups
  decide (all.length ≤ 32768) &&
    ks.all fun k => decide ((all.filter fun x => fkSet x == fkSet k).length ≤ 8)

/-- Pin contexts; one that is not cached is fetched into its set, once a way of it may be had (R25,
R238, R239). -/
def pinAll (s : State) (ks : List Nat) : State :=
  ks.foldl (fun s k => fkWant s k 8)
    { s with firkin := { s.firkin with pinned := s.firkin.pinned ++ ks } }

/-- Remove one pin of each context. -/
def fkUnpin (s : State) (ks : List Nat) : State :=
  { s with firkin := { s.firkin with pinned := ks.foldl (fun l k => l.erase k) s.firkin.pinned } }

/-- The packets queued for the queue pairs that `mine` names are dropped, and counted (R246). -/
def fkDropQueued (s : State) (mine : Nat → Bool) : State :=
  let f := s.firkin
  bump { s with firkin := { f with missed := f.missed.filter fun x => !mine x.1 } } xptDrop 32 16
    (f.missed.filter fun x => mine x.1).length

/-- A queue pair leaves Firkin, with the packets queued for it (R246). A pinned context keeps its way
(R25). -/
def fkForget (s : State) (k : Nat) : State :=
  let f := s.firkin
  fkDropQueued { s with firkin := { f with
      cached := if f.pinned.contains k then f.cached else f.cached.erase k
      wanted := f.wanted.filter fun x => x.1 != k
      fetching := f.fetching.filter fun x => x.1 != k } } (· == k)

/-! The integrity tag (R320 to R328). -/

/-- The slot of a queue pair, if it names one. -/
def qpSlot (k : Nat) (q : Qp) : Option Nat :=
  if q.ikey = 0xFFFF then none else some (slotKey (qpPart k) q.ikey)

/-- The tag of a packet (R321): a QPN, an epoch and a ts make the IV. -/
def tagBytes (key : SlotKey) (qpn : Nat) (e ts : BitVec 32) (aad : List Byte) : List Byte :=
  let iv : BitVec 96 := (BitVec.ofNat 32 (qpn % 2 ^ 22) ++ e) ++ ts
  beBytes 16 (Config.gmac key.k256 key.bytes iv aad).toNat

/-- R323: the epoch inferred for an arriving ts under a reference. -/
def inferEpoch (r : Option (BitVec 32 × BitVec 32)) (ts : BitVec 32) : BitVec 32 :=
  match r with
  | none => 0
  | some (er, tr) =>
    if 0 ≤ (ts - tr).toInt ∧ ts.toNat < tr.toNat then er + 1
    else if (ts - tr).toInt < 0 ∧ tr.toNat < ts.toNat then er - 1 else er

/-- R323: the reference after a packet has verified. -/
def nextRef (r : Option (BitVec 32 × BitVec 32)) (ts : BitVec 32) :
    Option (BitVec 32 × BitVec 32) :=
  match r with
  | none => some (0, ts)
  | some (er, tr) => if 0 < (ts - tr).toInt then some (inferEpoch r ts, ts) else some (er, tr)

/-- A tag verifies under a key and its reference. -/
def tagVerifies (key : Option SlotKey) (r : Option (BitVec 32 × BitVec 32)) (qpn : Nat)
    (ts : BitVec 32) (aad tag : List Byte) : Bool :=
  match key with
  | none => false
  | some x => tagBytes x qpn (inferEpoch r ts) ts aad == tag

/-- A slot after a verified packet (R323, R326, R328); none where the tag matches no key. -/
def verifySlot (x : KeySlot) (qpn : Nat) (ts : BitVec 32) (aad tag : List Byte) : Option KeySlot :=
  if tagVerifies x.rx x.refRx qpn ts aad tag then
    some { x with refRx := nextRef x.refRx ts, prev := none, refPrev := none, prevAt := 0
                  armed := true }
  else if x.rx.isSome ∧ tagVerifies x.prev x.refPrev qpn ts aad tag then
    some { x with refPrev := nextRef x.refPrev ts, armed := true }
  else none

/-- R325, R326: a failure on a slot is counted, and posted at once or at most once per 1 ms. -/
def tagFailure (s : State) (k n : Nat) : State :=
  let x := keySlot s n
  let due := x.armed || (match x.lastEvent with
    | none => true
    | some t => decide (t + 1500000 ≤ fdTime s))
  let fails := x.failSince + 1
  let x1 := { x with fail := if x.fail = BitVec.allOnes 32 then x.fail else x.fail + 1 }
  if due then
    post (setSlot s n { x1 with failSince := 0, lastEvent := some (fdTime s), armed := false })
      (eqOf (qpPart k)) 0x40 (qp s k).port
      (BitVec.ofNat 64 (qpNum k + 2 ^ 32 * (n % 2048)))
      (BitVec.ofNat 64 (0x0C + 2 ^ 32 * fails))
  else setSlot s n { x1 with failSince := fails }

/-- R189 step 5, R325: the tag of an arriving packet is as its queue pair requires; else the failure
is counted. -/
def checkTag (s : State) (k : Nat) (h : Pth) (p : Packet) (tag : List Byte) : Bool × State :=
  let q := qp s k
  let s1 := bump s intStat 0 32 1
  match q.tag, decide (h.tagpos = 0), qpSlot k q with
  | false, true, _ => (true, s)
  | true, false, some n =>
    match verifySlot (keySlot s n) q.rqpn h.ts (p.bytes.take h.tagpos) tag with
    | some x => (true, setSlot s n x)
    | none => (false, tagFailure s1 k n)
  | _, _, some n => (false, tagFailure s1 k n)
  | _, _, none => (false, s1)

end Sys2Proof.Machine
end

