-- ==== Sys2Proof/Machine/XptSend.lean ====
section
/-! DEFINITION. The sender of a queue pair: the operations it has accepted, their packets, their
completion, timers and rate, and the ways a queue pair ends them (R196, R203, R211, R215 to R219,
R223, R232 to R245). -/

namespace Sys2Proof.Machine

/-! Completions (R215, R217, R417). -/

/-- Deliver the completion of an SQ entry of a queue pair's operation: held for the partner where the
partition is mirrored. -/
def qpDeliver (s : State) (k r : Nat) (e : RingEntry) (st : BitVec 8) (bytes : Nat)
    (d0 d1 : Word) : State :=
  if mirrored s (qpPart k) then
    let x := ring s r
    let it : CqItem :=
      { ring := r, counts := true, bytes := cqBytes (entryCookie e) st r bytes d0 d1
        write := x.bindEn && !(entryNoCqe e && st == 0) }
    let s1 := modRing s r fun y => { y with
      started := y.started.filter fun z => z.index != e.index }
    let h : HeldDone := { hold := none, cq := if x.bindEn then some x.target else none, item := it }
    { s1 with twin := { s1.twin with held := s1.twin.held ++ [h] } }
  else completeEntry s r e st bytes d0 d1

/-- Bytes that a completed operation has moved (R215). -/
def opBytes (o : SendOp) : Nat :=
  if o.op = 0x06 ∨ o.op = 0x07 then 8 else if 0x01 ≤ o.op ∧ o.op ≤ 0x04 then o.len else 0

/-- The transport's answer reaches a thread (R76 to R78): a put or sig.r is done, its failure kept
for `fence.n`; a get or an atomic has its response. -/
def threadAnswer (s : State) (t id : Nat) (st : BitVec 8) (bs : List Byte) : State :=
  let f (th : Thread) : Thread :=
    match th.ops.find? fun o => o.id == id with
    | none => th
    | some o =>
      if o.kind = .put ∨ o.kind = .sigR then
        let th1 : Thread := { th with ops := th.ops.filter fun x => x.id != id }
        if st ≠ 0 ∧ th1.netFail.isNone then { th1 with netFail := some st } else th1
      else { th with ops := th.ops.map fun x =>
        if x.id = id then { x with answer := some { status := st, bytes := bs } } else x }
  let s1 := modAgent s t f
  settleGrid s1 (if t < 2 ^ 24 then (thread s1 t).grid else (savedPlace t).1)

/-- An operation has come to its status (R215, R217): whoever started it learns so. -/
def finishOp (s : State) (k : Nat) (o : SendOp) (st : BitVec 8) : State :=
  let q := qp s k
  match o.src with
  | .none => s
  | .sq r i =>
    match startedAt s r i with
    | none => s
    | some e => qpDeliver s k r e st (if st = 0 then opBytes o else 0)
        (BitVec.ofNat 64 (portTime s q.port)) (BitVec.ofNat 64 (qpNum k + 2 ^ 24 * q.port))
  | .thread t id =>
    threadAnswer s t id st (if o.op = 0x04 then o.data.getD [] else leBytes 8 o.result.toNat)
  | .mover c id =>
    match findDesc s c id with
    | none => s
    | some d =>
      if st = 0 then
        putDesc s c { d with result := some 0, stalled := false, done := descTotal d }
      else stopDesc s c { d with stalled := false } st
  | src =>
    if st = 0 then s
    else
      let n := (o.data.getD []).length
      { s with netEvents := s.netEvents ++ [.refused src k st o.op o.rkey o.imm n] }

/-! PSNs of operations. -/

/-- A PSN is acknowledged, SACKed, answered or refused. -/
def psnDone (q : Qp) (p : BitVec 32) : Bool := decide (psnDiff p q.una < 0) || q.sacked.contains p

/-- An operation that is complete only with its responses: READ and the atomics (R215). -/
def opResponds (o : SendOp) : Bool := o.op == 0x04 || o.op == 0x06 || o.op == 0x07

/-- A PSN lies within those an operation has drawn. -/
def opOwns (o : SendOp) (p : BitVec 32) : Bool :=
  match o.first with
  | none => false
  | some f => decide ((p - f).toNat < o.sent)

/-- The operation that drew a PSN. -/
def ownerOp (q : Qp) (p : BitVec 32) : Option SendOp := q.ops.find? fun o => opOwns o p

/-- A PSN that only a response ends (R237). -/
def needsResponse (q : Qp) (p : BitVec 32) : Bool :=
  match ownerOp q p with
  | some o => opResponds o && o.src != .none
  | none => false

/-- Every PSN of an operation is drawn and done. -/
def opDone (q : Qp) (o : SendOp) : Bool :=
  match o.first with
  | none => o.npsn == 0
  | some f => o.sent == o.npsn &&
      (List.range o.npsn).all fun i => psnDone q (f + BitVec.ofNat 32 i)

/-- snd_una passes every PSN done in a row; `n` bounds the row. -/
def advanceUna (q : Qp) : Nat → Qp
  | 0 => q
  | n + 1 =>
    if q.sacked.contains q.una then
      advanceUna { q with una := q.una + 1, sacked := q.sacked.erase q.una } n
    else q

/-- Forget resends of PSNs that are done. -/
def pruneSend (q : Qp) : Qp :=
  { q with
    resend := q.resend.filter fun p => !psnDone q p
    tries := q.tries.filter fun x => !psnDone q x.1
    sackSent := q.sackSent.filter fun x => !psnDone q x.1
    rnrs := q.rnrs.filter fun x => !psnDone q x.1 }

/-- Mark PSNs as done; when snd_una advances, the timer restarts and the computed RTO returns (R232,
R235). -/
def markDone (q : Qp) (now : Nat) (ps : List (BitVec 32)) : Qp :=
  let new := ps.filter fun p => !psnDone q p && decide (psnDiff p q.nxt < 0)
  let q1 := { q with sacked := q.sacked ++ new }
  let q2 := pruneSend (advanceUna q1 q1.sacked.length)
  if q2.una = q.una then q2
  else { q2 with backoff := 0, timer := if q2.una = q2.nxt then none else some now }

/-- Post an event of a queue pair to its partition's EQ (R203). -/
def qpEvent (s : State) (k code : Nat) (d0 d1 : Nat) : State :=
  post s (eqOf (qpPart k)) code (qp s k).port (BitVec.ofNat 64 (qpNum k + d0)) (BitVec.ofNat 64 d1)

/-- R196: a queue pair in DRAIN that has completed everything posts QP_DRAINED. -/
def checkDrained (s : State) (k : Nat) : State :=
  let q := qp s k
  if q.state = .drain ∧ q.ops.isEmpty ∧ !q.drained then
    qpEvent (setQp s k { q with drained := true }) k 0x23 0 0
  else s

/-- Complete every operation whose PSNs are all done (R232). -/
def settleOps (s : State) (k : Nat) : State :=
  let q := qp s k
  let done := q.ops.filter (opDone q)
  let s1 := setQp s k { q with ops := q.ops.filter fun o => !opDone q o }
  checkDrained (done.foldl (fun s o => finishOp s k o 0) s1) k

/-- The descriptor that an operation comes from, whose source its packets are reread from (R233). -/
def opDesc (s : State) (o : SendOp) : Option MoverDesc :=
  match o.src with
  | .mover c id => findDesc s c id
  | _ => o.desc

/-- An operation fails: it completes with a status, and only the PSNs it has drawn remain. -/
def failOp (s : State) (k : Nat) (o : SendOp) (st : BitVec 8) : State :=
  let s1 := finishOp s k o st
  let dead : SendOp := { o with
    src := .none, npsn := o.sent, stalled := false, desc := opDesc s o }
  settleOps (modQp s1 k fun q => { q with ops := q.ops.map fun x => if x = o then dead else x }) k

/-- Change one operation. -/
def putSend (s : State) (k : Nat) (old new : SendOp) : State :=
  modQp s k fun q => { q with ops := q.ops.map fun x => if x = old then new else x }

/-! Ways a queue pair ends its work (R196). -/

/-- Qctl word of a transport SQ entry (R208). -/
def entryQctl (e : RingEntry) : Nat := entryField e 0x10 4
def entryQpn (e : RingEntry) : Nat := entryQctl e % 2 ^ 22
def entryGate (e : RingEntry) : Nat := entryQctl e / 2 ^ 22 % 4
def entryInl (e : RingEntry) : Bool := entryQctl e / 2 ^ 24 % 2 == 1
def entryRfence (e : RingEntry) : Bool := entryQctl e / 2 ^ 25 % 2 == 1
def gateWord (e : RingEntry) : Word := entryWord e 0x38

/-- A transport opcode of an SQ (R163). -/
def isXptOp (op : Nat) : Bool := decide (0x10 ≤ op ∧ op ≤ 0x17)

/-- SQs of a partition. -/
def partSqs (s : State) (p : Nat) : List Nat :=
  (s.rings.filter fun x => x.2.typ == 1 && x.2.part == p).map Prod.fst

/-- The head of an SQ waits for queue pair `k`: it names it, or is gated on it (R196, R218). -/
def headWaits (s : State) (r k : Nat) : Bool :=
  match (ring s r).taken with
  | e :: _ => isXptOp (entryOpcode e) &&
      (entryQpn e == qpNum k ||
        (entryGate e == 1 && !entryInl e && bits (gateWord e) 0 22 == qpNum k))
  | [] => false

/-- R196, R218: held entries that name a queue pair, or are gated on it, complete with
ST_ABORTED. -/
def abortHeld (s : State) (k : Nat) : State :=
  (partSqs s (qpPart k)).foldl (fun s r =>
    if headWaits s r k then
      match (ring s r).taken with
      | e :: _ => finishHead s r e 0x01
      | [] => s
    else s) s

/-- A queue pair's sender and receiver stop: nothing outstanding, no timer. -/
def quietQp (q : Qp) : Qp :=
  { q with ops := [], una := q.nxt, sacked := [], resend := [], tries := [], sackSent := []
           timer := none, backoff := 0, rnrUntil := none, rnrCount := 0, rnrs := [], connTimer := none
           ackPending := 0, ackTimer := none, holeAck := none, enable := 0, migrating := false }

/-- Every operation of a queue pair completes with a status. -/
def abortOps (s : State) (k : Nat) (st : BitVec 8) : State :=
  let ops := (qp s k).ops
  let s1 := modQp s k fun q => { q with ops := [] }
  ops.foldl (fun s o => finishOp s k o st) s1

/-- R196, R203: a queue pair enters ERROR: its operations and held entries complete with ST_ABORTED
and the event is posted with the status. -/
def enterError (s : State) (k code : Nat) (st : BitVec 8) : State :=
  let s1 := abortOps s k 0x01
  let s2 := modQp s1 k fun q => { quietQp q with state := .error }
  let s3 := qpEvent (abortHeld s2 k) k code 0 st.toNat
  { s3 with netEvents := s3.netEvents ++ [.down k] }

/-- Retries of a PSN have run out (R236): its operation completes with ST_RETRY_EXCEEDED, and the
queue pair enters ERROR. -/
def retryExceeded (s : State) (k : Nat) (p : BitVec 32) : State :=
  let s1 := match ownerOp (qp s k) p with
    | some o => failOp s k o 0x07
    | none => s
  enterError s1 k 0x22 0x07

/-- Unbind a queue pair's key slot (R329). -/
def unbindSlot (s : State) (k : Nat) : State :=
  match qpSlot k (qp s k) with
  | some n => if (keySlot s n).bound = some (qpNum k) then
      modSlot s n fun x => { x with bound := none } else s
  | none => s

/-- R196: a queue pair enters INIT. -/
def enterInit (s : State) (k : Nat) : State :=
  let s1 := unbindSlot (abortOps s k 0x01) k
  let s2 := modQp s1 k fun q =>
    { quietQp q with state := .init, ikey := 0xFFFF, repSent := false, passive := false
                     tag := false }
  let s3 := abortHeld s2 k
  { s3 with netEvents := s3.netEvents ++ [.down k] }

/-! Packets (R190, R191, R211). -/

/-- PSNs that an operation takes. -/
def opPsns (op len mtu : Nat) (inline_ : Bool) : Nat :=
  if inline_ ∨ op = 0 ∨ 4 < op then 1 else max 1 ((len + mtu - 1) / mtu)

/-- A queue pair accepts an operation. -/
def submit (s : State) (k : Nat) (src : WorkSrc) (op rkey roff laddr len imm : Nat)
    (ctx : BitVec 20) (data : Option (List Byte)) : State :=
  let q := qp s k
  let o : SendOp :=
    { src := src, op := op, rkey := rkey, roff := roff, laddr := laddr, len := len, imm := imm
      ctx := ctx, data := data, msn := if op = 1 then q.msn else 0, first := none
      npsn := opPsns op len q.mtu data.isSome, sent := 0, got := [], result := 0
      stalled := false, rfence := false, desc := none }
  setQp s k { q with ops := q.ops ++ [o], msn := if op = 1 then q.msn + 1 else q.msn }

/-- Payload bytes of packet `i` of an operation. -/
def pktLen (q : Qp) (o : SendOp) (i : Nat) : Nat :=
  if o.op = 0x04 ∨ o.op = 0x0A then 0
  else if 0x01 ≤ o.op ∧ o.op ≤ 0x03 then
    (match o.data with
      | some bs => bs.length
      | none => min q.mtu (o.len - i * q.mtu))
  else (o.data.getD []).length

/-- The header of packet `i` of an operation; of a READ, the request for its responses from `i` on
(R191, R237). For Bushel and Carder packets `len` says whether it is the first (bit 0) and the last
(bit 1) of its message. -/
def opPth (q : Qp) (o : SendOp) (i : Nat) (psn : BitVec 32) (retx : Bool) : Pth :=
  let msg := decide (0x01 ≤ o.op ∧ o.op ≤ 0x03)
  let first := if msg then i == 0 else if 0x30 ≤ o.op then o.len % 2 == 1 else true
  let last := if msg then i + 1 == o.npsn else if 0x30 ≤ o.op then o.len / 2 % 2 == 1 else true
  let base : Pth := { Pth.plain q.version o.op q.rqpn with
    first := first, last := last, ackreq := last || retx, retx := retx, psn := psn
    key := BitVec.ofNat 32 o.rkey }
  if o.op = 0x01 then
    { base with key := BitVec.ofNat 32 o.msn, aux := if last then BitVec.ofNat 32 o.imm else 0
                off := BitVec.ofNat 64 (i * q.mtu) }
  else if o.op = 0x02 then { base with off := BitVec.ofNat 64 (o.roff + i * q.mtu) }
  else if o.op = 0x03 then
    { base with aux := if last then BitVec.ofNat 32 o.imm else 0
                off := BitVec.ofNat 64 (o.roff + i * q.mtu) }
  else if o.op = 0x04 then
    { base with aux := BitVec.ofNat 32 (o.len - i * q.mtu), off := BitVec.ofNat 64 (o.roff + i * q.mtu) }
  else { base with aux := BitVec.ofNat 32 o.imm, off := BitVec.ofNat 64 o.roff }

/-- Why a packet's local bytes cannot be had. -/
inductive DataFail where
  | xlate (c : XlateCause) (va : Nat)
  | poison
  | hostLost
  deriving DecidableEq, Repr

/-- The bytes of packet `i` of an operation, held or read from the sender's memory (R208, R233). -/
def opPayload (s : State) (k : Nat) (o : SendOp) (i : Nat) : Except DataFail (List Byte) × State :=
  let q := qp s k
  let n := pktLen q o i
  if n = 0 then (.ok [], s)
  else match o.data with
  | some bs => (.ok bs, s)
  | none =>
    match opDesc s o with
    | some d =>
      let r := lineRead s d (descSloc d) (descSrc d + i * q.mtu) n
      match r.1 with
      | .ok (some bs) => (.ok bs, r.2)
      | .ok none => (.error .poison, r.2)
      | .error (.xlate c va _) => (.error (.xlate c va), r.2)
      | .error .hostLost => (.error .hostLost, r.2)
    | none =>
      let r := readVa s .fabric fabricUnit (qpPart k) o.ctx (o.laddr + i * q.mtu) n
      match r.1 with
      | .ok bs => (.ok bs, r.2)
      | .error (.xlate c va) => (.error (.xlate c va), r.2)
      | .error (.poison _) => (.error .poison, r.2)
      | .error .hostLost => (.error .hostLost, r.2)

/-- A local fault of an operation (R208, R351): it waits at that point. -/
def stallOp (s : State) (k : Nat) (o : SendOp) (c : XlateCause) (va : Nat) (write : Bool) : State :=
  let s1 := putSend s k o { o with stalled := true }
  match o.src with
  | .mover core id =>
    match findDesc s1 core id with
    | some d => descFault s1 core d c va write
    | none => s1
  | _ => raiseFault s1 (qpPart k) o.ctx va c write 2 (.work (qpPart k) (qpNum k))

/-! Rate and window (R242 to R245). -/

/-- Line rate of a port mode in Mb/s (R290). -/
def lineRate (m : Nat) : Nat :=
  match m with
  | 1 => 1600000 | 2 => 800000 | 3 => 800000 | 4 => 400000 | 5 => 400000 | 6 => 200000
  | 7 => 100000 | _ => 0

/-- Mode code in a port's PORT_MODE; reserved codes act as 0 (R290). -/
def portMode (s : State) (n : Nat) : Nat :=
  let m := bits (reg s (portReg n 8)) 0 4
  if m ≤ 7 then m else 0

/-- Rate ceiling and floor of a queue pair (R243). -/
def rmaxOf (s : State) (n : Nat) : Nat :=
  min (100 * bits (reg s (xptCcPort n)) 0 16) (lineRate (portMode s n))
def rminOf (s : State) : Nat := max 1 (bits (reg s xptCc) 0 16)

/-- Target delay of a port, in units of 0.1 us. -/
def targetOf (s : State) (n : Nat) : Nat := max 1 (bits (reg s (xptCcPort n)) 16 12)

/-- R245: the initial rate of a port, clamped. -/
def rinitOf (s : State) (n : Nat) : Nat :=
  max (rminOf s) (min (rmaxOf s n) (100 * bits (reg s (xptCcPort n)) 32 16))

/-- R242: the class of a queue pair is controlled. -/
def controlled (s : State) (q : Qp) : Bool := (reg s xptCc).getLsbD (40 + q.tc)

/-- R243: the congestion window, in packets. -/
def cwndOf (s : State) (q : Qp) : Nat :=
  if controlled s q then
    max 1 ((q.rate * targetOf s q.port + 80 * q.mtu - 1) / (80 * q.mtu))
  else qpWindow q

/-- R244: the end of a round with its smallest sample, in ticks. -/
def updateRate (s : State) (q : Qp) : Nat :=
  match q.roundMin with
  | none => q.rate
  | some d =>
    let dd := d * 64
    let t := targetOf s q.port * 1000
    let beta := max 1 (bits (reg s xptCc) 32 8)
    if dd ≤ t then min (rmaxOf s q.port) (q.rate + bits (reg s xptCc) 16 16)
    else max (rminOf s) (q.rate * (256 * dd - beta * (dd - t)) / (256 * dd))

/-- R244: a round ends when snd_una passes the snd_nxt recorded at its start. -/
def checkRound (s : State) (k : Nat) : State :=
  let q := qp s k
  match q.roundEnd with
  | none => s
  | some e =>
    if 0 < psnDiff q.una e then
      setQp s k { q with rate := updateRate s q, roundEnd := some q.nxt, roundMin := none }
    else s

/-- RTO_MIN and RTO_MAX in ticks (R235, R247). -/
def rtoMin (s : State) : Rat := (max 2 (bits (reg s xptRto) 0 24) : Nat) * (625 / 4 : Rat)
def rtoMax (s : State) : Rat :=
  (max (max 2 (bits (reg s xptRto) 0 24)) (bits (reg s xptRto) 24 24) : Nat) * (625 / 4 : Rat)

/-- R235: the RTO in use, in ticks. -/
def rtoOf (s : State) (q : Qp) : Rat :=
  let base : Rat := match q.srtt with
    | none => 15625
    | some (m, v) => max (rtoMin s) (min (rtoMax s) (m + 4 * v))
  if q.backoff = 0 then base else min (rtoMax s) (base * (2 ^ q.backoff : Nat))

/-- R234, R235: a round-trip sample. -/
def sampleRtt (q : Qp) (now : Nat) (echo : BitVec 32) : Qp :=
  if echo = 0 then q
  else
    let rtt := (BitVec.ofNat 32 now - echo).toNat
    let r : Rat := rtt
    let srtt := match q.srtt with
      | none => (r, r / 2)
      | some (m, v) =>
        (7 / 8 * m + 1 / 8 * r, 3 / 4 * v + 1 / 4 * (if m ≤ r then r - m else m - r))
    { q with srtt := some srtt
             roundMin := some (match q.roundMin with | none => rtt | some d => min d rtt) }

/-! Sending (R211, R223, R236, R243, R374). -/

/-- The next packet of a queue pair: a resend of PSN `p`, or packet `i` of an operation for the
first time. -/
inductive NextPkt where
  | resend (p : BitVec 32) (o : SendOp)
  | fresh (o : SendOp)
  deriving DecidableEq, Repr

/-- READs and atomics outstanding (R211). -/
def readsOut (q : Qp) : Nat := (q.ops.filter fun o => opResponds o && o.first.isSome).length

/-- The first operation with a packet to send: a READ or atomic past the limit of 16 does not block
others; a stalled one does. -/
def pickOp (q : Qp) : List SendOp → Option SendOp
  | [] => none
  | o :: os =>
    if o.sent = o.npsn then pickOp q os
    else if o.stalled then none
    else if opResponds o ∧ o.first.isNone ∧ 16 ≤ readsOut q then pickOp q os
    else some o

/-- The next packet due, before window and pacing. -/
def nextPkt (s : State) (k : Nat) : Option NextPkt :=
  let q := qp s k
  match q.resend with
  | p :: _ =>
    match ownerOp q p with
    | some o => if o.stalled then none else some (.resend p o)
    | none => none
  | [] =>
    match pickOp q q.ops with
    | none => none
    | some o =>
      if psnDiff q.nxt q.una < (min (qpWindow q) (cwndOf s q) : Nat) then some (.fresh o) else none

/-- Index of a packet within its operation. -/
def pktIndex (n : NextPkt) : Nat :=
  match n with
  | .resend p o => (p - o.first.getD p).toNat
  | .fresh o => o.sent

/-- The operation of a packet. -/
def pktOp (n : NextPkt) : SendOp :=
  match n with
  | .resend _ o => o
  | .fresh o => o

/-- A queue pair's transmit key is present where it uses tags (R330). -/
def txKeyReady (s : State) (k : Nat) : Bool :=
  let q := qp s k
  !q.tag || (match qpSlot k q with
    | some n => (keySlot s n).tx.isSome
    | none => false)

/-- The twin mirror ring has no room for the entries of a change (R418). -/
def mirrorFull (s : State) (p : Nat) : Bool :=
  let x := ring s 0x130
  mirrored s p && decide (2 ^ x.log2sz < (x.prod - x.cons).toNat + 64)

/-- The frame bytes of the packet that a queue pair may send now; none when it may not. -/
def readyLen (s : State) (k : Nat) : Option Nat :=
  let q := qp s k
  if (q.state = .rts ∨ q.state = .drain) ∧ q.rnrUntil.isNone ∧ txKeyReady s k ∧ fkCached s k ∧
      (q.nextSend ≤ portTime s q.port ∨ !controlled s q) ∧
      (q.tc ≠ 7 ∨ (reg s xptTc7).getLsbD q.port) ∧ !mirrorFull s (qpPart k) ∧ !s.err.fatal then
    match nextPkt s k with
    | none => none
    | some n =>
      let size := frameSize s q.port (isV4 q.raddr) (pktLen q (pktOp n) (pktIndex n)) q.tag
      if txRoom s q.port q.tc size then some size else none
  else none

/-- Partitions with a queue pair ready on a port and class, each with one such frame's length. -/
def readyParts (s : State) (port cls : Nat) : List (Nat × Nat) :=
  ((s.qps.filter fun x => x.2.port == port && x.2.tc == cls).filterMap fun x =>
    (readyLen s x.1).map fun l => (qpPart x.1, l))

/-- Key of a partition's deficit for a class within a port's deficits. -/
def partDeficit (cls p : Nat) : Nat := 8 + 65 * cls + p

/-- R374: a new round of the choice among partitions. -/
def partRound (s : State) (port cls : Nat) : State :=
  let ready := readyParts s port cls
  let grant (d : Table Nat) (p : Nat) : Table Nat :=
    let key := partDeficit cls p
    if ready.any (fun y => y.1 == p) then
      tset 0 d key (tget 0 d key + 4096 * (partition s p).weight)
    else tset 0 d key 0
  modPort s port fun x => { x with deficits := (List.range 65).foldl grant x.deficits }

/-- R374: whether partition `p` may send a frame of `size` now; rounds begin while no partition
that is ready has the credit, at most `n`. -/
def partTurn (s : State) (port cls p size : Nat) : Nat → Bool × State
  | 0 => (false, s)
  | n + 1 =>
    let d := (portOf s port).deficits
    if size ≤ tget 0 d (partDeficit cls p) then
      (true, modPort s port fun x => { x with
        deficits := tset 0 x.deficits (partDeficit cls p)
          (tget 0 x.deficits (partDeficit cls p) - size) })
    else if (readyParts s port cls).any fun y => decide (y.2 ≤ tget 0 d (partDeficit cls y.1)) then
      (false, s)
    else partTurn (partRound s port cls) port cls p size n

/-- Number of resends of a PSN (R236). -/
def triesOf (q : Qp) (p : BitVec 32) : Nat :=
  ((q.tries.find? fun x => x.1 == p).map Prod.snd).getD 0

/-- A PSN is deemed lost (R233): it is due for a resend, or the retries have run out (R236). RNR
resends do not count. -/
def loseP (s : State) (k : Nat) (p : BitVec 32) : State :=
  let q := qp s k
  if q.resend.contains p then s
  else if q.retry ≤ triesOf q p then retryExceeded s k p
  else setQp s k { q with
    resend := q.resend ++ [p]
    tries := q.tries.filter (fun x => x.1 != p) ++ [(p, triesOf q p + 1)] }

/-- The queue pair after a packet has been queued. -/
def afterSend (s : State) (k : Nat) (n : NextPkt) (size : Nat) : State :=
  let q := qp s k
  let now := portTime s q.port
  let q1 : Qp := match n with
    | .resend p _ => { q with resend := q.resend.filter fun x => x != p }
    | .fresh o =>
      let draws := if o.op = 0x04 then o.npsn else 1
      let o1 : SendOp := { o with first := some (o.first.getD q.nxt), sent := o.sent + draws }
      let nxt := q.nxt + BitVec.ofNat 32 draws
      { q with
        ops := q.ops.map (fun x => if x = o then o1 else x)
        nxt := nxt
        roundEnd := some (q.roundEnd.getD nxt) }
  let una : Bool := match n with
    | .resend p _ => p == q.una
    | .fresh _ => false
  let bits_ := size * 8
  setQp s k { q1 with
    timer := if q1.timer.isNone ∨ una then some now else q1.timer
    nextSend := if controlled s q then now + (bits_ * 10000 + q.rate * 64 - 1) / (q.rate * 64)
      else q.nextSend }

/-- Send the next packet of a queue pair (R211, R223, R243): its header and bytes enter the port's
transmit buffer. -/
def sendNext (s : State) (k : Nat) (n : NextPkt) (size : Nat) : State :=
  let q := qp s k
  let o := pktOp n
  let i := pktIndex n
  let retx : Bool := match n with | .resend _ _ => true | .fresh _ => false
  let psn := match n with | .resend p _ => p | .fresh _ => q.nxt
  let d := opPayload s k o i
  match d.1 with
  | .error (.xlate c va) => stallOp d.2 k o c va false
  | .error e =>
    let st : BitVec 8 := match e with | .hostLost => 0x08 | _ => 0x0D
    let s1 := failOp d.2 k o st
    if retx then settleOps (modQp s1 k fun x => markDone x (portTime s x.port) [psn]) k else s1
  | .ok bs =>
    let s1 := if retx then bump d.2 xptSrstat 32 32 1 else d.2
    let s2 := queuePkt s1 k false (decide (0x31 ≤ o.op ∧ o.op ≤ 0x34)) q.tc (opPth q o i psn retx)
      bs q.tag q.raddr
    afterSend s2 k n size

end Sys2Proof.Machine
end

