-- ==== Sys2Proof/Machine/CtxOps.lean ====
section
/-! DEFINITION. What a queue pair's backing store and a key-table entry hold (R194, R376, R415). The
spec leaves their layout internal: the numbers below are what they stand for, and `Config` turns them
into bytes and back (log entry 17). -/

namespace Sys2Proof.Machine

def natOfBool (b : Bool) : Nat := if b then 1 else 0

/-- Code of a queue pair state (R195). -/
def qpStateCode (x : QpState) : Nat :=
  match x with
  | .none => 0 | .init => 1 | .listen => 2 | .connecting => 3 | .rts => 4 | .drain => 5
  | .error => 6 | .frozen => 7

/-- The state of a code. -/
def qpStateOf (n : Nat) : QpState :=
  match n with
  | 1 => .init | 2 => .listen | 3 => .connecting | 4 => .rts | 5 => .drain | 6 => .error
  | 7 => .frozen | _ => .none

/-- A list of records behind its length. -/
def natList {α : Type} (f : α → List Nat) (l : List α) : List Nat := l.length :: l.flatMap f

def natOpt (o : Option Nat) : List Nat :=
  match o with
  | none => [0, 0]
  | some x => [1, x]

/-- Take `n` records of `w` numbers each. -/
def natRecs (w : Nat) : Nat → List Nat → List (List Nat)
  | 0, _ => []
  | n + 1, l => l.take w :: natRecs w n (l.drop w)

/-- A list of records of `w` numbers behind its length, and what follows it. -/
def takeRecs (w : Nat) (l : List Nat) : List (List Nat) × List Nat :=
  let n := l.headD 0
  (natRecs w n l.tail, l.tail.drop (w * n))

def optOf (a b : Nat) : Option Nat := if a = 1 then some b else none

/-- Who started an operation, with the header of its SQ entry. -/
def srcNats (s : State) (w : WorkSrc) : List Nat :=
  match w with
  | .none => [0, 0, 0, 0, 0]
  | .sq r i => [1, r, i.toNat, ((startedAt s r i).map fun e => leNat (e.bytes.take 8)).getD 0,
      ((startedAt s r i).map fun e => (entryCookie e).toNat).getD 0]
  | .thread t id => [2, t, id, 0, 0]
  | .mover c id => [3, c, id, 0, 0]
  | .bushel g => [4, g, 0, 0, 0]
  | .carder r i => [5, r, i.toNat, 0, 0]

/-- The source of an operation; work of a thread or mover is not bound again by its numbers alone. -/
def srcOf (l : List Nat) : WorkSrc :=
  match l.getD 0 0 with
  | 1 => .sq (l.getD 1 0) (BitVec.ofNat 32 (l.getD 2 0))
  | 2 => .thread (l.getD 1 0) (l.getD 2 0)
  | 3 => .mover (l.getD 1 0) (l.getD 2 0)
  | 4 => .bushel (l.getD 1 0)
  | 5 => .carder (l.getD 1 0) (BitVec.ofNat 32 (l.getD 2 0))
  | _ => .none

/-- An operation in a context. -/
def opNats (s : State) (o : SendOp) : List Nat :=
  srcNats s o.src ++
  [o.op, o.rkey, o.roff, o.laddr, o.len, o.imm, o.ctx.toNat, o.msn, o.npsn, o.sent,
    o.result.toNat, natOfBool o.stalled, natOfBool o.rfence] ++
  natOpt (o.first.map BitVec.toNat) ++ [natOfBool o.data.isSome] ++
  natList (fun b => [b.toNat]) (o.data.getD []) ++ natList (fun n => [n]) o.got

/-- Read one operation and what follows it. -/
def opOfNats (l : List Nat) : SendOp × List Nat :=
  let g (i : Nat) : Nat := l.getD i 0
  let d := takeRecs 1 (l.drop 21)
  let e := takeRecs 1 d.2
  ({ src := srcOf l, op := g 5, rkey := g 6, roff := g 7, laddr := g 8, len := g 9, imm := g 10
     ctx := BitVec.ofNat 20 (g 11), msn := g 12, npsn := g 13, sent := g 14
     result := BitVec.ofNat 64 (g 15), stalled := g 16 == 1, rfence := g 17 == 1
     first := (optOf (g 18) (g 19)).map (BitVec.ofNat 32)
     desc := none
     data := if g 20 = 1 then some (d.1.map fun x => BitVec.ofNat 8 (x.headD 0)) else none
     got := e.1.map fun x => x.headD 0 }, e.2)

/-- Read `n` operations, with the headers of the SQ entries they came from. -/
def opsOfNats : Nat → List Nat → List (SendOp × List Nat)
  | 0, _ => []
  | n + 1, l =>
    let r := opOfNats l
    (r.1, l.take 5) :: opsOfNats n r.2

/-- A queue pair is bound to a Bushel group or to Carder. -/
def qpBound (s : State) (k : Nat) : Bool :=
  (s.bushel.any fun g => g.2.part == qpPart k && g.2.qps.contains (some (qpNum k))) ||
    s.binds.any fun b => b.part == qpPart k && (List.range b.ranks.length).any fun r =>
      r != b.rank && b.ranks[r]? == some (qpNum k)

/-- R246: the timers that a FROZEN queue pair saves: what has run of its RTO, what is left of an RNR
pause, and what is left of its resend interval with the interval and the sends. -/
def qpTimerNats (q : Qp) : List Nat :=
  if q.state = .frozen then
    natOpt q.timer ++ natOpt q.rnrUntil ++ (match q.connTimer with
      | none => [0, 0, 0, 0]
      | some x => [1, x.1, x.2.1, x.2.2])
  else List.replicate 8 0

/-- What a queue pair's context and atomic log hold. -/
def qpNats (s : State) (k : Nat) : List Nat :=
  let q := qp s k
  [qpStateCode q.state, qpStateCode q.saved, q.sq, q.rcq, q.rbase, q.rlog2n, q.rlog2sz, q.ctx.toNat,
    q.rrpt, q.port, q.tc, q.mtu, q.raddr.toNat, q.laddr.toNat, q.nhmac.toNat, q.rqpn,
    q.vmask.toNat, q.mode.toNat, natOfBool q.tagReq, natOfBool q.tag, q.window, q.retry, q.ikey,
    q.version, q.connid.toNat, q.ipsn.toNat, q.ripsn.toNat, q.sport.toNat, natOfBool q.passive,
    natOfBool q.repSent, q.mseq.toNat, q.mseqIn.toNat, natOfBool q.migrating, natOfBool q.drained,
    q.una.toNat, q.nxt.toNat, q.msn, q.rate, q.rcvNxt.toNat, q.released.toNat, q.enable,
    natOfBool (qpBound s k), qpNum k] ++
  qpTimerNats q ++
  natList (fun p => [p.toNat]) q.sacked ++ natList (fun p => [p.toNat]) q.accepted ++
  natList (fun r => [r.first.toNat, r.count, r.status.toNat]) q.refusals ++
  natList (fun r => [r.first.toNat, r.count, r.ctx.toNat, r.va, r.len]) q.reads ++
  natList (fun a => [a.psn.toNat, a.status.toNat, a.prior.toNat]) q.atomics ++
  natList (fun d => [d.psn.toNat, d.kind, d.cookie, d.stop, d.imm.toNat, d.ts]) q.recvDone ++
  natList (fun x => [x.1.toNat, x.2]) q.imms ++ natList (opNats s) q.ops

/-- A queue pair from what its context holds, with the SQ entries of its operations and whether it
was bound to Bushel or Carder. -/
def qpOfNats (l : List Nat) : Qp × List (SendOp × List Nat) × Bool :=
  let g (i : Nat) : Nat := l.getD i 0
  let p (i : Nat) : BitVec 32 := BitVec.ofNat 32 (g i)
  let b (i : Nat) : Bool := g i == 1
  let psns (r : List (List Nat)) : List (BitVec 32) := r.map fun x => BitVec.ofNat 32 (x.headD 0)
  let sacked := takeRecs 1 (l.drop 51)
  let accepted := takeRecs 1 sacked.2
  let refusals := takeRecs 3 accepted.2
  let reads := takeRecs 5 refusals.2
  let atomics := takeRecs 3 reads.2
  let recv := takeRecs 6 atomics.2
  let imms := takeRecs 2 recv.2
  let ops := opsOfNats (imms.2.headD 0) imms.2.tail
  ({ Qp.none with
      state := qpStateOf (g 0)
      saved := qpStateOf (g 1)
      sq := g 2, rcq := g 3, rbase := g 4, rlog2n := g 5, rlog2sz := g 6, ctx := BitVec.ofNat 20 (g 7)
      rrpt := g 8, port := g 9, tc := g 10, mtu := g 11, raddr := BitVec.ofNat 128 (g 12)
      laddr := BitVec.ofNat 128 (g 13), nhmac := BitVec.ofNat 48 (g 14), rqpn := g 15
      vmask := BitVec.ofNat 8 (g 16), mode := BitVec.ofNat 2 (g 17), tagReq := b 18, tag := b 19
      window := g 20, retry := g 21, ikey := g 22, version := g 23
      connid := BitVec.ofNat 64 (g 24)
      ipsn := p 25, ripsn := p 26, sport := BitVec.ofNat 16 (g 27), passive := b 28
      repSent := b 29, mseq := p 30, mseqIn := p 31, migrating := b 32, drained := b 33
      una := p 34, nxt := p 35, msn := g 36, rate := g 37, rcvNxt := p 38, released := p 39
      enable := g 40
      timer := optOf (g 43) (g 44)
      rnrUntil := optOf (g 45) (g 46)
      connTimer := if g 47 = 1 then some (g 48, g 49, g 50) else none
      sacked := psns sacked.1
      accepted := psns accepted.1
      refusals := refusals.1.map fun x =>
        { first := BitVec.ofNat 32 (x.getD 0 0), count := x.getD 1 0
          status := BitVec.ofNat 8 (x.getD 2 0) }
      reads := reads.1.map fun x =>
        { first := BitVec.ofNat 32 (x.getD 0 0), count := x.getD 1 0
          ctx := BitVec.ofNat 20 (x.getD 2 0), va := x.getD 3 0, len := x.getD 4 0 }
      atomics := atomics.1.map fun x =>
        { psn := BitVec.ofNat 32 (x.getD 0 0), status := BitVec.ofNat 8 (x.getD 1 0)
          prior := BitVec.ofNat 64 (x.getD 2 0) }
      recvDone := recv.1.map fun x =>
        { psn := BitVec.ofNat 32 (x.getD 0 0), kind := x.getD 1 0, cookie := x.getD 2 0
          stop := x.getD 3 0, imm := BitVec.ofNat 32 (x.getD 4 0), ts := x.getD 5 0 }
      imms := imms.1.map fun x => (BitVec.ofNat 32 (x.getD 0 0), x.getD 1 0)
      ops := ops.map Prod.fst }, ops, b 41)

/-- The 512 B of a queue pair's backing store: zero for a number that is no queue pair. -/
def qpBytes (s : State) (k : Nat) : List Byte :=
  if (qp s k).state = .none then List.replicate 512 0
  else (List.range 512).map fun i => (Config.ctxBytes (qpNats s k)).getD i 0

/-- The 32 B of a key-table entry: zero for an index never registered. -/
def keyBytes (e : KeyEntry) : List Byte :=
  if e = KeyEntry.none then List.replicate 32 0
  else
    let b := Config.keyBytes ([natOfBool e.live, e.gen, e.ctx.toNat, e.base, e.length,
      e.rights.toNat] ++ natOpt e.bound)
    (List.range 32).map fun i => b.getD i 0

/-- A key-table entry from its 32 B. -/
def keyOfBytes (bs : List Byte) : KeyEntry :=
  if bs.all fun b => b == 0 then KeyEntry.none
  else
    let l := Config.keyParse bs
    let g (i : Nat) : Nat := l.getD i 0
    { live := g 0 == 1, gen := g 1, ctx := BitVec.ofNat 20 (g 2), base := g 3, length := g 4
      rights := BitVec.ofNat 4 (g 5), bound := optOf (g 6) (g 7) }

/-- Backing stores of a partition (R376). -/
def qpStore (s : State) (p : Nat) : Nat := bits (reg s (ptReg p 0x08)) 12 36 * 4096
def keyStore (s : State) (p : Nat) : Nat := bits (reg s (ptReg p 0x10)) 12 36 * 4096
def storeCap (s : State) (p off : Nat) : Nat :=
  2 ^ min (if off = 0x08 then 22 else 24) (bits (reg s (ptReg p off)) 0 5)

/-- Indices of `n`-byte items from `base` on of which some byte is not zero. -/
def usedItems (s : State) (base n count : Nat) : List Nat :=
  ((s.mem.filter fun e => decide (base ≤ e.1 ∧ e.1 < base + n * count)).map fun e =>
    (e.1 - base) / n).eraseDups

/-- The queue pair that a number's backing store holds. -/
def qpFromStore (s : State) (p n : Nat) : Qp × List (SendOp × List Nat) × Bool :=
  qpOfNats (Config.ctxParse (peek s (qpStore s p + 512 * n) 512))

end Sys2Proof.Machine
end

