-- ==== Sys2Proof/Machine/TwinOps.lean ====
section
/-! DEFINITION. The twin link's frames, the mirror ring, what a command adds to it, and what waits
for the partner (R412 to R418, R421). -/

namespace Sys2Proof.Machine

/-- The twin mirror ring (R415). -/
def tmrRing : Nat := 0x130

/-- Fields of TWIN_PMAP (R430). -/
def pmapMirrored (s : State) (p : Nat) : Bool := (reg s (twinPmap p)).getLsbD 63
def pmapStandby (s : State) (p : Nat) : Bool := (reg s (twinPmap p)).getLsbD 62
def pmapPart (s : State) (p : Nat) : Nat := bits (reg s (twinPmap p)) 48 7

/-- A region of TWIN_RGN: its base, length and partner base, if in force. -/
def twinRegion (s : State) (i : Nat) : Option (Nat × Nat × Nat) :=
  let l := reg s (twinRgnL i)
  let n := bits l 0 16
  if l.getLsbD 63 ∧ n ≠ 0 then
    some (bits l 16 32 * 65536, n * 65536, bits (reg s (twinRgnP i)) 16 32 * 65536)
  else none

/-- Change the twin unit. -/
def modTwin (s : State) (f : Twin → Twin) : State := { s with twin := f s.twin }

/-! Frames. -/

/-- R413: the IV of a frame from this side (or from the partner). -/
def twinIv (own : Bool) (t : Twin) (tx : Nat) : BitVec 96 :=
  let lower := if t.peer = 0 then Config.serialLower else decide (Config.serial.toNat < t.peer.toNat)
  let n := if lower == own then 0 else 1
  BitVec.ofNat 96 (n * 2 ^ 64 + tx % 2 ^ 64)

/-- The authenticated bytes of a frame (R412). -/
def twinBody (kind epoch tx seq ack : Nat) (payload : List Byte) : List Byte :=
  [BitVec.ofNat 8 kind, 1] ++ beBytes 2 payload.length ++ beBytes 4 epoch ++ beBytes 8 tx ++
    beBytes 8 seq ++ beBytes 8 ack ++ payload

/-- The tag of a frame (R413). -/
def twinTag (t : Twin) (own : Bool) (tx : Nat) (body : List Byte) : List Byte :=
  match t.key with
  | none => beBytes 16 (Config.unkeyedTag (twinIv own t tx) body).toNat
  | some k => beBytes 16 (Config.gmac k.k256 k.bytes (twinIv own t tx) body).toNat

/-- The twin unit may send a frame (R414, R423), and, with a key, others than heartbeats. -/
def twinSpeaks (s : State) : Bool := s.twin.link && !s.twin.hbLow
def twinSends (s : State) : Bool := twinSpeaks s && s.twin.key.isSome

/-- Send a frame: it reports what has been received. -/
def sendTwin (s : State) (kind seq : Nat) (payload : List Byte) : State :=
  if !twinSpeaks s then s
  else
    let t := s.twin
    let epoch := if kind = 0x05 then 0 else t.epoch.toNat
    let body := twinBody kind epoch t.tx seq t.rxNext payload
    modTwin s fun t => { t with
      tx := t.tx + 1, wire := body ++ twinTag t true t.tx body
      reported := t.rxNext, reportAt := fdTime s }

/-- The payload of a sequenced frame as it is sent: DATA rereads local memory (R134, R414). -/
def itemPayload (s : State) (x : TwinItem) : List Byte × State :=
  if x.kind = 0x03 then
    let d := readMem s x.pa x.len
    (beBytes 8 x.ppa ++ d.2.1, d.2.2)
  else (x.payload, s)

/-- Send a sequenced frame. -/
def sendItem (s : State) (x : TwinItem) : State :=
  let p := itemPayload s x
  sendTwin p.2 x.kind x.seq p.1

/-- R414: send what has not been sent, at most 2,048 frames being unacknowledged. -/
def flushItems (s : State) : State :=
  if !twinSends s then s
  else
    let due := (s.twin.items.take 2048).filter fun x => !x.sent
    let s1 := due.foldl sendItem s
    modTwin s1 fun t => { t with
      items := (t.items.take 2048).map (fun x => { x with sent := true }) ++ t.items.drop 2048 }

/-- Queue a sequenced frame. -/
def queueItem (s : State) (kind : Nat) (payload : List Byte) (pa ppa len entries : Nat) : State :=
  let t := s.twin
  let x : TwinItem :=
    { seq := t.txNext, kind := kind, payload := payload, pa := pa, ppa := ppa, len := len
      entries := entries, sent := false }
  modTwin s fun t => { t with
    items := t.items ++ [x], txNext := t.txNext + 1
    ackAt := if t.items.isEmpty then fdTime s else t.ackAt }

/-! The mirror ring (R415, R416). -/

/-- An entry: kind 1 CTX, 2 KEY, 3 QPDEL. -/
def tmrEntry (kind part seg id : Nat) (data : List Byte) : List Byte :=
  [BitVec.ofNat 8 kind, 0, BitVec.ofNat 8 part, BitVec.ofNat 8 seg] ++ leBytes 4 id ++
    leBytes 24 0 ++ (data ++ leBytes 32 0).take 32

/-- Write an entry at an index of the mirror ring. -/
def putTmr (s : State) (i : BitVec 32) (bs : List Byte) : State :=
  let x := ring s tmrRing
  let w := writeVa s .fabric fabricUnit x.part x.ctx (slotVa x i) bs
  match w.1 with
  | .error e => ringError w.2 tmrRing (failStatus e) i
  | .ok _ => w.2

/-- An entry with the owner mark of an index (R158). -/
def markTmr (s : State) (i : BitVec 32) (bs : List Byte) : List Byte :=
  setByte bs 1 (BitVec.ofNat 8 (ownerMark (ring s tmrRing).log2sz i))

/-- Write an entry at PROD of the mirror ring. -/
def writeTmr (s : State) (bs : List Byte) : State :=
  modRing (putTmr s (ring s tmrRing).prod bs) tmrRing fun y => { y with prod := y.prod + 1 }

/-- Segments of a queue pair's store. -/
def ctxSegs (bs : List Byte) : List (List Byte) :=
  (List.range 16).map fun i => (bs.drop (32 * i)).take 32

/-- CTX entries of the segments that differ. -/
def ctxEntries (part n : Nat) (old new : List Byte) : List (List Byte) :=
  ((List.range 16).zip ((ctxSegs old).zip (ctxSegs new))).filterMap fun x =>
    if x.2.1 = x.2.2 then none else some (tmrEntry 1 part x.1 n x.2.2)

/-- Keys of a table that two states list. -/
def bothKeys {α : Type} (a b : Table α) : List Nat :=
  a.map Prod.fst ++ (b.map Prod.fst).filter fun k => !(a.any fun x => x.1 == k)

/-- Entries for the queue pairs of mirrored partitions that a command has changed. -/
def qpEntries (s0 s1 : State) : List (List Byte) :=
  (bothKeys s0.qps s1.qps).flatMap fun k =>
    let p := qpPart k
    if !mirrored s1 p then []
    else if (qp s1 k).state = .none then
      (if (qp s0 k).state = .none then [] else [tmrEntry 3 (pmapPart s1 p) 0 (qpNum k) []])
    else if qpNats s0 k = qpNats s1 k then []
    else ctxEntries (pmapPart s1 p) (qpNum k) (qpBytes s0 k) (qpBytes s1 k)

/-- Entries for the keys of mirrored partitions that a command has changed. -/
def keyEntries (s0 s1 : State) : List (List Byte) :=
  (bothKeys s0.keys s1.keys).filterMap fun k =>
    let p := k / 2 ^ 24
    if mirrored s1 p ∧ tget KeyEntry.none s0.keys k ≠ tget KeyEntry.none s1.keys k then
      some (tmrEntry 2 (pmapPart s1 p) 0 (k % 2 ^ 24) (keyBytes (tget KeyEntry.none s1.keys k)))
    else none

/-- Queue DELTA frames of 1 to 64 entries; `n` bounds their number. -/
def queueDeltas (s : State) (es : List (List Byte)) (counted : Bool) : Nat → State
  | 0 => s
  | n + 1 =>
    if es.isEmpty then s
    else
      let now := es.take 64
      queueDeltas (queueItem s 0x02 now.flatten 0 0 0 (if counted then now.length else 0))
        (es.drop 64) counted n

/-- The entries of a DELTA frame; `n` bounds their number. -/
def deltaEntries (bs : List Byte) : Nat → List (List Byte)
  | 0 => []
  | n + 1 => if bs.isEmpty then [] else bs.take 64 :: deltaEntries (bs.drop 64) n

/-- Two entries are CTX entries of one segment. -/
def sameSegment (a b : List Byte) : Bool :=
  a.headD 0 == 1 && b.headD 0 == 1 && (a.drop 2).take 6 == (b.drop 2).take 6

/-- R415: the frames with the segment of `e` changed in the one not yet sent that carries it, and its
index behind `i` in the mirror ring where it has one; none where no such frame is. -/
def joinAt (e : List Byte) (i : Nat) : List TwinItem → Option (List TwinItem × Option Nat)
  | [] => none
  | x :: xs =>
    let at_ := if x.sent ∨ x.kind ≠ 0x02 then none
      else (deltaEntries x.payload 64).findIdx? (sameSegment e)
    match at_ with
    | some k =>
      let pos := 64 * k + 32
      some ({ x with payload := x.payload.take pos ++ e.drop 32 ++ x.payload.drop (pos + 32) } :: xs,
        if x.entries = 0 then none else some (i + k))
    | none => (joinAt e (i + x.entries) xs).map fun r => (x :: r.1, r.2)

/-- A destruction of the queue pair that `e` belongs to is among the frames not yet sent. -/
def destroyUnsent (s : State) (e : List Byte) : Bool :=
  s.twin.items.any fun x => !x.sent && x.kind == 0x02 && (deltaEntries x.payload 64).any fun y =>
    y.headD 0 == 3 && y.getD 2 0 == e.getD 2 0 && (y.drop 4).take 4 == (e.drop 4).take 4

/-- R415: an entry is joined with an earlier change of its segment that has not been sent, whose slot of
the mirror ring changes with it. -/
def joinEntry (s : State) (e : List Byte) : Option State :=
  if destroyUnsent s e then none
  else (joinAt e 0 s.twin.items).map fun r =>
    let s1 := modTwin s fun t => { t with items := r.1 }
    match r.2 with
    | none => s1
    | some k =>
      let i := (ring s tmrRing).cons + BitVec.ofNat 32 k
      putTmr s1 i (markTmr s i e)

/-- Mirror entries (R415): those joined with earlier ones, and the rest in new slots and frames. -/
def mirrorEntries (s : State) (es : List (List Byte)) : State :=
  let step (a : State × List (List Byte)) (e : List Byte) : State × List (List Byte) :=
    match joinEntry a.1 e with
    | some s => (s, a.2)
    | none =>
      let b := markTmr a.1 (ring a.1 tmrRing).prod e
      (writeTmr a.1 b, a.2 ++ [b])
  let r := es.foldl step (s, [])
  queueDeltas r.1 r.2 true (r.2.length + 1)

/-- Mirror what a command has changed. -/
def mirrorChanges (s0 s1 : State) : State :=
  if !mirroring s1 then s1 else mirrorEntries s1 (qpEntries s0 s1 ++ keyEntries s0 s1)

/-- DATA frames of at most 4,096 B for bytes placed at `pa` (R416). -/
def queueData (s : State) (pa ppa len : Nat) : Nat → State
  | 0 => s
  | n + 1 =>
    if len = 0 then s
    else
      let l := min len 4096
      queueData (queueItem s 0x03 [] pa ppa l 0) (pa + l) (ppa + l) (len - l) n

/-- Mirror bytes that the transport has placed at a physical address. -/
def mirrorData (s : State) (pa len : Nat) : State :=
  if !mirroring s then s
  else
    (List.range 16).foldl (fun s i =>
      match twinRegion s i with
      | none => s
      | some (base, size, ppa) =>
        let lo := max base pa
        let hi := min (base + size) (pa + len)
        if lo < hi then queueData s lo (ppa + (lo - base)) (hi - lo) (len / 4096 + 2) else s) s

/-! What waits for the partner (R417). -/

/-- Frames and completions that a command has made wait for the frames queued so far; those of
partitions not mirrored do not wait. -/
def stampHold (s : State) : State :=
  let n := s.twin.txNext
  let frame (f : TxFrame) : TxFrame :=
    if f.hold.isSome then f
    else { f with hold := some (match f.body with
      | .pkt p => if mirrored s (qpPart p.qp) then n else 0
      | .raw _ => 0) }
  let s1 := { s with ports := s.ports.map fun x => (x.1, { x.2 with
    txq := x.2.txq.map frame, waiting := x.2.waiting.map frame }) }
  modTwin s1 fun t => { t with held := t.held.map fun h =>
    if h.hold.isSome then h else { h with hold := some n } }

/-- Deliver a held completion. -/
def deliverHeld (s : State) (h : HeldDone) : State :=
  match h.cq with
  | some q => cqTake s q h.item
  | none => if h.item.counts then modRing s h.item.ring fun x => { x with ccnt := x.ccnt + 1 } else s

/-- A wait is over: every frame up to it is acknowledged, or the mirror is not in force. -/
def holdOver (s : State) (h : Option Nat) : Bool :=
  !mirroring s || (match h with | none => false | some n => decide (n ≤ s.twin.ackIn))

/-- Deliver the held completions whose wait is over, in order. -/
def releaseHeld (s : State) : State :=
  let done := s.twin.held.filter fun h => holdOver s h.hold
  let s1 := modTwin s fun t => { t with held := t.held.filter fun h => !holdOver s h.hold }
  done.foldl deliverHeld s1

/-- What ends every command of the transport: what it changed is mirrored and sent. -/
def mirrorDone (s0 s1 : State) : State :=
  releaseHeld (stampHold (flushItems (mirrorChanges s0 s1)))

/-- Complete an AQ entry whose effect is mirrored (R417). -/
def completeMirrored (s : State) (p r : Nat) (e : RingEntry) (st : BitVec 8) (d0 d1 : Word) : State :=
  if mirrored s p then
    let x := ring s r
    let it : CqItem :=
      { ring := r, counts := true, bytes := cqBytes (entryCookie e) st r 0 d0 d1
        write := x.bindEn && !(entryNoCqe e && st == 0) }
    let s1 := modRing s r fun y => { y with
      started := y.started.filter fun z => z.index != e.index }
    let h : HeldDone := { hold := none, cq := if x.bindEn then some x.target else none, item := it }
    modTwin s1 fun t => { t with held := t.held ++ [h] }
  else completeEntry s r e st 0 d0 d1

/-- R421: leaving SYNCING or PAIRED: unsent entries are discarded, and what was held goes on. -/
def leavePair (s : State) (new : TwinState) : State :=
  let s1 := modTwin s fun t => { t with state := new, items := [] }
  let s2 := modRing s1 tmrRing fun x => { x with cons := x.prod }
  let s3 := { s2 with ports := s2.ports.map fun x => (x.1, { x.2 with
    txq := x.2.txq.map fun f => { f with hold := some 0 }
    waiting := x.2.waiting.map fun f => { f with hold := some 0 } }) }
  releaseHeld s3

/-- The state code (R421). -/
def twinCode (x : TwinState) : Nat :=
  match x with
  | .unpaired => 0 | .syncing => 1 | .paired => 2 | .alone => 3 | .survivor => 4

end Sys2Proof.Machine
end

