-- ==== Sys2Proof/Machine/XptArrive.lean ====
section
/-! DEFINITION. What an arriving transport packet does: the steps of R189, requests at their target,
responses and answers at their sender (R189, R195, R207, R212 to R216, R224 to R237, R240). -/

namespace Sys2Proof.Machine

/-! Entry to RTS (R196, R202, R245). -/

/-- R245: the rate of a queue pair that enters RTS or has migrated: RINIT, srtt unset, and no round
begun. -/
def freshRate (s : State) (q : Qp) : Qp :=
  { q with srtt := none, rate := rinitOf s q.port, roundEnd := none, roundMin := none }

/-- A queue pair as it enters RTS. -/
def rtsQp (s : State) (q : Qp) : Qp :=
  { quietQp (freshRate s q) with
    state := .rts, una := q.ipsn, nxt := q.ipsn, rcvNxt := q.ripsn, accepted := [], refusals := []
    reads := [], atomics := [], recvDone := [], imms := [], released := 0, msn := 0, enable := 0
    nextSend := portTime s q.port, lastTagged := portTime s q.port + 1, mseq := 0, mseqIn := 0 }

/-- A queue pair enters RTS: QP_CONNECTED. -/
def enterRts (s : State) (k : Nat) : State :=
  let s1 := modQp s k (rtsQp s)
  let q := qp s1 k
  qpEvent s1 k 0x20 (q.version * 2 ^ 32) q.rqpn

/-! Steps 3 to 5 of R189. -/

/-- A queue pair's answer of REP is out: it takes the RTU or the first request (R202). -/
def repOut (q : Qp) : Bool := q.repSent && (q.state == .listen || q.state == .connecting)

/-- R195: the state accepts a packet. -/
def stateAccepts (q : Qp) (h : Pth) : Bool :=
  match q.state with
  | .rts => true
  | .drain => true
  | .listen => h.op == 0x20 || (repOut q && (isConnOp h.op || (isRequestOp h.op && h.psn == q.ripsn)))
  | .connecting => isConnOp h.op || (repOut q && isRequestOp h.op && h.psn == q.ripsn)
  | _ => false

/-- What a packet's handler is. -/
abbrev Handler := State → Nat → Arrival → Pth → List Byte → State

/-- What is done about a packet whose FCS or tag is wrong, beside dropping it (R267). -/
abbrev BadHandler := State → Nat → Pth → List Byte → State

/-- Nothing more is done. -/
def justDrop : BadHandler := fun s _ _ _ => s

/-- Steps 3 to 5 of R189 for a packet whose context is cached, then its handler. -/
def processPkt (s : State) (k : Nat) (p : Arrival) (h : Pth) (payload tag : List Byte) (f : Handler)
    (onBad : BadHandler) : State :=
  let q := qp s k
  if p.bad then (if stateAccepts q h ∧ h.ver = q.version then onBad s k h payload else s)
  else if !stateAccepts q h then bump s xptDrop 32 16 1
  else if isConnOp h.op then f (fkTouch s k) k p h payload
  else if h.ver ≠ q.version then bump s xptDrop 16 16 1
  else
    let c := checkTag s k h p.toPacket tag
    if !c.1 then onBad c.2 k h payload
    else
      let s1 := fkTouch c.2 k
      f (if (qp s1 k).state = .rts ∨ (qp s1 k).state = .drain then s1 else enterRts s1 k) k p h payload

/-- An arrived packet is an answer for a queue pair. -/
def answerFor (s : State) (k : Nat) (a : Arrival) : Bool :=
  match parsePth a.bytes, targetPart s a.toPacket with
  | some (h, _, _), some part => isAnswerOp h.op && qpKey part h.qpn == k
  | _, _ => false

/-- R232: an answer has arrived before this one and is not yet processed. -/
def answerAhead (s : State) (k : Nat) (a : Arrival) : Bool :=
  (s.arrived.takeWhile (· != a)).any (answerFor s k)

/-- R418: an answer or a connection message changes the context, and waits while the mirror ring is
full. -/
def answerWaits (s : State) (k : Nat) (h : Pth) : Bool :=
  (isAnswerOp h.op || (0x20 ≤ h.op && h.op < 0x30)) && mirrorFull s (qpPart k)

/-- An arrival command: the packet has passed steps 1 and 2, and is of the command's opcode. Answers are
processed in the order in which they came (R232). -/
def arriveWith (op : Nat) (f : Handler) (onBad : BadHandler) (p : Packet) (s : State) : State :=
  match s.arrived.find? fun a => a.toPacket == p with
  | none => s
  | some a =>
    if s.err.fatal then s
    else match parsePth p.bytes, targetPart s p with
    | some (h, payload, tag), some part =>
      let k := qpKey part h.qpn
      if h.op ≠ op ∨ (isAnswerOp h.op ∧ answerAhead s k a) ∨ answerWaits s k h then s
      else
        let s1 := { s with arrived := s.arrived.erase a }
        if fkCached s1 k then processPkt s1 k a h payload tag f onBad
        else if a.bad then s1 else missPacket s1 k a
    | _, _ => { s with arrived := s.arrived.erase a }

/-- An arrival command of a packet that is dropped where a check fails. -/
def arrive (op : Nat) (f : Handler) (p : Packet) (s : State) : State := arriveWith op f justDrop p s

/-! Placement and receive completions. -/

/-- Write bytes over the chunks of a placement, mirrored where they fall into a region (R416). -/
def placeChunks (s : State) : List (Nat × Nat) → List Byte → State
  | [], _ => s
  | (pa, l) :: cs, bs => placeChunks (mirrorData (writeMem s pa (bs.take l)) pa l) cs (bs.drop l)

/-- Place a packet's bytes in a partition's virtual memory. -/
def place (s : State) (p : Nat) (c : BitVec 20) (va : Nat) (bs : List Byte) :
    Except MemFail Unit × State :=
  let r := chunks s .fabric fabricUnit p c va bs.length true (pageSpan va bs.length)
  match r.1 with
  | .error e => (.error e, r.2)
  | .ok cs => (.ok (), placeChunks r.2 cs bs)

/-- Insert a completion by its place behind rcv_nxt, oldest first. -/
def insertRecv (base : BitVec 32) (d : RecvDone) : List RecvDone → List RecvDone
  | [] => [d]
  | x :: xs =>
    if (base - x.psn).toNat < (base - d.psn).toNat then d :: x :: xs else x :: insertRecv base d xs

/-- The target offset where the message of a WRITE_IMM began. -/
def immStart (q : Qp) (d : RecvDone) : Nat :=
  let ps := q.imms.filter fun x => decide (psnDiff x.1 d.psn ≤ 0)
  (ps.foldl (fun (a : Option (BitVec 32 × Nat)) x => match a with
    | none => some x
    | some y => if psnDiff y.1 x.1 < 0 then some x else some y) none).elim d.stop Prod.snd

/-- Length of a received message. -/
def recvLen (q : Qp) (d : RecvDone) : Nat := if d.kind = 1 then d.stop else d.stop - immStart q d

/-- R216: no entry is written of a message of which a packet was refused. -/
def recvFailed (q : Qp) (d : RecvDone) : Bool :=
  let n := max 1 ((recvLen q d + q.mtu - 1) / q.mtu)
  let first := d.psn - BitVec.ofNat 32 (n - 1)
  q.refusals.any fun r => (List.range r.count).any fun i =>
    decide ((r.first + BitVec.ofNat 32 i - first).toNat < n)

/-- Write one receive entry (R216). -/
def recvEntry (s : State) (k : Nat) (d : RecvDone) : State :=
  let q := qp s k
  if recvFailed q d then s
  else cqTake s q.rcq
    { ring := q.sq, counts := false, write := true
      bytes := cqBytes (BitVec.ofNat 64 d.cookie) 0 q.sq (recvLen q d)
        (BitVec.ofNat 64 (d.imm.toNat + 2 ^ 32 * (qpNum k + 2 ^ 24 * q.port + 2 ^ 28 * d.kind)))
        (BitVec.ofNat 64 d.ts) }

/-- R212: the receive entries whose earlier PSNs have all taken effect are written in order. -/
def deliverRecv (s : State) (k : Nat) : State :=
  let q := qp s k
  let ready := (q.recvDone.filter fun d => decide (psnDiff d.psn q.rcvNxt < 0)).foldl
    (fun l d => insertRecv q.rcvNxt d l) []
  let s1 := ready.foldl (fun s d => recvEntry s k d) s
  modQp s1 k fun q => { q with
    recvDone := q.recvDone.filter fun d => decide (0 ≤ psnDiff d.psn q.rcvNxt)
    imms := q.imms.filter fun x => q.recvDone.any (fun d => decide (0 ≤ psnDiff d.psn q.rcvNxt)) ||
      decide (-(2 * qpWindow q : Int) ≤ psnDiff x.1 q.rcvNxt) }

/-! Requests at their target. -/

/-- The classes of R224 for an arriving request: duplicates are answered before the key check; with
the mirror ring full a new request draws RNR (R418). -/
def request (s : State) (k : Nat) (h : Pth) (dup fresh : State → State) : State :=
  let q := qp s k
  match psnClass q h.psn with
  | .outside => bump s xptSrstat 8 8 1
  | .dup =>
    let s1 := bump s xptSrstat 16 16 1
    match q.refusals.find? fun r => decide ((h.psn - r.first).toNat < r.count) with
    | some r => sendNak s1 k r h.ts
    | none => dup s1
  | .new =>
    if mirrorFull s (qpPart k) then sendRnr (bump s twinStat 16 16 1) k h.psn h.ts else fresh s

/-- R207: the key checks up to bounds, for `n` bytes and a right (0 RREAD to 3 RSIG). -/
def keyCheck (s : State) (k : Nat) (h : Pth) (right n : Nat) : Except (BitVec 8) KeyEntry :=
  let p := qpPart k
  let i := (h.key.extractLsb' 0 24).toNat
  let e := memKey s p i
  let boundOk := match e.bound with | none => true | some x => x == qpNum k
  if (partition s p).keyQ ≤ i ∨ !e.live ∨ e.gen ≠ (h.key.extractLsb' 24 8).toNat ∨ !boundOk ∨
      !e.rights.getLsbD right then .error 0x03
  else if e.length < h.off.toNat + n ∨ (2 ≤ right ∧ h.off.toNat % 8 ≠ 0) then .error 0x04
  else .ok e

/-- A request is refused; what its PSNs held back goes on. -/
def refuseReq (s : State) (k : Nat) (h : Pth) (n : Nat) (st : BitVec 8) : State :=
  deliverRecv (refuse s k h n st) k

/-- A request of one packet has taken effect: its PSN is accepted and acknowledged as due. -/
def acceptReq (s : State) (k : Nat) (h : Pth) : State :=
  let d := psnDiff h.psn (qp s k).rcvNxt
  ackTriggers (deliverRecv (modQp s k fun q => acceptPsns q h.psn 1) k) k h d

/-- Place a request's payload: a page that fails refuses it, a host link that is down drops it. -/
def placeReq (s : State) (k : Nat) (h : Pth) (c : BitVec 20) (va : Nat) (bs : List Byte)
    (note : Qp → Qp) : State :=
  let w := place s (qpPart k) c va bs
  match w.1 with
  | .error .hostLost => w.2
  | .error _ => refuseReq w.2 k h 1 0x03
  | .ok _ => acceptReq (modQp w.2 k note) k h

/-- WRITE and WRITE_IMM at their target (R207, R212, R216): one that passes every check and finds its
receive CQ full draws RNR (R231). -/
def onWrite (imm : Bool) : Handler := fun s k p h payload =>
  request s k h (fun s => sendAck s k h.ts) fun s =>
    match keyCheck s k h 1 payload.length with
    | .error st => refuseReq s k h 1 st
    | .ok e =>
      let va := e.base + h.off.toNat
      let c := if imm ∧ cqBlocked s (qp s k).rcq then
          some (chunks s .fabric fabricUnit (qpPart k) e.ctx va payload.length true
            (pageSpan va payload.length))
        else none
      match c with
      | some (.error .hostLost, s1) => s1
      | some (.error _, s1) => refuseReq s1 k h 1 0x03
      | some (.ok _, s1) => sendRnr s1 k h.psn h.ts
      | none =>
        let d : RecvDone :=
          { psn := h.psn, kind := 2, cookie := 0, stop := h.off.toNat + payload.length, imm := h.aux
            ts := p.time }
        placeReq s k h e.ctx va payload fun q =>
          if imm then
            { q with imms := if h.first then q.imms ++ [(h.psn, h.off.toNat)] else q.imms
                     recvDone := if h.last then q.recvDone ++ [d] else q.recvDone }
          else q

/-- The release word of a receive area is read again (R214). -/
def readRelease (s : State) (k : Nat) : State :=
  let q := qp s k
  let r := readVa s .fabric fabricUnit (qpPart k) q.ctx q.rrpt 8
  match r.1 with
  | .ok bs => setQp r.2 k { q with released := BitVec.ofNat 32 (leNat (bs.take 4)) }
  | .error _ => r.2

/-- The slot of a message number is in use (R214). -/
def slotBusy (q : Qp) (m : BitVec 32) : Bool := decide (2 ^ q.rlog2n ≤ (m - q.released).toNat)

/-- SEND at its target (R214, R216). -/
def onSend : Handler := fun s k p h payload =>
  request s k h (fun s => sendAck s k h.ts) fun s =>
    let q := qp s k
    if q.rbase = 0 ∨ 2 ^ q.rlog2sz < h.off.toNat + payload.length then refuseReq s k h 1 0x04
    else
      let s := if slotBusy q h.key then readRelease s k else s
      let q := qp s k
      if slotBusy q h.key ∨ cqBlocked s q.rcq then sendRnr s k h.psn h.ts
      else
        let d : RecvDone :=
          { psn := h.psn, kind := 1, cookie := h.key.toNat, stop := h.off.toNat + payload.length
            imm := h.aux, ts := p.time }
        placeReq s k h q.ctx
          (q.rbase + h.key.toNat % 2 ^ q.rlog2n * 2 ^ q.rlog2sz + h.off.toNat) payload fun q =>
            if h.last then { q with recvDone := q.recvDone ++ [d] } else q

/-- Send one response packet of a READ (R191): a poisoned word gives ST_POISON and no bytes. -/
def sendReadResp (s : State) (k : Nat) (r : ReadRec) (i : Nat) : State :=
  let q := qp s k
  let d := readVa s .fabric fabricUnit (qpPart k) r.ctx (r.va + i * q.mtu) (min q.mtu (r.len - i * q.mtu))
  let out (s : State) (st : Nat) (bs : List Byte) : State :=
    queueAnswer s k { Pth.plain q.version 0x05 q.rqpn with
      first := i == 0, last := i + 1 == r.count, ackreq := i + 1 == r.count, psn := r.first + BitVec.ofNat 32 i
      aux := BitVec.ofNat 32 st, off := BitVec.ofNat 64 (i * q.mtu) } bs
  match d.1 with
  | .ok bs => out d.2 0 bs
  | .error (.poison _) => out d.2 0x0D []
  | .error (.xlate _ _) => out d.2 0x03 []
  | .error .hostLost => d.2

/-- Response packets of a READ from index `i` on. -/
def sendReadFrom (s : State) (k : Nat) (r : ReadRec) (i : Nat) : State :=
  ((List.range r.count).drop i).foldl (fun s j => sendReadResp s k r j) s

/-- READ_REQ at its target (R224, R237). -/
def onReadReq : Handler := fun s k _ h _ =>
  let dup (s : State) : State :=
    match (qp s k).reads.find? fun r => decide ((h.psn - r.first).toNat < r.count) with
    | some r => sendReadFrom s k r (h.psn - r.first).toNat
    | none => s
  request s k h dup fun s =>
    let q := qp s k
    let n := max 1 ((h.aux.toNat + q.mtu - 1) / q.mtu)
    match keyCheck s k h 0 h.aux.toNat with
    | .error st => refuseReq s k h n st
    | .ok e =>
      let r : ReadRec := { first := h.psn, count := n, ctx := e.ctx, va := e.base + h.off.toNat
                           len := h.aux.toNat }
      let c := chunks s .fabric fabricUnit (qpPart k) e.ctx r.va r.len false (pageSpan r.va r.len)
      match c.1 with
      | .error .hostLost => c.2
      | .error _ => refuseReq c.2 k h n 0x03
      | .ok _ =>
        let s1 := sendReadFrom (modQp c.2 k fun q => { q with reads := q.reads ++ [r] }) k r 0
        deliverRecv (modQp s1 k fun q => acceptPsns q h.psn n) k

/-- Send an atomic's response. -/
def sendAtomicResp (s : State) (k : Nat) (a : AtomicRec) : State :=
  let q := qp s k
  queueAnswer s k { Pth.plain q.version 0x08 q.rqpn with
    first := true, last := true, ackreq := true, psn := a.psn, aux := a.status.setWidth 32 } (beBytes 8 a.prior.toNat)

/-- R226: an atomic is logged, in place of the oldest once the log holds 16. -/
def logAtomic (q : Qp) (r : AtomicRec) : Qp :=
  { q with atomics := (q.atomics ++ [r]).drop (q.atomics.length - 15) }

/-- R226: the log is read in the backing store, next to the context. A log that is lost, or poisoned,
gives no answer (log entry 73). -/
def readLog (s : State) (k : Nat) (f : State → State) : State :=
  let pa := qpStore s (qpPart k) + 512 * qpNum k + 256
  if regionOf pa = .hostMem ∧ !s.linkUp then s
  else
    let m := readMem s pa 256
    if m.1 then m.2.2 else f m.2.2

/-- An atomic at its target (R207, R213, R226): `f` gives the word's new value. -/
def onAtomic (f : List Byte → Word → Word) : Handler := fun s k _ h payload =>
  let dup (s : State) : State :=
    match (qp s k).atomics.find? fun a => a.psn == h.psn with
    | some a => readLog s k fun s => sendAtomicResp s k a
    | none => s
  request s k h dup fun s =>
    match keyCheck s k h 2 8 with
    | .error st => refuseReq s k h 1 st
    | .ok e =>
      let va := e.base + h.off.toNat
      let w := frameOf s fabricUnit (qpPart k) e.ctx va
      if w.1.any fun pa => regionOf pa == .hostMem then refuseReq w.2 k h 1 0x04
      else
        let a := access w.2 .fabric fabricUnit (qpPart k) e.ctx va true
        match a.1 with
        | .error _ => refuseReq a.2 k h 1 0x03
        | .ok pa =>
          let m := readMem a.2 pa 8
          let old : Word := BitVec.ofNat 64 (leNat m.2.1)
          let r : AtomicRec := { psn := h.psn, status := if m.1 then 0x0D else 0
                                 prior := if m.1 then 0 else old }
          let s1 := if m.1 then m.2.2
            else mirrorData (writeMem m.2.2 pa (leBytes 8 (f payload old).toNat)) pa 8
          let s2 := sendAtomicResp (modQp s1 k fun q => logAtomic q r) k r
          acceptReq s2 k h

/-- ATOMIC_FADD's new value. -/
def faddValue (payload : List Byte) (old : Word) : Word := old + BitVec.ofNat 64 (beField payload 0 8)

/-- ATOMIC_CAS's new value: compare, then swap. -/
def casValue (payload : List Byte) (old : Word) : Word :=
  if old = BitVec.ofNat 64 (beField payload 0 8) then BitVec.ofNat 64 (beField payload 8 8) else old

/-- SIGNAL at its target (R151, R207). -/
def onSignal : Handler := fun s k _ h payload =>
  request s k h (fun s => sendAck s k h.ts) fun s =>
    match keyCheck s k h 3 8 with
    | .error st => refuseReq s k h 1 st
    | .ok e =>
      let a := access s .sync fabricUnit (qpPart k) e.ctx (e.base + h.off.toNat) true
      match a.1 with
      | .error _ => refuseReq a.2 k h 1 0x03
      | .ok pa =>
        if regionOf pa ≠ .syncObj then refuseReq a.2 k h 1 0x03
        else
          let r := signalObj a.2 (qpPart k) e.ctx false (syncIndex pa)
            (BitVec.ofNat 64 (beField payload 0 8))
          if r.1 = .applied then acceptReq r.2 k h else refuseReq r.2 k h 1 (sigStatus r.1)

/-- ENABLE at its target (R218). -/
def onEnable : Handler := fun s k _ h _ =>
  request s k h (fun s => sendAck s k h.ts) fun s =>
    if 65535 < (qp s k).enable + h.aux.toNat then refuseReq s k h 1 0x04
    else acceptReq (modQp s k fun q => { q with enable := q.enable + h.aux.toNat }) k h

/-! Responses and answers at the sender. -/

/-- PSNs from `a`, `n` of them. -/
def psnRun (a : BitVec 32) (n : Nat) : List (BitVec 32) :=
  (List.range n).map fun i => a + BitVec.ofNat 32 i

/-- R232: what a sender does once PSNs are done. -/
def afterDone (s : State) (k : Nat) : State := settleOps (checkRound s k) k

/-- Mark PSNs as done. -/
def doneAt (s : State) (k : Nat) (ps : List (BitVec 32)) : State :=
  modQp s k fun q => markDone q (portTime s q.port) ps

/-- R233, R237: PSNs that a SACK up to `top` shows to be lost: of a READ, the first one missing. -/
def sackLost (s : State) (q : Qp) (top : BitVec 32) : List (BitVec 32) :=
  let now := portTime s q.port
  let span := (psnDiff top q.una - (max 1 (bits (reg s xptSr) 16 8) : Nat) + 1).toNat
  let due (p : BitVec 32) : Bool :=
    !psnDone q p && (match q.sackSent.find? fun x => x.1 == p with
      | none => true
      | some x => decide (rtoOf s q ≤ ((now - x.2 : Nat) : Rat)))
  let lead (p : BitVec 32) : Bool :=
    match ownerOp q p with
    | some o => o.op != 0x04 || (psnRun (o.first.getD p) (p - o.first.getD p).toNat).all (psnDone q)
    | none => false
  (psnRun q.una span).filter fun p => due p && lead p

/-- Retransmit what a SACK up to `top` shows to be lost. -/
def sackLoss (s : State) (k : Nat) (top : BitVec 32) : State :=
  (sackLost s (qp s k) top).foldl (fun s p =>
    if (qp s k).state = .rts ∨ (qp s k).state = .drain then
      loseP (modQp s k fun q => { q with
        sackSent := q.sackSent.filter (fun x => x.1 != p) ++ [(p, portTime s q.port)] }) k p
    else s) s

/-- SACK blocks of an answer: of the header, then of the payload (R229). -/
def sackBlocks (h : Pth) (payload : List Byte) : List (Nat × Nat) :=
  let hd := (bits h.off 48 16, bits h.off 32 16)
  ((hd :: (List.range (payload.length / 4)).map fun i =>
    (beField payload (4 * i) 2, beField payload (4 * i + 2) 2)).filter fun b => b.2 != 0)

/-- R232: an answer that reaches beyond snd_nxt. -/
def answerBad (q : Qp) (ack : BitVec 32) (blocks : List (Nat × Nat)) : Bool :=
  decide (0 < psnDiff ack q.nxt) ||
    blocks.any fun b => decide (0 < psnDiff (ack + BitVec.ofNat 32 (b.1 + b.2)) q.nxt)

/-- PSNs that ackpsn covers: of READs and atomics only their responses end them (R237). -/
def coveredBy (q : Qp) (ack : BitVec 32) : List (BitVec 32) :=
  (psnRun q.una (psnDiff ack q.una).toNat).filter fun p => !needsResponse q p

/-- An answer's echo and ackpsn are used (R232, R234). -/
def takeAnswer (s : State) (k : Nat) (h : Pth) : State :=
  let s1 := modQp s k fun q => sampleRtt q (portTime s q.port) h.aux
  doneAt s1 k (coveredBy (qp s1 k) h.key)

/-- ACK at the sender (R232, R233). -/
def onAck : Handler := fun s k _ h payload =>
  let blocks := sackBlocks h payload
  if answerBad (qp s k) h.key blocks then bump s xptSrstat 0 8 1
  else
    let s1 := takeAnswer s k h
    let q := qp s1 k
    let ps := blocks.flatMap fun b =>
      (psnRun (h.key + BitVec.ofNat 32 b.1) b.2).filter fun p =>
        !needsResponse q p && decide (0 ≤ psnDiff p q.una)
    let s2 := afterDone (doneAt s1 k ps) k
    match blocks.getLast? with
    | none => s2
    | some b => sackLoss s2 k (h.key + BitVec.ofNat 32 (b.1 + b.2 - 1))

/-- NAK at the sender (R230, R232). -/
def onNak : Handler := fun s k _ h _ =>
  let n := bits h.off 32 16
  let run := psnRun (h.key + BitVec.ofNat 32 (bits h.off 48 16)) n
  if answerBad (qp s k) h.key [(bits h.off 48 16, n)] then bump s xptSrstat 0 8 1
  else
    let s1 := takeAnswer s k h
    let st : BitVec 8 := BitVec.ofNat 8 (bits h.off 24 8)
    let live := run.filter fun p => !psnDone (qp s1 k) p
    let s2 := live.foldl (fun s p =>
      match ownerOp (qp s k) p with
      | some o => if o.src = .none then s else failOp s k o st
      | none => s) s1
    afterDone (doneAt s2 k live) k

/-- RNR at the sender (R231, R236): sending pauses, and then goes on from the first refused PSN. -/
def onRnr : Handler := fun s k _ h _ =>
  let start := bits h.off 48 16
  if answerBad (qp s k) h.key [(start, 1)] then bump s xptSrstat 0 8 1
  else
    let s1 := takeAnswer s k h
    let p := h.key + BitVec.ofNat 32 start
    let q := qp s1 k
    let n := ((q.rnrs.find? fun x => x.1 == p).map Prod.snd).getD 0 + 1
    let tries := bits (reg s1 xptRnr) 16 8
    let until_ := portTime s1 q.port + usTicks (max 1 (bits h.off 0 16))
    let s2 := setQp s1 k { q with
      rnrPsn := if q.rnrUntil.isSome ∧ psnDiff q.rnrPsn p < 0 then q.rnrPsn else p
      rnrCount := n, rnrs := (p, n) :: q.rnrs.filter fun x => x.1 != p
      rnrUntil := some (max until_ (q.rnrUntil.getD 0)) }
    if psnDone q p then afterDone s1 k
    else if tries ≠ 0 ∧ tries ≤ n then retryExceeded s2 k p
    else afterDone s2 k

/-- Put a response's bytes where the operation wants them: a thread's are kept for it. -/
def placeResp (s : State) (k : Nat) (o : SendOp) (at_ : Nat) (bs : List Byte) :
    Except MemFail Unit × State × SendOp :=
  match o.src with
  | .thread _ _ =>
    let d := o.data.getD (List.replicate o.len 0)
    (.ok (), s, { o with data := some (d.take at_ ++ bs ++ d.drop (at_ + bs.length)) })
  | .mover c id =>
    match findDesc s c id with
    | none => (.ok (), s, o)
    | some d =>
      let w := lineWrite s d (descDloc d) (descDst d + at_) bs.length (some bs)
      (match w.1 with
        | .ok _ => .ok ()
        | .error (.xlate e va _) => .error (.xlate e va)
        | .error .hostLost => .error .hostLost, w.2, o)
  | _ =>
    if o.laddr = 0 ∧ o.op ≠ 0x04 then (.ok (), s, o)
    else
      let w := writeVa s .fabric fabricUnit (qpPart k) o.ctx (o.laddr + at_) bs
      (w.1, w.2, o)

/-- A response for PSN `p` of operation `o` (R215, R237): its bytes are placed, or it fails. -/
def takeResp (s : State) (k : Nat) (o : SendOp) (p : BitVec 32) (st : BitVec 8) (at_ : Nat)
    (bs : List Byte) (result : Word) : State :=
  if o.stalled ∨ psnDone (qp s k) p then s
  else if o.src = .none then afterDone (doneAt s k [p]) k
  else if st ≠ 0 then afterDone (doneAt (failOp s k o st) k [p]) k
  else
    let w := placeResp s k o at_ bs
    match w.1 with
    | .error (.xlate c va) => stallOp w.2.1 k o c va true
    | .error .hostLost => afterDone (doneAt (failOp w.2.1 k o 0x08) k [p]) k
    | .error (.poison _) => w.2.1
    | .ok _ =>
      let i := (p - o.first.getD p).toNat
      let s1 := putSend w.2.1 k o { w.2.2 with got := insertNat i o.got, result := result }
      sackLoss (afterDone (doneAt s1 k [p]) k) k p

/-- READ_RESP at the requester (R191, R237). -/
def onReadResp : Handler := fun s k _ h payload =>
  match ownerOp (qp s k) h.psn with
  | some o => if o.op = 0x04 then
      takeResp s k o h.psn (h.aux.setWidth 8) h.off.toNat (payload.take (o.len - h.off.toNat)) 0 else s
  | none => s

/-- ATOMIC_RESP at the requester (R213, R215). -/
def onAtomicResp : Handler := fun s k _ h payload =>
  match ownerOp (qp s k) h.psn with
  | some o => if o.op = 0x06 ∨ o.op = 0x07 then
      let v : Word := BitVec.ofNat 64 (beField payload 0 8)
      let bs := match o.src with | .thread _ _ => [] | _ => leBytes 8 v.toNat
      takeResp s k o h.psn (h.aux.setWidth 8) 0 bs v else s
  | none => s

end Sys2Proof.Machine
end

