-- ==== Sys2Proof/Machine/BushelOps.lean ====
section
/-! DEFINITION. Bushel: the shape of a group, its packets, the checks on an entry, the rings, the tree,
custom operators, completion, taint and abort (R248 to R271). -/

namespace Sys2Proof.Machine

/-! CRC-32C (R262). -/

/-- One bit of the reflected CRC. -/
def crcBit (c : BitVec 32) : BitVec 32 :=
  if c.getLsbD 0 then (c >>> 1) ^^^ 0x82F63B78#32 else c >>> 1

/-- One byte of the CRC. -/
def crcByte (c : BitVec 32) (b : Byte) : BitVec 32 :=
  (List.range 8).foldl (fun c _ => crcBit c) (c ^^^ b.setWidth 32)

/-- CRC-32C of a list of bytes. -/
def crc32c (bs : List Byte) : BitVec 32 := (bs.foldl crcByte (BitVec.allOnes 32)) ^^^ BitVec.allOnes 32

/-! Groups and their shape (R248, R259). -/

/-- A member by group id. -/
def bshGroup (s : State) (g : Nat) : BshGroup := tget BshGroup.none s.bushel g
def setBsh (s : State) (g : Nat) (x : BshGroup) : State :=
  { s with bushel := tset BshGroup.none s.bushel g x }
def modBsh (s : State) (g : Nat) (f : BshGroup → BshGroup) : State := setBsh s g (f (bshGroup s g))

/-- Members of a group, and along an axis. -/
def bshSize (g : BshGroup) : Nat := g.nx * g.ny * g.nz
def bshDim (g : BshGroup) (a : Nat) : Nat :=
  match a with
  | 0 => g.nx | 1 => g.ny | _ => g.nz

/-- Coordinate of a rank along an axis, and the rank of coordinates. -/
def bshCoord (g : BshGroup) (r a : Nat) : Nat :=
  match a with
  | 0 => r % g.nx | 1 => r / g.nx % g.ny | _ => r / (g.nx * g.ny)
def bshStride (g : BshGroup) (a : Nat) : Nat :=
  match a with
  | 0 => 1 | 1 => g.nx | _ => g.nx * g.ny

/-- The rank across a direction: 0 X-, 1 X+, 2 Y-, 3 Y+, 4 Z-, 5 Z+. -/
def bshNeighbour (g : BshGroup) (r d : Nat) : Nat :=
  let a := d / 2
  let n := bshDim g a
  let c := bshCoord g r a
  let c' := if d % 2 = 1 then (c + 1) % n else (c + n - 1) % n
  r - c * bshStride g a + c' * bshStride g a

/-- The direction toward the root; none at the root (R259). -/
def bshParent (g : BshGroup) (root r : Nat) : Option Nat :=
  ((List.range 3).find? fun a => bshCoord g r a != bshCoord g root a).map fun a =>
    let n := bshDim g a
    let c := (bshCoord g r a + n - bshCoord g root a) % n
    if c ≤ n / 2 then 2 * a else 2 * a + 1

/-- The directions in which members below lie. -/
def bshChildren (g : BshGroup) (root r : Nat) : List Nat :=
  (List.range 6).filter fun d => decide (2 ≤ bshDim g (d / 2)) &&
    bshParent g root (bshNeighbour g r d) == some (d ^^^ 1)

/-- Tree neighbours: the parent and the members below. -/
def bshTree (g : BshGroup) (root r : Nat) : List Nat :=
  (bshParent g root r).toList ++ bshChildren g root r

/-- Members in the subtree of a rank; the depth is bounded. -/
def bshCovered (g : BshGroup) (root : Nat) : Nat → Nat → Nat
  | 0, _ => 1
  | n + 1, r =>
    1 + ((bshChildren g root r).map fun d => bshCovered g root n (bshNeighbour g r d)).foldl (· + ·) 0

/-- A bound on the depth of the tree. -/
def bshDepth (g : BshGroup) : Nat := g.nx + g.ny + g.nz

/-- The order in which contributions from below are combined. -/
def bshOrder (g : BshGroup) : List Nat :=
  let cs := bshChildren g 0 g.rank
  let o := ((Config.bshTreeOrder g.nx g.ny g.nz g.rank).filter cs.contains).eraseDups
  o ++ cs.filter fun d => !o.contains d

/-! CMQ entries (R252 to R254). -/

def bshOpr (e : RingEntry) : Nat := entryByte e 3
def bshSrc (e : RingEntry) : Nat := entryField e 0x10 8
def bshDst (e : RingEntry) : Nat := entryField e 0x18 8
def bshCount (e : RingEntry) : Nat := entryField e 0x20 4
def bshFin (e : RingEntry) : Nat := entryByte e 0x24 % 16
def bshFout (e : RingEntry) : Nat := entryByte e 0x24 / 16
def bshChain (e : RingEntry) : Bool := entryByte e 0x25 % 2 == 1
def bshExpin (e : RingEntry) : Bool := entryByte e 0x25 / 2 % 2 == 1
def bshAllqp (e : RingEntry) : Bool := entryByte e 0x25 / 4 % 2 == 1
def bshRoot (e : RingEntry) : Nat := entryField e 0x26 2
def bshSync (e : RingEntry) : Nat := entryField e 0x28 8
def bshSigcnt (e : RingEntry) : Nat := entryField e 0x30 4
def bshEmax (e : RingEntry) : Nat := entryField e 0x34 4
def bshDlen (e : RingEntry) : Nat := entryField e 0x38 8
def bshExt (e : RingEntry) : List Byte := (e.bytes.drop 64).take 64

/-- A FOIR reduction, and a custom operator. -/
def bshFoir (e : RingEntry) : Bool := entryOpcode e == 0x20 && (bshOpr e == 3 || bshOpr e == 4)
def bshCustom (e : RingEntry) : Bool := entryOpcode e == 0x20 && decide (16 ≤ bshOpr e ∧ bshOpr e < 64)

/-- A format by its code, where the wire may carry it. -/
def wireFmt (c : Nat) : Option Fmt :=
  match fmtOfCode (BitVec.ofNat 4 c) with
  | some f => if fmtIsMx f then none else some f
  | none => none

/-- Bytes of an element of a format code that the wire may carry. -/
def fmtBytes (c : Nat) : Nat := ((wireFmt c).map fun f => fmtWidth f / 8).getD 1

/-- R27: bits of an element of a format code, without the shared scale of an MX format (log entry 75). -/
def fmtBits (c : Nat) : Nat := ((fmtOfCode (BitVec.ofNat 4 c)).map fmtWidth).getD 8

/-- Bytes of `n` elements of a format code, and the elements of so many bytes. -/
def spanBytes (c n : Nat) : Nat := n * fmtBits c / 8
def spanElems (c len : Nat) : Nat := len * 8 / fmtBits c

/-- Format code of partial results on the wire (R254). -/
def bshWire (e : RingEntry) : Nat :=
  if entryOpcode e = 0x26 then 0
  else if (entryOpcode e = 0x20 ∨ entryOpcode e = 0x24) ∧ bshOpr e = 0 then bshFout e
  else if bshFoir e then (if bshOpr e = 3 then 0xE else 0xF)
  else bshFin e

/-- BSH_OP_PROG and BSH_OP_CTL of a slot (R271). -/
def bshProg (s : State) (k : Nat) : Word := reg s (0x0301000 + 16 * k)
def bshOpCtl (s : State) (k : Nat) : Word := reg s (0x0301008 + 16 * k)

/-- R254, R257, R271: the operator of an entry accepts its formats. -/
def bshOprOk (s : State) (e : RingEntry) : Bool :=
  let i := bshFin e
  let o := bshFout e
  let float := i == 0 || i == 1 || i == 2
  match bshOpr e with
  | 0 => decide (i ≤ 4) && (o == i || (o == 0 && (i == 1 || i == 2)))
  | 1 => decide (i ≤ 4) && o == i
  | 2 => decide (i ≤ 4) && o == i
  | 3 => float && (decide (o ≤ 2) || o == 0xE)
  | 4 => float && (decide (o ≤ 2) || o == 0xF)
  | k =>
    let c := bshOpCtl s k
    decide (16 ≤ k ∧ k < 64) && c.getLsbD 63 && decide (424 ≤ bits c 48 10 ∧ bits c 48 10 ≤ 512) &&
      decide (1 ≤ bits c 0 11 ∧ bits c 0 11 ≤ 1024) && c.getLsbD (32 + i) && c.getLsbD (16 + o) &&
      (fmtOfCode (BitVec.ofNat 4 i)).isSome && (fmtOfCode (BitVec.ofNat 4 o)).isSome

/-- Bytes of a bitmap of SPARSE_ALL_GATHER, and of one of its blocks (R261). -/
def bshMapLen (e : RingEntry) : Nat := ((bshCount e + 7) / 8 + 63) / 64 * 64
def bshBlock (e : RingEntry) : Nat := 64 * 2 ^ bshOpr e

/-- R253: an entry breaks the table or R252. -/
def bshBad (s : State) (g : BshGroup) (e : RingEntry) : Bool :=
  let op := entryOpcode e
  let c := bshCount e
  let n := bshSize g
  let sin := fmtBits (bshFin e)
  let sout := fmtBits (bshFout e)
  let inl := entryExt e == 1
  let same := bshFin e == bshFout e && (fmtOfCode (BitVec.ofNat 4 (bshFin e))).isSome
  let none_ := c == 0 && bshSrc e == 0 && bshDst e == 0 && entryByte e 0x24 == 0
  decide (8 ≤ entryByte e 0x25) || decide (4096 ≤ bshRoot e) || (op != 0x22 && bshRoot e != 0) ||
  (op != 0x20 && op != 0x24 && op != 0x26 && bshOpr e != 0) ||
  (bshChain e && op != 0x21) || (bshExpin e && !bshFoir e) || (bshAllqp e && op != 0x25) ||
  (!bshExpin e && bshEmax e != 0) || (op != 0x26 && bshDlen e != 0) ||
  (match op with
    | 0x20 => !bshOprOk s e || c * sin % (n * 512) != 0 || c * sout % (n * 512) != 0 ||
        (inl && !bshCustom e)
    | 0x21 => !same || (wireFmt (bshFin e)).isNone || c * sin % (n * 512) != 0 ||
        (inl && (bshSrc e != 0 || decide (512 < c / n * sin))) ||
        (bshChain e && (inl || (match g.last with
          | none => true
          | some l => l.1 != bshSrc e || l.2 != bshFin e)))
    | 0x22 => !same || decide (n ≤ bshRoot e) ||
        (if bshRoot e = g.rank then inl && (bshSrc e != 0 || decide (512 < c * sin))
          else inl || bshSrc e != 0)
    | 0x24 => decide (2 < bshOpr e) || !bshOprOk s e || decide (512 < c * sin) ||
        (inl && bshSrc e != 0)
    | 0x26 => decide (6 < bshOpr e) || decide (c = 0 ∨ 2 ^ 24 < c) || entryByte e 0x24 != 0 ||
        (inl && decide (512 < c))
    | _ => !none_)

/-! Elements. -/

/-- Values of `w`-byte elements. -/
def elemsOf (w : Nat) : Nat → List Byte → List Nat
  | 0, _ => []
  | n + 1, bs => leNat (bs.take w) :: elemsOf w n (bs.drop w)

/-- Map the elements of a byte list from one width to another. -/
def mapElems (wi wo : Nat) (f : Nat → Nat) (bs : List Byte) : List Byte :=
  (elemsOf wi (bs.length / wi) bs).flatMap fun x => leBytes wo (f x)

/-- R46, R254: input bytes in the wire format. -/
def toWire (e : RingEntry) (expo : Int) (bs : List Byte) : List Byte :=
  match wireFmt (bshFin e), wireFmt (bshWire e) with
  | some i, some w =>
    if bshFoir e then
      mapElems (fmtWidth i / 8) (fmtWidth w / 8) (fun x =>
        foirBits (fmtWidth w) (toFoir (fmtWidth w) expo (decodeElem i x))) bs
    else if i = w then bs
    else mapElems (fmtWidth i / 8) (fmtWidth w / 8) (fun x => convertElem i w .rne 0 x) bs
  | _, _ => bs

/-- R48, R256: results in the output format. -/
def fromWire (e : RingEntry) (expo : Int) (bs : List Byte) : List Byte :=
  match wireFmt (bshWire e), wireFmt (bshFout e) with
  | some w, some o =>
    if w = o ∨ entryOpcode e = 0x26 then bs
    else if bshFoir e then
      mapElems (fmtWidth w / 8) (fmtWidth o / 8) (fun x =>
        foirToFloat o (fmtWidth w) expo (foirOfBits (fmtWidth w) x)) bs
    else mapElems (fmtWidth w / 8) (fmtWidth o / 8) (fun x => convertElem w o .rne 0 x) bs
  | _, _ => bs

/-- One call of a built-in operator: op(incoming, local) (R254, R255). -/
def bshCombine (e : RingEntry) (inc loc : Nat) : Nat :=
  match wireFmt (bshWire e) with
  | none => loc
  | some f =>
    match bshOpr e with
    | 0 => addElems f .rne 0 inc loc
    | 1 => pickElems valMax f inc loc
    | 2 => pickElems valMin f inc loc
    | _ => foirBits (fmtWidth f) (foirAdd (fmtWidth f) (foirOfBits (fmtWidth f) inc)
        (foirOfBits (fmtWidth f) loc))

/-- Combine two chunks. -/
def combineBytes (e : RingEntry) (inc loc : List Byte) : List Byte :=
  let w := fmtBytes (bshWire e)
  let n := loc.length / w
  ((elemsOf w n inc).zip (elemsOf w n loc)).flatMap fun x => leBytes w (bshCombine e x.1 x.2)

/-- R45: the largest exponent of the input. -/
def largestExp (e : RingEntry) (bs : List Byte) : Option Int :=
  match wireFmt (bshFin e) with
  | none => none
  | some f =>
    (elemsOf (fmtWidth f / 8) (bs.length / (fmtWidth f / 8)) bs).foldl (fun m x =>
      match m, elemExponent f x with
      | none, y => y
      | y, none => y
      | some a, some b => some (max a b)) none

/-- Exponents on the wire: signed 32 bits, big-endian, -2^31 for none (R263). -/
def expBytes (x : Option Int) : List Byte := beBytes 4 (BitVec.ofInt 32 (x.getD (-(2 ^ 31)))).toNat
def expOf (bs : List Byte) : Option Int :=
  let v := (BitVec.ofNat 32 (beNat bs)).toInt
  if v = -(2 ^ 31) then none else some v

/-- Set bits of a bitmap. -/
def setBitCount (bs : List Byte) : Nat :=
  bs.foldl (fun n b => n + ((List.range 8).filter fun i => b.getLsbD i).length) 0

/-! Packets (R262, R263). -/

/-- The queue pair of a direction. -/
def bshQp (g : BshGroup) (d : Nat) : Option Nat := ((g.qps.getD d none)).map fun q => qpKey g.part q

/-- MTU of a direction. -/
def bshMtu (s : State) (g : BshGroup) (d : Nat) : Nat :=
  match bshQp g d with
  | some k => max 8 (qp s k).mtu
  | none => 8

/-- Send a Bushel packet in a direction. -/
def bshSend (s : State) (gid d op attempt axis phase step gen chunk : Nat) (payload : List Byte) :
    State :=
  match bshQp (bshGroup s gid) d with
  | none => s
  | some k =>
    submit s k (.bushel gid) op
      ((attempt * 2 ^ 14 + axis * 2 ^ 12 + gid) * 2 ^ 16 + phase * 2 ^ 12 + step)
      (chunk * 2 ^ 32 + (crc32c payload).toNat) 0 3 gen 0 (some payload)

/-- Send the same packet in several directions. -/
def bshSendAll (s : State) (ds : List Nat) (gid op attempt phase gen : Nat) (payload : List Byte) :
    State :=
  ds.foldl (fun s d => bshSend s gid d op attempt 3 phase 0 gen 0 payload) s

/-- A tree payload. -/
def treeBytes (srank kind covered : Nat) (v : List Byte) : List Byte :=
  beBytes 2 srank ++ [BitVec.ofNat 8 kind, BitVec.ofNat 8 v.length] ++ beBytes 2 covered ++
    beBytes 2 0 ++ v

/-- The kind of tree packet that an operation uses in a phase; 0 where it uses none (R263). -/
def treeKind (e : RingEntry) (phase : Nat) : Nat :=
  match entryOpcode e, phase with
  | 0x23, 3 => 1 | 0x25, 3 => 1 | 0x23, 4 => 2 | 0x25, 4 => 2
  | 0x24, 3 => 3 | 0x24, 4 => 3 | 0x22, 4 => 5
  | 0x20, 0 => if bshFoir e then 4 else 0
  | _, _ => 0

/-- Bytes of value that an operation's tree packets carry (R263). -/
def treeLen (e : RingEntry) : Nat :=
  match entryOpcode e with
  | 0x20 => 4
  | 0x22 => spanBytes (bshFin e) (bshCount e)
  | 0x24 => spanBytes (bshWire e) (bshCount e)
  | _ => 0

/-- A BROADCAST whose data travel in chunks. -/
def bigCast (e : RingEntry) : Bool :=
  entryOpcode e == 0x22 && decide (64 < spanBytes (bshFin e) (bshCount e))

/-! Runs. -/

/-- Change the running operation of a group. -/
def modRun (s : State) (gid : Nat) (f : BshRun → BshRun) : State :=
  modBsh s gid fun g => { g with run := g.run.map f }

/-- The root of an operation's tree. -/
def runRoot (r : BshRun) : Nat := if entryOpcode r.entry = 0x22 then bshRoot r.entry else 0

/-- Wire bytes of the piece that belongs to a rank (R253, R261). -/
def segLen (g : BshGroup) (r : BshRun) (k : Nat) : Nat :=
  let e := r.entry
  let n := max 1 (bshSize g)
  match r.phase with
  | 1 => spanBytes (bshWire e) (bshCount e / n)
  | 2 => spanBytes (bshFin e) (bshCount e / n)
  | 5 => bshMapLen e
  | _ => setBitCount ((r.map.drop (k * bshMapLen e)).take (bshMapLen e)) * bshBlock e

/-- Wire bytes of the pieces of ranks `lo` to `hi` - 1. -/
def segSum (g : BshGroup) (r : BshRun) (lo hi : Nat) : Nat :=
  ((List.range (hi - lo)).map fun i => segLen g r (lo + i)).foldl (· + ·) 0

/-- Axes of a ring phase in their order (R258). -/
def runAxes (g : BshGroup) (r : BshRun) : List Nat :=
  (if r.phase = 1 then [2, 1, 0] else [0, 1, 2]).filter fun a => decide (2 ≤ bshDim g a)

/-- The axis of the stage under way; none once every axis is done. -/
def runAxis (g : BshGroup) (r : BshRun) : Option Nat := (runAxes g r)[r.stage]?

/-- First rank of the slice that the parts of an axis make up. -/
def slabRank (g : BshGroup) (a : Nat) : Nat :=
  let m := bshStride g a * bshDim g a
  g.rank / m * m

/-- Where part `k` of an axis lies within the slice, and its length. -/
def partSpan (g : BshGroup) (r : BshRun) (a k : Nat) : Nat × Nat :=
  let f := slabRank g a
  let p := bshStride g a
  (segSum g r f (f + k * p), segSum g r (f + k * p) (f + (k + 1) * p))

/-- R258: which bytes of a part a ring carries. -/
def ringSpan (r : BshRun) (plus : Bool) (len : Nat) : Nat × Nat :=
  let n := spanElems (bshWire r.entry) len
  let h := spanBytes (bshWire r.entry) (min n (16 * ((n + 31) / 32)))
  if plus then (0, h) else (h, len - h)

/-- R258: the part that the member at coordinate `c` sends in a step. -/
def sendPart (r : BshRun) (plus : Bool) (n c t : Nat) : Nat :=
  match r.phase == 1, plus with
  | true, true => (c + 2 * n - t - 1) % n
  | true, false => (c + t + 1) % n
  | false, true => (c + n - t) % n
  | false, false => (c + t) % n

/-- Coordinate of the member that sends to this one on a ring. -/
def upstream (plus : Bool) (n c : Nat) : Nat := if plus then (c + n - 1) % n else (c + 1) % n

/-- Where the bytes of a ring's step lie within the slice: of what is sent, or of what arrives. -/
def stepSpan (g : BshGroup) (r : BshRun) (a : Nat) (plus recv : Bool) (t : Nat) : Nat × Nat :=
  let n := bshDim g a
  let c := bshCoord g g.rank a
  let k := sendPart r plus n (if recv then upstream plus n c else c) t
  let p := partSpan g r a k
  let q := ringSpan r plus p.2
  (p.1 + q.1, q.2)

/-- Direction on which a ring sends, and on which it receives. -/
def sendDir (a : Nat) (plus : Bool) : Nat := if plus then 2 * a + 1 else 2 * a
def recvDir (a : Nat) (plus : Bool) : Nat := if plus then 2 * a else 2 * a + 1

/-- Offset of the slice in the whole vector; the blocks of SPARSE_ALL_GATHER follow its bitmaps. -/
def sliceBase (g : BshGroup) (r : BshRun) (a : Nat) : Nat :=
  (if r.phase = 6 then bshSize g * bshMapLen r.entry else 0) + segSum g r 0 (slabRank g a)

/-- A range takes part in this attempt: in a re-run, only what was tainted (R267). -/
def rangeLive (r : BshRun) (lo len : Nat) : Bool :=
  r.attempt == 0 || r.taints.any fun x => decide (lo < x.1 + x.2 ∧ x.1 < lo + len)

/-- Chunks of a step by index, offset within the slice and length. -/
def stepChunks (g : BshGroup) (r : BshRun) (a : Nat) (span : Nat × Nat) (mtu : Nat) :
    List (Nat × Nat × Nat) :=
  ((List.range ((span.2 + mtu - 1) / mtu)).map fun i =>
    (i, span.1 + i * mtu, min mtu (span.2 - i * mtu))).filter fun c =>
      rangeLive r (sliceBase g r a + c.2.1) c.2.2

/-- Keys of a stage's chunks that arrive, with offset and length. -/
def stageKeys (s : State) (g : BshGroup) (r : BshRun) (a : Nat) (recv : Bool) :
    List (BshKey × Nat × Nat) :=
  [true, false].flatMap fun plus =>
    (List.range (bshDim g a - 1)).flatMap fun t =>
      (stepChunks g r a (stepSpan g r a plus recv t)
        (bshMtu s g (if recv then recvDir a plus else sendDir a plus))).map fun c =>
          ({ axis := a, plus := plus, phase := r.phase, step := t, idx := c.1 }, c.2)

/-- The chunks of a large BROADCAST on a direction. -/
def castChunks (s : State) (g : BshGroup) (r : BshRun) (d : Nat) : List (BshKey × Nat × Nat) :=
  let len := spanBytes (bshFin r.entry) (bshCount r.entry)
  let m := bshMtu s g d
  ((List.range ((len + m - 1) / m)).map fun i =>
    (({ axis := 3, plus := false, phase := 4, step := d, idx := i } : BshKey),
      i * m, min m (len - i * m))).filter fun c => rangeLive r c.2.1 c.2.2

/-- Replace bytes within a list. -/
def patch (bs : List Byte) (off : Nat) (new : List Byte) : List Byte :=
  bs.take off ++ new ++ bs.drop (off + new.length)

/-! Credit (R264). -/

def creditKey (gen d : Nat) : Nat := 8 * gen + d
def creditOf (g : BshGroup) (r : BshRun) (d : Nat) : Nat := tget 0 g.credit (creditKey r.gen d)

/-- Directions from which an operation's chunks arrive. -/
def dataDirs (g : BshGroup) (r : BshRun) : List Nat :=
  let op := entryOpcode r.entry
  if op = 0x20 ∨ op = 0x21 ∨ op = 0x26 then
    (List.range 6).filter fun d => decide (2 ≤ bshDim g (d / 2))
  else if bigCast r.entry then (bshParent g (runRoot r) g.rank).toList
  else []

/-- Axis code of a credit for a direction. -/
def creditAxis (r : BshRun) (d : Nat) : Nat := if bigCast r.entry then 3 else d / 2

/-- Grant the credit that an operation starts with. -/
def grantCredit (s : State) (gid : Nat) (r : BshRun) : State :=
  (dataDirs (bshGroup s gid) r).foldl (fun s d =>
    bshSend s gid d 0x31 r.attempt (creditAxis r d) r.phase 0 r.gen 131072 []) s

/-- Consumed bytes of a direction; credit returns in units of 32 KiB. -/
def eatCredit (s : State) (gid d n : Nat) : State :=
  match (bshGroup s gid).run with
  | none => s
  | some r =>
    let v := tget 0 r.eaten d + n
    let back := v / 32768 * 32768
    let s1 := modRun s gid fun r => { r with eaten := tset 0 r.eaten d (v - back) }
    if back = 0 then s1
    else bshSend s1 gid d 0x31 r.attempt (creditAxis r d) r.phase 0 r.gen back []

/-! Completion and abort (R265, R268). -/

/-- A Bushel register count. -/
def bshCountUp (s : State) (lo : Nat) : State := bump s bshStat lo 16 1

/-- R123, R141, R151: the sync object that an entry of a ring names is signalled, and what that makes of
the entry's status: 0 where it was applied or none is named, ST_KEY_FAULT where a check failed,
ST_REVOKED where the object took none. -/
def signalFor (s : State) (r va : Nat) (n : Word) : BitVec 8 × State :=
  if va = 0 then (0, s)
  else
    let x := ring s r
    let a := access s .sync fabricUnit x.part x.ctx va true
    match a.1 with
    | .error _ => (0x03, a.2)
    | .ok pa =>
      if regionOf pa ≠ .syncObj then (0x03, a.2)
      else
        let y := signalObj a.2 x.part x.ctx false (syncIndex pa) n
        match y.1 with
        | .applied => (0, y.2)
        | .refused => (0x03, y.2)
        | _ => (0x09, y.2)

/-- R265: the sync object of a Bushel entry is signalled. -/
def bshSignal (s : State) (g : BshGroup) (e : RingEntry) : BitVec 8 × State :=
  signalFor s g.cmq (bshSync e) (BitVec.ofNat 64 (bshSigcnt e))

/-- Write the CQ entry of a generation. -/
def bshDeliver (s : State) (g : BshGroup) (e : RingEntry) (gen : Nat) (st : BitVec 8)
    (bytes orank reason : Nat) (expo : Int) : State :=
  completeEntry s g.cmq e st bytes
    (BitVec.ofNat 64 (gen % 2 ^ 32 + orank * 2 ^ 32 + reason * 2 ^ 48))
    (BitVec.ofNat 64 (BitVec.ofInt 32 expo).toNat)

/-- Remove the pseudo-grids of an operation's custom operator. -/
def dropJobs (s : State) (r : BshRun) : State :=
  r.jobs.foldl (fun s j =>
    setGrid ((groupKeys s j.grid).foldl unloadGroup s) j.grid Grid.none) s

/-- The payload of BSH_ABORT. -/
def abortBytes (rank reason : Nat) : List Byte :=
  beBytes 2 rank ++ [BitVec.ofNat 8 reason] ++ leBytes 13 0

/-- R268: a generation has ended here, and the others are told. -/
def bshTell (s : State) (gid gen reason : Nat) : State :=
  let g := bshGroup s gid
  bshSendAll s (bshTree g 0 g.rank) gid 0x34 0 3 gen (abortBytes g.rank reason)

/-- End the running operation of a group with a status (R265). A signal whose check fails ends it with
ST_KEY_FAULT, and the others are told (R123, R268). -/
def bshEnd (s : State) (gid : Nat) (st : BitVec 8) (bytes orank reason : Nat) (expo : Int) : State :=
  let g := bshGroup s gid
  match g.run with
  | none => s
  | some r =>
    let s1 := setBsh (dropJobs s r) gid { g with
      run := none, credit := g.credit.filter fun c => decide (8 * (r.gen + 1) ≤ c.1) }
    let sg := if st = 0x02 then (0, s1) else bshSignal s1 g r.entry
    if st ≠ 0 ∧ st ≠ 0x12 then bshDeliver sg.2 g r.entry r.gen st bytes orank reason expo
    else if sg.1 = 0x03 then
      bshTell (bshCountUp (bshDeliver sg.2 g r.entry r.gen 0x03 bytes g.rank 6 expo) 16) gid r.gen 6
    else bshDeliver sg.2 g r.entry r.gen (if sg.1 = 0 then st else sg.1) bytes orank reason expo

/-- R268: the running generation ends here with a status and a reason, and the others are told, but
for the direction it came from. Reasons QPERR and MISMATCH break the group. -/
def bshAbort (s : State) (gid : Nat) (st : BitVec 8) (reason orank : Nat) (from_ : Option Nat) :
    State :=
  let g := bshGroup s gid
  match g.run with
  | none => s
  | some r =>
    let ds := (bshTree g 0 g.rank).filter fun d => some d != from_
    let s1 := bshEnd (bshCountUp s 16) gid st 0 orank reason 0
    let s2 := modBsh s1 gid fun x => { x with broken := x.broken || reason == 2 || reason == 5 }
    bshSendAll s2 ds gid 0x34 0 3 r.gen (abortBytes orank reason)

/-- R265, R268: an entry that never ran uses its generation; packets held for it are dropped. A malformed
entry signals nothing (log entry 75). -/
def bshFailEntry (s : State) (gid : Nat) (e : RingEntry) (st : BitVec 8) (orank reason : Nat)
    (tell : Bool) : State :=
  let g := bshGroup s gid
  let gen := g.gen
  let s1 := setBsh s gid { g with
    gen := gen + 1, last := none, early := g.early.filter fun x => x.1 != gen }
  let s2 := if st = 0x02 then countMalf s1 g.cmq st else (bshSignal s1 g e).2
  let s3 := bshCountUp (bshDeliver s2 g e gen st 0 orank reason 0) 16
  if tell then bshTell s3 gid gen reason else s3

/-! Progress. -/

/-- R260: the queue pairs that a QUIESCE holds. -/
def quiesceScope (s : State) (g : BshGroup) (e : RingEntry) : List Nat :=
  if bshAllqp e then
    (s.qps.filter fun x => qpPart x.1 == g.part && x.2.state == .rts).map Prod.fst
  else g.qps.filterMap fun o => o.map (qpKey g.part)

/-- A queue pair on which new work is held by a QUIESCE. -/
def quiesced (s : State) (k : Nat) : Bool :=
  s.bushel.any fun x => match x.2.run with
    | some r => entryOpcode r.entry == 0x25 && (quiesceScope s x.2 r.entry).contains k
    | none => false

/-- Every operation started on the scope's queue pairs has completed. -/
def drainedScope (s : State) (g : BshGroup) (e : RingEntry) : Bool :=
  (quiesceScope s g e).all fun k => (qp s k).ops.all fun o =>
    match o.src with | .none => true | .bushel _ => true | _ => false

/-- Steps beyond the boundary of a pre-emption wait (R269). -/
def stepHeld (r : BshRun) (t : Nat) : Bool := r.paused || (r.preAt.isSome && decide (r.preStep < t))

/-- A fabric engine for a custom operator's thread: one without another of its jobs. -/
def jobEngine (s : State) (x : Grid) : Option (Nat × Placing) :=
  (List.range 256).findSome? fun i => (fitOn s x (16384 + i)).map fun p => (16384 + i, p)

/-- R257, R271: the slot and the image of a custom operator, as its operation starts; none for another
operator. -/
def readOper (s : State) (e : RingEntry) : Except (BitVec 8) (Option (Word × List Word)) × State :=
  if !bshCustom e then (.ok none, s)
  else
    let c := bshOpCtl s (bshOpr e)
    let pa := bits (bshProg s (bshOpr e)) 6 42 * 64
    let d := readMem s pa (64 * bits c 0 11)
    (if d.1 then .error 0x0D else .ok (some (c, wordsOf (8 * bits c 0 11) d.2.1)), d.2.2)

/-- R257: start the thread that combines a chunk pair; none where no engine has room. The spec gives the
thread no stochastic-rounding seed, which R43 takes from a LAUNCH; the model's is 0 (log entry 76). -/
def startJob (s : State) (gid : Nat) (r : BshRun) (k : BshKey) (off : Nat) (inc loc : List Byte)
    (combined : Nat) : Option State :=
  let g := bshGroup s gid
  let e := r.entry
  let c := (r.oper.map Prod.fst).getD 0
  let pa := bits (bshProg s (bshOpr e)) 6 42 * 64
  let words := (r.oper.map Prod.snd).getD []
  let x : Grid := { Grid.none with
    state := .running, ring := jobRing, part := g.part, ctx := (ring s g.cmq).ctx, fabric := true
    prog := BitVec.ofNat 64 pa, gx := 1, gy := 1, gz := 1, tpg := 1, lsz := bits c 48 10
    psz := bits c 0 11, image := some words }
  match jobEngine s x with
  | none => none
  | some (en, p) =>
    let n := s.nextGrid
    let key := freshGroup s
    let s1 := setGrid { s with nextGrid := n + 1 } n x
    let s2 := startGroup (loadImage s1 n (coreOf en)).2 n en p
    let base := localPa en p.window
    let param := entryExt e == 1
    let s3 := writeMem (writeMem s2 base inc) (base + 9024) loc
    let s4 := if param then writeMem s3 (base + 27072) (bshExt e) else s3
    let put (i : Nat) (v : Nat) (m : Table Word) : Table Word := tset 0 m i (BitVec.ofNat 64 v)
    let s5 := modThread s4 (p.ctxs.headD 0) fun th => { th with
      s := put 10 combined (put 9 (entryByte e 0x24) (put 8 inc.length (put 7 18048 (put 6 9024
        (put 5 0 (put 1 (if param then 27072 else 2 ^ 64 - 1) th.s)))))) }
    let j : BshJob :=
      { group := key, grid := n, engine := en, window := p.window, key := k, off := off
        len := inc.length }
    some (modRun s5 gid fun r => { r with jobs := r.jobs ++ [j] })

/-- A chunk has been consumed: its bytes take their place in the slice. -/
def consumed (s : State) (gid : Nat) (k : BshKey) (off : Nat) (bs : List Byte) : State :=
  modRun s gid fun r => { r with data := patch r.data off bs, taken := r.taken ++ [k] }

/-- Contributions already combined in an incoming chunk (R257). -/
def combinedIn (g : BshGroup) (r : BshRun) (t : Nat) : Nat :=
  (t + 1) * (((runAxes g r).take r.stage).map (bshDim g)).foldl (· * ·) 1

/-- Consume one staged chunk of the stage under way (R258). -/
def consumeChunk (s : State) (gid : Nat) (k : BshKey) (off len : Nat) : State :=
  let g := bshGroup s gid
  match g.run with
  | none => s
  | some r =>
    match r.staged.find? fun x => x.1 == k with
    | none => s
    | some x =>
      if stepHeld r k.step then s
      else
        let loc := (r.data.drop off).take len
        let s0 := modRun s gid fun r => { r with staged := r.staged.filter fun y => y.1 != k }
        if r.phase ≠ 1 then consumed (eatCredit s0 gid (recvDir k.axis k.plus) len) gid k off x.2
        else if bshCustom r.entry then
          match startJob s0 gid r k off x.2 loc (combinedIn g r k.step) with
          | none => s
          | some s1 => s1
        else consumed (eatCredit s0 gid (recvDir k.axis k.plus) len) gid k off
          (combineBytes r.entry x.2 loc)

/-- Collect the custom operator's threads that have ended; an exception aborts the operation. -/
def collectJobs (s : State) (gid : Nat) : State :=
  match (bshGroup s gid).run with
  | none => s
  | some r =>
    r.jobs.foldl (fun s j =>
      if (bshGroup s gid).run.isNone then s
      else if (grid s j.grid).exc.isSome then
        let g := bshGroup s gid
        bshAbort (recordError s
          { code := 0x07, unit := 0x0B, inst := gid, part := some g.part
            status := (((grid s j.grid).exc.map ExcRec.status).getD 0x01), addr := 0, isVa := false
            ctx := 0, data0 := 0 }) gid
          (((grid s j.grid).exc.map ExcRec.status).getD 0x01) 6 g.rank none
      else if (groupKeys s j.grid).isEmpty then
        let d := readMem s (localPa j.engine (j.window + 18048)) j.len
        if d.1 then bshAbort d.2.2 gid 0x0D 6 (bshGroup s gid).rank none
        else
          let s1 := modRun (setGrid d.2.2 j.grid Grid.none) gid fun r => { r with
            jobs := r.jobs.filter fun y => y != j }
          consumed (eatCredit s1 gid (recvDir j.key.axis j.key.plus) j.len) gid j.key j.off d.2.1
      else s) s

/-- The bytes of a chunk to send are there: own data in step 0, else what has been consumed. -/
def chunkReady (s : State) (g : BshGroup) (r : BshRun) (k : BshKey) (off len : Nat) : Bool :=
  k.step == 0 ||
    ((stageKeys s g r k.axis true).filter fun x => x.1.plus == k.plus && x.1.step + 1 == k.step &&
      decide (x.2.1 < off + len ∧ off < x.2.1 + x.2.2)).all fun x => r.taken.contains x.1

/-- Send one chunk, if its bytes and the credit are there. -/
def sendChunk (s : State) (gid d : Nat) (k : BshKey) (off len wireStep : Nat) (ready : Bool) : State :=
  let g := bshGroup s gid
  match g.run with
  | none => s
  | some r =>
    if r.sent.contains k ∨ !ready ∨ creditOf g r d < len ∨ stepHeld r k.step then s
    else
      let s1 := modBsh s gid fun g => { g with
        credit := tset 0 g.credit (creditKey r.gen d) (creditOf g r d - len)
        run := some { r with sent := r.sent ++ [k] } }
      bshSend s1 gid d 0x30 r.attempt k.axis r.phase wireStep r.gen k.idx ((r.data.drop off).take len)

/-- Move a ring stage on: consume what has arrived, send what may go. -/
def ringWork (s : State) (gid a : Nat) : State :=
  let g := bshGroup s gid
  match g.run with
  | none => s
  | some r =>
    let s1 := (stageKeys s g r a true).foldl (fun s x => consumeChunk s gid x.1 x.2.1 x.2.2) s
    (stageKeys s g r a false).foldl (fun s x =>
      let g := bshGroup s gid
      match g.run with
      | none => s
      | some r => sendChunk s gid (sendDir a x.1.plus) x.1 x.2.1 x.2.2 x.1.step
          (chunkReady s g r x.1 x.2.1 x.2.2)) s1

/-- A ring stage is over: every chunk consumed and sent. -/
def stageOver (s : State) (g : BshGroup) (r : BshRun) (a : Nat) : Bool :=
  (stageKeys s g r a true).all (fun x => r.taken.contains x.1) &&
    (stageKeys s g r a false).all (fun x => r.sent.contains x.1)

/-- The slice as a gathering axis begins: this member's part in its place. -/
def spread (g : BshGroup) (r : BshRun) : BshRun :=
  match runAxis g r with
  | none => r
  | some a =>
    if r.phase = 1 then r
    else
      let n := bshDim g a
      let c := bshCoord g g.rank a
      let p := partSpan g r a c
      let total := (partSpan g r a n).1
      { r with data := List.replicate p.1 0 ++ r.data ++
          List.replicate (total - p.1 - r.data.length) 0 }

/-- The run as its next stage begins; in REDUCE_SCATTER the slice narrows to the member's part. -/
def nextStage (g : BshGroup) (r : BshRun) (a : Nat) : BshRun :=
  let p := partSpan g r a (bshCoord g g.rank a)
  let data := if r.phase = 1 then (r.data.drop p.1).take p.2 else r.data
  spread g { r with stage := r.stage + 1, data := data, taken := [], sent := [] }

/-- Offsets and lengths of each member's blocks, and the total, of SPARSE_ALL_GATHER (R261). -/
def sparseOut (g : BshGroup) (r : BshRun) : List Byte × Nat :=
  let e := r.entry
  let n := bshSize g
  let m := bshMapLen e
  let t := (8 * n + 63) / 64 * 64
  let count (k : Nat) : Nat := setBitCount ((r.map.drop (k * m)).take m)
  let row (k : Nat) : Nat :=
    count k * 2 ^ 40 + (t + n * m + ((List.range k).map fun j => count j * bshBlock e).foldl (· + ·) 0)
  let table := (List.range n).flatMap fun k => leBytes 8 (row k)
  let total := t + n * m + r.data.length
  (if bshDlen e < total then table
    else table ++ List.replicate (t - 8 * n) 0 ++ r.map ++ r.data, total)

/-- Bytes with the tainted ranges taken from a re-run (R267). -/
def mergeRerun (r : BshRun) (old new : List Byte) : List Byte :=
  if r.attempt = 0 then new
  else r.taints.foldl (fun bs x => patch bs x.1 ((new.drop x.1).take (min x.2 (bs.length - x.1)))) old

/-- The run once a phase is over (R256 to R261). -/
def nextPhase (g : BshGroup) (r : BshRun) : BshRun :=
  let done (bs : List Byte) (n : Nat) : BshRun := { r with phase := 8, result := some bs, bytes := n }
  match r.phase with
  | 0 => { r with phase := 1, stage := 0, data := toWire r.entry r.expo r.data, ups := []
                  upSent := false }
  | 1 =>
    let bs := fromWire r.entry r.expo r.data
    done bs bs.length
  | 2 => done r.data r.data.length
  | 5 => spread g { r with phase := 6, stage := 0, map := mergeRerun r r.map r.data, data := r.result.getD []
                           result := none, taken := [], sent := [] }
  | 6 =>
    let o := sparseOut g r
    { done o.1 o.2 with status := if bshDlen r.entry < o.2 then 0x04 else 0 }
  | _ => done (r.result.getD []) (r.result.getD []).length

/-- Send the tree's down packets. -/
def sendDown (s : State) (gid : Nat) (r : BshRun) (phase : Nat) (v : List Byte) : State :=
  let g := bshGroup s gid
  bshSendAll s (bshChildren g (runRoot r) g.rank) gid 0x32 r.attempt phase r.gen
    (treeBytes g.rank (treeKind r.entry phase) (bshSize g) v)

/-- What the root or a member makes of the tree's result. -/
def treeResult (g : BshGroup) (r : BshRun) (v : List Byte) : BshRun :=
  if r.phase = 0 then
    let n := bshSize g
    let guard : Int := if n ≤ 1 then 0 else (Nat.log2 (n - 1) + 1 : Nat)
    nextPhase g { r with expo := ((expOf v).map fun x => x + guard).getD 0 }
  else
    let out := if entryOpcode r.entry = 0x24 then fromWire r.entry 0 v else v
    nextPhase g { r with phase := 4, result := some out }

/-- One contribution of the up phase folded into the value. -/
def foldUp (r : BshRun) (acc inc : List Byte) : List Byte :=
  match entryOpcode r.entry with
  | 0x20 => expBytes (match expOf acc, expOf inc with
      | none, y => y
      | y, none => y
      | some a, some b => some (max a b))
  | 0x24 => combineBytes r.entry inc acc
  | _ => []

/-- The value that the member contributes to an up phase. -/
def ownUp (r : BshRun) : List Byte :=
  match entryOpcode r.entry with
  | 0x20 =>
    if bshExpin r.entry then
      expBytes (let v := (BitVec.ofNat 32 (bshEmax r.entry)).toInt
        if v = -(2 ^ 31) then none else some v)
    else expBytes (largestExp r.entry r.data)
  | 0x24 => toWire r.entry 0 r.data
  | _ => []

/-- The up phase (R259): with every contribution from below, send up, or at rank 0 turn round. -/
def treeUp (s : State) (gid : Nat) : State :=
  let g := bshGroup s gid
  match g.run with
  | none => s
  | some r =>
    let cs := bshOrder g
    if r.upSent ∨ r.paused ∨ !(cs.all fun d => r.ups.any fun u => u.dir == d) then s
    else
      let v := cs.foldl (fun acc d =>
        match r.ups.find? fun u => u.dir == d with
        | some u => foldUp r acc u.value
        | none => acc) (ownUp r)
      let phase := r.phase
      match bshParent g 0 g.rank with
      | some d =>
        bshSend (modRun s gid fun r => { r with upSent := true }) gid d 0x32 r.attempt 3 phase 0 r.gen 0
          (treeBytes g.rank (treeKind r.entry phase) (bshCovered g 0 (bshDepth g) g.rank) v)
      | none =>
        let s1 := sendDown s gid r (if phase = 0 then 0 else 4) v
        modRun s1 gid fun r => treeResult g { r with upSent := true } v

/-- BROADCAST's down phase at a member that has the data (R259). -/
def castWork (s : State) (gid : Nat) : State :=
  let g := bshGroup s gid
  match g.run with
  | none => s
  | some r =>
    let root := bshRoot r.entry == g.rank
    if !bigCast r.entry then
      (if root then modRun (sendDown s gid r 4 r.data) gid fun r =>
          nextPhase g { r with result := some r.data } else s)
    else
      let ins := match bshParent g (bshRoot r.entry) g.rank with
        | some d => castChunks s g r d
        | none => []
      let s1 := ins.foldl (fun s x =>
        match (bshGroup s gid).run with
        | none => s
        | some r => match r.staged.find? fun y => y.1 == x.1 with
          | none => s
          | some y =>
            let s' := modRun s gid fun r => { r with staged := r.staged.filter fun z => z.1 != x.1 }
            consumed (eatCredit s' gid x.1.step x.2.2) gid x.1 x.2.1 y.2) s
      let have_ (r : BshRun) (off len : Nat) : Bool :=
        (ins.filter fun x => decide (x.2.1 < off + len ∧ off < x.2.1 + x.2.2)).all fun x =>
          r.taken.contains x.1
      let outs := (bshChildren g (bshRoot r.entry) g.rank).flatMap fun d => castChunks s g r d
      let s2 := outs.foldl (fun s x =>
        match (bshGroup s gid).run with
        | none => s
        | some r => sendChunk s gid x.1.step { x.1 with step := x.1.step } x.2.1 x.2.2 0
            (have_ r x.2.1 x.2.2)) s1
      match (bshGroup s2 gid).run with
      | none => s2
      | some r =>
        if ins.all (fun x => r.taken.contains x.1) ∧ outs.all (fun x => r.sent.contains x.1) then
          modRun s2 gid fun r => nextPhase g { r with result := some r.data }
        else s2

/-- R269: note that the member's partition has been pre-empted, that the boundary has been reached (the
end of the ring step or tree phase under way, for a QUIESCE that drains that of its up phase), or that
it runs again. -/
def bshPreempt (s : State) (gid : Nat) : State :=
  let g := bshGroup s gid
  match g.run with
  | none => s
  | some r =>
    let pre := (partition s g.part).state == .preempted
    let mark (r : BshRun) : Nat := 16 * r.stage + r.phase
    let reached (r : BshRun) : Bool :=
      if r.phase = 8 ∨ (mark r ≠ r.preMark ∧ r.preMark ≠ 7) then true
      else if r.phase = 0 ∨ r.phase = 3 then r.upSent
      else if r.phase = 4 ∨ r.phase = 7 then false
      else match runAxis g r with
        | none => true
        | some a => (stageKeys s g r a true).all fun x => decide (r.preStep < x.1.step) ||
          r.taken.contains x.1
    let now : Nat := match runAxis g r with
      | some a => ((stageKeys s g r a true).filter fun x => !r.taken.contains x.1).foldl
          (fun m x => min m x.1.step) 4096
      | none => 0
    if !pre then
      (if r.preAt.isSome then modRun s gid fun r => { r with preAt := none, paused := false } else s)
    else if r.preAt.isNone then
      modRun s gid fun r => { r with preAt := some (fdTime s), preStep := now, preMark := mark r }
    else if reached r then modRun s gid fun r => { r with paused := true }
    else s

/-- R251: a chunk of the last phase of SPARSE_ALL_GATHER that came before its phase began is one that the
operation cannot have. -/
def stagedBad (s : State) (gid : Nat) : Bool :=
  let g := bshGroup s gid
  match g.run with
  | none => false
  | some r => r.phase == 6 && r.staged.any fun x => x.1.phase == 6 &&
      !(stageKeys s g r x.1.axis true).any fun y => y.1 == x.1 && y.2.2 == x.2.length

/-- Move a running operation as far as it goes; `n` bounds the stages. -/
def bshPump (s : State) (gid : Nat) : Nat → State
  | 0 => s
  | n + 1 =>
    let s := bshPreempt (collectJobs s gid) gid
    let g := bshGroup s gid
    match g.run with
    | none => s
    | some r =>
      if r.paused then s
      else match r.phase with
        | 0 =>
          let s1 := treeUp s gid
          if ((bshGroup s1 gid).run.map BshRun.phase) = some 1 then bshPump s1 gid n else s1
        | 3 => treeUp s gid
        | 4 => castWork s gid
        | 7 => if drainedScope s g r.entry then
            bshPump (modRun s gid fun r => { r with phase := 3 }) gid n else s
        | 8 => s
        | _ =>
          match runAxis g r with
          | none =>
            let s1 := modRun s gid (nextPhase g)
            if stagedBad s1 gid then bshAbort s1 gid 0x0A 5 g.rank none else bshPump s1 gid n
          | some a =>
            let s1 := ringWork s gid a
            let g1 := bshGroup s1 gid
            match g1.run with
            | none => s1
            | some r1 =>
              if stageOver s1 g1 r1 a then
                bshPump (modRun s1 gid fun r => nextStage g1 r a) gid n
              else s1

/-- Move a group's operation. -/
def bshGo (s : State) (gid : Nat) : State := bshPump s gid 16

/-- Move every group's operation. -/
def bshGoAll (s : State) : State :=
  (s.bushel.filter fun x => x.2.run.isSome).foldl (fun s x => bshGo s x.1) s

end Sys2Proof.Machine
end

