-- ==== Sys2Proof/Machine/BushelArrive.lean ====
section
/-! DEFINITION. The start of a Bushel operation, the packets that arrive for it, and what the transport
tells Bushel (R250 to R270). -/

namespace Sys2Proof.Machine

/-- The group that a CMQ serves. -/
def cmqGroup (s : State) (r : Nat) : Option Nat :=
  (s.bushel.find? fun x => x.2.cmq == r && x.2.part == (ring s r).part).map Prod.fst

/-- Operations running across all groups (R264). -/
def bshRunning (s : State) : Nat := (s.bushel.filter fun x => x.2.run.isSome).length

/-- Bytes of input that an operation reads, and where they are: inline, in memory or absent. -/
def bshInput (s : State) (g : BshGroup) (e : RingEntry) : Except (BitVec 8) (List Byte) × State :=
  let x := ring s g.cmq
  let span (k : Nat) : Nat := spanBytes (bshFin e) k
  let c := bshCount e
  let n := max 1 (bshSize g)
  let rd (s : State) (va len : Nat) : Except (BitVec 8) (List Byte) × State :=
    let d := readVa s .fabric fabricUnit x.part x.ctx va len
    match d.1 with
    | .ok bs => (.ok bs, d.2)
    | .error (.xlate _ _) => (.error 0x03, d.2)
    | .error f => (.error (failStatus f), d.2)
  let inl := entryExt e == 1
  match entryOpcode e with
  | 0x20 => rd s (bshSrc e) (span c)
  | 0x21 => if inl then (.ok ((bshExt e).take (span (c / n))), s) else rd s (bshSrc e) (span (c / n))
  | 0x22 =>
    if bshRoot e ≠ g.rank then (.ok (List.replicate (span c) 0), s)
    else if inl then (.ok ((bshExt e).take (span c)), s) else rd s (bshSrc e) (span c)
  | 0x24 => if inl then (.ok ((bshExt e).take (span c)), s) else rd s (bshSrc e) (span c)
  | 0x26 => if inl then (.ok (bshExt e), s) else rd s (bshSrc e) (bshMapLen e)
  | _ => (.ok [], s)

/-- Bits of a bitmap above its count are not blocks. -/
def clearTail (n : Nat) (bs : List Byte) : List Byte :=
  leBytes bs.length (leNat bs % 2 ^ n)

/-- The set blocks of SPARSE_ALL_GATHER's input, after its bitmap. -/
def sparseBlocks (s : State) (g : BshGroup) (e : RingEntry) (map : List Byte) :
    Except (BitVec 8) (List Byte) × State :=
  let x := ring s g.cmq
  let va := bshSrc e + (if entryExt e = 1 then 0 else bshMapLen e)
  let len := setBitCount map * bshBlock e
  if len = 0 then (.ok [], s)
  else
    let d := readVa s .fabric fabricUnit x.part x.ctx va len
    match d.1 with
    | .ok bs => (.ok bs, d.2)
    | .error (.xlate _ _) => (.error 0x03, d.2)
    | .error f => (.error (failStatus f), d.2)

/-- Phase in which an operation starts. -/
def firstPhase (e : RingEntry) : Nat :=
  match entryOpcode e with
  | 0x20 => if bshFoir e then 0 else 1
  | 0x21 => 2
  | 0x22 => 4
  | 0x25 => 7
  | 0x26 => 5
  | _ => 3

/-- A member's queue pairs can all send (R268). -/
def bshQpsUp (s : State) (g : BshGroup) : Bool :=
  g.qps.all fun o => match o with
    | none => true
    | some n => let st := (qp s (qpKey g.part n)).state
      st == .rts || st == .drain

/-- The run of an entry on its input. -/
def newRun (s : State) (g : BshGroup) (e : RingEntry) (oper : Option (Word × List Word))
    (data blocks : List Byte) : BshRun :=
  let ph := firstPhase e
  let wire := if ph = 1 then toWire e 0 data else data
  let r : BshRun :=
    { gen := g.gen, entry := e, attempt := 0, phase := ph, stage := 0, data := wire, map := []
      expo := 0, staged := [], taken := [], sent := [], eaten := [], ups := [], upSent := false
      result := if ph = 5 then some blocks else none
      jobs := [], taints := [], tainted := false, status := 0, orank := 0xFFFF, reason := 0
      bytes := 0, lastRx := fdTime s, preAt := none, preStep := 0, preMark := 0, paused := false, oper := oper }
  spread g r

/-- What a generation leaves for a CHAIN that follows (R253). -/
def lastOf (e : RingEntry) : Option (Nat × Nat) :=
  if entryOpcode e = 0x20 then some (bshDst e, bshFout e) else none

/-- R251, R264, R268: the entry at the head of a CMQ becomes its group's next generation. -/
def beginRun (s : State) (gid : Nat) (e : RingEntry) : State :=
  let g := bshGroup s gid
  if g.broken then bshFailEntry s gid e 0x0A g.rank 6 true
  else match g.aborted.find? fun x => x.1 == g.gen with
  | some x =>
    bshFailEntry (setBsh s gid { g with aborted := g.aborted.filter fun y => y.1 != g.gen }) gid e 0x0A
      x.2.2 x.2.1 false
  | none =>
    if bshBad s g e then bshFailEntry s gid e 0x02 g.rank 6 true
    else if !bshQpsUp s g then
      modBsh (bshFailEntry s gid e 0x0A g.rank 2 true) gid fun x => { x with broken := true }
    else
      let d := bshInput s g e
      match d.1 with
      | .error st => bshFailEntry d.2 gid e st g.rank 6 true
      | .ok bs =>
        let map := if entryOpcode e = 0x26 then clearTail (bshCount e) bs else bs
        let b := if entryOpcode e = 0x26 then sparseBlocks d.2 g e map else (.ok [], d.2)
        match b.1 with
        | .error st => bshFailEntry b.2 gid e st g.rank 6 true
        | .ok blocks =>
          let o := readOper b.2 e
          match o.1 with
          | .error st => bshFailEntry o.2 gid e st g.rank 6 true
          | .ok oper =>
            let r := newRun s g e oper map blocks
            let s1 := setBsh o.2 gid { g with run := some r, gen := g.gen + 1, last := lastOf e }
            grantCredit s1 gid r

/-! Packets. -/

/-- Fields of a Bushel packet (R262). -/
def bpAttempt (h : Pth) : Nat := (h.key.extractLsb' 30 2).toNat
def bpAxis (h : Pth) : Nat := (h.key.extractLsb' 28 2).toNat
def bpGid (h : Pth) : Nat := (h.key.extractLsb' 16 12).toNat
def bpPhase (h : Pth) : Nat := (h.key.extractLsb' 12 4).toNat
def bpStep (h : Pth) : Nat := (h.key.extractLsb' 0 12).toNat
def bpGen (h : Pth) : Nat := h.aux.toNat
def bpChunk (h : Pth) : Nat := bits h.off 32 32
def bpCrc (h : Pth) : BitVec 32 := h.off.extractLsb' 0 32

/-- The direction of a group that a queue pair serves. -/
def bshDir (g : BshGroup) (k : Nat) : Option Nat :=
  (List.range 6).find? fun d => bshQp g d == some k

/-- A Bushel packet has no place yet: RNR (R249, R264). -/
def bshRnr (s : State) (k : Nat) (h : Pth) : State :=
  sendRnr (bump s bshStat 0 16 1) k h.psn h.ts

/-- Note that the running operation has heard from a neighbour. -/
def heard (s : State) (gid : Nat) : State := modRun s gid fun r => { r with lastRx := fdTime s }

/-- What a packet does whose generation runs: the member, the direction it came from. -/
abbrev BshWork := State → Nat → Nat → Pth → List Byte → State

/-- A tree packet of a direction comes from below. -/
def fromBelow (g : BshGroup) (r : BshRun) (d : Nat) (h : Pth) : Bool :=
  (bshChildren g (runRoot r) g.rank).contains d && bpPhase h != 4

/-- The value of a tree packet, its phase, and the members that it covers. -/
def treeValue (payload : List Byte) : List Byte := (payload.drop 8).take (beField payload 3 1)
def treePhase (r : BshRun) (up : Bool) : Nat :=
  if entryOpcode r.entry = 0x20 then 0 else if up then 3 else 4
def treeCovers (g : BshGroup) (r : BshRun) (d : Nat) (up : Bool) : Nat :=
  if up then bshCovered g (runRoot r) (bshDepth g) (bshNeighbour g g.rank d) else bshSize g

/-- R251, R263: the running operation can have no such tree packet of this direction now. -/
def treeBad (g : BshGroup) (r : BshRun) (d : Nat) (h : Pth) (payload : List Byte) : Bool :=
  let up := fromBelow g r d h
  let due := if up then !r.upSent && (r.phase == 0 || r.phase == 3 || r.phase == 7)
    else bshParent g (runRoot r) g.rank == some d &&
      (if entryOpcode r.entry = 0x22 then r.phase == 4 else r.upSent && (r.phase == 0 || r.phase == 3))
  let kind := beField payload 2 1
  let n := (treeValue payload).length
  !due || bpPhase h != treePhase r up || kind == 0 || kind != treeKind r.entry (treePhase r up) ||
    n != treeLen r.entry || payload.length != 8 + n ||
    beField payload 0 2 != bshNeighbour g g.rank d || beField payload 4 2 != treeCovers g r d up ||
    bigCast r.entry || (up && (entryOpcode r.entry == 0x22 || r.ups.any fun u => u.dir == d))

/-- A tree packet of a direction acts on the running generation; one that the operation cannot have is a
mismatch (R251, R263). -/
def onTree : BshWork := fun s gid d h payload =>
  let g := bshGroup s gid
  match g.run with
  | none => s
  | some r =>
    let v := treeValue payload
    if treeBad g r d h payload then bshAbort s gid 0x0A 5 g.rank none
    else if fromBelow g r d h then
      modRun s gid fun r => { r with
        ups := r.ups ++ [{ dir := d, covered := treeCovers g r d true, value := v }] }
    else
      let s1 := sendDown s gid r (treePhase r false) v
      modRun s1 gid fun r => treeResult g r v

/-- A taint notice (R267). -/
def onTaint : BshWork := fun s gid d h payload =>
  let g := bshGroup s gid
  match g.run with
  | none => s
  | some r =>
    let ds := (bshTree g 0 g.rank).filter fun x => x != d
    let s1 := bshSendAll s ds gid 0x33 0 (bpPhase h) r.gen payload
    if r.attempt = 1 then bshAbort s1 gid 0x0A 1 g.rank none
    else modRun s1 gid fun r => { r with
      tainted := true, orank := beField payload 0 2
      taints := r.taints ++ [(spanBytes (bshWire r.entry) (beField payload 4 8),
        spanBytes (bshWire r.entry) (beField payload 12 4))] }

/-- An abort of the running generation (R268). -/
def onAbortRun : BshWork := fun s gid d _ payload =>
  bshAbort s gid 0x0A (beField payload 2 1) (beField payload 0 2) (some d)

/-- A tree, taint or abort packet by its opcode. -/
def onControl (op : Nat) : BshWork :=
  if op = 0x32 then onTree else if op = 0x33 then onTaint else onAbortRun

/-- Control packets held for generations not started. -/
def earlyCount (g : BshGroup) : Nat := g.early.length + g.aborted.length

/-- An abort that arrives for another generation than the one running: it is passed on, and kept for
a generation to come. -/
def otherAbort (s : State) (gid d : Nat) (h : Pth) (payload : List Byte) : State :=
  let g := bshGroup s gid
  let ds := (bshTree g 0 g.rank).filter fun x => x != d
  let s1 := bshSendAll s ds gid 0x34 0 3 (bpGen h) payload
  let reason := beField payload 2 1
  modBsh s1 gid fun x => { x with
    aborted := if g.gen ≤ bpGen h then
      x.aborted ++ [(bpGen h, reason, beField payload 0 2)] else x.aborted
    broken := x.broken || reason == 2 || reason == 5 }

/-- A tree, taint or abort packet arrives (R263, R264, R267, R268). A taint notice of a generation that is
over here is passed on. -/
def onBshControl (op : Nat) : Handler := fun s k p h payload =>
  request s k h (fun s => sendAck s k h.ts) fun s =>
    let gid := bpGid h
    let g := bshGroup s gid
    match (if g.part = qpPart k then bshDir g k else none) with
    | none => bshRnr s k h
    | some d =>
      let gen := bpGen h
      if (g.run.map BshRun.gen) = some gen then
        bshGo (onControl op (heard (acceptReq s k h) gid) gid d h payload) gid
      else if op = 0x34 then
        if g.gen ≤ gen ∧ 4 ≤ earlyCount g then bshRnr s k h
        else otherAbort (acceptReq s k h) gid d h payload
      else if gen < g.gen then
        let s1 := acceptReq s k h
        if op = 0x33 then
          bshSendAll s1 ((bshTree g 0 g.rank).filter fun x => x != d) gid 0x33 0 (bpPhase h) gen payload
        else s1
      else if 4 ≤ earlyCount g then bshRnr s k h
      else modBsh (acceptReq s k h) gid fun x => { x with early := x.early ++ [(gen, p.toPacket)] }

/-- Credit arrives (R264). -/
def onBshCredit : Handler := fun s k _ h _ =>
  request s k h (fun s => sendAck s k h.ts) fun s =>
    let gid := bpGid h
    let g := bshGroup s gid
    match (if g.part = qpPart k then bshDir g k else none) with
    | none => bshRnr s k h
    | some d =>
      let s1 := acceptReq s k h
      let now := (g.run.map BshRun.gen).getD g.gen
      if bpGen h < now then s1
      else
        let key := creditKey (bpGen h) d
        let s2 := modBsh s1 gid fun x => { x with
          credit := tset 0 x.credit key (tget 0 x.credit key + bpChunk h) }
        bshGo (if (g.run.map BshRun.gen) = some (bpGen h) then heard s2 gid else s2) gid

/-- Where a data packet's bytes belong: its key, offset in the slice and length; none where the
running operation can have no such packet. -/
def dataPlace (s : State) (g : BshGroup) (r : BshRun) (d : Nat) (h : Pth) : Option (BshKey × Nat × Nat) :=
  if bigCast r.entry then
    (castChunks s g r d).find? fun x => x.1.idx == bpChunk h && bpPhase h == 4 && bpAxis h == 3 &&
      bpStep h == 0 &&
      bshParent g (runRoot r) g.rank == some d
  else
    let plus := d % 2 == 0
    let r' : BshRun := { r with phase := bpPhase h }
    let ok := match entryOpcode r.entry with
      | 0x20 => bpPhase h == 1
      | 0x21 => bpPhase h == 2
      | 0x26 => bpPhase h == 5 || bpPhase h == 6
      | _ => false
    if !ok ∨ bpAxis h ≠ d / 2 then none
    else if bpPhase h = 6 ∧ r.phase ≠ 6 then
      some ({ axis := d / 2, plus := plus, phase := 6, step := bpStep h, idx := bpChunk h }, 0, 0)
    else (stageKeys s g r' (d / 2) true).find? fun x =>
      x.1 == { axis := d / 2, plus := plus, phase := bpPhase h, step := bpStep h, idx := bpChunk h }

/-- Elements of the whole vector that a chunk covers: first and number. -/
def chunkElems (g : BshGroup) (r : BshRun) (x : BshKey × Nat × Nat) : Nat × Nat :=
  let base := if x.1.axis = 3 then 0 else sliceBase g { r with phase := x.1.phase } x.1.axis
  (spanElems (bshWire r.entry) (base + x.2.1), spanElems (bshWire r.entry) x.2.2)

/-- R267: a chunk failed a check after output derived from it had been used: the generation is tainted
and every member is told. -/
def taintRun (s : State) (gid : Nat) (x : BshKey × Nat × Nat) : State :=
  let g := bshGroup s gid
  match g.run with
  | none => s
  | some r =>
    let e := chunkElems g r x
    if r.attempt = 1 then bshAbort s gid 0x0A 1 g.rank none
    else
      let span (n : Nat) : Nat := spanBytes (bshWire r.entry) n
      let s1 := modRun s gid fun r => { r with
        tainted := true, orank := g.rank, taints := r.taints ++ [(span e.1, span e.2)] }
      bshSendAll s1 (bshTree g 0 g.rank) gid 0x33 0 x.1.phase r.gen
        (beBytes 2 g.rank ++ beBytes 2 0 ++ beBytes 8 e.1 ++ beBytes 4 e.2)

/-- R267: a data packet failed its FCS, its tag or its CRC-32C: it is counted, it taints its generation
where output derived from it had been `used`, and in a re-run it ends it. -/
def bshCheckFailed (used : Bool) : BadHandler := fun s k h _ =>
  let gid := bpGid h
  let g := bshGroup s gid
  match (if g.part = qpPart k then bshDir g k else none) with
  | none => s
  | some d =>
    let s1 := bshCountUp s 48
    match g.run with
    | none => s1
    | some r =>
      if bpGen h ≠ r.gen then s1
      else if r.attempt = 1 then bshAbort s1 gid 0x0A 1 g.rank none
      else match used, dataPlace s g r d h with
        | true, some x => taintRun s1 gid x
        | _, _ => s1

/-- A chunk arrives (R258, R264, R267). `used`: output derived from it has left the member or reached
dst before its check. -/
def onBshData (used : Bool) : Handler := fun s k _ h payload =>
  request s k h (fun s => sendAck s k h.ts) fun s =>
    let gid := bpGid h
    let g := bshGroup s gid
    if crc32c payload ≠ bpCrc h then bshCheckFailed used s k h payload
    else match (if g.part = qpPart k then bshDir g k else none), g.run with
    | none, _ => bshRnr s k h
    | some _, none => if bpGen h < g.gen then acceptReq s k h else bshRnr s k h
    | some d, some r =>
      if bpGen h < r.gen then acceptReq s k h
      else if bpGen h ≠ r.gen ∨ r.attempt < bpAttempt h then bshRnr s k h
      else
        let place := dataPlace s g r d h
        if bpAttempt h < r.attempt then acceptReq s k h
        else
          let s1 := heard (acceptReq s k h) gid
          match place with
          | none => bshAbort s1 gid 0x0A 5 g.rank none
          | some x =>
            if x.2.2 ≠ payload.length ∧ x.2.2 ≠ 0 then bshAbort s1 gid 0x0A 5 g.rank none
            else bshGo (modRun s1 gid fun r => { r with
              staged := r.staged.filter (fun y => y.1 != x.1) ++ [(x.1, payload)] }) gid

/-! Start and events. -/

/-- Early packets of a generation act once it has started. -/
def replayEarly (s : State) (gid : Nat) : State :=
  let g := bshGroup s gid
  match g.run with
  | none => s
  | some r =>
    let now := (g.early.filter fun x => x.1 == r.gen).map Prod.snd
    let s1 := modBsh s gid fun x => { x with early := x.early.filter fun y => y.1 != r.gen }
    now.foldl (fun s p => match parsePth p.bytes with
      | none => s
      | some (h, payload, _) => match bshDir g (qpKey g.part h.qpn) with
        | none => s
        | some d => if ((bshGroup s gid).run.map BshRun.gen) = some r.gen then
            onControl h.op s gid d h payload else s) s1

/-- R251: start the operation of the entry at the head of a CMQ. -/
def bshStart (op : Nat) (s : State) (r : Nat) : State :=
  match (ring s r).taken with
  | [] => s
  | e :: _ =>
    if entryOpcode e ≠ op ∨ (ring s r).typ ≠ 6 ∨ !headReady s r e ∨ headerBad (ring s r) e then s
    else match cmqGroup s r with
    | none => finishHead s r e 0x04
    | some gid =>
      if (bshGroup s gid).run.isSome ∨ 8 ≤ bshRunning s ∨
          (partition s (ring s r).part).state = .preempted then s
      else bshGo (replayEarly (beginRun (consumeHead s r) gid e) gid) gid

/-- What the transport has told Bushel (R268): a queue pair is down, or a packet of the generation that
runs was refused; one of a queue pair that is down counts as that. -/
def bshEvent (s : State) (e : NetEvent) : State :=
  match e with
  | .down k =>
    (s.bushel.filter fun x => x.2.run.isSome && (bshDir x.2 k).isSome && x.2.part == qpPart k).foldl
      (fun s x => bshAbort s x.1 0x0A 2 x.2.rank none) s
  | .refused (.bushel gid) k st _ _ gen _ =>
    let g := bshGroup s gid
    if (g.run.map BshRun.gen) ≠ some gen then s
    else if (qp s k).state = .rts ∨ (qp s k).state = .drain then bshAbort s gid st 6 g.rank none
    else bshAbort s gid 0x0A 2 g.rank none
  | .refused _ _ _ _ _ _ _ => s

/-- What a finished run writes, as offsets from dst: all of it, or after a re-run what lies in the
tainted ranges. -/
def runWrites (g : BshGroup) (r : BshRun) : List (Nat × List Byte) :=
  let bs := r.result.getD []
  if r.attempt = 0 then (if bs.isEmpty then [] else [(0, bs)])
  else
    let conv (n : Nat) : Nat := spanBytes (bshFout r.entry) (spanElems (bshWire r.entry) n)
    let seg := spanBytes (bshWire r.entry) (bshCount r.entry / max 1 (bshSize g))
    r.taints.filterMap fun x =>
      let span : Nat × Nat := match entryOpcode r.entry with
        | 0x20 =>
          let lo := max x.1 (g.rank * seg)
          let hi := min (x.1 + x.2) ((g.rank + 1) * seg)
          (conv (lo - g.rank * seg), conv (hi - lo))
        | 0x26 => (x.1 + (8 * bshSize g + 63) / 64 * 64, x.2)
        | _ => x
      let piece := (bs.drop span.1).take span.2
      if piece.isEmpty then none else some (span.1, piece)

/-- Write a run's results; the first failure ends them. -/
def writeRun (s : State) (g : BshGroup) (r : BshRun) : Except MemFail Unit × State :=
  let x := ring s g.cmq
  (runWrites g r).foldl (fun a w =>
    match a.1 with
    | .error e => (.error e, a.2)
    | .ok _ => writeVa a.2 .fabric fabricUnit x.part x.ctx (bshDst r.entry + w.1) w.2) (.ok (), s)

/-- R267: re-run the tainted ranges, reading src again. The credit of the first run goes on (R264). -/
def rerun (s : State) (gid : Nat) : State :=
  let g := bshGroup s gid
  match g.run with
  | none => s
  | some r =>
    let d := bshInput (writeRun s g r).2 g r.entry
    match d.1 with
    | .error st => bshAbort d.2 gid st 6 g.rank none
    | .ok bs =>
      let map := if entryOpcode r.entry = 0x26 then clearTail (bshCount r.entry) bs else bs
      let b := if entryOpcode r.entry = 0x26 then sparseBlocks d.2 g r.entry map else (.ok [], d.2)
      match b.1 with
      | .error st => bshAbort b.2 gid st 6 g.rank none
      | .ok blocks =>
        let n := newRun s g r.entry r.oper map blocks
        let n1 : BshRun := { n with
          gen := r.gen, attempt := 1, taints := r.taints, tainted := true, orank := r.orank
          expo := r.expo, eaten := r.eaten
          map := r.map
          phase := if n.phase = 0 then 1 else n.phase
          data := if n.phase = 0 then toWire r.entry r.expo bs else n.data }
        let s1 := bshCountUp (modRun b.2 gid fun _ => n1) 32
        bshGo s1 gid

/-- R265: the operation has run: its results become visible, its sync object is signalled and its
entry completes. -/
def bshFinish (s : State) (gid : Nat) : State :=
  let g := bshGroup s gid
  match g.run with
  | none => s
  | some r =>
    let w := writeRun s g r
    match w.1 with
    | .error (.xlate _ _) => bshAbort w.2 gid 0x03 6 g.rank none
    | .error f => bshAbort w.2 gid (failStatus f) 6 g.rank none
    | .ok _ =>
      let st : BitVec 8 := if r.status ≠ 0 then r.status else if r.attempt = 1 then 0x12 else 0
      bshEnd w.2 gid st r.bytes (if r.attempt = 1 then r.orank else 0xFFFF) 0
        (if bshFoir r.entry then r.expo else 0)

end Sys2Proof.Machine
end

