-- ==== Sys2Proof/Machine/CarderOps.lean ====
section
/-! DEFINITION. Carder: bindings and sequence tags, the assignment of tokens, gates, packing and
arrival, the return of outputs, and completion (R272 to R289). -/

namespace Sys2Proof.Machine

/-! Tags and bindings. -/

def crdTag (s : State) (t : Nat) : CrdTag := tget CrdTag.free s.tags t
def setTag (s : State) (t : Nat) (x : CrdTag) : State := { s with tags := tset CrdTag.free s.tags t x }
def modTag (s : State) (t : Nat) (f : CrdTag → CrdTag) : State := setTag s t (f (crdTag s t))

/-- The binding of an SQ, and the one whose domain a queue pair belongs to. -/
def sqBind (s : State) (r : Nat) : Option CrdBind := s.binds.find? fun b => b.sq == r
def qpBind (s : State) (k : Nat) : Option CrdBind :=
  s.binds.find? fun b => b.part == qpPart k &&
    ((List.range b.ranks.length).any fun i => i != b.rank && b.ranks.getD i 0 == qpNum k)

/-- Ranks, experts, and the bytes of a token record. -/
def crdN (b : CrdBind) : Nat := b.ranks.length
def crdExp (b : CrdBind) (e : Nat) : CrdExpert :=
  b.experts.getD e { cap := 0, erank := 0, group := 0, valid := false }
def crdRec (b : CrdBind) : Nat := b.tsz * 64

/-- The rank at the other end of a queue pair, and the queue pair of a rank. -/
def qpRank (b : CrdBind) (k : Nat) : Nat :=
  ((List.range (crdN b)).find? fun i => i != b.rank && b.ranks.getD i 0 == qpNum k).getD 0
def rankQp (b : CrdBind) (r : Nat) : Nat := qpKey b.part (b.ranks.getD r 0)

/-- Queue pairs of a binding. -/
def bindQps (b : CrdBind) : List Nat :=
  ((List.range (crdN b)).filter fun r => r != b.rank).map (rankQp b)

/-- A rank is this member, or its queue pair carries work: it has not failed (R26, R283, R287). -/
def rankUp (s : State) (b : CrdBind) (r : Nat) : Bool :=
  let st := (qp s (rankQp b r)).state
  r == b.rank || st == .rts || st == .drain

/-- Experts hosted at a rank, ascending. -/
def hostedAt (b : CrdBind) (r : Nat) : List Nat :=
  (List.range b.experts.length).filter fun e => (crdExp b e).valid && (crdExp b e).erank == r

/-- The host entry that serves an expert hosted here. -/
def crdHost (b : CrdBind) (e : Nat) : CrdHost :=
  b.hosts.getD (crdExp b e).group { base := 0, stride := 0, sync := 0, nbuf := 1 }

/-- R282: bytes of the counts area, of a share and of a receive buffer. -/
def countsArea (b : CrdBind) : Nat := (crdN b * 4 + 63) / 64 * 64
def shareLen (b : CrdBind) (e : Nat) : Nat := (crdExp b e).cap * crdRec b
def bufferLen (b : CrdBind) (e : Nat) : Nat := countsArea b + crdN b * shareLen b e

/-- R282: address of the receive buffer of a tag for an expert, and of a source's share in it. -/
def bufferVa (b : CrdBind) (t e : Nat) : Nat :=
  let h := crdHost b e
  h.base + t % max 1 h.nbuf * h.stride
def shareVa (b : CrdBind) (t e r : Nat) : Nat := bufferVa b t e + countsArea b + r * shareLen b e

/-- R282, R288: the buffer of a tag for an expert is held by another tag. -/
def bufferHeld (s : State) (b : CrdBind) (t e : Nat) : Bool :=
  let n := max 1 (crdHost b e).nbuf
  (List.range b.tagcnt).any fun i =>
    let u := b.tagbase + i
    u != t && u % n == t % n && (crdTag s u).holds

/-- Entries running on the device (R288). -/
def crdRunning (s : State) : Nat :=
  ((s.tags.map fun x => x.2.disp.toList.length + x.2.comb.toList.length)).foldl (· + ·) 0

/-- CRD_PROG (R289). -/
def crdProg : Nat := 0x0400008

/-! Fields of DISPATCH and COMBINE (R276, R284). -/

def crdTagOf (e : RingEntry) : Nat := entryField e 0x10 2 % 1024
def crdNtok (e : RingEntry) : Nat := entryField e 0x12 2
def crdK (e : RingEntry) : Nat := entryByte e 0x14
def crdDepth (e : RingEntry) : Nat := entryByte e 0x15 % 16
def crdMode (e : RingEntry) : Nat := entryByte e 0x15 / 16 % 4
def crdBf16 (e : RingEntry) : Bool := entryByte e 0x15 / 64 % 2 == 1
def crdRoute (e : RingEntry) : Nat := entryField e 0x28 8
def crdSync (e : RingEntry) : Nat := entryField e 0x30 8
def crdSigcnt (e : RingEntry) : Nat := if entryExt e = 1 then entryField e 0x40 4 else 1
def crdStride (e : RingEntry) (d : Nat) : Nat := if entryExt e = 1 then entryField e 0x44 4 else d

/-- The extension slot breaks R276 for a record of `d` bytes. -/
def crdExtBad (e : RingEntry) (d : Nat) : Bool :=
  entryExt e == 1 && (crdStride e d % 64 != 0 || decide (crdStride e d < d) ||
    entryField e 0x48 56 != 0)

/-- R276, R279: a DISPATCH entry is malformed. -/
def dispatchBad (b : CrdBind) (e : RingEntry) : Bool :=
  let valid := (b.experts.filter fun x => x.valid).length
  decide (1024 ≤ entryField e 0x10 2) || decide (crdNtok e = 0 ∨ 16384 < crdNtok e) ||
  decide (crdK e = 0 ∨ 8 < crdK e ∨ valid < crdK e) || decide (8 < crdDepth e) || crdMode e == 3 ||
  decide (128 ≤ entryByte e 0x15) || entryField e 0x16 2 != 0 || entryField e 0x38 8 != 0 ||
  crdExtBad e (crdRec b)

/-! Assignment (R277, R278). -/

/-- A logit as it is ordered: NaN counts as -Inf. -/
def logitVal (f : Fmt) (bits_ : Nat) : Val :=
  match decodeElem f bits_ with
  | .nan => .inf true
  | v => v

/-- Insert an expert by descending logit; a tie keeps the lower index first. -/
def insertLogit (x : Nat × Val) : List (Nat × Val) → List (Nat × Val)
  | [] => [x]
  | y :: ys => if valLtNum y.2 x.2 then x :: y :: ys else y :: insertLogit x ys

/-- R277: the choice list of a token: its best `n` valid experts. -/
def choiceList (b : CrdBind) (f : Fmt) (row : List Nat) (n : Nat) : List Nat :=
  let xs := ((List.range b.experts.length).filter fun e => (crdExp b e).valid).map fun e =>
    (e, logitVal f (row.getD e 0))
  ((xs.foldl (fun l x => insertLogit x l) []).take n).map Prod.fst

/-- What one pass has assigned so far: tokens per expert, and the choices. -/
structure Assign where
  counts : Table Nat
  choices : List CrdChoice
  deriving DecidableEq, Repr

/-- An expert has room for another token. -/
def crdRoom (b : CrdBind) (a : Assign) (e : Nat) : Bool := decide (tget 0 a.counts e < (crdExp b e).cap)

/-- Give a token a place at an expert. -/
def takeSeat (a : Assign) (t j e : Nat) (re : Bool) : Assign :=
  let pos := tget 0 a.counts e
  { counts := tset 0 a.counts e (pos + 1)
    choices := a.choices ++ [{ tok := t, num := j, expert := e, pos := pos, assigned := true
                               rerouted := re, failed := false, gate := 0 }] }

/-- R277: assign choice `j` of token `t` whose list is `cs`. -/
def assignOne (b : CrdBind) (k t j : Nat) (cs : List Nat) (a : Assign) : Assign :=
  let drop : Assign := { a with choices := a.choices ++
    [{ tok := t, num := j, expert := 0, pos := 0, assigned := false, rerouted := false
       failed := false, gate := 0 }] }
  match cs[j]? with
  | none => drop
  | some e =>
    if crdRoom b a e then takeSeat a t j e false
    else
      let mine := (a.choices.filter fun c => c.tok == t && c.assigned).map CrdChoice.expert
      match (cs.drop k).find? fun x => !mine.contains x && crdRoom b a x with
      | some x => takeSeat a t j x true
      | none => drop

/-- The k passes; a token of poisoned logits is left out, its choices failed (R288). -/
def assignAll (b : CrdBind) (k : Nat) (lists : List (Option (List Nat))) : Assign :=
  (List.range k).foldl (fun a j =>
    ((List.range lists.length).zip lists).foldl (fun a x => match x.2 with
      | some cs => assignOne b k x.1 j cs a
      | none => { a with choices := a.choices ++
          [{ tok := x.1, num := j, expert := 0, pos := 0, assigned := false, rerouted := false
             failed := true, gate := 0 }] }) a) { counts := [], choices := [] }

/-! Gates (R279). -/

def f32 (x : Nat) : Val := decodeElem .fp32 x
def f32Bits (v : Val) : Nat := encodeFloat .fp32 .rne 0 v
def f32Add (a b : Nat) : Nat := f32Bits (valAdd (f32 a) (f32 b))
def f32Mul (a b : Nat) : Nat := f32Bits (valMul (f32 a) (f32 b))
def f32Div (a b : Nat) : Nat := f32Bits (valDiv (f32 a) (f32 b))
def f32Sub (a b : Nat) : Nat := f32Bits (valAdd (f32 a) (valNeg (f32 b)))
def f32Exp (x : Nat) : Nat := exp2Bits .fp32 .rne (f32Mul x 0x3FB8AA3B)

/-- The largest finite value of a list of FP32 bits. -/
def largestFinite (xs : List Nat) : Option Nat :=
  xs.foldl (fun m x => match f32 x with
    | .fin _ _ _ => (match m with
      | none => some x
      | some y => if valLtNum (f32 y) (f32 x) then some x else some y)
    | _ => m) none

/-- The gate of an assigned expert, from its token's logits in FP32 and the experts that the sum
covers; `open_` is a free value, for a token without a finite logit, of which the spec states no
result. -/
def gateOf (mode : Nat) (row : List Nat) (among : List Nat) (e : Nat) (open_ : Nat) : Nat :=
  if mode = 2 then row.getD e 0
  else match largestFinite (among.map fun i => row.getD i 0) with
  | none => open_
  | some m =>
    let sum := among.foldl (fun (a : Option Nat) i =>
      let x := f32Exp (f32Sub (row.getD i 0) m)
      some (match a with | none => x | some y => f32Add y x)) none
    f32Div (f32Exp (f32Sub (row.getD e 0) m)) (sum.getD 0)

/-- Insert into a rising list, for the experts assigned to a token. -/
def risingSet (l : List Nat) : List Nat := l.foldl (fun a x => insertNat x a) []

/-- The choices with their gates; `rows` are the tokens' logits in FP32. -/
def withGates (b : CrdBind) (mode free : Nat) (rows : List (List Nat)) (cs : List CrdChoice) :
    List CrdChoice :=
  let valid := (List.range b.experts.length).filter fun e => (crdExp b e).valid
  cs.map fun c =>
    if !c.assigned then c
    else
      let among := if mode = 1 then
          risingSet ((cs.filter fun d => d.tok == c.tok && d.assigned).map CrdChoice.expert)
        else valid
      let x := (Config.freeWord (free + 2 ^ 64 * (c.tok * 8 + c.num + 1))).toNat % 2 ^ 32
      { c with gate := BitVec.ofNat 32 (gateOf mode (rows.getD c.tok []) among c.expert x) }

/-! Reading. -/

/-- What reading a record came to: its bytes, poison, or a failure that ends the entry. -/
inductive RecRead where
  | ok (bs : List Byte)
  | poison
  | fail (st : BitVec 8)
  deriving DecidableEq, Repr

/-- Read with the SQ's partition and context. -/
def crdRead (s : State) (b : CrdBind) (va n : Nat) : RecRead × State :=
  let d := readVa s .fabric fabricUnit b.part b.ctx va n
  (match d.1 with
    | .ok bs => .ok bs
    | .error (.poison _) => .poison
    | .error (.xlate _ _) => .fail 0x03
    | .error .hostLost => .fail 0x08, d.2)

/-- Read `n` records of `len` bytes; the status that ends the entry, or the records (none: poison). -/
def crdReads (s : State) (b : CrdBind) (va stride len : Nat) :
    Nat → Except (BitVec 8) (List (Option (List Byte))) × State
  | 0 => (.ok [], s)
  | n + 1 =>
    let r := crdRead s b va len
    match r.1 with
    | .fail st => (.error st, r.2)
    | x =>
      let rest := crdReads r.2 b (va + stride) stride len n
      match rest.1 with
      | .error st => (.error st, rest.2)
      | .ok l => (.ok ((match x with | .ok bs => some bs | _ => none) :: l), rest.2)

/-- Write with the SQ's partition and context. -/
def crdWrite (s : State) (b : CrdBind) (va : Nat) (bs : List Byte) : Except (BitVec 8) Unit × State :=
  if bs.isEmpty then (.ok (), s)
  else
    let w := writeVa s .fabric fabricUnit b.part b.ctx va bs
    (match w.1 with
      | .ok _ => .ok ()
      | .error .hostLost => .error 0x08
      | .error _ => .error 0x03, w.2)

/-! Packets (R281). -/

/-- Send bytes of a share to a rank in packets of at most the MTU; `first` and `last` say whether they
begin and end the message (R190); `n` bounds their number. -/
def crdSend (s : State) (b : CrdBind) (src : WorkSrc) (op rank t e share off : Nat)
    (first last : Bool) (bs : List Byte) : Nat → State
  | 0 => s
  | n + 1 =>
    let k := rankQp b rank
    let m := (max 8 (qp s k).mtu) / 4 * 4
    let now := bs.take m
    let flags := (if first then 1 else 0) + (if last ∧ bs.length ≤ m then 2 else 0)
    let done := op == 0x39
    let s1 := submit s k src op (t * 2 ^ 16 + e)
      (if done then 0 else share * 2 ^ 32) 0 flags (if done then 0 else off) 0 (some now)
    if bs.length ≤ m then s1
    else crdSend s1 b src op rank t e share (off + m) false last (bs.drop m) n

/-- Fields of a Carder packet. -/
def cpTag (h : Pth) : Nat := (h.key.extractLsb' 16 16).toNat
def cpExpert (h : Pth) : Nat := (h.key.extractLsb' 0 16).toNat
def cpOff (h : Pth) : Nat := h.aux.toNat
def cpShare (h : Pth) : Nat := bits h.off 32 32

/-! The host's side (R282). -/

/-- Record the status of a failure in a tag: the first one stands. The tag's running entry, or else its
next one, completes with it (R123, R288). -/
def failTag (s : State) (t : Nat) (st : BitVec 8) : State :=
  modTag s t fun x => { x with failSt := if x.failSt = 0 then st else x.failSt }

/-- A tag's status of the result of a read or a write. -/
def failOf (s : State) (t : Nat) (w : Except (BitVec 8) Unit) : State :=
  match w with
  | .ok _ => s
  | .error st => failTag s t st

/-- A sequence's done messages have come from every rank: counts are written, then the group's sync
object is signalled, for each hosted expert. No entry's completion is named for what fails here: a
counts area that cannot be written fails the tag's entry, and a signal that is refused writes a
contained SIGNAL_DISCARD record of unit CARDER, instance 0 (DESIGN CHOICE, log entry 78). -/
def countTag (s : State) (b : CrdBind) (t : Nat) : State :=
  let x := crdTag s t
  if x.counted ∨ !((List.range (crdN b)).all x.ranksDone.contains) then s
  else
    let s1 := setTag s t { x with counted := true, holds := true }
    (hostedAt b b.rank).foldl (fun s e =>
      let bs := (List.range (crdN b)).flatMap fun r => leBytes 4 (tget 0 x.counts (4096 * r + e))
      let w := crdWrite s b (bufferVa b t e) bs
      let s' := failOf w.2 t w.1
      let sync := (crdHost b e).sync
      if sync = 0 then s' else signalVa s' 0x0C 0 fabricUnit b.part b.ctx sync 1) s1

/-- A rank's done message, or a packet of it, takes effect. -/
def takeDone (b : CrdBind) (x : CrdTag) (d : CrdDone) : CrdTag :=
  { x with
    counts := d.counts.foldl (fun m c => tset 0 m (4096 * d.rank + c.1) c.2) x.counts
    ranksDone := if d.last ∧ d.rank < crdN b then x.ranksDone ++ [d.rank] else x.ranksDone
    holds := true }

/-- R282: done messages behind which every PSN has taken effect are applied. -/
def applyDones (s : State) (b : CrdBind) (t : Nat) : State :=
  let x := crdTag s t
  let due (d : CrdDone) : Bool := decide (psnDiff d.psn (qp s d.qp).rcvNxt < 0)
  let y := (x.dones.filter due).foldl (takeDone b) { x with dones := x.dones.filter fun d => !due d }
  if y = x then s else countTag (setTag s t y) b t

/-- Carder's answer of RNR. -/
def crdRnr (s : State) (k : Nat) (h : Pth) : State := sendRnr (bump s crdStat 16 16 1) k h.psn h.ts

/-- The tag of a packet belongs to the binding. -/
def crdTagOk (b : CrdBind) (t : Nat) : Bool := decide (b.tagbase ≤ t ∧ t < b.tagbase + b.tagcnt)

/-- CRD_TOK at the host (R282). -/
def onCrdTok : Handler := fun s k _ h payload =>
  request s k h (fun s => sendAck s k h.ts) fun s =>
    match qpBind s k with
    | none => refuseReq s k h 1 0x04
    | some b =>
      let t := cpTag h
      let e := cpExpert h
      let r := qpRank b k
      let here := (crdExp b e).valid && (crdExp b e).erank == b.rank
      if crdTagOk b t ∧ here ∧ (bufferHeld s b t e ∨ (crdTag s t).ranksDone.contains r) then crdRnr s k h
      else if !here ∨ !crdTagOk b t ∨ shareLen b e < cpOff h + payload.length ∨
          shareLen b e < cpShare h then refuseReq s k h 1 0x04
      else
        let w := writeVa s .fabric fabricUnit b.part b.ctx (shareVa b t e r + cpOff h) payload
        match w.1 with
        | .error .hostLost => w.2
        | .error _ => refuseReq w.2 k h 1 0x03
        | .ok _ => acceptReq (modTag w.2 t fun x => { x with holds := true, sq := b.sq }) k h

/-- The entries of a done message. -/
def doneCounts (payload : List Byte) : List (Nat × Nat) :=
  (List.range (payload.length / 4)).map fun i =>
    let v := beField payload (4 * i) 4
    (v / 65536 % 4096, v % 65536)

/-- CRD_DONE at the host (R282). -/
def onCrdDone : Handler := fun s k _ h payload =>
  request s k h (fun s => sendAck s k h.ts) fun s =>
    match qpBind s k with
    | none => refuseReq s k h 1 0x04
    | some b =>
      let t := cpTag h
      let r := qpRank b k
      let cs := doneCounts payload
      if crdTagOk b t ∧ ((hostedAt b b.rank).any (fun e => bufferHeld s b t e) ∨
          (crdTag s t).ranksDone.contains r) then crdRnr s k h
      else if !crdTagOk b t ∨ cs.any (fun c => !(hostedAt b b.rank).contains c.1 ||
          decide ((crdExp b c.1).cap < c.2)) then refuseReq s k h 1 0x04
      else
        let d : CrdDone := { qp := k, psn := h.psn, rank := r, last := h.last, counts := cs }
        applyDones (acceptReq (modTag s t fun x => { x with
          dones := x.dones ++ [d], holds := true, sq := b.sq }) k h) b t

/-! DISPATCH (R276 to R283). -/

/-- What is packed for an expert: the runs of its tokens in position order, each the offset in the
share and its bytes. The place of a failed token stays empty (log entry 77). -/
def packFor (b : CrdBind) (cs : List CrdChoice) (tokens : List (List Byte)) (e : Nat) :
    List (Nat × List Byte) :=
  let mine := cs.filter fun c => c.assigned && c.expert == e
  (List.range mine.length).foldr (fun p runs =>
    match mine.find? fun c => c.pos == p && !c.failed with
    | none => runs
    | some c =>
      let bs := tokens.getD c.tok []
      match runs with
      | [] => [(p * crdRec b, bs)]
      | x :: more =>
        if x.1 = (p + 1) * crdRec b then (p * crdRec b, bs ++ x.2) :: more
        else (p * crdRec b, bs) :: runs) []

/-- Tokens of this member assigned to an expert. -/
def countFor (cs : List CrdChoice) (e : Nat) : Nat :=
  (cs.filter fun c => c.assigned && c.expert == e).length

/-- Send a rank the tokens of one expert: one message. -/
def sendExpert (s : State) (b : CrdBind) (src : WorkSrc) (t rank e : Nat) (cs : List CrdChoice)
    (tokens : List (List Byte)) : State :=
  let runs := packFor b cs tokens e
  (runs.zip (List.range runs.length)).foldl (fun s x =>
    crdSend s b src 0x38 rank t e (countFor cs e * crdRec b) x.1.1 (x.2 == 0)
      (x.2 + 1 == runs.length) x.1.2 (x.1.2.length + 1)) s

/-- Send a rank its done message, with a count for every expert that it hosts. -/
def sendDone (s : State) (b : CrdBind) (src : WorkSrc) (t rank : Nat) (count : Nat → Nat) : State :=
  let done := (hostedAt b rank).flatMap fun e => beBytes 4 (e * 65536 + count e)
  crdSend s b src 0x39 rank t 0 0 0 true true done (done.length + 1)

/-- Send a rank its tokens and then its done message; a rank whose queue pair has failed gets nothing. -/
def sendRank (s : State) (b : CrdBind) (src : WorkSrc) (t rank : Nat) (cs : List CrdChoice)
    (tokens : List (List Byte)) : State :=
  if !rankUp s b rank then s
  else sendDone ((hostedAt b rank).foldl (fun s e => sendExpert s b src t rank e cs tokens) s) b src t
    rank (countFor cs)

/-- Copy the member's tokens for its own experts, and count its own done message. -/
def copyOwn (s : State) (b : CrdBind) (t : Nat) (cs : List CrdChoice) (tokens : List (List Byte)) :
    Except (BitVec 8) Unit × State :=
  let es := hostedAt b b.rank
  let w := es.foldl (fun (a : Except (BitVec 8) Unit × State) e => match a.1 with
    | .error st => (.error st, a.2)
    | .ok _ => (packFor b cs tokens e).foldl (fun a x => match a.1 with
        | .error st => (.error st, a.2)
        | .ok _ => crdWrite a.2 b (shareVa b t e b.rank + x.1) x.2) a) (.ok (), s)
  let d : CrdDone := { qp := 0, psn := 0, rank := b.rank, last := true
                       counts := es.map fun e => (e, countFor cs e) }
  (w.1, countTag (modTag w.2 t fun x => takeDone b x d) b t)

/-- Signal an entry's sync object: the status that the signal came to (R123, R141, R151). -/
def crdSignal (s : State) (b : CrdBind) (e : RingEntry) : BitVec 8 × State :=
  signalFor s b.sq (crdSync e) (BitVec.ofNat 64 (crdSigcnt e))

/-- The status of an entry whose table gives `own`: a signal that failed stands in place of ST_OK and
ST_CAPACITY_DROP (R283, R287). -/
def afterSignal (own sg : BitVec 8) : BitVec 8 :=
  if sg ≠ 0 ∧ (own = 0 ∨ own = 0x0B) then sg else own

/-- The route area (R280): its prefix, entries and status bitmap. -/
def routeBytes (b : CrdBind) (ntok k : Nat) (cs : List CrdChoice) : List Byte :=
  let ne := b.experts.length
  let p := (ne * 4 + 63) / 64 * 64
  let at_ (t j : Nat) : CrdChoice := (cs.find? fun c => c.tok == t && c.num == j).getD
    { tok := t, num := j, expert := 0, pos := 0, assigned := false, rerouted := false, failed := false
      gate := 0 }
  let prefixes := (List.range ne).flatMap fun e =>
    leBytes 4 ((cs.filter fun c => c.assigned && decide (c.expert < e)).length)
  let entry (c : CrdChoice) : Nat :=
    (if c.failed then 0 else c.gate.toNat) * 2 ^ 32 + flagBit c.assigned 31 + flagBit c.rerouted 30 +
      flagBit c.failed 29 + c.expert * 65536 + c.pos
  let entries := (List.range ntok).flatMap fun t =>
    (List.range k).flatMap fun j => leBytes 8 (entry (at_ t j))
  let status := (List.range ntok).map fun t =>
    BitVec.ofNat 8 (((List.range k).map fun j =>
      let c := at_ t j
      if c.assigned ∧ !c.failed then 0 else 2 ^ j).foldl (· + ·) 0)
  prefixes ++ List.replicate (p - 4 * ne) 0 ++ entries ++ status

/-- An entry that starts nothing completes with a status. -/
def crdReject (s : State) (r : Nat) (e : RingEntry) (st : BitVec 8) : State := finishHead s r e st

/-- Mark choices as failed. -/
def failChoices (x : CrdTag) (f : CrdChoice → Bool) : CrdTag :=
  { x with choices := x.choices.map fun c => if c.assigned && f c then { c with failed := true } else c }

/-- Choices that were dropped, that were rerouted, and that failed. -/
def droppedOf (cs : List CrdChoice) : Nat := (cs.filter fun c => !c.assigned && !c.failed).length
def reroutedOf (cs : List CrdChoice) : Nat := (cs.filter fun c => c.rerouted).length
def failedOf (cs : List CrdChoice) : Nat := (cs.filter fun c => c.failed).length

/-- CRD_STAT.FAIL counts choices as they are marked F (R289). -/
def countFailed (s : State) (n : Nat) : State := bump s crdStat 0 16 n

/-- Mark choices of a tag as failed, and count them. -/
def markFailed (s : State) (t : Nat) (f : CrdChoice → Bool) : State :=
  let x := crdTag s t
  let y := failChoices x f
  countFailed (setTag s t y) (failedOf y.choices - failedOf x.choices)

/-- Choices as FP32 rows: logits of a token. -/
def logitRow (bf16 : Bool) (ne : Nat) (bs : List Byte) : List Nat :=
  if bf16 then (elemsOf 2 ne bs).map fun x => x * 65536 else elemsOf 4 ne bs

/-- DISPATCH of the head entry of a bound SQ, its checks passed (R277 to R282). -/
def beginDispatch (s : State) (b : CrdBind) (e : RingEntry) : State :=
  let t := crdTagOf e
  let ne := b.experts.length
  let n := crdNtok e
  let w := if crdBf16 e then 2 else 4
  let s0 := consumeHead s b.sq
  let lg := crdReads s0 b (entryField e 0x18 8) (ne * w) (ne * w) n
  let inUse (s : State) : State := modTag s t fun x => { x with
    sq := b.sq, inUse := true, ntok := n, topk := crdK e, route := crdRoute e, disp := none
    comb := none, choices := [], nak := false, timeout := false, got := [], startedAt := fdTime s }
  match lg.1 with
  | .error st => completeEntry (inUse lg.2) b.sq e st 0 0 0
  | .ok logits =>
    let tk := crdReads lg.2 b (entryField e 0x20 8) (crdStride e (crdRec b)) (crdRec b) n
    match tk.1 with
    | .error st => completeEntry (inUse tk.2) b.sq e st 0 0 0
    | .ok toks =>
      let rows := logits.map fun x => logitRow (crdBf16 e) ne (x.getD [])
      let lists := (logits.zip rows).map fun x =>
        if x.1.isNone then none else some (choiceList b .fp32 x.2 (crdK e + crdDepth e))
      let a := assignAll b (crdK e) lists
      let lost (c : CrdChoice) : Bool := (toks.getD c.tok none).isNone ||
        (c.assigned && !rankUp s b (crdExp b c.expert).erank)
      let cs := (withGates b (crdMode e) tk.2.freeCtr rows a.choices).map fun c =>
        if lost c then { c with failed := true } else c
      let bad := logits.any Option.isNone || toks.any Option.isNone
      let tokens := toks.map fun x => x.getD []
      let s0 := modTag (inUse (takeFree tk.2).2) t fun x => { x with
        disp := some e, choices := cs
        failSt := if x.failSt = 0 ∧ bad then 0x0D else x.failSt }
      let s1 := countFailed s0 (failedOf cs)
      let src : WorkSrc := .carder b.sq e.index
      let s2 := ((List.range (crdN b)).filter fun r => r != b.rank).foldl (fun s r =>
        sendRank s b src t r cs tokens) s1
      let o := copyOwn s2 b t cs tokens
      failOf o.2 t o.1

/-- Packets of an entry are outstanding on some queue pair. -/
def crdOutstanding (s : State) (b : CrdBind) (e : RingEntry) : Bool :=
  s.qps.any fun x => qpPart x.1 == b.part && x.2.ops.any fun o => o.src == .carder b.sq e.index

/-- R283: DISPATCH of a tag completes: the route area, the signal, the entry. -/
def endDispatch (s : State) (b : CrdBind) (t : Nat) (e : RingEntry) : State :=
  let x := crdTag s t
  let cs := x.choices
  let w := crdWrite s b (crdRoute e) (routeBytes b (crdNtok e) (crdK e) cs)
  let pre : BitVec 8 := match w.1 with | .error st => st | .ok _ => x.failSt
  let own : BitVec 8 :=
    if pre ≠ 0 then pre
    else if cs.any fun c => c.failed then 0x06
    else if droppedOf cs ≠ 0 then 0x0B else 0
  let sg := crdSignal w.2 b e
  let st := afterSignal own sg.1
  let s1 := bump (bump sg.2 crdStat 48 16 (droppedOf cs)) crdStat 32 16 (reroutedOf cs)
  let bytes := (cs.filter fun c => c.assigned && !c.failed).length * crdRec b
  let s2 := modTag s1 t fun x => { x with disp := none, failSt := 0 }
  completeEntry s2 b.sq e st bytes (BitVec.ofNat 64 (droppedOf cs + 2 ^ 32 * reroutedOf cs))
    (BitVec.ofNat 64 t)

/-! COMBINE (R284 to R287). -/

/-- Element format codes of COMBINE, and the elements of a record. -/
def combFin (e : RingEntry) : Nat := entryByte e 0x14 % 16
def combFout (e : RingEntry) : Nat := entryByte e 0x14 / 16
def combElems (b : CrdBind) (e : RingEntry) : Nat := crdRec b / fmtBytes (combFin e)
def combOut (b : CrdBind) (e : RingEntry) : Nat := combElems b e * fmtBytes (combFout e)

/-- R284: a COMBINE entry is malformed; `d` is the DISPATCH's number of tokens and route area. -/
def combineBad (b : CrdBind) (e : RingEntry) (d : Nat × Nat) : Bool :=
  decide (1024 ≤ entryField e 0x10 2) || decide (2 < combFin e ∨ 2 < combFout e) ||
  entryField e 0x15 3 != 0 || crdNtok e != d.1 || crdRoute e != d.2 || crdExtBad e (crdRec b)

/-- Choices per token of a tag's DISPATCH. -/
def tagK (x : CrdTag) : Nat := x.topk

/-- Assigned tokens of experts below one. -/
def prefixOf (cs : List CrdChoice) (e : Nat) : Nat :=
  (cs.filter fun c => c.assigned && decide (c.expert < e)).length

/-- The choices as the route area holds them. -/
def routeChoices (b : CrdBind) (ntok k : Nat) (bs : List Byte) : List CrdChoice :=
  let p := (b.experts.length * 4 + 63) / 64 * 64
  (List.range ntok).flatMap fun t => (List.range k).map fun j =>
    let v := leNat ((bs.drop (p + 8 * (t * k + j))).take 8)
    { tok := t, num := j, expert := v / 65536 % 4096, pos := v % 65536, assigned := v / 2 ^ 31 % 2 == 1
      rerouted := v / 2 ^ 30 % 2 == 1, failed := v / 2 ^ 29 % 2 == 1
      gate := BitVec.ofNat 32 (v / 2 ^ 32) }

/-- Send every source rank its outputs (R285); the member's own are copied to its return area. Of its
own outputs that cannot be read or copied, the choices fail with the entry. -/
def sendReturns (s : State) (b : CrdBind) (t : Nat) (e : RingEntry) : State :=
  let x := crdTag s t
  let src : WorkSrc := .carder b.sq e.index
  let pairs := (hostedAt b b.rank).flatMap fun ex => (List.range (crdN b)).map fun r => (ex, r)
  pairs.foldl (fun s p =>
    let n := tget 0 x.counts (4096 * p.2 + p.1) * crdRec b
    if n = 0 ∨ !rankUp s b p.2 then s
    else
      let fail (s : State) (st : BitVec 8) : State :=
        let s1 := failTag s t st
        if p.2 = b.rank then markFailed s1 t fun c => c.expert == p.1 else s1
      let d := crdRead s b (shareVa b t p.1 p.2) n
      match d.1 with
      | .fail st => fail d.2 st
      | .poison => fail d.2 0x0D
      | .ok bs =>
        if p.2 = b.rank then
          let w := crdWrite d.2 b (entryField e 0x18 8 + prefixOf x.choices p.1 * crdRec b) bs
          (match w.1 with
            | .error st => fail w.2 st
            | .ok _ => modTag w.2 t fun x => { x with got := x.got ++ [(p.1, 0, n)] })
        else crdSend d.2 b src 0x3A p.2 t p.1 n 0 true true bs (n + 1)) s

/-- COMBINE of the head entry of a bound SQ starts, its checks passed (R285). -/
def beginCombine (s : State) (b : CrdBind) (e : RingEntry) : State :=
  let t := crdTagOf e
  let x := crdTag s t
  let s0 := consumeHead s b.sq
  let n := crdNtok e
  let k := tagK x
  let len := (b.experts.length * 4 + 63) / 64 * 64 + 8 * n * k + n
  let free (s : State) : State := setTag s t CrdTag.free
  let d := crdRead s0 b (crdRoute e) len
  match d.1 with
  | .fail st => completeEntry (free d.2) b.sq e st 0 0 0
  | .poison => completeEntry (free d.2) b.sq e 0x0D 0 0 0
  | .ok bs =>
    let cs := routeChoices b n k bs
    if entryField e 0x38 8 < (cs.filter fun c => c.assigned).length * crdRec b then
      completeEntry (free d.2) b.sq e 0x04 0 0 0
    else
      let up := rankUp s b
      let s1 := modTag d.2 t fun x => { x with
        comb := some e, choices := cs, got := [], timeout := false, startedAt := fdTime s
        nak := x.nak || !(List.range (crdN b)).all up }
      sendReturns (markFailed s1 t fun c => !up (crdExp b c.expert).erank) b t e

/-- Output bytes `a` to `z` of an expert have arrived; `n` bounds the pieces. -/
def gotSpan (got : List (Nat × Nat × Nat)) (e a z : Nat) : Nat → Bool
  | 0 => decide (z ≤ a)
  | n + 1 =>
    if z ≤ a then true
    else match got.find? fun g => g.1 == e && decide (g.2.1 ≤ a ∧ a < g.2.1 + g.2.2) with
    | none => false
    | some g => gotSpan got e (g.2.1 + g.2.2) z n

/-- An assigned choice has its output. -/
def hasOutput (b : CrdBind) (x : CrdTag) (c : CrdChoice) : Bool :=
  gotSpan x.got c.expert (c.pos * crdRec b) ((c.pos + 1) * crdRec b) (x.got.length + 1)

/-- Choices that still wait for their output. -/
def missing (b : CrdBind) (x : CrdTag) : List CrdChoice :=
  x.choices.filter fun c => c.assigned && !c.failed && !hasOutput b x c

/-- CRD_RET at the source (R285). -/
def onCrdRet : Handler := fun s k _ h payload =>
  request s k h (fun s => sendAck s k h.ts) fun s =>
    match qpBind s k with
    | none => refuseReq s k h 1 0x04
    | some b =>
      let t := cpTag h
      let e := cpExpert h
      let x := crdTag s t
      if !crdTagOk b t ∨ !x.inUse then refuseReq s k h 1 0x04
      else match x.comb with
      | none => crdRnr s k h
      | some c =>
        let n := countFor x.choices e * crdRec b
        if (crdExp b e).erank ≠ qpRank b k ∨ n < cpOff h + payload.length then refuseReq s k h 1 0x04
        else
          let w := writeVa s .fabric fabricUnit b.part b.ctx
            (entryField c 0x18 8 + prefixOf x.choices e * crdRec b + cpOff h) payload
          match w.1 with
          | .error .hostLost => failTag w.2 t 0x08
          | .error _ => refuseReq w.2 k h 1 0x03
          | .ok _ => acceptReq (modTag w.2 t fun x => { x with
              got := x.got ++ [(e, cpOff h, payload.length)] }) k h

/-- R286: the output vector of a token from its choices' outputs. -/
def combineToken (b : CrdBind) (e : RingEntry) (outs : List (CrdChoice × List Byte)) : List Byte :=
  match wireFmt (combFin e), wireFmt (combFout e) with
  | some fi, some fo =>
    let wi := fmtWidth fi / 8
    (List.range (combElems b e)).flatMap fun i =>
      let a := outs.foldl (fun acc x =>
        let v := decodeElem fi (leNat ((x.2.drop (i * wi)).take wi))
        f32Bits (valAdd (valMul (f32 x.1.gate.toNat) v) (f32 acc))) 0
      leBytes (fmtWidth fo / 8) (convertElem .fp32 fo .rne 0 a)
  | _, _ => []

/-- Read the outputs of a token's contributing choices. -/
def tokenOuts (s : State) (b : CrdBind) (e : RingEntry) (cs all : List CrdChoice) :
    Except (BitVec 8) (List (CrdChoice × List Byte)) × State :=
  cs.foldl (fun a c => match a.1 with
    | .error st => (.error st, a.2)
    | .ok l =>
      let d := crdRead a.2 b (entryField e 0x18 8 + (prefixOf all c.expert + c.pos) * crdRec b)
        (crdRec b)
      (match d.1 with
        | .ok bs => .ok (l ++ [(c, bs)])
        | .poison => .error 0x0D
        | .fail st => .error st, d.2)) (.ok [], s)

/-- Write every token's output; the first failure ends it. -/
def writeOutputs (s : State) (b : CrdBind) (e : RingEntry) (cs : List CrdChoice) :
    Except (BitVec 8) Unit × State :=
  (List.range (crdNtok e)).foldl (fun a t => match a.1 with
    | .error st => (.error st, a.2)
    | .ok _ =>
      let mine := (List.range 8).filterMap fun j =>
        cs.find? fun c => c.tok == t && c.num == j && c.assigned && !c.failed
      let o := tokenOuts a.2 b e mine cs
      match o.1 with
      | .error st => (.error st, o.2)
      | .ok outs => crdWrite o.2 b (entryField e 0x20 8 + t * crdStride e (crdRec b))
          (combineToken b e outs)) (.ok (), s)

/-- Write the route area again where choices have failed since. -/
def refreshRoute (s : State) (b : CrdBind) (x : CrdTag) (e : RingEntry) :
    Except (BitVec 8) Unit × State :=
  if x.timeout ∨ x.nak ∨ x.failSt ≠ 0 then
    crdWrite s b (crdRoute e) (routeBytes b (crdNtok e) (tagK x) x.choices)
  else (.ok (), s)

/-- R287: COMBINE of a tag completes: dst, the signal, the entry; the tag is free. -/
def endCombine (s : State) (b : CrdBind) (t : Nat) (e : RingEntry) : State :=
  let x := crdTag s t
  let f := refreshRoute s b x e
  let w := writeOutputs f.2 b e x.choices
  let pre : BitVec 8 := match f.1, w.1 with
    | .error st, _ => st
    | .ok _, .error st => st
    | .ok _, .ok _ => x.failSt
  let own : BitVec 8 :=
    if pre ≠ 0 then pre else if x.timeout then 0x0E else if x.nak then 0x06
    else if droppedOf x.choices ≠ 0 then 0x0B else 0
  let sg := crdSignal w.2 b e
  let st := afterSignal own sg.1
  let s1 := setTag sg.2 t CrdTag.free
  completeEntry s1 b.sq e st (crdNtok e * combOut b e) 0 0

/-! Failures. -/

/-- What the transport has told Carder (R26, R283, R287): a queue pair left service, so that a COMBINE
cannot get the outputs still missing from it; or a packet failed, with its tokens, or a done message,
which has no choice of its own to mark (log entry 77). -/
def crdEvent (s : State) (ev : NetEvent) : State :=
  match ev with
  | .down k =>
    match qpBind s k with
    | none => s
    | some b =>
      let r := qpRank b k
      (List.range b.tagcnt).foldl (fun s i =>
        let t := b.tagbase + i
        let x := crdTag s t
        if !x.inUse then s
        else
          let s1 := setTag s t { x with nak := true }
          if x.comb.isSome then
            markFailed s1 t fun c => (crdExp b c.expert).erank == r && !hasOutput b x c
          else s1) s
  | .refused (.carder sq _) _ _ op key off len =>
    match sqBind s sq with
    | none => s
    | some b =>
      let t := key / 65536 % 1024
      let e := key % 65536
      let rec_ := crdRec b
      let hit (c : CrdChoice) : Bool :=
        c.expert == e && decide (c.pos * rec_ < off + len ∧ off < (c.pos + 1) * rec_)
      let x := crdTag s t
      if op = 0x3A then
        (if x.comb.isSome then setTag s t { x with nak := true } else s)
      else if x.disp.isNone then s
      else if op = 0x39 then failTag s t 0x06
      else markFailed s t hit
  | _ => s

/-- Done messages of every binding's tags that may now take effect. -/
def crdSettle (s : State) : State :=
  s.binds.foldl (fun s b => (List.range b.tagcnt).foldl (fun s i =>
    if (crdTag s (b.tagbase + i)).dones.isEmpty then s else applyDones s b (b.tagbase + i)) s) s

/-- Work of a running entry that no packet has carried is withdrawn from its queue pairs. -/
def withdraw (s : State) (b : CrdBind) (e : RingEntry) : State :=
  (bindQps b).foldl (fun s k => modQp s k fun q => { q with
    ops := q.ops.filter fun o => !(o.src == .carder b.sq e.index && o.first.isNone) }) s

/-- Tokens for an expert that packets have carried whole, of a running DISPATCH. -/
def sentTokens (s : State) (b : CrdBind) (e : RingEntry) (x : CrdTag) (k ex : Nat) : Nat :=
  let waits := (qp s k).ops.filter fun o => o.src == .carder b.sq e.index && o.op == 0x38 &&
    o.first.isNone && o.rkey % 2 ^ 16 == ex
  waits.foldl (fun m o => min m (o.imm / crdRec b)) (countFor x.choices ex)

/-- R288: RING_STOP ends a running DISPATCH: what is not sent is withdrawn, and every rank whose done
message was not sent yet gets one with the counts of the tokens sent. -/
def stopDispatch (s : State) (b : CrdBind) (t : Nat) (e : RingEntry) : State :=
  let x := crdTag s t
  let src : WorkSrc := .carder b.sq e.index
  let owed (r : Nat) : Bool := r != b.rank && (qp s (rankQp b r)).ops.any fun o =>
    o.src == src && o.op == 0x39 && o.first.isNone
  let s1 := ((List.range (crdN b)).filter owed).foldl (fun a r =>
    sendDone a b src t r (sentTokens s b e x (rankQp b r))) (withdraw s b e)
  completeEntry (modTag s1 t fun y => { y with disp := none, failSt := 0 }) b.sq e 0x01 0 0 0

/-- R288: RING_STOP ends a running COMBINE, and its tag is free. -/
def stopCombine (s : State) (b : CrdBind) (t : Nat) (e : RingEntry) : State :=
  completeEntry (setTag (withdraw s b e) t CrdTag.free) b.sq e 0x01 0 0 0

/-- R288: RING_STOP of a bound SQ. -/
def stopCarder (s : State) (b : CrdBind) : State :=
  (List.range b.tagcnt).foldl (fun s i =>
    let t := b.tagbase + i
    let s1 := match (crdTag s t).disp with
      | some e => stopDispatch s b t e
      | none => s
    match (crdTag s1 t).comb with
    | some e => stopCombine s1 b t e
    | none => s1) s

/-- R288: the running entries of a binding end with a status and their tags are freed. -/
def crdAbort (s : State) (b : CrdBind) (st : BitVec 8) : State :=
  (List.range b.tagcnt).foldl (fun s i =>
    let t := b.tagbase + i
    let x := crdTag s t
    if x.disp.isNone ∧ x.comb.isNone then s
    else
      let s1 := setTag s t CrdTag.free
      (x.disp.toList ++ x.comb.toList).foldl (fun s e => completeEntry s b.sq e st 0 0 0) s1) s

end Sys2Proof.Machine
end

