-- ==== Sys2Proof/Machine/NetOps.lean ====
section
/-! DEFINITION. What ends every command that touches the transport: Bushel and Carder learn what
concerns them, and what has changed is mirrored to the partner (R26, R268, R283, R416). -/

namespace Sys2Proof.Machine

/-- Bushel and Carder act on what the transport has told them, and go on. -/
def settleUnits (s : State) : State :=
  let evs := s.netEvents
  let s1 := evs.foldl (fun s e => crdEvent (bshEvent s e) e) { s with netEvents := [] }
  bshGoAll (crdSettle s1)

/-- What ends a command of the transport, Bushel or Carder that found state `s0`. -/
def xptDone (s0 s1 : State) : State := mirrorDone s0 (settleUnits s1)

end Sys2Proof.Machine
end

