-- ==== Sys2Proof/Machine/XptSq.lean ====
section
/-! DEFINITION. SQ entries of the transport: their checks, their gates and their start, and the
transmission of packets (R208 to R211, R218, R219, R243, R374). -/

namespace Sys2Proof.Machine

/-! Entries (R208 to R210). -/

/-- The wire opcode of an SQ opcode (R191). -/
def wireOp (op : Nat) : Nat :=
  match op with
  | 0x10 => 0x01 | 0x11 => 0x02 | 0x12 => 0x03 | 0x13 => 0x04
  | 0x14 => 0x06 | 0x15 => 0x07 | 0x16 => 0x09 | _ => 0x0A

/-- Fields of the body (R208). -/
def sqRkey (e : RingEntry) : Nat := entryField e 0x14 4
def sqRoff (e : RingEntry) : Nat := entryField e 0x18 8
def sqLaddr (e : RingEntry) : Nat := entryField e 0x20 8
def sqLen (e : RingEntry) : Nat := entryField e 0x28 4
def sqImm (e : RingEntry) : Nat := entryField e 0x2C 4
def sqOp1 (e : RingEntry) : Nat := entryField e 0x30 8
def sqOp2 (e : RingEntry) : Nat := entryField e 0x38 8

/-- R210: bytes of the base slot that inline data may take, and the offset where it begins. -/
def inlBase (op : Nat) : Nat := if op = 0x12 then 28 else 32
def inlOff (op : Nat) : Nat := if op = 0x12 then 0x24 else 0x20

/-- R210: an inline entry that breaks the rules. -/
def inlineBad (e : RingEntry) : Bool :=
  let op := entryOpcode e
  let n := entryByte e 3
  decide (0x12 < op) || entryGate e != 0 || decide (inlBase op + 192 < n) ||
    entryExt e != (n - inlBase op + 63) / 64 ||
    (op == 0x10 && (sqRkey e != 0 || sqRoff e != 0))

/-- R209: an entry without inline data that breaks the table, among them one with extension slots, of
which the spec says nothing (DESIGN CHOICE, log entry 83). -/
def fieldsBad (e : RingEntry) : Bool :=
  let op := entryOpcode e
  let len := sqLen e
  let atomic := op == 0x14 || op == 0x15
  let noTarget := op == 0x10 || op == 0x17
  let noLocal := op == 0x16 || op == 0x17
  let operand := atomic || op == 0x16 || op == 0x17
  let immOk := op == 0x10 || op == 0x12
  entryByte e 3 != 0 || entryExt e != 0 ||
    (noTarget && (sqRkey e != 0 || sqRoff e != 0)) ||
    (noLocal && sqLaddr e != 0) || (atomic && sqLaddr e % 8 != 0) ||
    (operand && len != 0) ||
    (op == 0x10 && decide (2 ^ 20 < len)) ||
    ((op == 0x11 || op == 0x13) && (len == 0 || decide (2 ^ 31 < len))) ||
    (op == 0x12 && decide (2 ^ 31 < len)) ||
    (!immOk && sqImm e != 0) ||
    (!operand && sqOp1 e != 0) ||
    (op == 0x17 && (sqOp1 e == 0 || decide (65535 < sqOp1 e))) ||
    (op == 0x15 && entryGate e != 0) ||
    (entryGate e == 1 && bits (gateWord e) 22 26 != 0)

/-- An entry of the transport that is malformed in its body. -/
def sqBad (e : RingEntry) : Bool :=
  decide (2 ^ 26 ≤ entryQctl e) || entryGate e == 3 ||
    (if entryInl e then inlineBad e else fieldsBad e)

/-- The queue pair of an entry at the head of a ring. -/
def sqQp (s : State) (r : Nat) (e : RingEntry) : Nat := qpKey (ring s r).part (entryQpn e)

/-- Accept an entry's operation (R208 to R210, R215). -/
def sqSubmit (s : State) (r : Nat) (e : RingEntry) : State :=
  let k := sqQp s r e
  let op := entryOpcode e
  let c := (ring s r).ctx
  let src : WorkSrc := .sq r e.index
  let s1 := fkTouch (consumeHead s r) k
  if entryInl e then
    let n := entryByte e 3
    submit s1 k src (wireOp op) (sqRkey e) (sqRoff e) 0 n (if op = 0x12 then entryField e 0x20 4 else 0)
      c (some ((e.bytes.drop (inlOff op)).take n))
  else
    match op with
    | 0x14 => submit s1 k src 0x06 (sqRkey e) (sqRoff e) (sqLaddr e) 0 0 c (some (beBytes 8 (sqOp1 e)))
    | 0x15 => submit s1 k src 0x07 (sqRkey e) (sqRoff e) (sqLaddr e) 0 0 c
        (some (beBytes 8 (sqOp1 e) ++ beBytes 8 (sqOp2 e)))
    | 0x16 => submit s1 k src 0x09 (sqRkey e) (sqRoff e) 0 0 0 c (some (beBytes 8 (sqOp1 e)))
    | 0x17 => submit s1 k src 0x0A 0 0 0 0 (sqOp1 e) c (some [])
    | _ => submit s1 k src (wireOp op) (sqRkey e) (sqRoff e) (sqLaddr e) (sqLen e) (sqImm e) c none

/-! Queue pairs that take work (R195, R217, R239, R260). -/

/-- What a queue pair says to new work of a wire opcode: it is taken, it waits, or it ends with a
status. -/
inductive TakeWork where
  | take | wait
  | fail (st : BitVec 8)
  deriving DecidableEq, Repr

/-- A queue pair and new work from an SQ (R195); with the mirror ring full it waits (R418). -/
def qpTakes (s : State) (k op : Nat) : TakeWork :=
  let q := qp s k
  match q.state with
  | .none => .fail 0x04
  | .init => .fail 0x01
  | .listen => .fail 0x01
  | .error => .fail 0x01
  | .rts =>
    if (opMinVersion op).any fun v => decide (q.version < v) then .fail 0x0F
    else if quiesced s k ∨ !fkCached s k ∨ mirrorFull s (qpPart k) then .wait else .take
  | _ => .wait

/-- A READ or an atomic of a queue pair has yet to have its response. -/
def readsWait (q : Qp) : Bool := q.ops.any fun o => opResponds o && o.src != .none

/-! Gates (R218, R219). -/

/-- A gate's condition as it stands. -/
inductive GateState where
  | open_ | closed
  | fail (st : BitVec 8)
  deriving DecidableEq, Repr

/-- The source queue pair of an ENABLE gate. -/
def gateQp (s : State) (r : Nat) (e : RingEntry) : Nat := qpKey (ring s r).part (bits (gateWord e) 0 22)

/-- The ring of a COUNT gate, and whether it can be one. -/
def gateRing (e : RingEntry) : Nat := bits (gateWord e) 0 16
def gateRingOk (s : State) (r : Nat) (e : RingEntry) : Bool :=
  let w := ring s (gateRing e)
  ringConsumed w && w.state != .idle && w.part == (ring s r).part

/-- The gate of an entry. One whose ring has gone ends with ST_REVOKED once it has waited. -/
def gateState (s : State) (r : Nat) (e : RingEntry) : GateState :=
  match entryGate e with
  | 1 =>
    let q := qp s (gateQp s r e)
    if q.state = .none then .fail 0x04 else if q.enable ≠ 0 then .open_ else .closed
  | 2 =>
    if !gateRingOk s r e then .fail (if e.gated then 0x09 else 0x04)
    else
      let d := ((ring s (gateRing e)).ccnt.setWidth 32 : BitVec 32) - (gateWord e).extractLsb' 16 32
      if 0 ≤ d.toInt then .open_ else .closed
  | _ => .open_

/-- R218: a gated entry's timeout has passed: units of 16 us on the fabric clock. -/
def gateExpired (s : State) (e : RingEntry) : Bool :=
  let t := bits (gateWord e) 48 16
  e.gated && t != 0 && decide (e.gateAt + t * 24000 ≤ fdTime s)

/-- The head of a ring begins to wait at its gate. -/
def markGated (s : State) (r : Nat) : State :=
  modRing s r fun x => { x with taken := match x.taken with
    | [] => []
    | e :: rest => { e with gated := true, gateAt := fdTime s } :: rest }

/-! Start. -/

/-- A started entry takes what its gate gives: one from the source's count (R218). -/
def payGate (s : State) (r : Nat) (e : RingEntry) : State :=
  if entryGate e = 1 then modQp s (gateQp s r e) fun q => { q with enable := q.enable - 1 } else s

/-- The head entry of a ring, of transport opcode `op`, starts, waits, or completes with a status
(R208 to R219). -/
def sqStart (op : Nat) (s : State) (r : Nat) : State :=
  match (ring s r).taken with
  | [] => s
  | e :: _ =>
    if entryOpcode e ≠ op ∨ (ring s r).typ ≠ 1 ∨ !headReady s r e ∨ headerBad (ring s r) e ∨ e.gated
    then s
    else
      let k := sqQp s r e
      if sqBad e ∨ (entryGate e = 2 ∧ (qp s k).state ≠ .none ∧ (qp s k).mode = 0) then
        consumeMalformed s r e
      else match qpTakes s k (wireOp op) with
      | .fail st => finishHead s r e st
      | .wait => if (qp s k).state = .rts then fkWant s k 8 else s
      | .take =>
        if entryRfence e ∧ readsWait (qp s k) then s
        else if entryGate e = 0 then sqSubmit s r e
        else match gateState s r e with
          | .fail st => finishHead s r e st
          | _ => markGated s r

/-- A gated head entry of gate kind `g` whose condition holds starts; its expiry is served first. -/
def gateStart (g : Nat) (s : State) (r : Nat) : State :=
  match (ring s r).taken with
  | [] => s
  | e :: _ =>
    if !e.gated ∨ entryGate e ≠ g ∨ !headReady s r e then s
    else if gateExpired s e then finishHead s r e 0x0E
    else match gateState s r e with
    | .fail st => finishHead s r e st
    | .closed => s
    | .open_ =>
      let k := sqQp s r e
      match qpTakes s k (wireOp (entryOpcode e)) with
      | .fail st => finishHead s r e st
      | .wait => if (qp s k).state = .rts then fkWant s k 8 else s
      | .take => sqSubmit (payGate s r e) r e

/-- SEND (R209): the entry at the head of SQ `r`. -/
def execSend (r : Nat) (s : State) : Res := .next (xptDone s (sqStart 0x10 s r))

/-- WRITE (R209). -/
def execWrite (r : Nat) (s : State) : Res := .next (xptDone s (sqStart 0x11 s r))

/-- WRITE_IMM (R209). -/
def execWriteImm (r : Nat) (s : State) : Res := .next (xptDone s (sqStart 0x12 s r))

/-- READ (R209). -/
def execRead (r : Nat) (s : State) : Res := .next (xptDone s (sqStart 0x13 s r))

/-- ATOMIC_FADD (R213). -/
def execAtomicFadd (r : Nat) (s : State) : Res := .next (xptDone s (sqStart 0x14 s r))

/-- ATOMIC_CAS (R213). -/
def execAtomicCas (r : Nat) (s : State) : Res := .next (xptDone s (sqStart 0x15 s r))

/-- SIGNAL (R209). -/
def execSignal (r : Nat) (s : State) : Res := .next (xptDone s (sqStart 0x16 s r))

/-- ENABLE (R218). -/
def execEnable (r : Nat) (s : State) : Res := .next (xptDone s (sqStart 0x17 s r))

/-- ENABLE_GATE_START (R218): the entry held at the head of SQ `r` takes one from its source's count
and starts. -/
def execEnableGateStart (r : Nat) (s : State) : Res := .next (xptDone s (gateStart 1 s r))

/-- COUNT_GATE_START (R219): the completion count has reached the target. -/
def execCountGateStart (r : Nat) (s : State) : Res := .next (xptDone s (gateStart 2 s r))

/-- GATE_TIMEOUT (R218): the entry completes with ST_TIMEOUT and takes nothing. -/
def execGateTimeout (r : Nat) (s : State) : Res :=
  .next (xptDone s (match (ring s r).taken with
    | [] => s
    | e :: _ => if headReady s r e ∧ gateExpired s e then finishHead s r e 0x0E else s))

/-- R219: entries that wait on the completion count of a ring that goes end with ST_REVOKED. -/
def revokeGates (s : State) (w : Nat) : State :=
  (partSqs s (ring s w).part).foldl (fun s r => match (ring s r).taken with
    | [] => s
    | e :: _ => if e.gated ∧ entryGate e = 2 ∧ gateRing e = w then finishHead s r e 0x09 else s) s

/-! Transmission (R243, R374). -/

/-- PACKET_TRANSMIT (R243): queue pair `n` of partition `p` sends its next packet where window, pacing,
room and its partition's turn allow. -/
def execPacketTransmit (p n : Nat) (s : State) : Res :=
  let k := qpKey p n
  .next (match readyLen s k, nextPkt s k with
    | some size, some x =>
      let t := partTurn s (qp s k).port (qp s k).tc p size 64
      if t.1 then xptDone s (sendNext t.2 k x size) else t.2
    | _, _ => s)

end Sys2Proof.Machine
end

