-- ==== Sys2Proof/Machine/XptConn.lean ====
section
/-! DEFINITION. Connections and path migration: their messages, what they do on arrival, and their
resends (R196, R198, R201, R202, R220). -/

namespace Sys2Proof.Machine

/-! Messages (R201, R220). -/

/-- The payload of a connection message. -/
structure ConnMsg where
  vmask : BitVec 8
  version : Nat
  mtu : Nat
  sqpn : Nat
  ipsn : BitVec 32
  window : Nat
  tag : Bool
  reason : BitVec 8
  connid : Word
  deriving DecidableEq, Repr

/-- The 32 bytes of a connection message. -/
def connBytes (m : ConnMsg) : List Byte :=
  [m.vmask, BitVec.ofNat 8 m.version] ++ beBytes 2 m.mtu ++ beBytes 4 m.sqpn ++
    beBytes 4 m.ipsn.toNat ++ beBytes 2 m.window ++ [BitVec.ofNat 8 (natOfBool m.tag), m.reason] ++
    beBytes 8 m.connid.toNat ++ beBytes 8 0

/-- A connection message from its bytes. -/
def connOf (bs : List Byte) : ConnMsg :=
  { vmask := bs.getD 0 0, version := beField bs 1 1, mtu := beField bs 2 2
    sqpn := beField bs 4 4 % 2 ^ 22, ipsn := BitVec.ofNat 32 (beField bs 8 4)
    window := beField bs 12 2, tag := (bs.getD 14 0).getLsbD 0, reason := bs.getD 15 0
    connid := BitVec.ofNat 64 (beField bs 16 8) }

/-- What a queue pair says of itself. -/
def connOwn (k : Nat) (q : Qp) : ConnMsg :=
  { vmask := q.vmask, version := 0, mtu := q.mtu, sqpn := qpNum k, ipsn := q.ipsn
    window := q.window, tag := q.tagReq, reason := 0, connid := q.connid }

/-- Send a connection message to a queue pair number at an address: never tagged, alone in its
message. -/
def sendConn (s : State) (k op rqpn : Nat) (dst : BitVec 128) (m : ConnMsg) : State :=
  queuePkt s k false false (qp s k).tc
    { Pth.plain 1 op rqpn with first := true, last := true, ackreq := true } (connBytes m) false dst

/-- Send CONNECT_REQ. -/
def sendReq (s : State) (k : Nat) : State :=
  let q := qp s k
  sendConn s k 0x20 q.rqpn q.raddr (connOwn k q)

/-- Send CONNECT_REP or CONNECT_RTU. -/
def sendRep (s : State) (k : Nat) : State :=
  let q := qp s k
  sendConn s k 0x21 q.rqpn q.raddr { connOwn k q with version := q.version }
def sendRtu (s : State) (k : Nat) : State :=
  let q := qp s k
  sendConn s k 0x22 q.rqpn q.raddr { connOwn k q with version := q.version }

/-- Send CONNECT_REJ for a connection. -/
def sendRej (s : State) (k rqpn : Nat) (dst : BitVec 128) (connid : Word) (st : BitVec 8) : State :=
  sendConn s k 0x23 rqpn dst { connOwn k (qp s k) with connid := connid, reason := st }

/-- Send DISCONNECT; the spec states no reason for one sent by command (log entry 20). -/
def sendDisconnect (s : State) (k : Nat) : State :=
  let f := takeFree s
  let q := qp s k
  sendConn f.2 k 0x24 q.rqpn q.raddr { connOwn k q with reason := f.1.setWidth 8 }

/-- First resend interval in fabric cycles, and the number of sends (R202, R221). -/
def cmTo (s : State) : Nat := max 1 (bits (reg s xptCm) 0 8) * 1500
def cmTries (s : State) : Nat := max 1 (bits (reg s xptCm) 8 8)

/-- The first send of a message that is resent. -/
def startResend (s : State) (k : Nat) : State :=
  modQp s k fun q => { q with connTimer := some (fdTime s + cmTo s, cmTo s, 1) }

/-- The payload of PATH_MIGRATE and its answer (R220). -/
def migBytes (naddr : BitVec 128) (connid : Word) (mseq : BitVec 32) (sqpn : Nat) : List Byte :=
  beBytes 16 naddr.toNat ++ beBytes 8 connid.toNat ++ beBytes 4 mseq.toNat ++ beBytes 4 sqpn

/-- Send PATH_MIGRATE or PATH_MIGRATE_ACK. -/
def sendMig (s : State) (k op : Nat) (naddr : BitVec 128) (mseq : BitVec 32) : State :=
  let q := qp s k
  queuePkt s k false false q.tc
    { Pth.plain q.version op q.rqpn with first := true, last := true, ackreq := true }
    (migBytes naddr q.connid mseq (qpNum k)) q.tag q.raddr

/-- R193, R220: a restored queue pair of version 2 or 3 tells its peer where it is; its sequence number
follows the last of the connection, whichever side sent it. -/
def startMigrate (s : State) (k : Nat) : State :=
  if (qp s k).version < 2 then s
  else modQp s k fun q => { q with
    migrating := true, mseq := (if q.mseq.toNat < q.mseqIn.toNat then q.mseqIn else q.mseq) + 1
    connTimer := some (fdTime s, cmTo s, 0) }

/-! Arrival (R202). -/

/-- The highest version that two masks share. -/
def commonVersion (a b : BitVec 8) : Option Nat :=
  [3, 2, 1].find? fun n => a.getLsbD n && b.getLsbD n

/-- What both sides of a connection agree on. -/
def agree (q : Qp) (v : Nat) (c : ConnMsg) : Qp :=
  let m := min q.mtu c.mtu
  { q with
    version := v, mtu := if v = 1 then min 4096 m else m, window := min q.window c.window
    tag := q.tagReq || c.tag, ripsn := c.ipsn, connid := c.connid }

/-- R202: why B rejects a request, or the version it takes. -/
def answerOf (q : Qp) (c : ConnMsg) : Except (BitVec 8) Nat :=
  match commonVersion q.vmask c.vmask with
  | none => .error 0x0F
  | some v =>
    if (q.tagReq || c.tag) ∧ v = 1 then .error 0x0F
    else if (q.tagReq || c.tag) ∧ q.ikey = 0xFFFF then .error 0x0C
    else .ok v

/-- B answers a request with REP or REJ. `fresh`: it has yet to draw its initial PSN. -/
def answerReq (s : State) (k : Nat) (p : Arrival) (c : ConnMsg) (fresh : Bool) : State :=
  match answerOf (qp s k) c with
  | .error st => sendRej s k c.sqpn p.src c.connid st
  | .ok v =>
    let f := if fresh then takeFree s else ((qp s k).ipsn.setWidth 64, s)
    let s1 := modQp f.2 k fun q =>
      { agree q v c with
        passive := true, repSent := true, ipsn := f.1.setWidth 32, rqpn := c.sqpn, raddr := p.src
        laddr := p.dst }
    startResend (sendRep s1 k) k

/-- A queue pair in LISTEN takes a request from this peer. -/
def listenMatches (q : Qp) (p : Arrival) (c : ConnMsg) : Bool :=
  (q.raddr == 0 || q.raddr == p.src) && (q.rqpn == 0x3FFFFF || q.rqpn == c.sqpn)

/-- CONNECT_REQ arrives. One that does not match the LISTEN filter, or the peer of a QP in CONNECTING,
is dropped and counted in XPT_DROP.QPN; the spec names no answer (DESIGN CHOICE, log entry 82). -/
def onConnReq : Handler := fun s k p _ payload =>
  let q := qp s k
  let c := connOf payload
  let again (s : State) : State :=
    if q.connid = c.connid then sendRep s k else sendRej s k c.sqpn p.src c.connid 0x04
  match q.state with
  | .listen =>
    if q.repSent then again s
    else if listenMatches q p c then answerReq s k p c true else bump s xptDrop 32 16 1
  | .connecting =>
    if q.repSent then again s
    else if q.raddr ≠ p.src ∨ q.rqpn ≠ c.sqpn then bump s xptDrop 32 16 1
    else if q.laddr.toNat < p.src.toNat ∨ (q.laddr = p.src ∧ qpNum k < c.sqpn) then
      answerReq s k p c false
    else s
  | .rts => if q.passive then again s else sendRej s k c.sqpn p.src c.connid 0x04
  | .drain => if q.passive then again s else sendRej s k c.sqpn p.src c.connid 0x04
  | _ => s

/-- CONNECT_REP arrives: A enters RTS and sends RTU. B cannot see A's ikey, so where tags are needed
and A has none it is A that rejects with ST_INTEGRITY and enters ERROR, and B leaves LISTEN on that
CONNECT_REJ, where R202 has B reject and stay (DESIGN CHOICE, log entry 82). -/
def onConnRep : Handler := fun s k _ _ payload =>
  let q := qp s k
  let c := connOf payload
  if q.connid ≠ c.connid ∨ q.passive then s
  else match q.state with
  | .connecting =>
    if !(decide (1 ≤ c.version ∧ c.version ≤ 3) && q.vmask.getLsbD c.version) then s
    else if (q.tagReq || c.tag) ∧ q.ikey = 0xFFFF then
      enterError (sendRej s k q.rqpn q.raddr q.connid 0x0C) k 0x21 0x0C
    else sendRtu (enterRts (modQp s k fun q => agree q c.version c) k) k
  | .rts => sendRtu s k
  | .drain => sendRtu s k
  | _ => s

/-- CONNECT_RTU arrives: B enters RTS. -/
def onConnRtu : Handler := fun s k _ _ payload =>
  let q := qp s k
  if repOut q ∧ q.connid = (connOf payload).connid then enterRts s k else s

/-- CONNECT_REJ arrives: ERROR with the reason. -/
def onConnRej : Handler := fun s k _ _ payload =>
  let q := qp s k
  let c := connOf payload
  if q.connid = c.connid ∧ (q.state = .connecting ∨ repOut q) then enterError s k 0x21 c.reason else s

/-- DISCONNECT arrives: ERROR with ST_REMOTE_NAK, and no reply. -/
def onDisconnect : Handler := fun s k _ _ payload =>
  let q := qp s k
  if q.connid = (connOf payload).connid ∧ (q.state = .rts ∨ q.state = .drain) then
    enterError s k 0x22 0x06 else s

/-- The migration message concerns this connection. -/
def migMatches (q : Qp) (payload : List Byte) : Bool :=
  beField payload 16 8 == q.connid.toNat && beField payload 28 4 == q.rqpn

/-- PSNs sent and not yet acknowledged, of a READ the first one missing. -/
def unacked (q : Qp) : List (BitVec 32) :=
  (psnRun q.una (psnDiff q.nxt q.una).toNat).filter fun p => !psnDone q p && (match ownerOp q p with
    | some o => o.op != 0x04 || (psnRun (o.first.getD p) (p - o.first.getD p).toNat).all (psnDone q)
    | none => false)

/-- Resend PSNs, as losses, while the queue pair is up. -/
def loseAll (s : State) (k : Nat) (ps : List (BitVec 32)) : State :=
  ps.foldl (fun s p =>
    if (qp s k).state = .rts ∨ (qp s k).state = .drain then loseP s k p else s) s

/-- PATH_MIGRATE arrives (R220). -/
def onPathMigrate : Handler := fun s k _ _ payload =>
  let q := qp s k
  let mseq : BitVec 32 := BitVec.ofNat 32 (beField payload 24 4)
  let naddr : BitVec 128 := BitVec.ofNat 128 (beField payload 0 16)
  if !migMatches q payload ∨ mseq.toNat ≤ q.mseqIn.toNat then bump s xptDrop 0 16 1
  else
    let s1 := modQp s k fun q => {
      freshRate s q with raddr := naddr, sport := sportOf k mseq.toNat, mseqIn := mseq }
    let s2 := loseAll (sendMig s1 k 0x29 naddr mseq) k (unacked (qp s1 k))
    qpEvent s2 k 0x24 0 mseq.toNat

/-- PATH_MIGRATE_ACK arrives (R220). -/
def onPathMigrateAck : Handler := fun s k _ _ payload =>
  let q := qp s k
  if migMatches q payload ∧ q.migrating ∧ beField payload 24 4 = q.mseq.toNat then
    setQp s k { freshRate s q with migrating := false, connTimer := none }
  else bump s xptDrop 0 16 1

/-! Resends. -/

/-- The time of the next resend, with the interval doubled. -/
def againLater (s : State) (k : Nat) (x : Nat × Nat × Nat) : State :=
  modQp s k fun q => { q with connTimer := some (fdTime s + 2 * x.2.1, 2 * x.2.1, x.2.2 + 1) }

/-- CONNECT_RESEND (R202): the resend interval of queue pair `n` of partition `p` has passed. -/
def execConnectResend (p n : Nat) (s : State) : Res :=
  let k := qpKey p n
  let q := qp s k
  .next (match q.connTimer with
    | none => s
    | some x =>
      if q.migrating ∨ (q.state ≠ .connecting ∧ !repOut q) ∨ fdTime s < x.1 then s
      else if cmTries s ≤ x.2.2 then xptDone s (enterError s k 0x21 0x07)
      else xptDone s (againLater (if q.repSent then sendRep s k else sendReq s k) k x))

/-- R220, R221: the address that a migrated queue pair sends from on this module. -/
def newAddr (s : State) (k : Nat) : BitVec 128 :=
  let q := qp s k
  (sourceAddr s (qpPart k) q.port (isV4 q.raddr)).getD q.laddr

/-- PATH_MIGRATE_RESEND (R220, R330): as for a connection; it waits for the transmit key. -/
def execPathMigrateResend (p n : Nat) (s : State) : Res :=
  let k := qpKey p n
  let q := qp s k
  .next (match q.connTimer with
    | none => s
    | some x =>
      if !q.migrating ∨ (q.state ≠ .rts ∧ q.state ≠ .drain) ∨ fdTime s < x.1 ∨ !txKeyReady s k then s
      else if cmTries s ≤ x.2.2 then
        xptDone s (setQp s k { q with migrating := false, connTimer := none })
      else
        let next := if x.2.2 = 0 then startResend s k else againLater s k x
        xptDone s (sendMig next k 0x28 (newAddr s k) q.mseq))

end Sys2Proof.Machine
end

