-- ==== Sys2Proof/Machine/XptTimers.lean ====
section
/-! DEFINITION. Timers of a queue pair and of its key slot (R228, R235, R236, R324, R328). -/

namespace Sys2Proof.Machine

/-- A queue pair that sends and receives. -/
def qpLive (q : Qp) : Bool := q.state == .rts || q.state == .drain

/-- ACK_TIMER (R228): ACK_T has passed since the first packet not covered became visible. A context
that Firkin has let go is fetched first (R239). -/
def execAckTimer (p n : Nat) (s : State) : Res :=
  let k := qpKey p n
  let q := qp s k
  .next (match q.ackTimer with
    | none => s
    | some t =>
      if qpLive q ∧ t + ns64Ticks (max 1 (bits (reg s xptSr) 0 16)) ≤ portTime s q.port then
        if fkCached s k then xptDone s (sendAck s k 0) else fkWant s k 8
      else s)

/-- R235: the last time, up to `now`, at which timers were evaluated: every 256 ticks. -/
def evalTick (now : Nat) : Nat := now / 256 * 256

/-- RTO_EXPIRY (R233, R235): snd_una is lost, the RTO doubles and the rate halves. An answer that has
arrived is processed first (R246). -/
def execRtoExpiry (p n : Nat) (s : State) : Res :=
  let k := qpKey p n
  let q := qp s k
  let now := portTime s q.port
  .next (match q.timer with
    | none => s
    | some t =>
      if !qpLive q ∨ q.una = q.nxt ∨ mirrorFull s p ∨ s.arrived.any (answerFor s k) ∨
          ((evalTick now - t : Nat) : Rat) < rtoOf s q then s
      else
        let s1 := loseP s k q.una
        xptDone s (if !qpLive (qp s1 k) then s1
          else modQp s1 k fun q => { q with
            backoff := q.backoff + 1, timer := some now, rate := max (rminOf s) (q.rate / 2)
            roundEnd := some q.nxt, roundMin := none }))

/-- RNR_PAUSE_END (R236): sending goes on from the refused PSN; these resends are not counted. -/
def execRnrPauseEnd (p n : Nat) (s : State) : Res :=
  let k := qpKey p n
  let q := qp s k
  .next (match q.rnrUntil with
    | none => s
    | some t =>
      if !qpLive q ∨ mirrorFull s p ∨ portTime s q.port < t then s
      else
        let from_ := (unacked q).filter fun x => decide (0 ≤ psnDiff x q.rnrPsn)
        xptDone s (setQp s k { q with
          rnrUntil := none
          resend := q.resend ++ from_.filter fun x => !q.resend.contains x }))

/-- IDLE_TAG_ACK (R324): nothing tagged has been sent for 2^30 ticks. -/
def execIdleTagAck (p n : Nat) (s : State) : Res :=
  let k := qpKey p n
  let q := qp s k
  .next (if qpLive q ∧ q.tag ∧ txKeyReady s k ∧ q.lastTagged + 2 ^ 30 ≤ portTime s q.port + 1 then
    if fkCached s k then
      xptDone s (modQp (sendAck s k 0) k fun q => { q with lastTagged := portTime s q.port + 1 })
    else fkWant s k 8
  else s)

/-- The port whose counter times a slot: that of its queue pair; port 0 for a slot not bound (log
entry 21). -/
def slotPort (s : State) (fn : Nat) (x : KeySlot) : Nat :=
  match x.bound with
  | some n => (qp s (qpKey fn n)).port
  | none => 0

/-- PREV_KEY_EXPIRY (R328): the previous receive key of a slot is no longer kept. -/
def execPrevKeyExpiry (fn i : Nat) (s : State) : Res :=
  let x := keySlot s (slotKey fn i)
  .next (if x.prev.isSome ∧ x.prevAt + 2 ^ 30 ≤ portTime s (slotPort s fn x) then
    setSlot s (slotKey fn i) { x with prev := none, refPrev := none, prevAt := 0 }
  else s)

/-- The key in a staging buffer (R327). -/
def stagedKey (k256 : Bool) (ws : List Word) : SlotKey :=
  { k256 := k256, bytes := (ws.flatMap fun w => leBytes 8 w.toNat).take (if k256 then 32 else 16) }

/-- TXLOAD (R323, R327): the staging buffer becomes the transmit key of slot `i` of function `fn`. -/
def execTxload (fn i : Nat) (s : State) : Res :=
  .next (if !bar0 s ∨ 64 < fn ∨ 2048 ≤ i then s
    else modSlot s (slotKey fn i) fun x => { x with
      tx := some (stagedKey x.k256 x.stageTx), stageTx := [0, 0, 0, 0], txUsed := false
      txBase := none })

/-- RXLOAD (R326, R327, R328): a new receive key; the old one is kept as the previous. -/
def execRxload (fn i : Nat) (s : State) : Res :=
  .next (if !bar0 s ∨ 64 < fn ∨ 2048 ≤ i then s
    else modSlot s (slotKey fn i) fun x => { x with
      rx := some (stagedKey x.k256 x.stageRx), stageRx := [0, 0, 0, 0], prev := x.rx
      refPrev := x.refRx, refRx := none, prevAt := portTime s (slotPort s fn x), armed := true })

/-- KS_CLR (R327): ignored while the slot is bound. -/
def execKsClr (fn i : Nat) (s : State) : Res :=
  .next (if !bar0 s ∨ 64 < fn ∨ 2048 ≤ i ∨ (keySlot s (slotKey fn i)).bound.isSome then s
    else modSlot s (slotKey fn i) fun x => { x with
      stageTx := [0, 0, 0, 0], stageRx := [0, 0, 0, 0], tx := none, rx := none, prev := none
      refRx := none, refPrev := none, prevAt := 0, txBase := none })

end Sys2Proof.Machine
end

