-- ==== Sys2Proof/Machine/XptAdmin.lean ====
section
/-! DEFINITION. The AQ commands of queue pairs and memory keys (R196 to R200, R204 to R206, R329). -/

namespace Sys2Proof.Machine

/-- A range of an entry's bytes is zero. -/
def zeroField (e : RingEntry) (off n : Nat) : Bool := entryField e off n == 0

/-- Target partition of an AQ entry (R179). -/
def aqPart (e : RingEntry) : Nat := entryByte e 3

/-- R428: creation is refused in a standby partition while the pair is formed. -/
def standbyBusy (s : State) (p : Nat) : Bool := mirroring s && pmapStandby s p

/-- What an AQ command of the transport answers: a status, two words of detail, and the state. -/
structure AqAnswer where
  st : BitVec 8
  d0 : Word
  state : State

/-- Run an AQ command of the transport: the oldest entry of its opcode that has started on AQ `r`. It
waits while the mirror ring has no room for what it changes (R418). -/
def xptCommand (op r : Nat) (f : State → Nat → RingEntry → AqAnswer) (s : State) : State :=
  match startedOp s r op with
  | none => s
  | some e =>
    if !mpServes s r ∨ mirrorFull s (aqPart e) then s
    else
      let a := f s (aqPart e) e
      xptDone s (completeMirrored (mpTook a.state r a.st) (aqPart e) r e a.st a.d0 0)

/-! Queue pairs. -/

/-- R197: a field of QP_CREATE is outside its range. -/
def qpCreateBad (e : RingEntry) : Bool :=
  let rbase := entryField e 0x18 8
  let n := entryByte e 0x20
  let z := entryByte e 0x21
  let rrpt := entryField e 0x28 8
  decide (2 ^ 22 ≤ entryField e 0x10 4 ∨ 2 ^ 20 ≤ entryField e 0x24 4) || !zeroField e 0x22 2 ||
    !zeroField e 0x30 16 ||
    (if rbase = 0 then n != 0 || z != 0 || rrpt != 0
     else decide (n < 4 ∨ 16 < n ∨ z < 6 ∨ 20 < z) || rbase % 2 ^ z != 0 || rrpt % 8 != 0)

/-- QP_CREATE's effect (R197). -/
def qpCreate (s : State) (p : Nat) (e : RingEntry) : AqAnswer :=
  let n := entryField e 0x10 4
  let sq := entryField e 0x14 2
  let rcq := entryField e 0x16 2
  let rbase := entryField e 0x18 8
  let rlog2n := entryByte e 0x20
  let rlog2sz := entryByte e 0x21
  let c : BitVec 20 := BitVec.ofNat 20 (entryField e 0x24 4)
  let rrpt := entryField e 0x28 8
  let k := qpKey p n
  let ringOk (r typ : Nat) : Bool :=
    let x := ring s r
    x.typ == typ && x.state != .idle && x.part == p
  if qpCreateBad e then { st := 0x02, d0 := 0, state := s }
  else if standbyBusy s p ∨ (qp s k).state ≠ .none ∨ n = 0x3FFFFF ∨ (partition s p).qpQ ≤ n ∨
      !ringOk sq 1 ∨ !ringOk rcq 2 then { st := 0x04, d0 := 0, state := s }
  else
    let area := if rbase = 0 then (true, s) else rangeOk s p c rbase (2 ^ (rlog2n + rlog2sz)) true
    let word := if rbase = 0 ∨ !area.1 then area else rangeOk area.2 p c rrpt 8 false
    if !word.1 then { st := 0x05, d0 := 0, state := word.2 }
    else
      { st := 0, d0 := 0
        state := setQp word.2 k { Qp.none with
          state := .init, sq := sq, rcq := rcq, rbase := rbase, rlog2n := rlog2n, rlog2sz := rlog2sz
          ctx := c, rrpt := rrpt, sport := sportOf k 0 } }

/-- The detail of QP_MODIFY: the state code and MODE (R198, R199). -/
def qpDetail (s : State) (k : Nat) : Word :=
  let q := qp s k
  BitVec.ofNat 64 (qpStateCode q.state + 256 * q.mode.toNat)

/-- R198: a field of QP_MODIFY used at INIT to CONNECTING or LISTEN is outside its range. -/
def qpFieldsBad (e : RingEntry) : Bool :=
  let mtu := entryField e 0x16 2
  let window := entryField e 0x36 2
  decide (8 ≤ entryByte e 0x14 ∨ 8 ≤ entryByte e 0x15 ∨ mtu < 256 ∨ 9000 < mtu ∨
    2 ^ 22 ≤ entryField e 0x30 4 ∨ 8 ≤ entryByte e 0x35 ∨ window < 16 ∨ 1024 < window) ||
    mtu % 8 != 0 || !zeroField e 0x2E 2 || (entryByte e 0x34 &&& 0xF1) != 0 || entryByte e 0x38 == 0 ||
    !zeroField e 0x39 1 || !zeroField e 0x3C 4

/-- R329: the check of an integrity slot. -/
def ikeyCheck (s : State) (p i : Nat) : Option (BitVec 8) :=
  let x := keySlot s (slotKey p i)
  if i = 0xFFFF then none
  else if 2048 ≤ i ∨ x.bound.isSome then some 0x04
  else if x.tx.isNone ∨ x.rx.isNone ∨ x.txUsed then some 0x0C
  else none

/-- The remote address of QP_MODIFY, little-endian as R3 says of structures in memory. -/
def modRaddr (e : RingEntry) : BitVec 128 := BitVec.ofNat 128 (entryField e 0x18 16)

/-- R221: the address to send from; a wildcard takes the partition's first of either family. -/
def localAddr (s : State) (p port : Nat) (raddr : BitVec 128) : Option (BitVec 128) :=
  if raddr = 0 then (sourceAddr s p port false).or (sourceAddr s p port true)
  else sourceAddr s p port (isV4 raddr)

/-- INIT to CONNECTING or LISTEN (R196, R198). -/
def qpStartConn (s : State) (p : Nat) (e : RingEntry) (listen : Bool) : AqAnswer :=
  let n := entryField e 0x10 3 % 2 ^ 22
  let k := qpKey p n
  let raddr := modRaddr e
  let port := entryByte e 0x14
  let ikey := entryField e 0x3A 2
  let no (st : BitVec 8) : AqAnswer := { st := st, d0 := qpDetail s k, state := s }
  if qpFieldsBad e then no 0x02
  else match localAddr s p port raddr, ikeyCheck s p ikey with
  | none, _ => no 0x04
  | some _, some st => no st
  | some laddr, none =>
    let f1 := takeFree s
    let f2 := takeFree f1.2
    let s1 := modQp f2.2 k fun q =>
      { q with
        state := if listen then .listen else .connecting
        port := port, tc := entryByte e 0x15, mtu := entryField e 0x16 2, raddr := raddr
        laddr := laddr, nhmac := BitVec.ofNat 48 (entryField e 0x28 6)
        rqpn := entryField e 0x30 4, vmask := BitVec.ofNat 8 (entryByte e 0x34)
        mode := BitVec.ofNat 2 (entryByte e 0x35), tagReq := entryByte e 0x35 / 4 % 2 == 1
        tag := false, window := entryField e 0x36 2, retry := entryByte e 0x38, ikey := ikey
        version := 0, ipsn := f1.1.setWidth 32, connid := if listen then 0 else f2.1
        sport := sportOf k 0, passive := false, repSent := false }
    let s2 := if ikey = 0xFFFF then s1 else modSlot s1 (slotKey p ikey) fun x => { x with bound := some n }
    let s3 := if listen then s2 else startResend (sendReq s2 k) k
    { st := 0, d0 := qpDetail s3 k, state := s3 }

/-- QP_MODIFY's effect (R196, R198). -/
def qpModify (s : State) (p : Nat) (e : RingEntry) : AqAnswer :=
  let w := entryField e 0x10 4
  let k := qpKey p (w % 2 ^ 22)
  let target := w / 2 ^ 24
  let q := qp s k
  let no (st : BitVec 8) : AqAnswer := { st := st, d0 := qpDetail s k, state := s }
  let yes (s1 : State) : AqAnswer := { st := 0, d0 := qpDetail s1 k, state := s1 }
  let leave (s : State) : State := enterInit (sendDisconnect s k) k
  if w / 2 ^ 22 % 4 ≠ 0 ∨ target = 0 ∨ 7 < target then no 0x02
  else if q.state = .none then no 0x04
  else if qpStateCode q.state = target then yes s
  else if q.state = .init ∧ (target = 2 ∨ target = 3) then qpStartConn s p e (target == 2)
  else if !zeroField e 0x14 44 then no 0x02
  else match q.state, target with
  | .rts, 5 => yes (checkDrained (setQp s k { q with state := .drain, drained := false }) k)
  | .drain, 4 => yes (setQp s k { freshRate s q with state := .rts })
  | .rts, 1 => yes (leave s)
  | .drain, 1 => yes (leave s)
  | .connecting, 1 => yes (enterInit s k)
  | .listen, 1 => yes (enterInit s k)
  | .error, 1 => yes (enterInit s k)
  | _, _ => no 0x04

/-- A queue pair is gone: its work ends with ST_ABORTED, and its context leaves Firkin (R196, R200). -/
def removeQp (s : State) (k : Nat) : State :=
  let s1 := abortHeld (unbindSlot (abortOps s k 0x01) k) k
  let s2 := setQp (fkForget s1 k) k Qp.none
  { s2 with netEvents := s2.netEvents ++ [.down k] }

/-- QP_DESTROY's effect (R200). -/
def qpDestroy (s : State) (p : Nat) (e : RingEntry) : AqAnswer :=
  let n := entryField e 0x10 4
  let k := qpKey p n
  if 2 ^ 22 ≤ n ∨ !zeroField e 0x14 44 then { st := 0x02, d0 := 0, state := s }
  else match (qp s k).state with
  | .none => { st := 0x04, d0 := 0, state := s }
  | .rts => { st := 0, d0 := 0, state := removeQp (sendDisconnect s k) k }
  | .drain => { st := 0, d0 := 0, state := removeQp (sendDisconnect s k) k }
  | _ => { st := 0, d0 := 0, state := removeQp s k }

/-- QP_CREATE (R197) on AQ `r`. -/
def execQpCreate (r : Nat) (s : State) : Res := .next (xptCommand 0x50 r qpCreate s)

/-- QP_MODIFY (R198) on AQ `r`. -/
def execQpModify (r : Nat) (s : State) : Res := .next (xptCommand 0x51 r qpModify s)

/-- QP_DESTROY (R200) on AQ `r`. -/
def execQpDestroy (r : Nat) (s : State) : Res := .next (xptCommand 0x52 r qpDestroy s)

/-! Memory keys. -/

/-- R205: every page of a range maps sync-object frames; `n` bounds the pages. -/
def syncRangeOk (s : State) (p : Nat) (c : BitVec 20) (va : Nat) : Nat → Bool × State
  | 0 => (true, s)
  | n + 1 =>
    let a := access s .sync fabricUnit p c va false
    match a.1 with
    | .error _ => (false, a.2)
    | .ok pa =>
      if regionOf pa = .syncObj then syncRangeOk a.2 p c ((va / 4096 + 1) * 4096) n else (false, a.2)

/-- R205: a field of KEY_REGISTER is outside its range. -/
def keyRegisterBad (e : RingEntry) : Bool :=
  let len := entryField e 0x20 8
  let rights := entryByte e 0x28
  let bind := entryField e 0x2C 4
  decide (2 ^ 24 ≤ entryField e 0x10 4 ∨ 2 ^ 20 ≤ entryField e 0x14 4 ∨ len < 8 ∨ 2 ^ 48 < len ∨
    16 ≤ rights) || entryField e 0x18 8 % 8 != 0 || len % 8 != 0 || rights == 0 ||
    (rights / 8 == 1 && rights != 8) || !zeroField e 0x29 3 || bind / 2 ^ 22 % 2 ^ 9 != 0 ||
    !zeroField e 0x30 16

/-- The generation after one (R204). -/
def nextGen (g : Nat) : Nat := if 255 ≤ g then 1 else g + 1

/-- KEY_REGISTER's effect (R205). -/
def keyRegister (s : State) (p : Nat) (e : RingEntry) : AqAnswer :=
  let i := entryField e 0x10 4
  let c : BitVec 20 := BitVec.ofNat 20 (entryField e 0x14 4)
  let base := entryField e 0x18 8
  let len := entryField e 0x20 8
  let rights : BitVec 4 := BitVec.ofNat 4 (entryByte e 0x28)
  let bind := entryField e 0x2C 4
  let k := memKey s p i
  let no (st : BitVec 8) (s : State) : AqAnswer := { st := st, d0 := 0, state := s }
  if keyRegisterBad e then no 0x02 s
  else if (partition s p).keyQ ≤ i then no 0x10 s
  else if k.live ∨ standbyBusy s p then no 0x04 s
  else
    let w := if rights = 8 then syncRangeOk s p c base (pageSpan base len)
      else rangeOk s p c base len (rights.getLsbD 1 || rights.getLsbD 2)
    if !w.1 then no 0x05 w.2
    else
      let g := nextGen k.gen
      { st := 0, d0 := BitVec.ofNat 64 (g * 2 ^ 24 + i)
        state := setMemKey w.2 p i
          { live := true, gen := g, ctx := c, base := base, length := len, rights := rights
            bound := if 2 ^ 31 ≤ bind then some (bind % 2 ^ 22) else none } }

/-- KEY_DEREGISTER's effect (R206): of an index not registered, ST_BOUNDS (log entry 22). -/
def keyDeregister (s : State) (p : Nat) (e : RingEntry) : AqAnswer :=
  let i := entryField e 0x10 4
  let k := memKey s p i
  if 2 ^ 24 ≤ i ∨ !zeroField e 0x14 44 then { st := 0x02, d0 := 0, state := s }
  else if !k.live then { st := 0x04, d0 := 0, state := s }
  else { st := 0, d0 := 0, state := setMemKey s p i { k with live := false } }

/-- KEY_REGISTER (R205) on AQ `r`. -/
def execKeyRegister (r : Nat) (s : State) : Res := .next (xptCommand 0x53 r keyRegister s)

/-- KEY_DEREGISTER (R206) on AQ `r`. -/
def execKeyDeregister (r : Nat) (s : State) : Res := .next (xptCommand 0x54 r keyDeregister s)

end Sys2Proof.Machine
end

