-- ==== Sys2Proof/Machine/XptRows.lean ====
section
/-! DEFINITION. The arrival of each kind of packet, and Firkin's fetches (R189, R191, R239 to R241,
R427). -/

namespace Sys2Proof.Machine

/-! Arrivals. -/

/-- SEND_ARRIVAL (R214). -/
def execSendArrival (p : Packet) (s : State) : Res := .next (xptDone s (arrive 0x01 onSend p s))
/-- WRITE_ARRIVAL (R207). -/
def execWriteArrival (p : Packet) (s : State) : Res := .next (xptDone s (arrive 0x02 (onWrite false) p s))
/-- WRITE_IMM_ARRIVAL (R212). -/
def execWriteImmArrival (p : Packet) (s : State) : Res :=
  .next (xptDone s (arrive 0x03 (onWrite true) p s))
/-- READ_REQ (R224). -/
def execReadReq (p : Packet) (s : State) : Res := .next (xptDone s (arrive 0x04 onReadReq p s))
/-- READ_RESP (R237). -/
def execReadResp (p : Packet) (s : State) : Res := .next (xptDone s (arrive 0x05 onReadResp p s))
/-- ATOMIC_FADD_ARRIVAL (R213). -/
def execAtomicFaddArrival (p : Packet) (s : State) : Res :=
  .next (xptDone s (arrive 0x06 (onAtomic faddValue) p s))
/-- ATOMIC_CAS_ARRIVAL (R213). -/
def execAtomicCasArrival (p : Packet) (s : State) : Res :=
  .next (xptDone s (arrive 0x07 (onAtomic casValue) p s))
/-- ATOMIC_RESP (R213). -/
def execAtomicResp (p : Packet) (s : State) : Res := .next (xptDone s (arrive 0x08 onAtomicResp p s))
/-- SIGNAL_ARRIVAL (R151). -/
def execSignalArrival (p : Packet) (s : State) : Res := .next (xptDone s (arrive 0x09 onSignal p s))
/-- ENABLE_ARRIVAL (R218). -/
def execEnableArrival (p : Packet) (s : State) : Res := .next (xptDone s (arrive 0x0A onEnable p s))
/-- ACK (R232). -/
def execAck (p : Packet) (s : State) : Res := .next (xptDone s (arrive 0x10 onAck p s))
/-- NAK (R232). -/
def execNak (p : Packet) (s : State) : Res := .next (xptDone s (arrive 0x11 onNak p s))
/-- RNR (R236). -/
def execRnr (p : Packet) (s : State) : Res := .next (xptDone s (arrive 0x12 onRnr p s))
/-- CONNECT_REQ (R202). -/
def execConnectReq (p : Packet) (s : State) : Res := .next (xptDone s (arrive 0x20 onConnReq p s))
/-- CONNECT_REP (R202). -/
def execConnectRep (p : Packet) (s : State) : Res := .next (xptDone s (arrive 0x21 onConnRep p s))
/-- CONNECT_RTU (R202). -/
def execConnectRtu (p : Packet) (s : State) : Res := .next (xptDone s (arrive 0x22 onConnRtu p s))
/-- CONNECT_REJ (R202). -/
def execConnectRej (p : Packet) (s : State) : Res := .next (xptDone s (arrive 0x23 onConnRej p s))
/-- DISCONNECT (R202). -/
def execDisconnect (p : Packet) (s : State) : Res := .next (xptDone s (arrive 0x24 onDisconnect p s))
/-- PATH_MIGRATE (R220). -/
def execPathMigrate (p : Packet) (s : State) : Res := .next (xptDone s (arrive 0x28 onPathMigrate p s))
/-- PATH_MIGRATE_ACK (R220). -/
def execPathMigrateAck (p : Packet) (s : State) : Res :=
  .next (xptDone s (arrive 0x29 onPathMigrateAck p s))
/-- BSH_DATA (R267); `used`: output derived from the chunk has left the member before its check (log
entry 23). -/
def execBshData (p : Packet) (used : Bool) (s : State) : Res :=
  .next (xptDone s (arriveWith 0x30 (onBshData used) (bshCheckFailed used) p s))
/-- BSH_CREDIT (R264). -/
def execBshCredit (p : Packet) (s : State) : Res := .next (xptDone s (arrive 0x31 onBshCredit p s))
/-- BSH_TREE (R263). -/
def execBshTree (p : Packet) (s : State) : Res := .next (xptDone s (arrive 0x32 (onBshControl 0x32) p s))
/-- BSH_TAINT (R267). -/
def execBshTaint (p : Packet) (s : State) : Res := .next (xptDone s (arrive 0x33 (onBshControl 0x33) p s))
/-- BSH_ABORT (R268). -/
def execBshAbort (p : Packet) (s : State) : Res := .next (xptDone s (arrive 0x34 (onBshControl 0x34) p s))
/-- CRD_TOK (R282). -/
def execCrdTok (p : Packet) (s : State) : Res := .next (xptDone s (arrive 0x38 onCrdTok p s))
/-- CRD_DONE (R282). -/
def execCrdDone (p : Packet) (s : State) : Res := .next (xptDone s (arrive 0x39 onCrdDone p s))
/-- CRD_RET (R285). -/
def execCrdRet (p : Packet) (s : State) : Res := .next (xptDone s (arrive 0x3A onCrdRet p s))

/-- What a packet of an opcode does; a packet from a miss buffer is checked before its bytes are
used. -/
def handlerOf (op : Nat) : Handler :=
  match op with
  | 0x01 => onSend
  | 0x02 => onWrite false
  | 0x03 => onWrite true
  | 0x04 => onReadReq
  | 0x05 => onReadResp
  | 0x06 => onAtomic faddValue
  | 0x07 => onAtomic casValue
  | 0x08 => onAtomicResp
  | 0x09 => onSignal
  | 0x0A => onEnable
  | 0x10 => onAck
  | 0x11 => onNak
  | 0x12 => onRnr
  | 0x20 => onConnReq
  | 0x21 => onConnRep
  | 0x22 => onConnRtu
  | 0x23 => onConnRej
  | 0x24 => onDisconnect
  | 0x28 => onPathMigrate
  | 0x29 => onPathMigrateAck
  | 0x30 => onBshData false
  | 0x31 => onBshCredit
  | 0x32 => onBshControl 0x32
  | 0x33 => onBshControl 0x33
  | 0x34 => onBshControl 0x34
  | 0x38 => onCrdTok
  | 0x39 => onCrdDone
  | 0x3A => onCrdRet
  | _ => fun s _ _ _ _ => s

/-! Firkin (R239 to R241). -/

/-- R239: a context that holds a gated entry. -/
def holdsGate (s : State) (k : Nat) : Bool :=
  (partSqs s (qpPart k)).any fun r => match (ring s r).taken with
    | [] => false
    | e :: _ => e.gated && (sqQp s r e == k || (entryGate e == 1 && gateQp s r e == k))

/-- R239: an active context. -/
def fkActive (s : State) (k : Nat) : Bool :=
  let q := qp s k
  q.una != q.nxt || readsOut q != 0 || q.timer.isSome || q.rnrUntil.isSome || holdsGate s k

/-- The context that a set gives up: the least recently used that may go. -/
def fkVictim (s : State) (set : Nat) : Option Nat :=
  (s.firkin.cached.filter fun k =>
    fkSet k == set && !fkActive s k && !s.firkin.pinned.contains k).getLast?

/-- Write a context back to its backing store. -/
def writeBack (s : State) (k : Nat) : State :=
  let p := qpPart k
  if qpNum k < storeCap s p 0x08 then writeMem s (qpStore s p + 512 * qpNum k) (qpBytes s k) else s

/-- Evict a context (R239). One that has operations to send is wanted again at once: offered work is
never dropped (R241). -/
def fkEvict (s : State) (k : Nat) : State :=
  let s1 := bump (writeBack s k) fkStat 0 32 1
  let s2 := { s1 with firkin := { s1.firkin with cached := s1.firkin.cached.erase k } }
  if (qp s2 k).ops.isEmpty then s2 else fkWant s2 k 8

/-- Ways of a set in use. -/
def fkWays (s : State) (set : Nat) : Nat :=
  (s.firkin.cached.filter fun k => fkSet k == set).length +
    (s.firkin.fetching.filter fun x => fkSet x.1 == set).length

/-- CONTEXT_FETCH_START (R239): the fetch of a wanted context begins once its set has a way. -/
def execContextFetchStart (p n : Nat) (s : State) : Res :=
  let k := qpKey p n
  .next (match s.firkin.wanted.find? fun x => x.1 == k with
    | none => s
    | some x =>
      let begin_ (s : State) : State :=
        bump { s with firkin := { s.firkin with
          wanted := s.firkin.wanted.filter fun y => y.1 != k
          fetching := s.firkin.fetching ++ [x] } } fkStat 32 32 1
      if fkWays s (fkSet k) < 16 then begin_ s
      else match fkVictim s (fkSet k) with
        | none => s
        | some v => begin_ (fkEvict s v))

/-- The packets queued for a context leave their miss buffers. -/
def takeMissed (s : State) (k : Nat) : List Arrival × State :=
  ((s.firkin.missed.filter fun x => x.1 == k).map Prod.snd,
    { s with firkin := { s.firkin with missed := s.firkin.missed.filter fun x => x.1 != k } })

/-- Packets are dropped from the miss buffers, counted in FK_DROP of their ports (R241). -/
def dropMissed (s : State) (k : Nat) : State :=
  let m := takeMissed s k
  m.1.foldl (fun s p => bump s (fkDrop p.port) 32 32 1) m.2

/-- R427: a queue pair taken over is settled as its context is first fetched. -/
def settleTaken (s : State) (k : Nat) : State :=
  let q := qp s k
  if !q.taken then s
  else
    let s1 := setQp s k { q with taken := false }
    let held := (qpFromStore s (qpPart k) (qpNum k)).2.2
    if !qpLive q then s1
    else if q.una ≠ q.nxt ∨ !q.ops.isEmpty ∨ held then enterError (sendDisconnect s1 k) k 0x22 0x01
    else modQp s1 k fun q => { q with nextSend := portTime s q.port, rate := rinitOf s q.port }

/-- A queued packet acts (R240). -/
def playMissed (k : Nat) (s : State) (p : Arrival) : State :=
  match parsePth p.bytes with
  | none => s
  | some (h, payload, tag) => processPkt s k p h payload tag (handlerOf h.op)
      (if h.op = 0x30 then bshCheckFailed false else justDrop)

/-- CONTEXT_FETCH_COMPLETE (R240, R241): the context is installed, and its queued packets are processed
in order. -/
def execContextFetchComplete (p n : Nat) (s : State) : Res :=
  let k := qpKey p n
  .next (if !(s.firkin.fetching.any fun x => x.1 == k) then s
    else
      let s1 := { s with firkin := { s.firkin with
        fetching := s.firkin.fetching.filter fun y => y.1 != k } }
      let pa := qpStore s p + 512 * n
      if (qp s k).state = .none then
        let m := takeMissed s1 k
        xptDone s (bump m.2 xptDrop 32 16 m.1.length)
      else if regionOf pa = .hostMem ∧ !s.linkUp then dropMissed s1 k
      else
        let d := readMem s1 pa 256
        if d.1 then xptDone s (enterError (dropMissed d.2.2 k) k 0x22 0x0D)
        else
          let s2 := { d.2.2 with firkin := { d.2.2.firkin with cached := k :: d.2.2.firkin.cached } }
          let m := takeMissed (settleTaken s2 k) k
          xptDone s (m.1.foldl (playMissed k) m.2))

end Sys2Proof.Machine
end

