-- ==== Sys2Proof/Machine/BushelSteps.lean ====
section
/-! DEFINITION. Bushel's commands: groups, the CMQ's operations, and what ends them (R249 to R261,
R265 to R269). -/

namespace Sys2Proof.Machine

/-- A queue pair entry of GROUP_CREATE, by direction (R249). -/
def gcQp (e : RingEntry) (d : Nat) : Nat := entryField e (0x20 + 4 * d) 4

/-- The group that GROUP_CREATE asks for. -/
def gcGroup (p : Nat) (e : RingEntry) : BshGroup :=
  { BshGroup.none with
    part := p, cmq := entryField e 0x12 2, rank := entryField e 0x14 2, nx := entryField e 0x16 2
    ny := entryField e 0x18 2, nz := entryField e 0x1A 2, stall := entryField e 0x1C 4
    qps := (List.range 6).map fun d =>
      if 2 ^ 31 ≤ gcQp e d then some (gcQp e d % 2 ^ 22) else Option.none }

/-- R249: a field of GROUP_CREATE is outside its range, or V does not fit its axis. -/
def gcBad (e : RingEntry) (g : BshGroup) : Bool :=
  let dims := [g.nx, g.ny, g.nz]
  decide (4096 ≤ entryField e 0x10 2 ∨ 4096 ≤ g.rank ∨ g.stall = 0 ∨ 65536 ≤ g.stall) ||
    dims.any (fun n => decide (n = 0 ∨ 4096 < n)) || decide (4096 < bshSize g ∨ bshSize g ≤ g.rank) ||
    !zeroField e 0x38 8 ||
    (List.range 6).any fun d => gcQp e d / 2 ^ 22 % 2 ^ 9 != 0 ||
      (g.qps.getD d none).isSome != decide (2 ≤ dims.getD (d / 2) 0)

/-- GROUP_CREATE's effect (R249). -/
def groupCreate (s : State) (p : Nat) (e : RingEntry) : BitVec 8 × State :=
  let gid := entryField e 0x10 2
  let g := gcGroup p e
  let ks := (g.qps.filterMap fun o => o.map (qpKey p))
  let tc := bits (reg s bshCtl) 8 3
  if gcBad e g then (0x02, s)
  else if bshGroup s gid ≠ BshGroup.none ∨ (ring s g.cmq).typ ≠ 6 ∨ (ring s g.cmq).state ≠ .run ∨
      (ring s g.cmq).part ≠ p ∨ (cmqGroup s g.cmq).isSome ∨
      ks.any (fun k => (qp s k).state != .rts || (qp s k).tc != tc) then (0x04, s)
  else if ks.any fun k => decide ((qp s k).version < 3) then (0x0F, s)
  else if !fkCanPin s ks then (0x10, s)
  else (0, setBsh (pinAll s ks) gid g)

/-- Every entry taken in on a ring and not started completes with a status. -/
def finishTaken (s : State) (r : Nat) (st : BitVec 8) : State :=
  (ring s r).taken.foldl (fun s e => finishHead s r e st) s

/-- GROUP_DESTROY's effect (R250). -/
def groupDestroy (s : State) (p : Nat) (e : RingEntry) : BitVec 8 × State :=
  let gid := entryField e 0x10 2
  let g := bshGroup s gid
  if 4096 ≤ gid ∨ !zeroField e 0x12 46 then (0x02, s)
  else if g = BshGroup.none ∨ g.part ≠ p then (0x04, s)
  else
    let s1 := finishTaken (bshAbort s gid 0x01 7 g.rank none) g.cmq 0x01
    (0, setBsh (fkUnpin s1 (g.qps.filterMap fun o => o.map (qpKey p))) gid BshGroup.none)

/-- An AQ command of Bushel or Carder on AQ `r`. One that pins contexts first waits until Firkin holds
them all: packets of theirs never wait for a fetch (R25). -/
def unitCommand (op r : Nat) (f : State → Nat → RingEntry → BitVec 8 × State) (s : State) : State :=
  match startedOp s r op with
  | none => s
  | some e =>
    if !mpServes s r then s
    else
    let a := f s (aqPart e) e
    let new := a.2.firkin.pinned.drop s.firkin.pinned.length
    if new.all (fkCached s) then xptDone s (completeEntry (mpTook a.2 r a.1) r e a.1 0 0 0)
    else new.foldl (fun s k => fkWant s k 8) s

/-- GROUP_CREATE (R249) on AQ `r`. -/
def execGroupCreate (r : Nat) (s : State) : Res := .next (unitCommand 0x58 r groupCreate s)

/-- GROUP_DESTROY (R250) on AQ `r`. -/
def execGroupDestroy (r : Nat) (s : State) : Res := .next (unitCommand 0x59 r groupDestroy s)

/-- REDUCE_SCATTER (R258): the entry at the head of CMQ `r` starts. -/
def execReduceScatter (r : Nat) (s : State) : Res := .next (xptDone s (bshStart 0x20 s r))
/-- ALL_GATHER (R258). -/
def execAllGather (r : Nat) (s : State) : Res := .next (xptDone s (bshStart 0x21 s r))
/-- BROADCAST (R259). -/
def execBroadcast (r : Nat) (s : State) : Res := .next (xptDone s (bshStart 0x22 s r))
/-- BARRIER (R259). -/
def execBarrier (r : Nat) (s : State) : Res := .next (xptDone s (bshStart 0x23 s r))
/-- SCALAR_REDUCE (R259). -/
def execScalarReduce (r : Nat) (s : State) : Res := .next (xptDone s (bshStart 0x24 s r))
/-- QUIESCE (R260). -/
def execQuiesce (r : Nat) (s : State) : Res := .next (xptDone s (bshStart 0x25 s r))
/-- SPARSE_ALL_GATHER (R261). -/
def execSparseAllGather (r : Nat) (s : State) : Res := .next (xptDone s (bshStart 0x26 s r))

/-- BUSHEL_RERUN (R267): the first run has finished at every member, and the generation is tainted. -/
def execBushelRerun (gid : Nat) (s : State) : Res :=
  .next (match (bshGroup s gid).run with
    | none => s
    | some r => if r.phase = 8 ∧ !r.paused ∧ r.tainted ∧ r.attempt = 0 then xptDone s (rerun s gid) else s)

/-- BUSHEL_COMPLETE (R265): the member's operation has run, and any re-run with it. -/
def execBushelComplete (gid : Nat) (s : State) : Res :=
  .next (match (bshGroup s gid).run with
    | none => s
    | some r =>
      if r.phase = 8 ∧ !r.paused ∧ (!r.tainted ∨ r.attempt = 1) then xptDone s (bshFinish s gid) else s)

/-- BUSHEL_STALL_TIMEOUT (R268): no packet of the operation within the stall timeout. -/
def execBushelStallTimeout (gid : Nat) (s : State) : Res :=
  let g := bshGroup s gid
  .next (match g.run with
    | none => s
    | some r =>
      if r.lastRx + g.stall * 1500000 ≤ fdTime s then xptDone s (bshAbort s gid 0x0A 4 g.rank none)
      else s)

/-- BUSHEL_PREEMPT_TIMEOUT (R269): no boundary within 200 us of the pre-emption. -/
def execBushelPreemptTimeout (gid : Nat) (s : State) : Res :=
  let g := bshGroup s gid
  .next (match g.run with
    | none => s
    | some r =>
      match r.preAt with
      | none => s
      | some t =>
        if !r.paused ∧ t + 300000 ≤ fdTime s then xptDone s (bshAbort s gid 0x0A 3 g.rank none) else s)

end Sys2Proof.Machine
end

