-- ==== Sys2Proof/Machine/Net.lean ====
section
/-! DEFINITION. Net instructions and the answers to them, and the start and end of mover descriptors
(R77, R78, R132, R217, R241). -/

namespace Sys2Proof.Machine

/-! Net instructions. -/

/-- Fields of rb (R77): the queue pair's number, the reserved bits and the memory key. -/
def rbQpn (rb : Word) : Nat := bits rb 0 22
def rbRsv (rb : Word) : Nat := bits rb 22 10
def rbKey (rb : Word) : Nat := bits rb 32 32

/-- A queue pair and new work that does not come from an SQ (R195, R217). -/
def qpTakesNow (s : State) (k op : Nat) : TakeWork :=
  match (qp s k).state with
  | .none => .fail 0x04
  | .rts => qpTakes s k op
  | _ => .fail 0x01

/-- A `put` or `sig.r` waits while 64 of them are unacknowledged (R56). -/
def netLimit (th : Thread) (k : OpKind) : Bool :=
  (k == .put || k == .sigR) &&
    decide (64 ≤ (th.ops.filter fun o => o.kind == .put || o.kind == .sigR).length)

/-- Issue a net instruction of wire opcode `op` (R77, R78, R217): `align`: its target is an 8 B word;
`len` and `data` of the operation. -/
def netIssue (i : Insn) (k : OpKind) (op : Nat) (align : Bool) (dst len : Nat)
    (data : Thread → Option (List Byte)) (t : Nat) (f : NForm) (s : State) : State :=
  xptDone s (issue t i
    (fun s th th' =>
      let rb := readS th f.rb
      let ra := readS th f.ra
      let q := qpKey (gridOf s th).part (rbQpn rb)
      if align ∧ ra.toNat % 8 ≠ 0 then raise s .align ra
      else if netLimit th k then .wait
      else match (if rbRsv rb = 0 then qpTakesNow s q op else .fail 0x04) with
      | .fail st => .exc s .net 0 st
      | .wait => .ask fun s => fkWant s q 8
      | .take =>
        let s1 := setThread s t (pushOp th' (newOp th i k ra len dst))
        .state (submit (fkTouch s1 q) q (.thread t th.nextOp) op (rbKey rb) ra.toNat 0 len 0 0
          (data th))) s)

/-- The low `n` bytes of a vector register. -/
def vecBytes (v : Vec) (n : Nat) : List Byte := (List.range n).map (vecByte v)

/-- `put` (R77): an inline WRITE of len bytes of vs. -/
def execPut (t : Nat) (f : NForm) (s : State) : Res :=
  .next (netIssue (insnN 0x00 false false true true f) .put 0x02 false 0 f.len.toNat
    (fun th => some (vecBytes (readV th f.vs) f.len.toNat)) t f s)

/-- `get` (R77): a READ of len bytes into vs. -/
def execGet (t : Nat) (f : NForm) (s : State) : Res :=
  .next (netIssue (insnN 0x01 false false true true f) .get 0x04 false f.vs.toNat f.len.toNat
    (fun _ => none) t f s)

/-- `atom.add` (R77): a remote fetch-and-add of rc. -/
def execAtomAdd (t : Nat) (f : NForm) (s : State) : Res :=
  .next (netIssue (insnN 0x02 true true false false f) .atomAdd 0x06 true f.rd.toNat 0
    (fun th => some (beBytes 8 (readS th f.rc).toNat)) t f s)

/-- `atom.cas` (R77): compares with rc and swaps in rd. -/
def execAtomCas (t : Nat) (f : NForm) (s : State) : Res :=
  .next (netIssue (insnN 0x03 true true false false f) .atomCas 0x07 true f.rd.toNat 0
    (fun th => some (beBytes 8 (readS th f.rc).toNat ++ beBytes 8 (readS th f.rd).toNat)) t f s)

/-- `sig.r` (R77): a remote SIGNAL of rc. -/
def execSigR (t : Nat) (f : NForm) (s : State) : Res :=
  .next (netIssue (insnN 0x04 false true false false f) .sigR 0x09 false 0 0
    (fun th => some (beBytes 8 (readS th f.rc).toNat)) t f s)

/-- NET_RESPONSE (R78, R81): the answer to a `get` or an atomic reaches the engine: the destination is
written, or a deferred NET is raised. -/
def execNetResponse (t id : Nat) (s : State) : Res :=
  .next (
    let th := thread s t
    match findOp th id with
    | none => s
    | some o =>
      match o.answer with
      | none => s
      | some a =>
        if o.fail.isSome then s
        else if a.status ≠ 0 then
          setThread s t (putOp th { o with fail := some { cause := .net, status := a.status, addr := 0 } })
        else
          let th1 := dropOp th id
          let th2 := if o.kind = .get then
              writeV th1 (BitVec.ofNat 4 o.dst) (vecOfBytes (a.bytes.take o.size))
            else writeS th1 (BitVec.ofNat 5 o.dst) (BitVec.ofNat 64 (leNat (a.bytes.take 8)))
          settleThread (setThread s t th2) t)

/-! Mover descriptors (R131, R132, R217). -/

/-- A descriptor that the transport carries starts: the queue pair accepts it, it waits for the
context, or it ends with a status. -/
def startRemote (s : State) (c : Nat) (d : MoverDesc) : State :=
  let rb : Word := BitVec.ofNat 64 (descQpkey d)
  let k := qpKey d.part (rbQpn rb)
  let op := if descOp d = 4 then 0x02 else 0x04
  match qpTakesNow s k op with
  | .fail st => stopDesc s c { d with running := true } st
  | .wait => fkWant s k 8
  | .take =>
    let roff := if descOp d = 4 then descDst d else descSrc d
    submit (fkTouch (putDesc s c { d with running := true, remote := true }) k) k (.mover c d.id) op
      (rbKey rb) roff 0 (descLen d) 0 d.ctx none

/-- MOVER_DESCRIPTOR_START (R131, R132): the next queued descriptor of core `c`, if it is `id`,
starts: it is checked, and its lines move. -/
def execMoverDescriptorStart (c id : Nat) (s : State) : Res :=
  .next (match nextDesc (mover s c) with
    | none => s
    | some d =>
      if d.id ≠ id ∨ s.err.fatal ∨ (partition s d.part).state = .frozen then s
      else if descMalformed d then stopDesc s c { d with running := true } 0x02
      else if descOutside d then stopDesc s c { d with running := true } 0x04
      else if descRemote d then xptDone s (startRemote s c d)
      else
        let d1 : MoverDesc := { d with running := true }
        moveLines (putDesc s c d1) c d1 (lineBound d))

/-- MOVER_COMPLETE (R132, R133): a descriptor that has stopped: its status word is written and its sync
object signalled. -/
def execMoverComplete (c id : Nat) (s : State) : Res :=
  .next (match findDesc s c id with
    | none => s
    | some d =>
      match d.result with
      | none => s
      | some st =>
        if d.stalled then s
        else settleGrid (completeDesc s c d st) d.grid)

end Sys2Proof.Machine
end

