-- ==== Sys2Proof/Machine/FaultSteps.lean ====
section
/-! DEFINITION. How translation faults end, and FAULT_POSTED's rate interval (R352 to R355). -/

namespace Sys2Proof.Machine

/-- FAULT_POSTED_HOLDOFF_END (R353): 10 us after the last FAULT_POSTED of partition `p`'s FQ; a
withheld one is posted if the FQ still holds an unread entry. -/
def execFaultPostedHoldoffEnd (p : Nat) (s : State) : Res :=
  let t := faultTable s p
  .next (if !t.holdoff ∨ fdTime s < t.since + 15000 then s
    else
      let s1 := setFaults s p { t with holdoff := false, withheld := false, since := 0 }
      if !t.withheld ∨ (ring s (fqOf p)).state ≠ .run then s1
      else
        let f := fqReport s1 p
        match f.1 with
        | some st => ringError f.2 (fqOf p) st (ring f.2 (fqOf p)).cons
        | none =>
          if (ring f.2 (fqOf p)).prod ≠ (ring f.2 (fqOf p)).cons then faultPosted f.2 p else f.2)

/-- The oldest fault that waits on die without an id receives one and its entry (R352). -/
def assignFault (s : State) (p : Nat) : State :=
  let t := faultTable s p
  match t.faults.find? fun f => f.fid.isNone && !f.joined with
  | none => s
  | some f =>
    if (partition s p).state = .frozen then s
    else
    let q := fqReady s p
    match lowestFid t 0 4096, q.1 with
    | some fid, true =>
      let f1 : FaultRec := { f with fid := some fid }
      let t1 := faultTable q.2 p
      writeFq (setFaults q.2 p { t1 with faults := t1.faults.map fun x => if x = f then f1 else x })
        p fid f1
    | _, _ => q.2

/-- FAULT_ID_ASSIGN (R352): room has returned in partition `p`'s table and FQ. -/
def execFaultIdAssign (p : Nat) (s : State) : Res := .next (assignFault s p)

/-- A stalled operation's local bytes lie in a fault's unit. -/
def opOnFault (f : FaultRec) (o : SendOp) : Bool :=
  let u := 2 ^ f.ulog2
  o.stalled && o.ctx == f.ctx && decide (o.laddr < (f.key + 1) * u ∧ f.key * u < o.laddr + max 1 o.len)

/-- The stalled operations of a queue pair that satisfy a test go on, or fail (R354). -/
def resolveOps (s : State) (k : Nat) (hit : SendOp → Bool) (fail : Bool) : State :=
  if fail then ((qp s k).ops.filter hit).foldl (fun s o => failOp s k o 0x05) s
  else modQp s k fun q => { q with
    ops := q.ops.map fun o => if hit o then { o with stalled := false } else o }

/-- The queue pair that carries a remote descriptor. -/
def descQp (d : MoverDesc) : Nat := qpKey d.part (rbQpn (BitVec.ofNat 64 (descQpkey d)))

/-- R354: an agent that waits on a fault re-executes its access, or fails. A descriptor that has stopped
goes on without its status word, or, with ST_CONTEXT_FAULT, without its signal (R123). -/
def resolveAgent (f : FaultRec) (fail : Bool) (s : State) (a : FaultAgent) : State :=
  match a with
  | .thread t =>
    let th := agentThread s t
    if th.state ≠ .parked then s
    else if !fail then modAgent s t fun x => { x with state := .ready }
    else if t < 2 ^ 24 then
      takeException s t th.pc ((imageWord s t th.pc).getD 0) 0 .context (excStatus .context)
    else modAgent s t fun x => { x with faulted := true, state := .ready }
  | .mover c id =>
    match findDesc s c id with
    | none => s
    | some d =>
      let d1 : MoverDesc := { d with stalled := false }
      if d.result.isSome then
        putDesc s c (if !fail then d1
          else if d.statDone then
            { d1 with result := some 0x05, statDone := descStat d == 0, syncBad := true }
          else { d1 with statBad := true })
      else if d.remote then
        resolveOps (putDesc s c d1) (descQp d) (fun o => o.src == .mover c id && o.stalled) fail
      else if fail then stopDesc s c d1 0x05
      else moveLines (putDesc s c d1) c d1 (lineBound d1)
  | .work p n => resolveOps s (qpKey p n) (opOnFault f) fail

/-- Resolve a list of faults that have left the table. -/
def resolveFaults (s : State) (fs : List FaultRec) (fail : Bool) : State :=
  fs.foldl (fun s f => f.waiters.foldl (resolveAgent f fail) s) s

/-- Faults of one key. -/
def sameFault (f g : FaultRec) : Bool := f.ctx == g.ctx && f.key == g.key && f.ulog2 == g.ulog2

/-- R354: end the fault of an id with everything that has joined it. -/
def resolveFault (p fid : Nat) (fail : Bool) (s : State) : State :=
  let t := faultTable s p
  match t.faults.find? fun f => f.fid == some fid with
  | none => s
  | some f =>
    let hit := t.faults.filter (sameFault f)
    let s1 := setFaults s p { t with faults := t.faults.filter fun g => !sameFault f g }
    xptDone s (assignFault (resolveFaults s1 hit fail) p)

/-- FQ_RETRY (R354): FQ_RESOLVE with RETRY of fault `fid` of partition `p`. -/
def execFqRetry (p fid : Nat) (s : State) : Res := .next (if bar0 s then resolveFault p fid false s else s)

/-- FQ_FAIL (R354): FQ_RESOLVE with FAIL. -/
def execFqFail (p fid : Nat) (s : State) : Res := .next (if bar0 s then resolveFault p fid true s else s)

/-- A partition's fault timeout in fabric cycles (R355). -/
def faultTmo (s : State) (p : Nat) : Nat :=
  min 1000 (max 1 (bits (reg s (fqCfg p)) 0 10)) * 1500000

/-- A fault has ended by itself: what has joined it stays, under its id (R352; log entry 24). -/
def passFault (f : FaultRec) (l : List FaultRec) : List FaultRec :=
  match l with
  | [] => []
  | g :: rest =>
    if sameFault f g then { g with fid := f.fid, joined := f.joined } :: rest
    else g :: passFault f rest

/-- FAULT_TIMEOUT (R355): a fault of partition `p` whose own timeout has elapsed ends as if failed. -/
def execFaultTimeout (p : Nat) (s : State) : Res :=
  let t := faultTable s p
  .next (match t.faults.find? fun f => decide (f.time + faultTmo s p ≤ fdTime s ∧
      (partition s p).state ≠ .frozen) with
    | none => s
    | some f =>
      let rest := t.faults.erase f
      let s1 := setFaults s p { t with faults := if f.joined then rest else passFault f rest }
      let s2 := post s1 (eqOf 0) 0x51 (fqOf p)
        (BitVec.ofNat 64 (f.fid.getD 4096 + 2 ^ 32 * p)) (BitVec.ofNat 64 f.waiters.length)
      xptDone s (assignFault (resolveFaults s2 [f] true) p))

end Sys2Proof.Machine
end

