-- ==== Sys2Proof/Machine/CarderSteps.lean ====
section
/-! DEFINITION. Carder's commands: bindings, DISPATCH, COMBINE and their ends (R272 to R288). -/

namespace Sys2Proof.Machine

/-- Fields of CARDER_BIND (R272). -/
def cbN (e : RingEntry) : Nat := entryByte e 0x13 + 1
def cbExperts (e : RingEntry) : Nat := entryField e 0x14 2
def cbTctl (e : RingEntry) : Nat := entryField e 0x1C 4
def cbGroups (e : RingEntry) : Nat := cbTctl e / 65536 % 4096 + 1
def cbUnbind (e : RingEntry) : Bool := entryByte e 0x38 % 2 == 1

/-- R272: a field of CARDER_BIND is outside its range; with UNBIND every field but sq is zero. -/
def cbBad (e : RingEntry) : Bool :=
  let n := cbExperts e
  let tsz := entryField e 0x1A 2
  let cnt := entryField e 0x18 2
  decide (2 ≤ entryByte e 0x38) || !zeroField e 0x39 7 ||
    (if cbUnbind e then !zeroField e 0x12 38
     else decide (cbN e ≤ entryByte e 0x12 ∨ n = 0 ∨ 4096 < n ∨ 1024 ≤ entryField e 0x16 2 ∨ cnt = 0 ∨
        1024 < entryField e 0x16 2 + cnt ∨ tsz = 0 ∨ 512 < tsz ∨ cbTctl e % 65536 = 0 ∨
        2 ^ 28 ≤ cbTctl e))

/-- Words of a table. -/
def tableWords (bs : List Byte) (w n : Nat) : List Nat :=
  (List.range n).map fun i => leNat ((bs.drop (w * i)).take w)

/-- A binding from the command and its tables (R273). -/
def cbBind (p : Nat) (c : BitVec 20) (e : RingEntry) (xs qs hs : List Byte) : CrdBind :=
  { sq := entryField e 0x10 2, part := p, ctx := c, rank := entryByte e 0x12
    tagbase := entryField e 0x16 2, tagcnt := entryField e 0x18 2, tsz := entryField e 0x1A 2
    stall := cbTctl e % 65536
    experts := (tableWords xs 8 (cbExperts e)).map fun w =>
      { cap := w / 2 ^ 48, erank := w / 2 ^ 40 % 256, group := w / 2 ^ 28 % 4096
        valid := w % 2 == 1 }
    ranks := (tableWords qs 8 (cbN e)).map fun w => w % 2 ^ 22
    hosts := (tableWords hs 32 (cbGroups e)).map fun w =>
      { base := w % 2 ^ 64, stride := w / 2 ^ 64 % 2 ^ 64, sync := w / 2 ^ 128 % 2 ^ 64
        nbuf := w / 2 ^ 192 % 2 ^ 16 } }

/-- The three tables as they were read: each its bytes, or none where its read failed, with the status
of the first failure. -/
structure CrdTables where
  xs : Option (List Byte)
  qs : Option (List Byte)
  hs : Option (List Byte)
  fail : Option (BitVec 8)

/-- R274: an entry of a table that could be read is outside its range, or two such tables disagree. -/
def tablesBad (e : RingEntry) (b : CrdBind) (t : CrdTables) : Bool :=
  let mine := hostedAt b b.rank
  let groups := mine.map fun x => (crdExp b x).group
  t.xs.any (fun xs => (tableWords xs 8 (cbExperts e)).any (fun w => w / 2 % 2 ^ 27 != 0 ||
    (w % 2 == 1 && decide (cbN e ≤ w / 2 ^ 40 % 256)))) ||
  t.qs.any (fun qs => ((List.range (cbN e)).zip (tableWords qs 8 (cbN e))).any (fun x =>
    x.2 / 2 ^ 32 != 0 || x.2 / 2 ^ 22 % 2 ^ 9 != 0 ||
      (x.2 / 2 ^ 31 % 2 == 1) == (x.1 == b.rank))) ||
  t.hs.any (fun hs => (tableWords hs 32 (cbGroups e)).any (fun w => w / 2 ^ 208 != 0) ||
    b.hosts.any (fun h => h.base % 64 != 0 || h.stride % 64 != 0 ||
      decide (h.nbuf = 0 ∨ 1024 < h.nbuf))) ||
  groups.any (fun g => decide (cbGroups e ≤ g)) || decide (groups.eraseDups.length ≠ groups.length) ||
  (t.hs.isSome && mine.any fun x => decide ((crdHost b x).stride < bufferLen b x))

/-- Read the three tables, with the SQ's partition and context. -/
def readTables (s : State) (p : Nat) (c : BitVec 20) (e : RingEntry) : CrdTables × State :=
  let rd (s : State) (va n : Nat) : Except (BitVec 8) (List Byte) × State :=
    let d := readVa s .fabric fabricUnit p c va n
    match d.1 with
    | .ok bs => (.ok bs, d.2)
    | .error f => (.error (failStatus f), d.2)
  let x := rd s (entryField e 0x20 8) (cbExperts e * 8)
  let q := rd x.2 (entryField e 0x28 8) (cbN e * 8)
  let h := rd q.2 (entryField e 0x30 8) (cbGroups e * 32)
  let got (r : Except (BitVec 8) (List Byte)) : Option (List Byte) := r.toOption
  let why (r : Except (BitVec 8) (List Byte)) : Option (BitVec 8) := match r with
    | .ok _ => none
    | .error st => some st
  ({ xs := got x.1, qs := got q.1, hs := got h.1
     fail := (why x.1).or ((why q.1).or (why h.1)) }, h.2)

/-- R274: every receive buffer can be written. -/
def buffersOk (s : State) (b : CrdBind) : Bool × State :=
  (hostedAt b b.rank).foldl (fun a x =>
    (List.range (crdHost b x).nbuf).foldl (fun a i =>
      if !a.1 then a
      else rangeOk a.2 b.part b.ctx ((crdHost b x).base + i * (crdHost b x).stride) (bufferLen b x) true)
      a) (true, s)

/-- R274: the tag ranges of two bindings overlap. -/
def tagsOverlap (base cnt : Nat) (b : CrdBind) : Bool :=
  decide (base < b.tagbase + b.tagcnt ∧ b.tagbase < base + cnt)

/-- BIND's effect (R274): the first status that applies; of a table that cannot be read nothing is
judged but that it cannot be read. -/
def carderBind (s : State) (p : Nat) (e : RingEntry) : BitVec 8 × State :=
  let r := entryField e 0x10 2
  let x := ring s r
  let t := readTables s p x.ctx e
  let early : Bool := x.typ != 1 || x.state != .run || x.part != p || (sqBind s r).isSome ||
    s.binds.any (tagsOverlap (entryField e 0x16 2) (entryField e 0x18 2))
  let b := cbBind p x.ctx e (t.1.xs.getD []) (t.1.qs.getD []) (t.1.hs.getD [])
  let ks := if t.1.qs.isSome then bindQps b else []
  let tc := bits (reg s crdCtl) 8 3
  if tablesBad e b t.1 then (0x02, t.2)
  else if early ∨ ks.any (fun k => (qp s k).state != .rts || (qp s k).tc != tc || qpBound s k) then
    (0x04, t.2)
  else if ks.any fun k => decide ((qp s k).version < 3) then (0x0F, t.2)
  else if !fkCanPin s ks ∨ 16 ≤ s.binds.length then (0x10, t.2)
  else match t.1.fail with
    | some st => (st, t.2)
    | none =>
      let w := buffersOk t.2 b
      if !w.1 then (0x05, w.2)
      else
        let s1 := pinAll w.2 ks
        (0, { s1 with binds := s1.binds ++ [b] })

/-- Tags of a binding. -/
def bindTags (b : CrdBind) : List Nat := (List.range b.tagcnt).map fun i => b.tagbase + i

/-- UNBIND's effect (R274); an SQ that is not bound gives ST_BOUNDS (log entry 25). -/
def carderUnbind (s : State) (p : Nat) (e : RingEntry) : BitVec 8 × State :=
  let r := entryField e 0x10 2
  match sqBind s r with
  | none => (0x04, s)
  | some b =>
    if b.part ≠ p ∨ (bindTags b).any (fun t => (crdTag s t).inUse) then (0x04, s)
    else
      let s1 := (bindTags b).foldl (fun s t => setTag s t CrdTag.free) (fkUnpin s (bindQps b))
      (0, { s1 with binds := s1.binds.filter fun x => x.sq != r })

/-- CARDER_BIND (R272) on AQ `r`; an entry with UNBIND is CARDER_UNBIND's. -/
def execCarderBind (r : Nat) (s : State) : Res :=
  .next (match startedOp s r 0x5A with
    | none => s
    | some e =>
      if cbUnbind e then s
      else unitCommand 0x5A r (fun s p e => if cbBad e then (0x02, s) else carderBind s p e) s)

/-- CARDER_UNBIND (R274) on AQ `r`. -/
def execCarderUnbind (r : Nat) (s : State) : Res :=
  .next (match startedOp s r 0x5A with
    | none => s
    | some e =>
      if !cbUnbind e then s
      else unitCommand 0x5A r (fun s p e => if cbBad e then (0x02, s) else carderUnbind s p e) s)

/-- The head entry of an SQ, ready to start, of a Carder opcode. -/
def crdHead (s : State) (r op : Nat) : Option RingEntry :=
  match (ring s r).taken with
  | [] => none
  | e :: _ =>
    if entryOpcode e ≠ op ∨ (ring s r).typ ≠ 1 ∨ !headReady s r e ∨ headerBad (ring s r) e then none
    else some e

/-- The Carder program is installed (R289). -/
def crdInstalled (s : State) : Bool := (reg s crdProg).getLsbD 63

/-- R260: a QUIESCE holds new work on a queue pair of the binding. -/
def crdHeld (s : State) (b : CrdBind) : Bool := (bindQps b).any (quiesced s)

/-- The head DISPATCH starts, waits or completes (R275 to R278, R288, R289). -/
def dispatchHead (s : State) (r : Nat) (e : RingEntry) : State :=
  match sqBind s r with
  | none => finishHead s r e 0x04
  | some b =>
    let t := crdTagOf e
    if !crdInstalled s then finishHead s r e 0x01
    else if dispatchBad b e then consumeMalformed s r e
    else if !crdTagOk b t ∨ (crdTag s t).inUse then finishHead s r e 0x04
    else if 16 ≤ crdRunning s ∨ (hostedAt b b.rank).any (bufferHeld s b t) ∨ crdHeld s b then s
    else beginDispatch s b e

/-- DISPATCH (R276): the entry at the head of SQ `r`. -/
def execDispatch (r : Nat) (s : State) : Res :=
  .next (match crdHead s r 0x30 with
    | none => s
    | some e => xptDone s (dispatchHead s r e))

/-- DISPATCH_COMPLETE (R283) of tag `t` of SQ `r`. -/
def execDispatchComplete (r t : Nat) (s : State) : Res :=
  .next (match sqBind s r, (crdTag s t).disp with
    | some b, some e =>
      if crdTagOk b t ∧ !crdOutstanding s b e then xptDone s (endDispatch s b t e) else s
    | _, _ => s)

/-- The head COMBINE starts, waits or completes (R275, R284, R285). -/
def combineHead (s : State) (r : Nat) (e : RingEntry) : State :=
  match sqBind s r with
  | none => finishHead s r e 0x04
  | some b =>
    let t := crdTagOf e
    let x := crdTag s t
    if !crdInstalled s then finishHead s r e 0x01
    else if !crdTagOk b t ∨ !x.inUse ∨ x.comb.isSome then finishHead s r e 0x04
    else if x.disp.isSome ∨ 16 ≤ crdRunning s ∨ crdHeld s b then s
    else if combineBad b e (x.ntok, x.route) then consumeMalformed s r e
    else beginCombine s b e

/-- COMBINE (R284): the entry at the head of SQ `r`. -/
def execCombine (r : Nat) (s : State) : Res :=
  .next (match crdHead s r 0x31 with
    | none => s
    | some e => xptDone s (combineHead s r e))

/-- COMBINE_COMPLETE (R286, R287) of tag `t` of SQ `r`. -/
def execCombineComplete (r t : Nat) (s : State) : Res :=
  .next (match sqBind s r, (crdTag s t).comb with
    | some b, some e =>
      if crdTagOk b t ∧ !crdOutstanding s b e ∧ (missing b (crdTag s t)).isEmpty then
        xptDone s (endCombine s b t e)
      else s
    | _, _ => s)

/-- CARDER_STALL_TIMEOUT (R287): outputs of tag `t` of SQ `r` are missing when the timeout runs out. -/
def execCarderStallTimeout (r t : Nat) (s : State) : Res :=
  .next (match sqBind s r, (crdTag s t).comb with
    | some b, some _ =>
      let x := crdTag s t
      let m := missing b x
      if crdTagOk b t ∧ !m.isEmpty ∧ x.startedAt + b.stall * 1500000 ≤ fdTime s then
        markFailed (setTag s t { x with timeout := true }) t m.contains
      else s
    | _, _ => s)

end Sys2Proof.Machine
end

