-- ==== Sys2Proof/Machine/SchedSteps.lean ====
section
/-! DEFINITION. LAUNCH, admission, the start of groups, the ledger window boundary, pacing and the
calibration factor (R23, R51, R90, R91, R390 to R400). -/

namespace Sys2Proof.Machine

/-- Power accepts work: Full or Trim, with no entry to Doze under way (R401, R402). -/
def powerAdmits (s : State) : Bool :=
  inService s && (s.sched.power == .full || s.sched.power == .trim) && s.sched.target != some .doze &&
    s.sched.target != some .standby && !s.err.fatal

/-- R91: the LAUNCH entry's body breaks R90. Parameter blocks are taken as 8 B aligned (log entry
14). -/
def launchBad (part : Nat) (e : RingEntry) : Bool :=
  let lf := entryByte e 3
  let fabric := lf / 4 % 2 == 1
  let dies := entryField e 0x3E 2
  decide (8 ≤ lf) || entryField e 0x10 8 % 64 != 0 || entryField e 0x18 8 % 8 != 0 ||
  entryField e 0x28 8 % 8 != 0 ||
  entryField e 0x30 2 == 0 || entryField e 0x32 2 == 0 || entryField e 0x34 2 == 0 ||
  decide (entryByte e 0x36 = 0 ∨ 64 < entryByte e 0x36 ∨ 8 < entryByte e 0x37) ||
  decide (512 < entryField e 0x38 2) ||
  decide (entryField e 0x3A 2 = 0 ∨ 1024 < entryField e 0x3A 2) ||
  decide (entryField e 0x3C 2 = 0 ∨ 26000 < entryField e 0x3C 2) ||
  decide (16 ≤ dies) || (dies == 0 && !fabric) || (fabric && part != 0)

/-- The grid of a LAUNCH entry (R90), held for admission. -/
def gridOfLaunch (r : Nat) (x : Ring) (e : RingEntry) : Grid :=
  let lf := entryByte e 3
  { Grid.none with
    state := .held, ring := r, index := e.index, noCqe := entryNoCqe e, cookie := entryCookie e
    part := x.part, ctx := x.ctx, excMode := lf % 2 == 1, debug := lf / 2 % 2 == 1
    fabric := lf / 4 % 2 == 1, prog := entryWord e 0x10, param := entryWord e 0x18
    seed := entryWord e 0x20, excrec := entryWord e 0x28, gx := entryField e 0x30 2
    gy := entryField e 0x32 2, gz := entryField e 0x34 2, tpg := entryByte e 0x36
    nacc := entryByte e 0x37, lsz := entryField e 0x38 2, psz := entryField e 0x3A 2
    energy := entryField e 0x3C 2, dies := BitVec.ofNat 4 (entryField e 0x3E 2), order := e.order }

/-- The grid held for the LAUNCH at the head of a ring. -/
def heldGrid (s : State) (r : Nat) : Option Nat :=
  (s.grids.find? fun e => e.2.state == .held && e.2.ring == r).map Prod.fst

/-- LAUNCH (R90, R91, R397): the entry at the head of an SQ is checked and held for admission. Its
energy is compared with the partition's budget here, once: a held LAUNCH is not compared again when
PART_RESIZE lowers the budget (DESIGN CHOICE, log entry 80). -/
def execLaunch (r : Nat) (s : State) : Res :=
  .next (match (ring s r).taken with
    | [] => s
    | e :: _ =>
      let x := ring s r
      if !headReady s r e ∨ headerBad x e ∨ entryOpcode e ≠ 0x01 ∨ (heldGrid s r).isSome then s
      else if launchBad x.part e then finishHead s r e 0x02
      else
        let g := gridOfLaunch r x e
        if (partition s x.part).energy < g.energy ∨ neverFits s g then finishHead s r e 0x10
        else setGrid { s with nextGrid := s.nextGrid + 1 } s.nextGrid g)

/-- Priority class of a partition (R397). -/
def partClass (s : State) (p : Nat) : Nat := bits (reg s (pwrPart p)) 56 2

/-- R397: a candidate: a LAUNCH held for a partition in RUN, or a pre-empted grid. -/
def isCandidate (s : State) (g : Grid) : Bool :=
  (g.state == .held && (partition s g.part).state == .run && !ringPaused s g.ring) ||
    (g.state == .preempted && ((partition s g.part).state == .preempted ||
      (partition s g.part).state == .run) && !(partition s g.part).quiesced)

/-- Candidate order: class, then age (R397). -/
def candBefore (s : State) (a b : Nat) : Bool :=
  let x := grid s a
  let y := grid s b
  decide (partClass s x.part < partClass s y.part) ||
    (partClass s x.part == partClass s y.part && decide (x.order ≤ y.order))

/-- Insert a candidate. -/
def insertCand (s : State) (g : Nat) : List Nat → List Nat
  | [] => [g]
  | x :: xs => if candBefore s x g then x :: insertCand s g xs else g :: x :: xs

/-- The candidates in order. -/
def candidates (s : State) : List Nat :=
  ((s.grids.filter fun e => isCandidate s e.2).map Prod.fst).foldl (fun l g => insertCand s g l) []

/-- R397: STARVE, where 0 acts as 1. -/
def starveLimit (s : State) : Nat := max 1 (bits (reg s pwrCtl) 24 8)

/-- R397: the first candidate that fits, or that can never fit; a starved one blocks those after it. -/
def pickCandidate (s : State) : List Nat → Option Nat
  | [] => none
  | g :: gs =>
    if neverFits s (grid s g) ∨ (admission s (grid s g)).isSome then some g
    else if starveLimit s ≤ (grid s g).skipped then none
    else pickCandidate s gs

/-- Post PWR_PREEMPT (R409). -/
def postPreempt (s : State) (p what cls : Nat) : State :=
  post s (eqOf 0) 0x63 p (BitVec.ofNat 64 what) (BitVec.ofNat 64 cls)

/-- R400: a partition pre-empted by the scheduler whose grids have all ended runs again. -/
def resumeEmpty (s : State) (p : Nat) : State :=
  if (partition s p).state = .preempted ∧ !(partition s p).quiesced ∧
      !(s.grids.any fun x => x.2.part == p && x.2.state == .preempted) then
    postPreempt (unholdPartition s p) p 2 (partClass s p)
  else s

/-- R395, R396, R400: admit a candidate: its reservation, its LAUNCH consumed, or its partition
resumed. -/
def admitGrid (s : State) (n : Nat) : State :=
  let g := grid s n
  if neverFits s g then
    if g.state = .held then
      match (ring s g.ring).taken with
      | e :: _ => finishHead (setGrid s n Grid.none) g.ring e 0x10
      | [] => s
    else resumeEmpty (abortGrid s n 0x10) g.part
  else match admission s g with
    | none => s
    | some shares =>
      let held := g.state == .held
      let s1 := modGrid s n fun y => { y with
        state := .running, shares := shares, skipped := 0, estimate := effectiveEstimate s g
        fullWindow := false, charge := 0, paced := s.sched.partPaced.contains g.part
        pacedAt := fdTime s }
      let s2 := if held then consumeHead (useCorrection s1 g) g.ring else s1
      if (partition s2 g.part).state = .preempted then
        postPreempt (unholdPartition s2 g.part) g.part 2 (partClass s2 g.part)
      else s2

/-- R23, R397: admit candidates in order until none fits; `n` bounds their number. -/
def admitAll (s : State) : Nat → State
  | 0 => s
  | n + 1 =>
    if !powerAdmits s then s
    else match pickCandidate s (candidates s) with
      | none => s
      | some g => admitAll (admitGrid s g) n

/-- ADMISSION (R395 to R397): the first candidate that fits is admitted. -/
def execAdmission (s : State) : Res := .next (admitAll s 1)

/-- Dies of a grid's groups, in turn (R396); a saved group may go to any engine (R372). -/
def dieOfGroup (g : Grid) (idx : Nat) : Option Nat :=
  (g.shares[idx % g.shares.length]?).map Prod.fst

/-- Engines of a core. -/
def enginesOfCore (c : Nat) : List Nat :=
  let x := coreEngines c
  (List.range x.2).map fun i => x.1 + i

/-- Cores a grid's groups may use: its partition's, or the fabric die's (R51). -/
def gridCores (s : State) (g : Grid) : List Nat :=
  if g.fabric then (List.range 64).map fun i => 1024 + i
  else (s.coreOwner.filter fun e => e.2 == some g.part && !s.sched.moving.contains e.1).map Prod.fst

/-- Die of a core. -/
def dieOfCore (c : Nat) : Nat := if c < 1024 then c / 256 else 4

/-- A core is placed on before another, or as well: a powered one before one that is gated (R401), and
then the one with the smaller charge in the last window (R396). -/
def coreFirst (s : State) (a b : Nat) : Bool :=
  if corePowered s a = corePowered s b then
    decide (tget 0 s.sched.coreLast a ≤ tget 0 s.sched.coreLast b)
  else corePowered s a

/-- R396, R401: the engine's core comes first among the cores allowed that have room. -/
def coreChosen (s : State) (g : Grid) (cores : List Nat) (e : Nat) : Bool :=
  cores.contains (coreOf e) &&
    cores.all fun c => coreFirst s (coreOf e) c ||
      (enginesOfCore c).all fun e' => (fitOn s g e').isNone

/-- GROUP_START (R51 to R53, R60, R372, R396): the next group of a grid is placed whole on engine
`e`: first those saved, then new ones in index order. The engine within the rules' choice is the
command's (log entry 15). -/
def execGroupStart (gn e : Nat) (s : State) : Res :=
  .next (
    let g := grid s gn
    if g.state ≠ .running ∨ s.err.fatal ∨ (e < 16384 ∧ s.sched.gated) ∨
        (partition s g.part).state ≠ .run ∨ (partition s g.part).draining then s
    else
      let cores := match g.saved with
        | _ :: _ => gridCores s g
        | [] => (gridCores s g).filter fun c => dieOfGroup g g.nextGroup == some (dieOfCore c)
      if !coreChosen s g cores e then s
      else match fitOn s g e with
        | none => s
        | some p =>
          match g.saved with
          | [] =>
            if gridGroups g ≤ g.nextGroup then s
            else
              let i := loadImage s gn (coreOf e)
              match i.1 with
              | some st => abortGrid i.2 gn st
              | none => startGroup i.2 gn e p
          | x :: _ =>
            let i := loadImage s gn (coreOf e)
            match i.1 with
            | some st => abortGrid i.2 gn st
            | none => replaceGroup i.2 gn e p x)

/-! The ledger window (R390 to R400). -/

/-- GL_RULE_A of a rule (R411). -/
def glRuleA (i : Nat) : Nat := 0x0028400 + 16 * i

/-- R394, R410: the level that fired throttle rules give a die, 7 while Gill is silent. -/
def throttleLevel (s : State) (d : Nat) : Nat :=
  if s.sched.silent then 7
  else
    ((List.range 32).filter fun i => tget false s.gill.fired i &&
      bits (reg s (glRuleA i)) 60 3 == 2 && (reg s (glRuleA i)).getLsbD (52 + d)).foldl
      (fun m i => max m (bits (reg s (glRuleA i)) 57 3)) 0

/-- R399: a grid's demand in the window that ends, scaled up where it was paced. -/
def windowDemand (s : State) (g : Grid) : Nat :=
  if g.paced then
    g.charge * windowCycles / max 1 (min windowCycles (g.pacedAt - s.sched.windowStart))
  else g.charge

/-- R398, R399: a grid at the end of a window: its demand is kept where it ran all of it, its pacing
ends. -/
def closeGrid (s : State) (g : Grid) : Grid :=
  if g.state = .running ∨ g.state = .stopping then
    { g with
      demand := if g.fullWindow then max g.demand (windowDemand s g) else g.demand
      charge := 0, paced := false, fullWindow := g.state == .running }
  else g

/-- R398: a thread that pacing moved from SPIN to WAIT returns to SPIN. -/
def unpaceThread (now : Nat) (th : Thread) : Thread :=
  if th.state = .wait ∧ th.spin.isSome then
    { th with state := .spin, spin := th.spin.map fun x => { x with since := now } }
  else th

/-- R390 step 1: the window's charges close. What is charged to the module only is measured: a free
value within the fixed reserve, which holds its full-load values (R393). -/
def closeWindow (s : State) : State :=
  let f := takeFree s
  let s1 := f.2
  let dies := [0, 1, 2, 3, 4].map fun d =>
    (d, grainsUp (tget 0 s.sched.dieCharge d) + idleOf s d)
  let parts := (List.range 65).map fun p =>
    (p, grainsUp (tget 0 s.sched.partCharge p + partEngines s p * engineIdle))
  let s2 := { s1 with
    grids := s1.grids.map fun e => (e.1, closeGrid s e.2)
    threads := s1.threads.map fun e => (e.1, unpaceThread (engineNow s e.1) e.2) }
  modSched s2 fun z => { z with
    window := (z.window + 1) % 2 ^ 32
    windowStart := z.windowStart + windowCycles
    dieLast := dies.filter fun x => x.2 != 0
    partLast := parts.filter fun x => x.2 != 0
    coreLast := z.coreCharge
    dieCharge := [], partCharge := [], coreCharge := [], partPaced := []
    moduleLast := sumList (dies.map Prod.snd) + f.1.toNat % (fixedReserve + 1) }

/-- R24, R390 step 2: new budgets, throttle levels and Gill's temperatures apply. -/
def applyBudgets (s : State) : State :=
  let s1 := { s with parts := s.parts.map fun e => (e.1, { e.2 with energy := e.2.nextEnergy }) }
  modSched s1 fun z => { z with
    moduleBudget := min 26000 (bits (reg s pwrBudget) 0 15)
    budget := [0, 1, 2, 3, 4].map fun d => (d, bits (reg s (pwrDie d)) 0 15)
    levels := ([0, 1, 2, 3, 4].map fun d => (d, throttleLevel s d)).filter fun x => x.2 != 0
    temps := if z.silent then z.temps
      else ([0, 1, 2, 3, 4].map fun d =>
        (d, (tget GillChannel.reset s.gill.channels d).value)).filter fun x => x.2 != 0 }

/-- Code of a power state in events and PWR_STATE.CUR (R409, R411). -/
def powerCode (p : PowerState) : Nat :=
  match p with
  | .full => 0 | .trim => 1 | .doze => 2 | .standby => 3 | .off => 4

/-- Post PWR_STATE (R402, R409). -/
def postPower (s : State) (new old : PowerState) : State :=
  post s (eqOf 0) 0x62 0 (BitVec.ofNat 64 (powerCode new)) (BitVec.ofNat 64 (powerCode old))

/-- R402: partitions with running grids that the entry to Doze pre-empts. -/
def dozeParts (s : State) : List Nat :=
  if (reg s pwrCtl).getLsbD 2 ∧ preEnabled s then
    (List.range 65).filter fun p => (partition s p).state == .run &&
      s.grids.any fun e => e.2.part == p && e.2.state == .running
  else []

/-- R402: the entry to Doze begins: admission stops, and running grids are pre-empted or run out. -/
def enterDoze (s : State) : State :=
  let ps := dozeParts s
  modSched (ps.foldl preemptPartition s) fun z => { z with target := some .doze, dozePre := ps }

/-- R402: a transition begins, where the table names one. -/
def beginPower (s : State) (p : PowerState) : State :=
  match s.sched.power, p with
  | .full, .trim => modSched s fun z => { z with target := some .trim }
  | .trim, .full => modSched s fun z => { z with target := some .full }
  | .doze, .full => modSched s fun z => { z with target := some .full }
  | .full, .doze => enterDoze s
  | .trim, .doze => enterDoze s
  | _, .standby => modSched s fun z => { z with target := some .standby }
  | _, _ => s

/-- R402: a state is requested: during a transition it applies after it, the last one winning. -/
def requestPower (s : State) (p : PowerState) : State :=
  if s.sched.target.isSome then modSched s fun z => { z with wanted := some p } else beginPower s p

/-- R402: a transition completes in a state: PWR_STATE is posted, and a request made meanwhile
applies. -/
def arrivePower (s : State) (new : PowerState) : State :=
  let s1 := modSched s fun z => { z with power := new, target := none, wanted := none }
  let s2 := postPower s1 new s.sched.power
  match s.sched.wanted with
  | some p => beginPower s2 p
  | none => s2

/-- R402: a transition between Full and Trim completes at the boundary. -/
def applyTrim (s : State) : State :=
  match s.sched.power, s.sched.target with
  | .full, some .trim => arrivePower s .trim
  | .trim, some .full => arrivePower s .full
  | _, _ => s

/-- R397, R411: candidates left over are skipped once more, and a LAUNCH entry held past its first
boundary is counted. -/
def countSkipped (s : State) : State :=
  let cs := candidates s
  let s1 := cs.foldl (fun s g => modGrid s g fun y => { y with skipped := y.skipped + 1 }) s
  bump s1 pwrStat 16 16 (cs.filter fun g =>
    (grid s g).state == .held && (grid s g).skipped == 0).length

/-- R400: the partition to pre-empt next for a candidate of class `c`: of the lowest class below it
that holds a reservation, the one with the largest. While one still drains, and so has yet to release
its reservation, no other is taken. -/
def victim (s : State) (c : Nat) : Option Nat :=
  let ps := (List.range 65).filter fun p => (partition s p).state == .run &&
    decide (c < partClass s p) && reservePart s p != 0
  if ps.any fun p => (partition s p).draining then none else
  ps.foldl (fun best p => match best with
    | none => some p
    | some b =>
      if partClass s b < partClass s p ∨
          (partClass s b = partClass s p ∧ reservePart s b < reservePart s p) then some p
      else some b) none

/-- R400: pre-empt partitions one at a time until the candidate fits, at most `n`. -/
def preemptFor (s : State) (g : Nat) : Nat → State
  | 0 => s
  | n + 1 =>
    if (admission s (grid s g)).isSome then admitGrid s g
    else
      let c := partClass s (grid s g).part
      match victim s c with
      | none => s
      | some p =>
        preemptFor (postPreempt (bump (preemptPartition s p) pwrStat 32 16 1) p 1 c) g n

/-- R400: the first candidate skipped at PREW boundaries has partitions pre-empted for it. -/
def preemptStarved (s : State) : State :=
  let prew := bits (reg s pwrCtl) 16 8
  if prew = 0 ∨ !preEnabled s ∨ !powerAdmits s then s
  else match (candidates s).find? fun g => decide (prew ≤ (grid s g).skipped) with
    | none => s
    | some g => preemptFor s g 65

/-- R399: the window that begins is a full one of every grid that runs, those admitted at the boundary
among them. -/
def openWindow (s : State) : State :=
  { s with grids := s.grids.map fun x => (x.1, { x.2 with fullWindow := x.2.state == .running }) }

/-- R390: the 100 us of the ledger window have passed. Windows run back to back. -/
def windowOver (s : State) : Bool := decide (s.sched.windowStart + windowCycles ≤ fdTime s)

/-- R398: pace a grid: its SPIN threads move to WAIT and keep the rest of their limits. One that is
paced stays so, since when it was. -/
def paceGrid (s : State) (n : Nat) : State :=
  let s1 := modGrid s n fun g =>
    { g with paced := true, pacedAt := if g.paced then g.pacedAt else fdTime s }
  (gridThreads s n).foldl (fun s t => modThread s t fun th =>
    if th.state = .spin then { stopThread (engineNow s t) th with state := .wait } else th) s1

/-- R398: a partition whose charge has reached its budget is paced, with every grid of it. -/
def pacePart (s : State) (p : Nat) : State :=
  if partOverspent s p ∧ !s.sched.partPaced.contains p then
    let gs := (s.grids.filter fun e => e.2.part == p && e.2.state == .running).map Prod.fst
    bump (gs.foldl paceGrid (modSched s fun z => { z with partPaced := p :: z.partPaced }))
      pwrStat 48 16 1
  else s

/-- R398: a grid whose charge has reached its reservation is paced. -/
def paceOne (s : State) (n : Nat) : State :=
  let g := grid s n
  if g.state = .running ∧ !g.paced ∧ gridSpent g then bump (paceGrid s n) pwrStat 48 16 1 else s

/-- GRID_PACE (R398): a grid whose charge has reached its reservation, or the grids of a partition
whose charge has reached its budget, issue nothing until the window ends. -/
def execGridPace (isPart : Bool) (n : Nat) (s : State) : Res :=
  .next (if isPart then pacePart s n else paceOne s n)

/-- R398: pacing needs no command: what has reached its limit is paced as time passes. -/
def paceDue (s : State) : State :=
  let s1 := (s.grids.map Prod.fst).foldl paceOne s
  ((s1.grids.map fun x => x.2.part).eraseDups).foldl pacePart s1

/-- Fabric cycles of a second (R13). -/
def secondCycles : Nat := 1500000000

/-- CAL_FACTOR_UPDATE (R391, R392): the common factor F moves, at most once a second and within 96 to
160, to whatever meets the measured input power: a free value. -/
def execCalFactorUpdate (s : State) : Res :=
  let f := takeFree s
  .next (if fdTime s < s.sched.calNext then s
    else modSched f.2 fun z => { z with
      calF := 96 + f.1.toNat % 65, calNext := fdTime s + secondCycles })

end Sys2Proof.Machine
end

