-- ==== Sys2Proof/Machine/RingAdmin.lean ====
section
/-! DEFINITION. The AQ commands of rings and of sync objects, and what ends a stop and a resize
(R141, R152, R181 to R185). -/

namespace Sys2Proof.Machine

/-! What an AQ command answers. -/

/-- A command's answer: it completes with a status and detail, or waits for its effect to end. -/
structure AdminAnswer where
  wait : Bool
  st : BitVec 8
  d0 : Word
  state : State

/-- Answers at once. -/
def answer (st : BitVec 8) (s : State) : AdminAnswer := { wait := false, st := st, d0 := 0, state := s }

/-- The effect goes on; the completion is written when it ends. -/
def answerLater (s : State) : AdminAnswer := { wait := true, st := 0, d0 := 0, state := s }

/-- Mark a started entry as acted on. -/
def markActed (s : State) (r : Nat) (e : RingEntry) : State :=
  modRing s r fun x => { x with started := x.started.map fun y =>
    if y.index = e.index then { y with gated := true } else y }

/-- Run a command of AQ `r`: the oldest entry of its opcode that has started and has not been acted
on. -/
def adminCommand (op r : Nat) (f : State → Nat → RingEntry → AdminAnswer) (s : State) : State :=
  match startedOp s r op with
  | none => s
  | some e =>
    if !mpServes s r then s
    else
      let a := f s r e
      let s1 := mpTook a.state r a.st
      if a.wait then xptDone s (markActed s1 r e)
      else xptDone s (completeEntry s1 r e a.st 0 a.d0 0)

/-- Complete the AQ entry that waits, once its effect has ended. -/
def completeWaiting (s : State) (by_ : Option (Nat × BitVec 32)) (st : BitVec 8) (d0 : Word) : State :=
  match by_ with
  | none => s
  | some (aq, i) =>
    match startedAt s aq i with
    | none => s
    | some e => completeEntry s aq e st 0 d0 0

/-! RING_CREATE (R181, R341). -/

/-- PT_VFMAP fields (R389). -/
def vfRbase (s : State) (p : Nat) : Nat := bits (reg s (ptReg p 0x38)) 48 16
def vfSwbase (s : State) (p : Nat) : Nat := bits (reg s (ptReg p 0x38)) 28 20

/-- General rings of a partition in use. -/
def ringsUsed (s : State) (p : Nat) : Nat :=
  (s.rings.filter fun x => decide (0x200 ≤ x.1) && x.2.part == p && x.2.state != .idle).length

/-- R341, R367: general ring ids that a partition may use. -/
def ringIdOk (s : State) (p r : Nat) : Bool :=
  p == 0 || decide (vfRbase s p ≤ r ∧ r ≤ vfRbase s p + 1791)

/-- R170, R181: a binding's target for a ring type. -/
def bindOk (s : State) (p typ target : Nat) : Bool :=
  if typ = 2 then target == eqOf p
  else
    let x := ring s target
    x.typ == 2 && x.state != .idle && x.part == p

/-- Fields of RING_CREATE. -/
def rcType (e : RingEntry) : Nat := entryByte e 0x12
def rcCfg (e : RingEntry) : Nat := entryField e 0x14 4
def rcPoll (e : RingEntry) : Nat := entryField e 0x30 4

/-- R181: a field of RING_CREATE is outside its range, which for POLL_K, CAP_K and HR_K is 0 to 20 (log
entry 74). -/
def createBad (e : RingEntry) : Bool :=
  let typ := rcType e
  let cfg := rcCfg e
  let poll := rcPoll e
  let base := entryWord e 0x18
  let rpt := entryWord e 0x20
  let sync := entryField e 0x28 8
  decide (entryField e 0x10 2 < 0x200) || (typ != 1 && typ != 2 && typ != 6) ||
    decide (2 ^ 26 ≤ cfg ∨ 20 < cfg / 2 ^ 21 % 32) || (cfg / 2 ^ 20 % 2 == 1 && typ != 2) ||
    !ringFieldsOk typ (entryByte e 0x13) base rpt || decide (2 ^ 57 ≤ base.toNat ∨ 2 ^ 57 ≤ rpt.toNat) ||
    rpt.toNat % 8 != 0 || (sync != 0 && typ != 2) || decide (2 ^ 57 ≤ sync) || sync % 8 != 0 ||
    decide (2 ^ 21 ≤ poll ∨ 20 < poll / 2 ^ 16 ∨ 20 < poll % 32) || poll / 64 % 4 != 0 ||
    decide (2 ≤ entryByte e 0x36) || !zeroField e 0x37 9

/-- The ring that RING_CREATE asks for. -/
def createdRing (p : Nat) (e : RingEntry) : Ring :=
  let cfg := rcCfg e
  let poll := rcPoll e
  let on := entryByte e 0x36 == 1
  ringFresh { Ring.idle with
    typ := rcType e, part := p, ctx := BitVec.ofNat 20 cfg, base := entryWord e 0x18
    log2sz := entryByte e 0x13, hrK := cfg / 2 ^ 21 % 32, visible := cfg / 2 ^ 20 % 2 == 1
    pollK := poll % 32, cont := poll / 32 % 2 == 1, emptyN := poll / 256 % 256
    capK := poll / 2 ^ 16 % 32, bindEn := on, target := if on then entryField e 0x34 2 else 0
    sync := entryWord e 0x28, rpt := entryWord e 0x20 }

/-- R186: the general rings of a partition are held. -/
def partHeld (s : State) (p : Nat) : Bool :=
  let x := partition s p
  x.state == .preempted || x.state == .freezing || x.state == .frozen || x.draining || x.quiesced

/-- RING_CREATE's effect (R181). -/
def ringCreate (s : State) (_ : Nat) (e : RingEntry) : AdminAnswer :=
  let p := aqPart e
  let r := entryField e 0x10 2
  let typ := rcType e
  if createBad e then answer 0x02 s
  else if !ringIdOk s p r ∨ (ring s r).state ≠ .idle ∨
      (entryByte e 0x36 = 1 ∧ !bindOk s p typ (entryField e 0x34 2)) then answer 0x04 s
  else if (partition s p).ringQ ≤ ringsUsed s p then answer 0x10 s
  else
    let c := ringRangeOk s p (BitVec.ofNat 20 (rcCfg e)) typ (entryByte e 0x13) (entryWord e 0x18)
      (entryWord e 0x20)
    if !c.1 then answer 0x05 c.2
    else answer 0 (setRing c.2 r { createdRing p e with held := partHeld s p })

/-- RING_CREATE (R181) on AQ `r`. -/
def execRingCreate (r : Nat) (s : State) : Res := .next (adminCommand 0x40 r ringCreate s)

/-! Stopping a ring (R184). -/

/-- R184: entries taken in on a CMQ whose group runs its operations use up their generations, and
the other members are told (R268). -/
def abortTaken (s : State) (r : Nat) : State :=
  (ring s r).taken.foldl (fun s e =>
    match (if entryOpcode e ≠ 0x02 then cmqGroup s r else none) with
    | none => finishHead s r e 0x01
    | some gid => bshFailEntry (consumeHead s r) gid e 0x01 (bshGroup s gid).rank 7 true) s

/-- R86, R184: a running or pre-empted grid stops, those of its threads that are debug-halted with
it, and completes with ST_ABORTED unless it has stopped already. -/
def stopGrid (s : State) (n : Nat) : State :=
  let s1 := (gridThreads s n).foldl (fun s t => modThread s t fun th =>
    { th with debug := false, stepping := false }) s
  match (grid s n).state with
  | .running => abortGrid s1 n 0x01
  | .preempted => abortGrid s1 n 0x01
  | .stopping => settleGrid s1 n
  | _ => s

/-- R184: what runs for a ring's entries stops; each completes with ST_ABORTED. -/
def abortStarted (s : State) (r : Nat) : State :=
  let grids := (s.grids.filter fun x => x.2.ring == r).map Prod.fst
  let s1 := grids.foldl stopGrid s
  let ofRing (o : SendOp) : Bool := match o.src with
    | .sq q _ => q == r
    | _ => false
  let s2 := s1.qps.foldl (fun s x => (x.2.ops.filter ofRing).foldl (fun s o => failOp s x.1 o 0x01) s) s1
  let s3 := match sqBind s2 r with
    | none => s2
    | some b => stopCarder s2 b
  let s4 := match cmqGroup s3 r with
    | none => s3
    | some gid => bshAbort s3 gid 0x01 7 (bshGroup s3 gid).rank none
  let gridOwns (s : State) (e : RingEntry) : Bool :=
    s.grids.any fun x => x.2.ring == r && x.2.index == e.index && x.2.state != .held
  ((ring s4 r).started.filter fun e => !e.gated && !gridOwns s4 e).foldl
    (fun s e => completeEntry s r e 0x01 0 0 0) s4

/-- R184: set a ring STOPPING and abort what it has taken in. `by_` names the AQ entry that waits. -/
def stopOne (s : State) (by_ : Option (Nat × BitVec 32)) (r : Nat) : State :=
  let s1 := modRing s r fun x => { x with state := .stopping, stopBy := by_, prefetch := [] }
  let s2 := match heldGrid s1 r with
    | some g => setGrid s1 g Grid.none
    | none => s1
  if ringConsumed (ring s r) then
    modRing (abortStarted (abortTaken s2 r) r) r fun x => { x with prod := x.cons }
  else s2

/-- R184: stopping a CQ first stops every ring bound to it. -/
def stopRing (s : State) (by_ : Option (Nat × BitVec 32)) (r : Nat) : State :=
  let bound := if (ring s r).typ = 2 then
    (boundRings s r).filter fun q => (ring s q).state == .run else []
  stopOne (bound.foldl (fun s q => stopOne s none q) s) by_ r

/-- A ring has gone: gates that count its completions end, what a CQ still holds is delivered without
an entry (log entry 40), a group whose CMQ it was ends here with it (log entry 75), a binding of Carder ends, and its id is free (R182,
R219). -/
def removeRing (s : State) (r : Nat) : State :=
  let s0 := if (ring s r).typ = 2 then
      ((ring s r).overflow ++ (ring s r).unitHeld).foldl (fun s it =>
        if it.counts then modRing s it.ring fun x => { x with ccnt := x.ccnt + 1 } else s) s
    else s
  let s1 := revokeGates s0 r
  let s2 := match cmqGroup s1 r with
    | some gid =>
      let g := bshGroup s1 gid
      setBsh (fkUnpin s1 (g.qps.filterMap fun o => o.map (qpKey g.part))) gid BshGroup.none
    | none => s1
  let s3 := match sqBind s2 r with
    | some b =>
      let s' := (bindTags b).foldl (fun s t => setTag s t CrdTag.free) (fkUnpin s2 (bindQps b))
      { s' with binds := s'.binds.filter fun x => x.sq != r }
    | none => s2
  setRing s3 r Ring.idle

/-- The ring that a ring command names, where it may (R182). -/
def namedRing (s : State) (e : RingEntry) : Option Nat :=
  let r := entryField e 0x10 2
  let x := ring s r
  if 0x200 ≤ r ∧ x.state ≠ .idle ∧ x.part = aqPart e then some r else none

/-- An id of the partition's at which no ring is set up: IDLE already (R182). -/
def idleRing (s : State) (e : RingEntry) : Bool :=
  let r := entryField e 0x10 2
  decide (0x200 ≤ r) && (ring s r).state == .idle && ringIdOk s (aqPart e) r

/-- A completion of ring `r` has yet to be written: held for the partner, or by a CQ (R176, R184,
R417). -/
def completionsLeft (s : State) (r : Nat) : Bool :=
  s.twin.held.any (fun h => h.item.ring == r) ||
    (ringConsumed (ring s r) && s.rings.any fun q =>
      q.2.typ == 2 && (q.2.overflow ++ q.2.unitHeld).any fun it => it.ring == r)

/-- R165, R177: a ring in ERROR has entries taken in that are still to complete. -/
def ringBusy (s : State) (r : Nat) : Bool :=
  let x := ring s r
  ringConsumed x && (!x.taken.isEmpty || !x.started.isEmpty || completionsLeft s r)

/-- RING_STOP's effect (R182, R184). -/
def ringStop (s : State) (aq : Nat) (e : RingEntry) : AdminAnswer :=
  if !zeroField e 0x12 46 then answer 0x02 s
  else match namedRing s e with
  | none => answer 0x04 s
  | some r =>
    if (ring s r).state ≠ .run then answer 0x04 s
    else answerLater (stopRing s (some (aq, e.index)) r)

/-- RING_STOP (R184) on AQ `r`. -/
def execRingStop (r : Nat) (s : State) : Res := .next (adminCommand 0x43 r ringStop s)

/-- RING_DESTROY's effect (R182): a ring in ERROR whose entries have not all completed stops first
(R165). -/
def ringDestroy (s : State) (aq : Nat) (e : RingEntry) : AdminAnswer :=
  if !zeroField e 0x12 46 then answer 0x02 s
  else if idleRing s e then answer 0 s
  else match namedRing s e with
  | none => answer 0x04 s
  | some r =>
    if (ring s r).typ = 2 ∧ !(boundRings s r).isEmpty then answer 0x04 s
    else if (ring s r).state = .run ∨ ringBusy s r then
      answerLater (stopRing s (some (aq, e.index)) r)
    else answer 0 (removeRing s r)

/-- RING_DESTROY (R182) on AQ `r`: a ring that another command is stopping stops first. -/
def execRingDestroy (r : Nat) (s : State) : Res :=
  .next (match (startedOp s r 0x41).bind (namedRing s) with
    | none => adminCommand 0x41 r ringDestroy s
    | some q => if (ring s q).state = .stopping then s else adminCommand 0x41 r ringDestroy s)

/-- The last abort of a stopping ring has been written (R184). -/
def stopEnds (s : State) (r : Nat) : Bool :=
  let x := ring s r
  x.state == .stopping && x.started.isEmpty && !completionsLeft s r &&
    (ringConsumed x || (x.overflow.isEmpty && x.unitHeld.isEmpty &&
      (boundRings s r).all fun q => (ring s q).state != .run && (ring s q).state != .stopping))

/-- RING_STOP_COMPLETE (R182, R184): the head report is written; the ring becomes STOPPED, or IDLE
for RING_DESTROY; the AQ entry completes with the final CONS. -/
def execRingStopComplete (r : Nat) (s : State) : Res :=
  .next (if !stopEnds s r ∨ s.err.fatal then s
    else
      let x := ring s r
      let destroy := match x.stopBy with
        | some (aq, i) => ((startedAt s aq i).map entryOpcode) == some 0x41
        | none => false
      let s1 := if ringConsumed x then headReport s r else s
      let s2 := modRing s1 r fun y => { y with
        state := if y.state = .error then .error else .stopped, stopBy := none }
      let s3 := if destroy then removeRing s2 r else s2
      xptDone s (completeWaiting s3 x.stopBy 0 (if destroy then 0 else x.cons.setWidth 64)))

/-! RING_START, RING_BIND, RING_RESIZE. -/

/-- RING_START's effect (R182, R184): a consumed ring's PROD is rolled back to CONS. -/
def ringStart (s : State) (_ : Nat) (e : RingEntry) : AdminAnswer :=
  if !zeroField e 0x12 46 then answer 0x02 s
  else match namedRing s e with
  | none => answer 0x04 s
  | some r =>
    let x := ring s r
    if x.state ≠ .stopped ∧ x.state ≠ .error then answer 0x04 s
    else if ringConsumed x then
      answer 0 (setRing s r { x with
        state := .run, prod := match x.taken with
          | [] => x.cons
          | _ => x.prod
        prefetch := [], curK := pollK x, emptyRun := 0 })
    else answer 0 (drainRing (setRing s r { x with state := .run }) r)

/-- RING_START (R182) on AQ `r`. -/
def execRingStart (r : Nat) (s : State) : Res := .next (adminCommand 0x44 r ringStart s)

/-- RING_BIND's effect (R182). Fetch stopped for the old CQ resumes. -/
def ringBind (s : State) (_ : Nat) (e : RingEntry) : AdminAnswer :=
  let target := entryField e 0x14 2
  let on := entryByte e 0x16 == 1
  if 2 ≤ entryByte e 0x16 ∨ !zeroField e 0x12 2 ∨ !zeroField e 0x17 41 then answer 0x02 s
  else match namedRing s e with
  | none => answer 0x04 s
  | some r =>
    let x := ring s r
    if on ∧ !bindOk s x.part x.typ target then answer 0x04 s
    else
      let t := if on then target else 0
      answer 0 (setRing s r { x with
        bindEn := on, target := t
        fetchStopped := ringConsumed x && on && !(ring s t).unitHeld.isEmpty })

/-- RING_BIND (R182) on AQ `r`. -/
def execRingBind (r : Nat) (s : State) : Res := .next (adminCommand 0x45 r ringBind s)

/-- RING_RESIZE's effect (R185): the new memory is checked, and the switch waits for the ring to
drain. -/
def ringResize (s : State) (aq : Nat) (e : RingEntry) : AdminAnswer :=
  let l := entryByte e 0x13
  let base := entryWord e 0x18
  if !zeroField e 0x12 1 ∨ !zeroField e 0x14 4 ∨ !zeroField e 0x20 32 ∨ l < 4 ∨ 20 < l ∨
      2 ^ 57 ≤ base.toNat then answer 0x02 s
  else match namedRing s e with
  | none => answer 0x04 s
  | some r =>
    let x := ring s r
    if x.state ≠ .run ∧ x.state ≠ .stopped then answer 0x04 s
    else if !ringFieldsOk x.typ l base x.rpt then answer 0x02 s
    else
      let c := ringRangeOk s x.part x.ctx x.typ l base x.rpt
      if !c.1 then answer 0x05 c.2
      else answerLater (modRing c.2 r fun y => { y with resize := some (l, base, aq, e.index) })

/-- RING_RESIZE (R185) on AQ `r`. -/
def execRingResize (r : Nat) (s : State) : Res := .next (adminCommand 0x42 r ringResize s)

/-- R185: the ring has drained: whether it may switch, and the state after looking. -/
def resizeReady (s : State) (r : Nat) : Bool × State :=
  let x := ring s r
  if ringConsumed x then
    if x.state ≠ .run then (x.taken.isEmpty, s)
    else if !x.taken.isEmpty ∨ (tfind x.prefetch x.prod.toNat).isSome then (false, s)
    else
      let d := readSlot s r x.prod
      match d.1 with
      | .error f => (false, ringError d.2 r (failStatus f) x.prod)
      | .ok bs => (!markPresent x x.prod bs, d.2)
  else
    let f := readReport s r
    match f.1 with
    | some st => (false, ringError f.2 r st x.prod)
    | none => ((ring f.2 r).cons == (ring f.2 r).prod, f.2)

/-- RING_RESIZE_SWITCH (R185): the ring goes on in its new memory with both indices 0; what a CQ
held is written there. -/
def execRingResizeSwitch (r : Nat) (s : State) : Res :=
  .next (match (if s.err.fatal then none else (ring s r).resize) with
    | none => s
    | some (l, base, aq, i) =>
      let y := resizeReady s r
      if !y.1 then y.2
      else
        let x := ring y.2 r
        let last := if ringConsumed x then (if x.state = .run then x.prod else x.cons) else x.prod
        let s1 := setRing y.2 r { x with
          resize := none, log2sz := l, base := base, prod := 0, cons := 0, reported := 0
          prefetch := [], shift := x.shift + last }
        let s2 := if ringProduced x then drainRing s1 r else s1
        xptDone s (completeWaiting s2 (some (aq, i)) 0 (last.setWidth 64)))

/-! Sync objects (R141, R183). -/

/-- The run of objects a sync command names; none where it is out of range. -/
def syncRun (e : RingEntry) : Option (List Nat) :=
  let first := entryField e 0x10 4
  let n := entryField e 0x14 4
  if first < 2 ^ 20 ∧ 1 ≤ n ∧ n ≤ 65536 ∧ first + n ≤ 2 ^ 20 then
    some ((List.range n).map fun i => first + i)
  else none

/-- Objects that a partition owns, LIVE or FROZEN (R367). -/
def syncUsed (s : State) (p : Nat) : Nat :=
  (s.syncs.filter fun x => x.2.part.toNat == p && (x.2.state == .live || x.2.state == .frozen)).length

/-- An object from an attribute word (R139) and a count, LIVE. -/
def syncOfAttr (a init : Word) : SyncObj :=
  { SyncObj.free with
    count := init, state := .live, anyCtx := a.getLsbD 61, shSig := a.getLsbD 60
    shWait := a.getLsbD 59, shPart := a.extractLsb' 52 7, part := a.extractLsb' 40 7
    ctx := a.extractLsb' 0 20 }

/-- R183: an attribute word that SYNC_GRANT may not carry, from partition `p`'s AQ. -/
def attrBad (p : Nat) (a : Word) : Bool :=
  bits a 62 2 != 1 || bits a 47 5 != 0 || bits a 20 20 != 0 || decide (64 < bits a 52 7) ||
    decide (64 < bits a 40 7) || (p != 0 && bits a 40 7 != p)

/-- Every object of a run is checked by its home as the command reaches it (R155). -/
def checkRun (s : State) (run : List Nat) : State := run.foldl checkSync s

/-- SYNC_GRANT's effect (R141, R183). -/
def syncGrant (s : State) (aq : Nat) (e : RingEntry) : AdminAnswer :=
  let a := entryWord e 0x18
  match syncRun e with
  | none => answer 0x02 s
  | some run =>
    if attrBad (ring s aq).part a ∨ !zeroField e 0x28 24 then answer 0x02 s
    else
      let s := checkRun s run
      let p := bits a 40 7
      if run.any fun i => (syncObj s i).state != .free then answer 0x04 s
      else if (partition s p).syncQ < syncUsed s p + run.length then answer 0x10 s
      else answer 0 (run.foldl (fun s i => setSync s i (syncOfAttr a (entryWord e 0x20))) s)

/-- SYNC_GRANT (R141) on AQ `r`. -/
def execSyncGrant (r : Nat) (s : State) : Res := .next (adminCommand 0x48 r syncGrant s)

/-- SYNC_REVOKE's effect (R141, R152). -/
def syncRevoke (s : State) (_ : Nat) (e : RingEntry) : AdminAnswer :=
  match syncRun e with
  | none => answer 0x02 s
  | some run =>
    if !zeroField e 0x18 40 then answer 0x02 s
    else
      answer 0 (run.foldl (fun s i =>
        let o := syncObj s i
        if o.state = .live ∨ o.state = .frozen then setSync s i (revokeObj o) else s) (checkRun s run))

/-- SYNC_REVOKE (R152) on AQ `r`. -/
def execSyncRevoke (r : Nat) (s : State) : Res := .next (adminCommand 0x49 r syncRevoke s)

/-- R141: a thread that retries on a released object leaves SPIN with ST_REVOKED; one that is
stopped has it written and stays stopped. -/
def releaseSpinner (run : List Nat) (s : State) (t : Nat) : State :=
  let th := thread s t
  match th.spin with
  | none => s
  | some sp =>
    if !run.contains (syncIndex sp.pa) then s
    else if th.state = .spin ∨ th.state = .wait then leaveSpin s t 0x09
    else setThread s t (writeS { th with spin := none } sp.dst 0x09)

/-- SYNC_RELEASE's effect (R141, R183). -/
def syncRelease (s : State) (aq : Nat) (e : RingEntry) : AdminAnswer :=
  match syncRun e with
  | none => answer 0x02 s
  | some run =>
    if !zeroField e 0x18 40 then answer 0x02 s
    else
      let s := checkRun s run
      let p := (ring s aq).part
      let used := run.filter fun i => (syncObj s i).state != .free
      if p ≠ 0 ∧ used.any fun i => (syncObj s i).part.toNat != p then answer 0x04 s
      else
        let s1 := (s.threads.map Prod.fst).foldl (releaseSpinner used) s
        answer 0 (used.foldl (fun s i => setSync s i SyncObj.free) s1)

/-- SYNC_RELEASE (R141) on AQ `r`. -/
def execSyncRelease (r : Nat) (s : State) : Res := .next (adminCommand 0x4A r syncRelease s)

/-! The host's sync windows (R342). -/

/-- SYNC_WINDOW_WRITE (R151, R342): an 8 B write to slot `i` of VFn's window signals the object with
the value; a signal that is not applied is counted in a record. Other accesses are ignored. -/
def execSyncWindowWrite (n i : Nat) (v : Word) (s : State) : Res :=
  .next (if !bar0 s ∨ n = 0 ∨ 64 < n ∨ 32768 ≤ i then s
    else
      let k := vfSwbase s n + i
      let r := signalObj s n 0 true k v
      if r.1 = .applied then r.2
      else recordError r.2 (discardInfo 0x10 0 n (some k) (sigStatus r.1)))

/-- SYNC_WINDOW_READ (R145, R342): an aligned 8 B read returns the count as `sread` does, and 0
where the owner check fails. -/
def execSyncWindowRead (n i : Nat) (s : State) : Res :=
  .next (if n = 0 ∨ 64 < n ∨ 32768 ≤ i then { s with readData := leBytes 8 0 }
    else
      let r := readObj s n 0 true (vfSwbase s n + i)
      { r.2 with readData := leBytes 8 (r.1.getD 0).toNat })

end Sys2Proof.Machine
end

