-- ==== Sys2Proof/Machine/RingRegs.lean ====
section
/-! DEFINITION. The registers of a ring block as they read (R168, R170), and attribute words (R139). -/

namespace Sys2Proof.Machine

/-- Code of a ring state (R170). -/
def ringStateCode (x : RingState) : Nat :=
  match x with
  | .idle => 0 | .run => 1 | .stopping => 2 | .stopped => 3 | .error => 4

/-- The state of a code. -/
def ringStateOf (n : Nat) : RingState :=
  match n with
  | 1 => .run | 2 => .stopping | 3 => .stopped | 4 => .error | _ => .idle

/-- A privileged ring reads the type, owner and binding that its id fixes, in every state. -/
def ringView (s : State) (r : Nat) : Ring :=
  let x := ring s r
  match privRing r with
  | none => x
  | some (typ, p, bind) => { x with typ := typ, part := p, bindEn := bind.isSome, target := bind.getD 0 }

/-- RING_CFG. -/
def ringCfgWord (x : Ring) : Nat :=
  x.ctx.toNat * 2 ^ 40 + x.part * 2 ^ 32 + x.typ * 2 ^ 24 + x.log2sz * 2 ^ 16 + x.hrK * 2 ^ 11 +
    flagBit x.visible 1

/-- RING_POLL. -/
def ringPollWord (x : Ring) : Nat :=
  x.curK * 2 ^ 24 + x.capK * 2 ^ 16 + x.emptyN * 2 ^ 8 + flagBit x.cont 5 + x.pollK

/-- Entries held in overflow. -/
def ringOvf (x : Ring) : Nat := min 16 x.overflow.length

/-- RING_STAT. -/
def ringStatWord (x : Ring) : Nat :=
  x.malf * 2 ^ 48 + x.ovfev * 2 ^ 32 + x.lastSt.toNat * 2 ^ 16 + ringOvf x

/-- A register of a ring block by its offset; RING_FENCE as of now. -/
def ringReg (x : Ring) (off : Nat) : Nat :=
  match off with
  | 0x00 => x.base.toNat
  | 0x08 => ringCfgWord x
  | 0x10 => ringStateCode x.state * 2 ^ 8
  | 0x18 => ringPollWord x
  | 0x20 => flagBit x.bindEn 16 + x.target
  | 0x28 => x.sync.toNat
  | 0x30 => x.rpt.toNat
  | 0x38 => x.prod.toNat * 2 ^ 32 + x.cons.toNat
  | 0x40 => if ringConsumed x then x.ccnt.toNat else 0
  | 0x48 => if x.typ = 2 ∨ x.typ = 4 then x.prod.toNat else 0
  | 0x50 => ringStatWord x
  | _ => 0

/-- Code of an object's state (R139). -/
def syncStateCode (x : SyncState) : Nat :=
  match x with
  | .free => 0 | .live => 1 | .frozen => 2 | .revoked => 3

/-- An object's attribute word. -/
def attrWord (o : SyncObj) : Nat :=
  syncStateCode o.state * 2 ^ 62 + flagBit o.anyCtx 61 + flagBit o.shSig 60 + flagBit o.shWait 59 +
    o.shPart.toNat * 2 ^ 52 + o.part.toNat * 2 ^ 40 + o.ctx.toNat

end Sys2Proof.Machine
end

