-- ==== Sys2Proof/Machine/PartReset.lean ====
section
/-! DEFINITION. The reset of a partition (R379, R380), PART_RESIZE and PART_RESET (R370, R371), and the
enabling of VFs (R369). -/

namespace Sys2Proof.Machine

/-! The reset. -/

/-- The partition whose ring an id is: fixed for privileged rings. -/
def ringPart (r : Nat) (x : Ring) : Nat :=
  match privRing r with
  | some (_, p, _) => p
  | none => x.part

/-- The rings of a partition, privileged ones among them. -/
def ringsOf (s : State) (p : Nat) : List Nat :=
  (s.rings.filter fun x => ringPart x.1 x.2 == p).map Prod.fst

/-- R379: no completion of the partition is written from now on, and no entry is taken in. -/
def quietRings (s : State) (p : Nat) : State :=
  let s1 := (ringsOf s p).foldl (fun s r => modRing s r fun x => { x with
    bindEn := false, held := true, taken := [], started := [], prefetch := [], overflow := []
    unitHeld := [] }) s
  modTwin s1 fun t => { t with held := t.held.filter fun h => (ring s h.item.ring).part != p }

/-- Groups of a partition's grids. -/
def groupsOf (s : State) (p : Nat) : List Nat :=
  (s.groups.filter fun x => (grid s x.2.grid).part == p).map Prod.fst

/-- R379 step 2: threads stop at a boundary, and all they held is discarded. -/
def dropGrids (s : State) (p : Nat) : State :=
  let keys := groupsOf s p
  let ts := keys.flatMap fun k => (tget Group.none s.groups k).threads
  let s1 := keys.foldl unloadGroup (ts.foldl drainThread s)
  { s1 with
    grids := s1.grids.filter fun x => x.2.part != p
    dbgHalt := s1.dbgHalt.filter fun x => (grid s x.1).part != p
    macBusy := s1.macBusy.filter fun x => match x.2 with
      | some (t, _) => !ts.contains t
      | none => true }

/-- R379 step 3; no error of a dropped descriptor is handled any longer (R456). -/
def dropDescs (s : State) (p : Nat) : State :=
  let s1 := (s.movers.map Prod.fst).foldl (fun s c =>
    let m := mover s c
    setMover s c { m with queue := m.queue.filter fun d => d.part != p }) s
  { s1 with err := { s1.err with
      handling := s1.err.handling.filter fun h => h.unit != 0x02 || h.part != some p } }

/-- R379 step 4: running generations abort, groups and bindings go. -/
def dropUnits (s : State) (p : Nat) : State :=
  let gids := (s.bushel.filter fun x => x.2.part == p).map Prod.fst
  let s1 := gids.foldl (fun s gid =>
    let g := bshGroup s gid
    setBsh (fkUnpin (bshAbort s gid 0x01 7 g.rank none) (g.qps.filterMap fun o => o.map (qpKey p)))
      gid BshGroup.none) s
  let bs := s1.binds.filter fun b => b.part == p
  let s2 := bs.foldl (fun s b =>
    (bindTags b).foldl (fun s t => setTag s t CrdTag.free) (fkUnpin s (bindQps b))) s1
  { s2 with binds := s2.binds.filter fun b => b.part != p }

/-- R379 step 5: queue pairs, sending DISCONNECT unless the partition was FROZEN, keys and key slots. -/
def dropQps (s : State) (p : Nat) (frozen : Bool) : State :=
  let ks := (s.qps.filter fun x => qpPart x.1 == p).map Prod.fst
  let s1 := ks.foldl (fun s k =>
    let live := (qp s k).state == .rts || (qp s k).state == .drain
    removeQp (if live ∧ !frozen then sendDisconnect s k else s) k) s
  { s1 with
    keys := s1.keys.map fun x => if x.1 / 2 ^ 24 = p then (x.1, { KeyEntry.none with gen := x.2.gen })
      else x
    slots := s1.slots.filter fun x => x.1 / 2048 != p }

/-- R379 step 6. -/
def dropSyncs (s : State) (p : Nat) : State :=
  let mine := (s.syncs.filter fun x => x.2.part.toNat == p &&
    (x.2.state == .live || x.2.state == .frozen)).map Prod.fst
  let s1 := mine.foldl (fun s i => setSync s i (revokeObj (syncObj s i))) s
  { setFaults s1 p FaultTable.empty with tlb := s1.tlb.filter fun e => e.part != p }

/-- R373: a core that leaves a partition holds nothing of it. -/
def wipeCore (s : State) (c : Nat) : State :=
  let e := (coreEngines c).1
  let n := (coreEngines c).2
  let s1 := zeroMem s (localPa e 0) (32768 * n)
  { s1 with
    accs := s1.accs.filter fun x => !decide (32768 * e ≤ x.1 ∧ x.1 < 32768 * (e + n))
    images := tset [] s1.images c [] }

/-- Cores of a partition (R367). -/
def coresOf (s : State) (p : Nat) : List Nat := (s.coreOwner.filter fun e => e.2 == some p).map Prod.fst

/-- AQ entries of other partitions' AQs that wait for a ring that goes. -/
def ringWaiters (s : State) (p : Nat) : List (Nat × BitVec 32) :=
  (ringsOf s p).flatMap fun r =>
    let x := ring s r
    (x.stopBy.toList ++ (x.resize.map fun y => (y.2.2.1, y.2.2.2)).toList).filter fun w =>
      ringPart w.1 (ring s w.1) != p

/-- R379 step 7: the rings go, with their head reports (R174), and cores are wiped. The TMR runs on. -/
def dropRings (s : State) (p : Nat) : State :=
  let s0 := ((s.rings.filter fun x => ringPart x.1 x.2 == p).map Prod.fst).foldl errorReport s
  let s1 := { s0 with rings := s0.rings.filter fun x => ringPart x.1 x.2 != p || x.1 == tmrRing }
  (coresOf s1 p).foldl wipeCore s1

/-- R5, R366: a VF's own registers return to reset. -/
def dropVfRegs (s : State) (p : Nat) : State :=
  if p = 0 then s else { s with regs := s.regs.filter fun x => x.1 / 2 ^ 26 != p }

/-- Steps 2 to 7 of R379. -/
def squashPartition (s : State) (p : Nat) : State :=
  let frozen := (partition s p).state == .frozen || s.err.fences.any fun f => f.1 == p && f.2.2.2
  let waits := ringWaiters s p
  let s1 := dropUnits (quietRings s p) p
  let s2 := dropQps (dropDescs (dropGrids s1 p) p) p frozen
  let s3 := dropVfRegs (dropRings (dropSyncs s2 p) p) p
  waits.foldl (fun s w => completeWaiting s (some w) 0x01 0) s3

/-- The reset of a partition, to a state it is left in (R369, R379). Its fence, if one runs, ends. -/
def resetPartition (s : State) (p : Nat) (st : PartState) : State :=
  let s1 := modPart (squashPartition s p) p fun x => { x with
    state := st, quiesced := false, draining := false, savedGroups := [] }
  xptDone s (dropCorrections
    { s1 with err := { s1.err with fences := s1.err.fences.filter fun f => f.1 != p } } p)

/-- R458: a fence completes: ERR_FENCE is posted again. -/
def completeFence (s : State) (f : Nat × Nat × Nat × Bool) : State :=
  mpPost (resetPartition s f.1 .run)
    { eq := eqOf 0, code := 0x81, source := f.1, data0 := BitVec.ofNat 64 f.2.1, data1 := 1 }

/-- Every fence that runs completes. -/
def completeFences (s : State) : State :=
  if s.err.fatal then s else s.err.fences.foldl completeFence s

/-! PART_RESIZE (R370 to R373). -/

/-- Fields of PART_RESIZE. -/
def rzRes (e : RingEntry) : Nat := entryByte e 0x10
def rzValue (e : RingEntry) : Nat := entryField e 0x14 4
def rzCores (e : RingEntry) : List Nat :=
  (List.range (rzValue e)).map fun i => entryField e 0x18 2 + i

/-- R371: the first row. -/
def resizeBad (e : RingEntry) : Bool :=
  let res := rzRes e
  let v := rzValue e
  decide (res = 0 ∨ 8 < res) || !zeroField e 0x11 3 || !zeroField e 0x1A 38 ||
    (if res ≤ 2 then decide (1024 < entryField e 0x18 2 + v)
     else entryField e 0x18 2 != 0) ||
    (res == 7 && decide (26000 < v)) || (res == 8 && decide (v = 0 ∨ 255 < v))

/-- Resident groups on a core of a partition. -/
def coreGroups (s : State) (c : Nat) : List Nat :=
  (s.groups.filter fun x => coreOf x.2.engine == c && !x.2.threads.isEmpty).map Prod.fst

/-- Capacity of the QP and key stores (R376). -/
def qpCap (s : State) (p : Nat) : Nat := storeCap s p 0x08
def keyCap (s : State) (p : Nat) : Nat := storeCap s p 0x10

/-- R371, R428: the ST_BOUNDS row. -/
def resizeBounds (s : State) (p : Nat) (e : RingEntry) : Bool :=
  let st := (partition s p).state
  let v := rzValue e
  decide (64 < p) || st == .idle || st == .resetting || standbyBusy s p ||
  (match rzRes e with
    | 1 => (rzCores e).any fun c => (tget none s.coreOwner c).any (· != p)
    | 2 => (rzCores e).any fun c => tget none s.coreOwner c != some p ||
        (!preEnabled s && !(coreGroups s c).isEmpty)
    | 3 => p != 0 && decide (1792 < v)
    | 4 => decide (qpCap s p < v)
    | 5 => decide (keyCap s p < v)
    | _ => false)

/-- PT_USE fields: highest number in use, plus 1 (R389). -/
def qpsUse (s : State) (p : Nat) : Nat :=
  ((s.qps.filter fun x => qpPart x.1 == p).map fun x => qpNum x.1 + 1).foldl max 0
def keysUse (s : State) (p : Nat) : Nat :=
  ((s.keys.filter fun x => x.1 / 2 ^ 24 == p && x.2.live).map fun x => x.1 % 2 ^ 24 + 1).foldl max 0

/-- Sum of a quota over the other partitions. -/
def quotaOthers (s : State) (p : Nat) (f : Partition → Nat) : Nat :=
  ((s.parts.filter fun x => x.1 != p).map fun x => f x.2).foldl (· + ·) 0

/-- R368, R371: the ST_QUOTA row. -/
def resizeQuota (s : State) (p : Nat) (e : RingEntry) : Bool :=
  let v := rzValue e
  match rzRes e with
  | 3 => decide (v < ringsUsed s p ∨ 65024 < v + quotaOthers s p Partition.ringQ)
  | 4 => decide (v < qpsUse s p ∨ 4194304 < v + quotaOthers s p Partition.qpQ ∨ 4194303 < v)
  | 5 => decide (v < keysUse s p ∨ 16777216 < v)
  | 6 => decide (v < syncUsed s p ∨ 1048576 < v)
  | _ => false

/-- R372, R373: a core leaves its partition. -/
def removeCore (s : State) (c : Nat) : State :=
  let s1 := wipeCore ((coreGroups s c).foldl saveGroup s) c
  { s1 with coreOwner := tset none s1.coreOwner c none }

/-- The change itself. -/
def resizeApply (s : State) (p : Nat) (e : RingEntry) : State :=
  let v := rzValue e
  match rzRes e with
  | 1 => ((rzCores e).filter fun c => tget none s.coreOwner c != some p).foldl (fun s c =>
      let s1 := wipeCore s c
      { s1 with coreOwner := tset none s1.coreOwner c (some p) }) s
  | 2 => (rzCores e).foldl removeCore s
  | 3 => modPart s p fun x => { x with ringQ := v }
  | 4 => modPart s p fun x => { x with qpQ := v }
  | 5 => modPart s p fun x => { x with keyQ := v }
  | 6 => modPart s p fun x => { x with syncQ := v }
  | 7 => modPart s p fun x => { x with nextEnergy := v }
  | _ => modPart s p fun x => { x with weight := v }

/-- R86, R372: a group on a core that CORES_REMOVE names has an operation in flight whose answer is still
to come. -/
def coresWait (s : State) (e : RingEntry) : Bool :=
  let ts := (rzCores e).flatMap fun c => (coreGroups s c).flatMap fun k =>
    (tget Group.none s.groups k).threads
  mustDrain (ts.foldl drainThread s) ts

/-- R371: the status of PART_RESIZE where it changes nothing, or 0. -/
def resizeStatus (s : State) (e : RingEntry) : BitVec 8 :=
  let p := aqPart e
  let st := (partition s p).state
  if resizeBad e then 0x02
  else if st = .freezing ∨ st = .frozen then 0x11
  else if resizeBounds s p e then 0x04
  else if resizeQuota s p e then 0x10 else 0

/-- PART_RESIZE's effect (R371). -/
def partResize (s : State) (_ : Nat) (e : RingEntry) : AdminAnswer :=
  let st := resizeStatus s e
  answer st (if st = 0 then resizeApply s (aqPart e) e else s)

/-- The cores that a CORES_REMOVE of AQ `r` waits for, until their threads can stop at a boundary
(R86, R372). -/
def resizeWaits (s : State) (r : Nat) : List Nat :=
  match startedOp s r 0x60 with
  | some e => if rzRes e = 2 ∧ resizeStatus s e = 0 ∧ coresWait s e then rzCores e else []
  | none => []

/-- PART_RESIZE (R371) on AQ `r`. -/
def execPartResize (r : Nat) (s : State) : Res :=
  let s1 := modSched s fun z => { z with moving := resizeWaits s r }
  .next (if s1.sched.moving.isEmpty then adminCommand 0x60 r partResize s1 else s1)

/-! PART_RESET and function-level resets (R379, R388). -/

/-- PART_RESET's effect (R379, R428). -/
def partReset (s : State) (_ : Nat) (e : RingEntry) : AdminAnswer :=
  let p := aqPart e
  let st := (partition s p).state
  if !zeroField e 0x10 48 then answer 0x02 s
  else if p = 0 ∨ 64 < p ∨ st = .idle ∨ st = .resetting ∨ standbyBusy s p then answer 0x04 s
  else answer 0 (resetPartition s p .run)

/-- PART_RESET (R379) on AQ `r`. -/
def execPartReset (r : Nat) (s : State) : Res := .next (adminCommand 0x61 r partReset s)

/-- FUNCTION_LEVEL_RESET (R379) of VFn. -/
def execFunctionLevelReset (n : Nat) (s : State) : Res :=
  let st := (partition s n).state
  .next (if n = 0 ∨ 64 < n ∨ st = .idle ∨ st = .resetting ∨ !powered s ∨ s.err.fatal then s
    else resetPartition s n .run)

/-- VF_ENABLE (R369): SR-IOV VF Enable is set for VFs 1 to `n` (0: cleared). A VF that is no longer
enabled is reset first. -/
def execVfEnable (n : Nat) (s : State) : Res :=
  .next (if 64 < n ∨ !powered s ∨ s.err.fatal then s
    else
      let s1 := ((List.range 64).map (· + 1)).foldl (fun s p =>
        if p ≤ n then
          if (partition s p).state = .idle then modPart s p fun x => { x with state := .run } else s
        else if (partition s p).state = .idle then s
        else resetPartition s p .idle) s
      { s1 with host := { s1.host with vfs := n } })

end Sys2Proof.Machine
end

