-- ==== Sys2Proof/Machine/PartImage.lean ====
section
/-! DEFINITION. Freezing a partition, and its save image (R381 to R386). -/

namespace Sys2Proof.Machine

/-! The save image (R383 to R386). -/

/-- Zeros to a multiple of 64 B. -/
def pad64 (bs : List Byte) : List Byte := bs ++ List.replicate ((64 - bs.length % 64) % 64) 0

/-- A section; none is written for no item. -/
def imgSection (typ : Nat) (items : List (List Byte)) : List Byte :=
  if items.isEmpty then []
  else
    let body := pad64 items.flatten
    let head := leBytes 2 typ ++ leBytes 2 0 ++ leBytes 4 items.length ++ leBytes 8 body.length
    head ++ body ++ leBytes 4 (crc32c (head ++ body)).toNat ++ leBytes 4 0

/-- Grids of LAUNCH entries that have started. -/
def imgGrids (s : State) (p : Nat) : List Grid :=
  (s.grids.filter fun x => x.2.part == p && x.2.state != .held && x.2.ring != jobRing).map Prod.snd

/-- Saved groups with the number of their grid's record. -/
def imgGroups (s : State) (p : Nat) : List (Nat × SavedGroup) :=
  ((List.range (imgGrids s p).length).zip (imgGrids s p)).flatMap fun x =>
    x.2.saved.map fun g => (x.1, g)

/-- The recorded faults. -/
def imgFaults (s : State) (p : Nat) : List FaultRec :=
  (faultTable s p).faults.filter fun f => !f.joined

/-- Number of the fault record that a saved thread waits on; 0 where it waits on none. -/
def faultNumber (s : State) (p name : Nat) : Nat :=
  let on (f : FaultRec) : Bool := (faultTable s p).faults.any fun g =>
    sameFault f g && g.waiters.contains (.thread name)
  ((imgFaults s p).findIdx? on).getD 0

/-- The LAUNCH entry of a grid, without its owner mark. -/
def launchEntry (g : Grid) : List Byte :=
  [0x01, BitVec.ofNat 8 (flagBit g.noCqe 2), 0,
    BitVec.ofNat 8 (flagBit g.excMode 0 + flagBit g.debug 1 + flagBit g.fabric 2)] ++ leBytes 4 0 ++
    leBytes 8 g.cookie.toNat ++ leBytes 8 g.prog.toNat ++ leBytes 8 g.param.toNat ++
    leBytes 8 g.seed.toNat ++ leBytes 8 g.excrec.toNat ++ leBytes 2 g.gx ++ leBytes 2 g.gy ++
    leBytes 2 g.gz ++ [BitVec.ofNat 8 g.tpg, BitVec.ofNat 8 g.nacc] ++ leBytes 2 g.lsz ++
    leBytes 2 g.psz ++ leBytes 2 g.energy ++ leBytes 2 g.dies.toNat

/-- A GRID record: the LAUNCH entry as it was taken in. -/
def gridRecord (s : State) (g : Grid) : List Byte :=
  let e := match startedAt s g.ring g.index with
    | some e => (e.bytes ++ leBytes 64 0).take 64
    | none => launchEntry g
  e ++ leBytes 2 g.ring ++ leBytes 2 (flagBit g.exc.isSome 0) ++ leBytes 4 g.more ++
    leBytes 8 g.nextGroup ++ leBytes 48 0

/-- A RING record with what its overflow holds. -/
def ringRecord (x : Ring) : List Byte :=
  let offs := [0x00, 0x08, 0x10, 0x18, 0x20, 0x28, 0x30, 0x38, 0x40, 0x50]
  pad64 ((offs.flatMap fun o => leBytes 8 (ringReg x o)) ++ leBytes 48 0 ++
    (x.overflow.take 16).flatMap fun it => it.bytes)

/-- The ids that RING records stand for: from RBASE (0x200 for partition 0) to the highest in use
(log entry 28). -/
def ringFirst (s : State) (p : Nat) : Nat := if p = 0 then 0x200 else vfRbase s p
def imgRings (s : State) (p : Nat) : List Nat :=
  let used := (s.rings.filter fun x => decide (0x200 ≤ x.1) && x.2.part == p &&
    x.2.state != .idle).map Prod.fst
  (List.range ((used.map fun r => r + 1 - ringFirst s p).foldl max 0)).map fun i => ringFirst s p + i

/-- A SYNC record. -/
def syncRecord (i : Nat) (o : SyncObj) : List Byte :=
  leBytes 4 i ++ leBytes 4 0 ++ leBytes 8 o.count.toNat ++ leBytes 8 (attrWord o)

/-- A BUSHEL record. -/
def bushelRecord (gid : Nat) (g : BshGroup) : List Byte :=
  leBytes 2 gid ++ leBytes 2 g.cmq ++ leBytes 2 g.rank ++ leBytes 2 g.nx ++ leBytes 2 g.ny ++
    leBytes 2 g.nz ++ leBytes 4 g.stall ++
    ((List.range 6).flatMap fun d => leBytes 4 (match g.qps.getD d none with
      | some q => 2 ^ 31 + q
      | none => 0)) ++ leBytes 8 0 ++ leBytes 4 g.gen ++ leBytes 12 0

/-- A CARDER record: the command's bytes, its header and table addresses zero, and the tables. -/
def carderRecord (b : CrdBind) : List Byte :=
  let xs := b.experts.map fun x =>
    x.cap * 2 ^ 48 + x.erank * 2 ^ 40 + x.group * 2 ^ 28 + (if x.valid then 1 else 0)
  let qs := (List.range b.ranks.length).map fun r =>
    if r = b.rank then 0 else 2 ^ 31 + b.ranks.getD r 0
  let hs := b.hosts.map fun h => leBytes 8 h.base ++ leBytes 8 h.stride ++ leBytes 8 h.sync ++
    leBytes 2 h.nbuf ++ leBytes 6 0
  leBytes 16 0 ++ leBytes 2 b.sq ++ [BitVec.ofNat 8 b.rank, BitVec.ofNat 8 (b.ranks.length - 1)] ++
    leBytes 2 b.experts.length ++ leBytes 2 b.tagbase ++ leBytes 2 b.tagcnt ++ leBytes 2 b.tsz ++
    leBytes 4 (b.stall + 65536 * (b.hosts.length - 1)) ++ leBytes 32 0 ++
    (xs.flatMap (leBytes 8)) ++ (qs.flatMap (leBytes 8)) ++ hs.flatten

/-- Descriptors of a partition that have not ended, with their cores. -/
def imgDescs (s : State) (p : Nat) : List MoverDesc :=
  s.movers.flatMap fun x => x.2.queue.filter fun d => d.part == p && d.result.isNone

/-- A MOVER record. -/
def moverRecord (s : State) (p : Nat) (d : MoverDesc) : List Byte :=
  let pl := savedPlace d.thread
  let owns (x : Nat × SavedGroup) : Bool := x.2.group.grid == pl.1 && x.2.group.index == pl.2.1
  (d.bytes ++ leBytes 64 0).take 64 ++ leBytes 8 (((imgGroups s p).findIdx? owns).getD 0) ++
    leBytes 8 d.done ++ leBytes 16 0

/-- PT_QUOTA_A and PT_QUOTA_B (R389). -/
def quotaA (x : Partition) : Nat := x.keyQ * 2 ^ 39 + x.qpQ * 2 ^ 17 + x.ringQ
def quotaB (x : Partition) : Nat := x.weight * 2 ^ 56 + x.energy * 2 ^ 40 + x.syncQ

/-- The sections of a partition's image, in ascending type. -/
def imgSections (s : State) (p : Nat) : List (List Byte) :=
  let x := partition s p
  let mine (k : Nat) : Bool := qpPart k == p
  [ imgSection 0x01 ((imgGrids s p).map (gridRecord s)),
    imgSection 0x02 ((imgGroups s p).map fun g => groupRecord g.1 g.2 fun lane =>
      faultNumber s p (savedName g.2.group.grid g.2.group.index lane)),
    imgSection 0x03 ((imgRings s p).map fun r => ringRecord (ring s r)),
    imgSection 0x04 ((s.syncs.filter fun o => o.2.part.toNat == p && o.2.state == .frozen).map fun o =>
      syncRecord o.1 o.2),
    imgSection 0x05 ((s.qps.filter fun q => mine q.1).map fun q => qpBytes s q.1),
    imgSection 0x06 ((List.range x.keyQ).map fun i => keyBytes (memKey s p i)),
    imgSection 0x07 ((s.bushel.filter fun g => g.2.part == p).map fun g => bushelRecord g.1 g.2),
    imgSection 0x08 ((s.binds.filter fun b => b.part == p).map carderRecord),
    imgSection 0x09 ((imgDescs s p).map (moverRecord s p)),
    imgSection 0x0A ((imgFaults s p).map (fqBytes p 0)) ]

/-- The save image of a partition. -/
def saveImage (s : State) (p : Nat) : List Byte :=
  let x := partition s p
  let secs := imgSections s p
  let n := (secs.filter fun b => !b.isEmpty).length
  let body := secs.flatten
  let rb := if p = 0 then 0 else vfRbase s p
  let head := leBytes 4 0x56534750 ++ leBytes 2 1 ++ leBytes 2 n ++ leBytes 8 Config.serial.toNat ++
    leBytes 8 (256 + body.length) ++ [BitVec.ofNat 8 p] ++ leBytes 3 0 ++ leBytes 2 rb ++
    leBytes 2 0 ++ leBytes 4 (vfSwbase s p) ++ leBytes 4 0 ++ leBytes 8 (quotaA x) ++
    leBytes 8 (quotaB x) ++ leBytes 196 0
  head ++ leBytes 4 (crc32c head).toNat ++ body

/-! PART_FREEZE (R381, R382). -/

/-- R381 step 1: the rings are held; what was taken in and not consumed is dropped. -/
def freezeRings (s : State) (p : Nat) : State :=
  let s1 := { s with grids := s.grids.filter fun x => !(x.2.part == p && x.2.state == .held) }
  ((partRings s1 p).filter fun r => decide (0x200 ≤ r)).foldl (fun s r =>
    modRing s r fun x =>
      if ringConsumed x then { x with held := true, taken := [], prefetch := [], prod := x.cons }
      else { x with held := true }) s1

/-- R155: the home reads the words of every object of a partition as it is saved. -/
def checkSyncs (s : State) (p : Nat) : State :=
  ((s.syncs.filter fun x => x.2.part.toNat == p && x.2.state != .free).map Prod.fst).foldl checkSync s

/-- R246: a queue pair freezes; its timers stop, and what has run or is left of them is kept. -/
def freezeQp (s : State) (q : Qp) : Qp :=
  let now := portTime s q.port
  { q with
    state := .frozen, saved := q.state, timer := q.timer.map (now - ·)
    rnrUntil := q.rnrUntil.map (· - now), ackTimer := q.ackTimer.map (now - ·)
    connTimer := q.connTimer.map fun x => (x.1 - fdTime s, x.2) }

/-- R382: a frozen queue pair goes on, with its timers as they stood. -/
def thawQp (s : State) (q : Qp) : Qp :=
  let now := portTime s q.port
  { q with
    state := q.saved, timer := q.timer.map (now - ·)
    rnrUntil := q.rnrUntil.map (· + now), ackTimer := q.ackTimer.map (now - ·)
    connTimer := q.connTimer.map fun x => (x.1 + fdTime s, x.2) }

/-- R381 step 2: Bushel and Carder abort, then queue pairs and sync objects are FROZEN; packets in the
miss buffers are dropped (R246). -/
def freezeUnits (s : State) (p : Nat) : State :=
  let gids := (s.bushel.filter fun x => x.2.part == p && x.2.run.isSome).map Prod.fst
  let s1 := gids.foldl (fun s gid => bshAbort s gid 0x11 8 (bshGroup s gid).rank none) s
  let s2 := checkSyncs ((s1.binds.filter fun b => b.part == p).foldl (fun s b => crdAbort s b 0x11) s1) p
  let s3 := fkDropQueued s2 fun k => qpPart k == p
  { s3 with
    qps := s3.qps.map fun x => if qpPart x.1 = p then (x.1, freezeQp s3 x.2) else x
    syncs := s3.syncs.map fun x =>
      if x.2.part.toNat = p ∧ x.2.state = .live then (x.1, { x.2 with state := .frozen }) else x }

/-- R381 step 3: groups are saved, and descriptors stop at a line boundary. -/
def freezeThreads (s : State) (p : Nat) : State :=
  let s1 := (partGroupKeys s p).foldl saveGroup s
  { s1 with
    grids := s1.grids.map fun x => if x.2.part = p ∧ x.2.state = .running then
      (x.1, { x.2 with state := .preempted, shares := [], skipped := 0, paced := false }) else x
    movers := s1.movers.map fun x => (x.1, { x.2 with
      queue := x.2.queue.map fun d =>
        if d.part = p ∧ d.result.isNone ∧ !d.remote then { d with running := false, stalled := false }
        else d }) }

/-- R378, R381: the saved descriptors' records stand in the last 65,536 bytes of their cores' slots, in
the order of their queues (log entry 13). -/
def saveDescs (s : State) (p : Nat) : State :=
  s.movers.foldl (fun s x =>
    let mine := x.2.queue.filter fun d => d.part == p && d.result.isNone
    let base := bits (reg s partPrebase) 22 26 * 2 ^ 22 + 2 ^ 22 * x.1 + 4128768
    if x.1 < 1024 then
      ((List.range mine.length).zip mine).foldl (fun s y =>
        writeMem s (base + 96 * y.1) (moverRecord s p y.2)) s
    else s) s

/-- R381 step 4: faults end on this device, and are recorded. -/
def freezeFaults (s : State) (p : Nat) : State :=
  let t := faultTable s p
  setFaults s p { t with faults := t.faults.map fun f => { f with fid := none } }

/-- FREEZE. -/
def freezePartition (s : State) (p : Nat) : State :=
  let s1 := freezeUnits (freezeRings (drdyBusy s .freeze) p) p
  let s2 := freezeFaults (saveDescs (freezeThreads s1 p) p) p
  drdyDone (modPart s2 p fun x => { x with state := .frozen, draining := false }) .freeze

/-- R382: recorded faults are posted again, with new ids, as faults that arise now. -/
def repostRecorded (s : State) (p : Nat) : State :=
  let t := faultTable s p
  let s1 := setFaults s p { t with faults := t.faults.map fun f => { f with time := fdTime s } }
  t.faults.foldl (fun s _ => assignFault s p) s1

/-- THAW. -/
def thawPartition (s : State) (p : Nat) : State :=
  let s1 := { s with
    qps := s.qps.map fun x =>
      if qpPart x.1 = p ∧ x.2.state = .frozen then (x.1, thawQp s x.2) else x
    syncs := s.syncs.map fun x =>
      if x.2.part.toNat = p ∧ x.2.state = .frozen then (x.1, { x.2 with state := .live }) else x }
  let s2 := modPart (holdRings s1 p false) p fun x => { x with state := .run }
  repostRecorded s2 p

/-- R381, R428: FREEZE answers ST_BOUNDS. A partition in FREEZING is one whose FREEZE waits for its
threads. -/
def freezeRefused (s : State) (p : Nat) : Bool :=
  let st := (partition s p).state
  (st != .run && st != .preempted && st != .freezing) || !preEnabled s || mirrored s p

/-- PART_FREEZE's effect (R381, R382, R428). -/
def partFreeze (s : State) (_ : Nat) (e : RingEntry) : AdminAnswer :=
  let p := aqPart e
  let st := (partition s p).state
  if 2 ≤ entryByte e 0x10 ∨ !zeroField e 0x11 47 then answer 0x02 s
  else if p = 0 ∨ 64 < p then answer 0x04 s
  else if entryByte e 0x10 = 0 then
    if freezeRefused s p then answer 0x04 s
    else answer 0 (freezePartition s p)
  else if st ≠ .frozen then answer 0x04 s
  else answer 0 (thawPartition s p)

/-- R381 step 1: STATE becomes FREEZING, and the rings are held. The threads issue no more; what they
wait for may still come (R86). -/
def beginFreeze (s : State) (p : Nat) : State :=
  (partThreads s p).foldl drainThread
    (modPart (freezeRings (drdyBusy s .freeze) p) p fun x => { x with state := .freezing, draining := true })

/-- R86, R381: an entry of FREEZE waits for the answers that threads of its partition have in flight
(log entry 41). -/
def freezeWaits (s : State) (e : RingEntry) : Bool :=
  let p := aqPart e
  entryByte e 0x10 == 0 && zeroField e 0x11 47 && p != 0 && decide (p ≤ 64) && !freezeRefused s p &&
    mustDrain ((partThreads s p).foldl drainThread s) (partThreads s p)

/-- PART_FREEZE (R381) on AQ `r`, op FREEZE. While threads wait for answers it only begins, and the
entry stays started. -/
def execPartFreeze (r : Nat) (s : State) : Res :=
  .next (match startedOp s r 0x62 with
    | some e =>
      if entryByte e 0x10 = 1 then s
      else if freezeWaits s e then (if mpServes s r then beginFreeze s (aqPart e) else s)
      else adminCommand 0x62 r partFreeze s
    | none => s)

/-- PART_THAW (R382) on AQ `r`: PART_FREEZE with op THAW. -/
def execPartThaw (r : Nat) (s : State) : Res :=
  .next (match startedOp s r 0x62 with
    | some e => if entryByte e 0x10 = 1 then adminCommand 0x62 r partFreeze s else s
    | none => s)

/-- R383: where PART_SAVE may write and PART_RESTORE read. -/
def imageRangeOk (s : State) (pa n : Nat) : Bool :=
  pa % 64 == 0 && (match regionOf pa with
    | .lpddr => regionOf (pa + n - 1) == .lpddr &&
        (List.range ((pa + n - 1) / 65536 + 1 - pa / 65536)).all fun i =>
          !(reg s xuPotBase).getLsbD 0 ||
            granuleOwner s ((pa / 65536 + i) * 65536) == some 0
    | .hostMem => regionOf (pa + n - 1) == .hostMem && s.linkUp
    | _ => false)

/-- PART_SAVE's effect (R383): an area outside its ranges completes with ST_BOUNDS (log entry 29). -/
def partSave (s : State) (_ : Nat) (e : RingEntry) : AdminAnswer :=
  let p := aqPart e
  let dst := entryField e 0x10 8
  if !zeroField e 0x20 32 then answer 0x02 s
  else
    let img := saveImage s p
    let d0 : Word := BitVec.ofNat 64 img.length
    let ok : Bool := (partition s p).state == .frozen && decide (img.length ≤ entryField e 0x18 8) && imageRangeOk s dst img.length
    { wait := false, st := if ok then 0 else 0x04, d0 := d0
      state := if ok then writeMem s dst img else s }

/-- PART_SAVE (R383) on AQ `r`. -/
def execPartSave (r : Nat) (s : State) : Res := .next (adminCommand 0x63 r partSave s)

end Sys2Proof.Machine
end

