-- ==== Sys2Proof/Machine/DebugSteps.lean ====
section
/-! DEFINITION. The debug window: halt, resume, step and window writes (R86 to R89). -/

namespace Sys2Proof.Machine

/-- DBG_SEL (R87). -/
def dbgSel : Nat := 0x2000000

/-- The engine that DBG_SEL selects, if any. -/
def selEngine (s : State) : Option Nat :=
  let e := bits (reg s dbgSel) 0 15
  if e < 16640 then some e else none

/-- The thread context that DBG_SEL selects, if any. -/
def selThread (s : State) : Option Nat :=
  (selEngine s).map fun e => 64 * e + bits (reg s dbgSel) 24 6

/-- The grid, started by LAUNCH, of the selected context (R88). -/
def selGrid (s : State) : Option Nat :=
  match selThread s with
  | none => none
  | some t =>
    let th := thread s t
    if th.state = .free ∨ (grid s th.grid).state = .gone then none else some th.grid

/-- DBG_STAT.BUSY (R87): a HALT or a STEP is in progress. -/
def dbgBusy (s : State) : Bool := s.dbgHalt.isSome || s.threads.any fun x => x.2.stepping

/-- Debug-halt one thread at its boundary (R86): what needs nothing from the network completes at once.
A thread halted by an exception, and one that is ending, is left. -/
def debugHalt (s : State) (t : Nat) : State :=
  let s1 := drainThread s t
  haltAtBoundary (modThread s1 t fun th =>
    if th.state = .ending ∨ th.state = .free ∨ th.cause.isSome then th
    else { th with halting := true }) t

/-- DBG_HALT_CMD (R88): DBG_CTL.HALT debug-halts every thread of the selected grid; its event is posted
once all have stopped. -/
def execDbgHaltCmd (s : State) : Res :=
  .next (match selGrid s, selThread s with
    | some g, some t =>
      if dbgBusy s then s
      else settleDebug { (gridThreads s g).foldl debugHalt s with dbgHalt := some (g, t) }
    | _, _ => s)

/-- DBG_RESUME (R88): every debug-halted thread of the selected grid issues again. -/
def execDbgResume (s : State) : Res :=
  .next (match selGrid s with
    | some g =>
      if dbgBusy s then s
      else (gridThreads s g).foldl (fun s t => modThread s t fun th =>
        if th.debug then resumeThread (engineNow s t) th else th) s
    | none => s)

/-- DBG_STEP (R88): the selected thread, if debug-halted, goes on for one instruction. -/
def execDbgStep (s : State) : Res :=
  .next (match selGrid s, selThread s with
    | some _, some t =>
      if dbgBusy s then s
      else modThread s t fun th =>
        if th.debug then { resumeThread (engineNow s t) th with stepping := true } else th
    | _, _ => s)

/-- Write 8 B of a thread record (R89, R386): the state, lane, own and fault fields are read-only. -/
def writeThreadWindow (th : Thread) (o : Nat) (v : Word) : Thread :=
  if o < 0x100 then writeS th (BitVec.ofNat 5 (o / 8)) v
  else if o < 0x500 then
    let r := (o - 0x100) / 64
    let k := (o - 0x100) / 8 % 8
    let old := tget 0 th.v r
    let m : Vec := BitVec.ofNat 512 ((2 ^ 64 - 1) * 2 ^ (64 * k))
    writeV th (BitVec.ofNat 4 r) ((old &&& ~~~m) ||| BitVec.ofNat 512 (v.toNat * 2 ^ (64 * k)))
  else if o < 0x540 then writeP th (BitVec.ofNat 3 ((o - 0x500) / 8)) v
  else if o = 0x540 then
    { th with pc := if bits v 57 7 = 0 then v.setWidth 57 else v.setWidth 57 ||| 1 }
  else if o = 0x548 then
    { th with srCount := v.setWidth 32
              spin := th.spin.map fun x => { x with left := bits v 32 32 } }
  else th

/-- R89: the local store and accumulators of an engine may be reached. -/
def engineStill (s : State) (e : Nat) : Bool :=
  s.err.fatal || (engineGroups s e).all fun g => g.threads.all fun t =>
    (thread s t).state == .halted || (thread s t).state == .free

/-- DBG_WINDOW_WRITE (R87, R89): an 8 B write at an offset of the DBG region. -/
def execDbgWindowWrite (off : Nat) (v : Word) (s : State) : Res :=
  .next (
    if off % 8 ≠ 0 then s
    else match selEngine s, selThread s with
      | some e, some t =>
        if 0x1000 ≤ off ∧ off < 0x1580 then
          let th := thread s t
          if s.err.fatal ∨ (th.state = .halted ∧ th.debug) then
            setThread s t (writeThreadWindow th (off - 0x1000) v)
          else s
        else if 0x10000 ≤ off ∧ off < 0x18000 then
          if engineStill s e then writeMem s (localPa e (off - 0x10000)) (leBytes 8 v.toNat) else s
        else if 0x20000 ≤ off ∧ off < 0x40000 then
          if engineStill s e then
            let k := e * 8 * 4096 + (off - 0x20000) / 4
            let low := tset 0 s.accs k (v.setWidth 32)
            { s with accs := tset 0 low (k + 1) (v.extractLsb' 32 32) }
          else s
        else s
      | _, _ => s)

end Sys2Proof.Machine
end

