-- ==== Sys2Proof/Machine/PartRestore.lean ====
section
/-! DEFINITION. PART_RESTORE (R387): reading a save image, its checks, and the state it gives a
partition. -/

namespace Sys2Proof.Machine

/-! Reading the image. -/

/-- Little-endian field of an image. -/
def imgField (bs : List Byte) (off n : Nat) : Nat := leNat ((bs.drop off).take n)

/-- A section: its type, count and body. -/
structure ImgSection where
  typ : Nat
  count : Nat
  body : List Byte

/-- Sections in ascending type, each with a good CRC; `n` bounds their number. -/
def readSections (last : Nat) (bs : List Byte) : Nat → Option (List ImgSection)
  | 0 => if bs.isEmpty then some [] else none
  | n + 1 =>
    if bs.isEmpty then some []
    else
      let typ := imgField bs 0 2
      let len := imgField bs 8 8
      let whole := bs.take (16 + len)
      if bs.length < 24 + len ∨ typ ≤ last ∨ 0x0A < typ ∨ imgField bs 2 2 ≠ 0 ∨ imgField bs 4 4 = 0 ∨
          len % 64 ≠ 0 ∨ imgField bs (16 + len) 4 ≠ (crc32c whole).toNat ∨
          imgField bs (20 + len) 4 ≠ 0 then none
      else
        (readSections typ (bs.drop (24 + len)) n).map fun l =>
          { typ := typ, count := imgField bs 4 4, body := (bs.drop 16).take len } :: l

/-- R384: the header is good, and the sections follow. -/
def readImage (bs : List Byte) : Option (List ImgSection) :=
  let zeros := [(0x19, 3), (0x1E, 2), (0x24, 4), (0x38, 196)]
  if bs.length < 256 ∨ imgField bs 0 4 ≠ 0x56534750 ∨ imgField bs 4 2 ≠ 1 ∨
      imgField bs 8 8 ≠ bs.length ∨ imgField bs 0xFC 4 ≠ (crc32c (bs.take 0xFC)).toNat ∨
      zeros.any (fun z => ((bs.drop z.1).take z.2).any fun b => b != 0) then none
  else
    match readSections 0 (bs.drop 256) 11 with
    | none => none
    | some l => if l.length = imgField bs 6 2 then some l else none

/-- Count and body of a section; 0 and nothing where it is omitted. -/
def secOf (l : List ImgSection) (typ : Nat) : Nat × List Byte :=
  match l.find? fun x => x.typ == typ with
  | some x => (x.count, x.body)
  | none => (0, [])

/-- Cut `n` records, whose sizes the function gives, from a body; what is left is padding. -/
def cutRecs (size : List Byte → Nat) (bs : List Byte) : Nat → Option (List (List Byte))
  | 0 => if bs.length < 64 ∧ bs.all (fun b => b == 0) then some [] else none
  | n + 1 =>
    let k := size bs
    if k = 0 ∨ bs.length < k then none else (cutRecs size (bs.drop k) n).map fun l => bs.take k :: l

/-- Records of a section. -/
def secRecs (l : List ImgSection) (typ : Nat) (size : List Byte → Nat) : Option (List (List Byte)) :=
  cutRecs size (secOf l typ).2 (secOf l typ).1

/-- Sizes of the records that vary: GROUP, RING, CARDER. -/
def groupSize (bs : List Byte) : Nat :=
  64 + imgField bs 0x12 2 * 64 + imgField bs 0x11 1 * 16384 + imgField bs 0x10 1 * 1408
def ringSize (bs : List Byte) : Nat :=
  let n := 128 + imgField bs 0x48 1 % 32 * 32
  (n + 63) / 64 * 64
def carderSize (bs : List Byte) : Nat :=
  64 + imgField bs 0x14 2 * 8 + (imgField bs 0x13 1 + 1) * 8 + (imgField bs 0x1C 4 / 65536 % 4096 + 1) * 32

/-- An image cut into records. -/
structure ImgData where
  part : Nat
  rbase : Nat
  grids : List (List Byte)
  groups : List (List Byte)
  rings : List (List Byte)
  syncs : List (List Byte)
  qps : List (List Byte)
  keys : List (List Byte)
  bushel : List (List Byte)
  binds : List (List Byte)
  descs : List (List Byte)
  faults : List (List Byte)

/-- An entry that an image's record stands for. -/
def imgEntry (i : BitVec 32) (bs : List Byte) : RingEntry :=
  { index := i, bytes := bs, gated := false, gateAt := 0, order := 0 }

/-- Reserved bytes of a record are zero. -/
def recZero (bs : List Byte) (off n : Nat) : Bool := ((bs.drop off).take n).all fun b => b == 0

/-- A thread record is within its ranges (R386). -/
def threadRecOk (tpg nacc faults : Nat) (t : List Byte) : Bool :=
  decide (imgField t 0x550 1 ≤ 6 ∧ imgField t 0x551 1 < tpg ∧ imgField t 0x552 1 < 2 ^ nacc) &&
    (imgField t 0x550 1 != 4 || decide (imgField t 0x554 2 < faults)) && recZero t 0x553 1 &&
    recZero t 0x556 42

/-- The thread records of a GROUP record. -/
def threadRecs (g : List Byte) : List (List Byte) :=
  let base := 64 + imgField g 0x12 2 * 64 + imgField g 0x11 1 * 16384
  (List.range (imgField g 0x10 1)).map fun i => (g.drop (base + 1408 * i)).take 1408

/-- A FAULT record is within its ranges (R351). -/
def faultRecOk (f : List Byte) : Bool :=
  let u := imgField f 0x18 1
  decide (1 ≤ imgField f 8 1 ∧ imgField f 8 1 ≤ 6) && (u == 12 || u == 16 || u == 21) &&
    decide (imgField f 0x0C 4 / 2 ^ 20 % 8 ≤ 2 ∧ imgField f 0x0C 4 < 2 ^ 31) && recZero f 0x19 7

/-- The command that a BUSHEL record holds, and the one of a CARDER record. -/
def bushelEntry (r : List Byte) : RingEntry := imgEntry 0 (leBytes 16 0 ++ r.take 48)
def carderEntry (r : List Byte) : RingEntry := imgEntry 0 (r.take 64)

/-- Reserved fields of the records are zero (R7, R384 to R386). -/
def imgZerosOk (d : ImgData) : Bool :=
  d.grids.all (fun g => recZero g 0x50 48) && d.groups.all (fun g => recZero g 0x14 44) &&
  d.rings.all (fun r => recZero r 0x50 48) && d.syncs.all (fun r => recZero r 4 4) &&
  d.bushel.all (fun r => recZero r 0x34 12) && d.descs.all (fun r => recZero r 80 16)

/-- Every record is within its ranges. -/
def imgRangesOk (d : ImgData) : Bool :=
  let gs := d.grids
  let gridOf (n : Nat) : RingEntry := imgEntry 0 ((gs.getD n []).take 64)
  gs.all (fun g => let e := imgEntry 0 (g.take 64)
    entryOpcode e == 1 && !launchBad d.part e && imgField g 0x42 2 / 2 == 0 &&
      decide (imgField g 0x48 8 ≤ entryField e 0x30 2 * entryField e 0x32 2 * entryField e 0x34 2)) &&
  d.groups.all (fun g => let e := gridOf (imgField g 0 8)
    decide (imgField g 0 8 < gs.length) && imgField g 0x10 1 == entryByte e 0x36 &&
      imgField g 0x11 1 == entryByte e 0x37 && imgField g 0x12 2 == entryField e 0x38 2) &&
  d.rings.all (fun r =>
    let st := imgField r 0x10 8 / 256
    let typ := imgField r 0x0B 1
    st == 0 || (decide (st ≤ 4) && (typ == 1 || typ == 2 || typ == 6) &&
      decide (4 ≤ imgField r 0x0A 1 % 32 ∧ imgField r 0x0A 1 % 32 ≤ 20) &&
      decide (imgField r 0x48 1 % 32 ≤ 16))) &&
  d.syncs.all (fun r => decide (imgField r 0 4 < 2 ^ 20) && imgField r 16 8 / 2 ^ 62 == 2) &&
  d.descs.all (fun r => decide (imgField r 64 8 < d.groups.length)) &&
  d.groups.all (fun g => (threadRecs g).all
    (threadRecOk (imgField g 0x10 1) (imgField g 0x11 1) d.faults.length)) &&
  d.bushel.all (fun r => !gcBad (bushelEntry r) (gcGroup d.part (bushelEntry r))) &&
  d.binds.all (fun r => !cbUnbind (carderEntry r) && !cbBad (carderEntry r)) &&
  d.faults.all faultRecOk && imgZerosOk d

/-- R387: the image as data; none where it is malformed. -/
def imgData (bs : List Byte) : Option ImgData :=
  match readImage bs with
  | none => none
  | some l =>
    match secRecs l 1 (fun _ => 128), secRecs l 2 groupSize, secRecs l 3 ringSize,
        secRecs l 4 (fun _ => 24), secRecs l 5 (fun _ => 512), secRecs l 6 (fun _ => 32) with
    | some a, some b, some c, some d, some e, some f =>
      match secRecs l 7 (fun _ => 64), secRecs l 8 carderSize, secRecs l 9 (fun _ => 96),
          secRecs l 10 (fun _ => 32) with
      | some g, some h, some i, some j =>
        let x : ImgData :=
          { part := imgField bs 0x18 1, rbase := imgField bs 0x1C 2, grids := a, groups := b
            rings := c, syncs := d, qps := e, keys := f, bushel := g, binds := h, descs := i
            faults := j }
        if imgRangesOk x then some x else none
      | _, _, _, _ => none
    | _, _, _, _, _, _ => none

/-! Mapping. -/

/-- What a restore maps by: source and target partition, ring bases, and the shift of objects. -/
structure ImgMap where
  p : Nat
  rbase : Nat
  sdelta : Int

/-- A ring id on the target; that of a privileged ring of the source becomes the target's. -/
def mapRing (s : State) (m : ImgMap) (d : ImgData) (r : Nat) : Nat :=
  if r < 0x200 then
    (if r = eqOf d.part then eqOf m.p else if r = fqOf d.part then fqOf m.p
     else if r / 2 = d.part then r - 2 * d.part + 2 * m.p else r)
  else if m.p = 0 then r else r - m.rbase + vfRbase s m.p

/-- Id of RING record `i` of the image. -/
def imgRingId (s : State) (m : ImgMap) (d : ImgData) (i : Nat) : Nat :=
  mapRing s m d ((if d.part = 0 then 0x200 else m.rbase) + i)

/-- An object on the target. -/
def mapSync (m : ImgMap) (i : Nat) : Int := Int.ofNat i + m.sdelta

/-! Records to state. -/

/-- A ring as its record gives it. -/
def ringOfRecord (s : State) (m : ImgMap) (d : ImgData) (bs : List Byte) : Ring :=
  let w (o : Nat) : Word := BitVec.ofNat 64 (imgField bs o 8)
  let cfg := w 0x08
  let poll := w 0x18
  let bind := w 0x20
  let typ := bits cfg 24 4
  { Ring.idle with
    typ := typ, state := ringStateOf (bits (w 0x10) 8 3), part := m.p, ctx := cfg.extractLsb' 40 20
    base := w 0, log2sz := bits cfg 16 5, hrK := bits cfg 11 5, visible := cfg.getLsbD 1
    pollK := bits poll 0 5, cont := poll.getLsbD 5, emptyN := bits poll 8 8, capK := bits poll 16 5
    curK := bits poll 24 5, bindEn := bind.getLsbD 16
    target := if bind.getLsbD 16 then mapRing s m d (bits bind 0 16) else 0
    sync := w 0x28, rpt := w 0x30, prod := (w 0x38).extractLsb' 32 32, cons := (w 0x38).extractLsb' 0 32
    reported := (w 0x38).extractLsb' 0 32, ccnt := w 0x40, malf := bits (w 0x48) 48 16
    ovfev := bits (w 0x48) 32 16, lastSt := (w 0x48).extractLsb' 16 8
    overflow := (List.range (bits (w 0x48) 0 5)).map fun i =>
      let b := (bs.drop (128 + 32 * i)).take 32
      { ring := imgField b 0x0A 2, counts := typ == 2, bytes := b, write := true } }

/-- An index for a started entry of which the image keeps none (log entry 30). -/
def startedIndex (x : Ring) (n : Nat) : BitVec 32 := x.cons + 0x80000000#32 + BitVec.ofNat 32 n

/-- A saved thread of a record. -/
def threadOfRecord (bs : List Byte) : Thread :=
  let put {α : Type} [DecidableEq α] (d : α) (l : List α) : Table α :=
    ((List.range l.length).zip l).foldl (fun m x => tset d m x.1 x.2) []
  let st := imgField bs 0x550 1
  { Thread.free with
    state := (match st with
      | 0 => ThreadState.free
      | 4 => .parked
      | 5 => .ending
      | 6 => .halted
      | _ => .ready)
    lane := imgField bs 0x551 1, pc := BitVec.ofNat 57 (imgField bs 0x540 8)
    s := put 0 ((List.range 32).map fun i => BitVec.ofNat 64 (imgField bs (8 * i) 8))
    v := put 0 ((List.range 16).map fun i => BitVec.ofNat 512 (imgField bs (0x100 + 64 * i) 64))
    p := tdel 0 (put 0 ((List.range 8).map fun i => BitVec.ofNat 64 (imgField bs (0x500 + 8 * i) 8)))
    srCount := BitVec.ofNat 32 (imgField bs 0x548 4)
    cause := if st = 6 then some .brk else none }

/-- R386: a thread saved in SPIN retries the instruction before its pc, read from its program, with
what is left of its limit; where that is no sync wait it executes it again. -/
def respin (s : State) (g : Grid) (left : Nat) (th : Thread) : Thread × State :=
  let pc := th.pc - 8
  let d := readVa s .fabric fabricUnit g.part g.ctx pc.toNat 8
  let again : Thread := { th with pc := pc }
  match d.1 with
  | .error _ => (again, d.2)
  | .ok bs =>
    let w : Word := BitVec.ofNat 64 (leNat bs)
    let minor := bits w 48 6
    if bits w 58 6 ≠ 0x28 ∨ (minor ≠ 1 ∧ minor ≠ 2) then (again, d.2)
    else
      let va := readS th (w.extractLsb' 38 5)
      let a := access d.2 .sync fabricUnit g.part g.ctx va.toNat false
      match a.1 with
      | .error _ => (again, a.2)
      | .ok pa =>
        ({ th with
            state := .spin
            spin := some
              { take := minor == 2, va := va, pa := pa
                target := if minor = 1 then readS th (w.extractLsb' 33 5) else 0
                dst := w.extractLsb' 43 5, left := left, since := 0, stale := true, pc := pc
                word := w } }, a.2)

/-- A GROUP record, as a group to place again. -/
def groupOfRecord (gn : Nat) (bs : List Byte) : SavedGroup :=
  let tpg := imgField bs 0x10 1
  let nacc := imgField bs 0x11 1
  let win := imgField bs 0x12 2 * 64
  let accBase := 64 + win
  let thBase := accBase + nacc * 16384
  let recs := (List.range tpg).map fun i => (bs.drop (thBase + 1408 * i)).take 1408
  let owner (a : Nat) : Option Nat :=
    (recs.find? fun r => imgField r 0x552 1 / 2 ^ a % 2 == 1).map fun r => imgField r 0x551 1
  { group := { Group.none with
      grid := gn
      index := imgField bs 8 8
      threads := List.range tpg
      winSize := win
      accs := List.range nacc
      owners := (List.range nacc).map owner }
    threads := recs.map threadOfRecord
    window := (bs.drop 64).take win
    checks := List.replicate (win / 8) .good
    accs := (List.range nacc).map fun a =>
      (List.range 4096).foldl (fun (m : Table (BitVec 32)) i =>
        tset 0 m i (BitVec.ofNat 32 (imgField bs (accBase + 16384 * a + 4 * i) 4))) []
    slot := 0 }

/-- Parked threads of a GROUP record: their names and the fault records they wait on. -/
def parkedOf (gn : Nat) (bs : List Byte) : List (Nat × Nat) :=
  let tpg := imgField bs 0x10 1
  let base := 64 + imgField bs 0x12 2 * 64 + imgField bs 0x11 1 * 16384
  (List.range tpg).filterMap fun i =>
    let r := (bs.drop (base + 1408 * i)).take 1408
    if imgField r 0x550 1 = 4 then
      some (savedName gn (imgField bs 8 8) (imgField r 0x551 1), imgField r 0x554 2)
    else none

/-- The binding of a CARDER record. -/
def bindOfRecord (s : State) (m : ImgMap) (d : ImgData) (bs : List Byte) : CrdBind :=
  let e := imgEntry 0 (bs.take 64)
  let x := cbExperts e * 8
  let q := cbN e * 8
  let b := cbBind m.p 0 e ((bs.drop 64).take x) ((bs.drop (64 + x)).take q) (bs.drop (64 + x + q))
  let sq := mapRing s m d b.sq
  { b with sq := sq, ctx := (ring s sq).ctx }

/-- The group of a BUSHEL record. -/
def bushelOfRecord (s : State) (m : ImgMap) (d : ImgData) (bs : List Byte) : Nat × BshGroup :=
  let e := imgEntry 0 (leBytes 16 0 ++ bs.take 48)
  (imgField bs 0 2, { gcGroup m.p e with
    cmq := mapRing s m d (imgField bs 2 2), gen := imgField bs 0x30 4 })

/-- A fault of a FAULT record. -/
def faultOfRecord (s : State) (bs : List Byte) (waiters : List FaultAgent) : FaultRec :=
  let who := imgField bs 0x0C 4
  let u := imgField bs 0x18 1
  { fid := none, ctx := BitVec.ofNat 20 who, key := imgField bs 0 8 / 2 ^ u
    va := BitVec.ofNat 64 (imgField bs 0 8)
    cause := (match imgField bs 8 1 with
      | 2 => XlateCause.rights
      | 3 => .owner
      | 4 => .target
      | 5 => .ctx
      | 6 => .walk
      | _ => .notPresent)
    write := who / 2 ^ 23 % 2 == 1, agent := who / 2 ^ 20 % 8, ulog2 := u, time := fdTime s
    joined := false, waiters := waiters }

/-! The checks (R387). -/

/-- The target holds nothing that the image would meet. -/
def targetEmpty (s : State) (p : Nat) : Bool :=
  ringsUsed s p == 0 && qpsUse s p == 0 && syncUsed s p == 0 &&
    !(s.bushel.any fun g => g.2.part == p) && !(s.binds.any fun b => b.part == p) &&
    !(s.grids.any fun g => g.2.part == p)

/-- R387: the ST_BOUNDS row. -/
def restoreBounds (s : State) (m : ImgMap) (d : ImgData) : Bool :=
  (partition s m.p).state != .run || !targetEmpty s m.p || !preEnabled s ||
  (List.range d.rings.length).any (fun i =>
    imgField (d.rings.getD i []) 0x10 8 != 0 && !ringIdOk s m.p (imgRingId s m d i)) ||
  d.syncs.any (fun r =>
    let i := mapSync m (imgField r 0 4)
    decide (i < 0 ∨ 2 ^ 20 ≤ i) || (syncObj s i.toNat).state != .free) ||
  d.bushel.any (fun r => bshGroup s (imgField r 0 2) != BshGroup.none) ||
  d.binds.any fun r => s.binds.any (tagsOverlap (imgField r 0x16 2) (imgField r 0x18 2))

/-- Queue pairs of the image, with their numbers. -/
def imgQps (d : ImgData) : List (Nat × List Byte) :=
  d.qps.map fun bs => ((Config.ctxParse bs).getD 42 0, bs)

/-- Contexts that the groups and bindings of the image pin (R25). -/
def imgPins (s : State) (m : ImgMap) (d : ImgData) : List Nat :=
  (d.bushel.flatMap fun bs => (bushelOfRecord s m d bs).2.qps.filterMap fun o => o.map (qpKey m.p)) ++
    d.binds.flatMap fun bs => bindQps (bindOfRecord s m d bs)

/-- R387: the ST_QUOTA row; contexts that Firkin cannot pin are taken as one of its quotas (log entry
72). -/
def restoreQuota (s : State) (m : ImgMap) (d : ImgData) : Bool :=
  let x := partition s m.p
  let used := (d.rings.filter fun r => imgField r 0x10 8 != 0).length
  let qps := ((imgQps d).map fun y => y.1 + 1).foldl max 0
  let keys := ((List.range d.keys.length).filter fun i => (keyOfBytes (d.keys.getD i [])).live).map (· + 1)
  decide (x.ringQ < used ∨ x.qpQ < qps ∨ qpCap s m.p < qps ∨ x.syncQ < d.syncs.length ∨
    x.keyQ < keys.foldl max 0 ∨ keyCap s m.p < keys.foldl max 0) || !fkCanPin s (imgPins s m d)

/-! The effect. -/

/-- Rings and objects of the image. -/
def restoreRings (s : State) (m : ImgMap) (d : ImgData) : State :=
  let s1 := (List.range d.rings.length).foldl (fun s i =>
    let bs := d.rings.getD i []
    if imgField bs 0x10 8 = 0 then s else setRing s (imgRingId s m d i) (ringOfRecord s m d bs)) s
  d.syncs.foldl (fun s r =>
    let i := (mapSync m (imgField r 0 4)).toNat
    setSync s i { syncOfAttr (BitVec.ofNat 64 (imgField r 16 8)) (BitVec.ofNat 64 (imgField r 8 8)) with
      part := BitVec.ofNat 7 m.p }) s1

/-- Grids and groups: the LAUNCH entries are started entries of their rings, and groups wait to be
placed. -/
def restoreGrids (s : State) (m : ImgMap) (d : ImgData) : State :=
  (List.range d.grids.length).foldl (fun s i =>
    let bs := d.grids.getD i []
    let r := mapRing s m d (imgField bs 0x40 2)
    let x := ring s r
    let e := imgEntry (startedIndex x i) (bs.take 64)
    let gn := s.nextGrid
    let mine := d.groups.filter fun g => imgField g 0 8 == i
    let g0 := { gridOfLaunch r x e with order := s.sched.nextOrder }
    let exc := if imgField bs 0x42 2 % 2 = 1 then
        some { pc := 0, insn := 0, tid := 0, addr := 0, cause := .trap, status := 0x01, engine := 0 }
      else none
    let g : Grid := { g0 with
      state := .preempted
      nextGroup := imgField bs 0x48 8
      doneGroups := imgField bs 0x48 8 - mine.length
      exc := exc
      more := imgField bs 0x44 4 }
    let s1 := modRing { s with nextGrid := gn + 1 } r fun y => { y with started := y.started ++ [e] }
    let s2 := modSched s1 fun z => { z with nextOrder := z.nextOrder + 1 }
    let put (a : State × List SavedGroup) (bs : List Byte) : State × List SavedGroup :=
      let x := groupOfRecord gn bs
      let base := 64 + imgField bs 0x12 2 * 64 + imgField bs 0x11 1 * 16384
      let step (b : State × List Thread) (j : Nat) : State × List Thread :=
        let th := x.threads.getD j Thread.free
        if imgField bs (base + 1408 * j + 0x550) 1 = 3 then
          let t := respin b.1 g (imgField bs (base + 1408 * j + 0x54C) 4) th
          (t.2, b.2 ++ [t.1])
        else (b.1, b.2 ++ [th])
      let t := (List.range x.threads.length).foldl step (a.1, [])
      (t.1, insertSaved { x with threads := t.2 } a.2)
    let t := mine.foldl put (s2, [])
    setGrid t.1 gn { g with saved := t.2 }) s

/-- R330: a restored queue pair's slot is bound to it, with no keys until they are loaded again. -/
def rebindSlot (s : State) (k : Nat) : State :=
  match qpSlot k (qp s k) with
  | some n => modSlot s n fun x => { x with bound := some (qpNum k) }
  | none => s

/-- Queue pairs of the image in their saved states. SQ entries that they carry out are started
entries again; what threads and units had under way ends unanswered. -/
def restoreQp (m : ImgMap) (d : ImgData) (s : State) (y : Nat × List Byte) : State :=
  let k := qpKey m.p y.1
  let r := qpOfNats (Config.ctxParse y.2)
  let q := r.1
  let src (o : SendOp) : WorkSrc := match o.src with
    | .sq g i => .sq (mapRing s m d g) i
    | .mover c i => .mover c i
    | _ => .none
  let started (s : State) (x : SendOp × List Nat) : State := match x.1.src with
    | .sq g i => modRing s (mapRing s m d g) fun z => { z with started := z.started ++
        [imgEntry i (leBytes 8 (x.2.getD 3 0) ++ leBytes 8 (x.2.getD 4 0) ++ leBytes 48 0)] }
    | _ => s
  let s1 := r.2.1.foldl started s
  let q1 : Qp := { q with
    state := q.saved
    sq := mapRing s m d q.sq
    rcq := mapRing s m d q.rcq
    ops := q.ops.map fun o => { o with src := src o, stalled := false }
    timer := if (q.saved = .rts ∨ q.saved = .drain) ∧ q.una ≠ q.nxt then some (portTime s q.port) else none
    rnrUntil := none
    connTimer := if q.saved = .rts ∨ q.saved = .drain then none
      else q.connTimer.map fun x => (x.1 + fdTime s, x.2.1, 0) }
  let s2 := rebindSlot (setQp s1 k q1) k
  if q.saved = .rts then startMigrate s2 k else s2

/-- Keys, groups and bindings. -/
def restoreUnits (s : State) (m : ImgMap) (d : ImgData) : State :=
  let s1 := (List.range d.keys.length).foldl (fun s i =>
    let e := keyOfBytes (d.keys.getD i [])
    setMemKey s m.p i e) s
  let s2 := d.bushel.foldl (fun s bs =>
    let g := bushelOfRecord s m d bs
    setBsh (pinAll s (g.2.qps.filterMap fun o => o.map (qpKey m.p))) g.1 g.2) s1
  d.binds.foldl (fun s bs =>
    let b := bindOfRecord s m d bs
    let s' := pinAll s (bindQps b)
    { s' with binds := s'.binds ++ [b] }) s2

/-- Saved descriptors go on at a core of the partition; one that a queue pair carries stays with it. -/
def restoreDescs (s : State) (m : ImgMap) (d : ImgData) (gids : List Nat) : State :=
  let core := (coresOf s m.p).headD 0
  d.descs.foldl (fun s bs =>
    let rec_ := d.groups.getD (imgField bs 64 8) []
    let gn := gids.getD (imgField rec_ 0 8) 0
    let mv := mover s core
    let x : MoverDesc :=
      { id := mv.nextId, thread := savedName gn (imgField rec_ 8 8) 0, grid := gn, part := m.p
        ctx := (grid s gn).ctx, engine := 16 * core, winBase := 0, winSize := imgField rec_ 0x12 2 * 64
        bytes := bs.take 64, running := false, done := imgField bs 72 8, stalled := false
        poisoned := false, remote := false, statBad := false, statDone := false, syncBad := false
        result := none, err := none, errAddr := 0 }
    let k := descQp x
    let wop := if descOp x = 4 then 0x02 else 0x04
    let far := if descOp x = 4 then descDst x else descSrc x
    let mine (o : SendOp) : Bool := (match o.src with
      | .mover _ _ => true
      | _ => false) && o.op == wop && o.roff == far && o.len == descLen x
    let carried := descRemote x && (qp s k).ops.any mine
    let s1 := setMover s core { queue := mv.queue ++ [{ x with running := carried, remote := carried }]
                                nextId := mv.nextId + 1 }
    if carried then
      let take (o : SendOp) : SendOp := if mine o then { o with src := .mover core x.id } else o
      modQp s1 k fun q => { q with ops := q.ops.map take }
    else s1) s

/-- Recorded faults are posted with new ids; parked threads wait on them. -/
def restoreFaults (s : State) (m : ImgMap) (d : ImgData) (gids : List Nat) : State :=
  let parked := d.groups.flatMap fun g => parkedOf (gids.getD (imgField g 0 8) 0) g
  let fs := (List.range d.faults.length).map fun i =>
    faultOfRecord s (d.faults.getD i [])
      ((parked.filter fun x => x.2 == i).map fun x => FaultAgent.thread x.1)
  let t := faultTable s m.p
  fs.foldl (fun s _ => assignFault s m.p) (setFaults s m.p { t with faults := t.faults ++ fs })

/-- The whole restore; the target's cores are zeroed first (R373). -/
def restoreAll (s : State) (m : ImgMap) (d : ImgData) : State :=
  let s := (coresOf s m.p).foldl wipeCore s
  let gids := (List.range d.grids.length).map fun i => s.nextGrid + i
  let s1 := restoreGrids (restoreRings s m d) m d
  let s2 := restoreUnits ((imgQps d).foldl (restoreQp m d) s1) m d
  restoreFaults (restoreDescs s2 m d gids) m d gids

/-- PART_RESTORE's effect. -/
def partRestore (s : State) (_ : Nat) (e : RingEntry) : AdminAnswer :=
  let p := aqPart e
  let src := entryField e 0x10 8
  let len := entryField e 0x18 8
  if !zeroField e 0x24 28 ∨ 64 < p ∨ len < 256 ∨ !imageRangeOk s src len then answer 0x02 s
  else
    let r := readMem s src len
    match Option.bind (if r.1 then none else some r.2.1) imgData with
    | none => answer 0x02 r.2.2
    | some d =>
      let m : ImgMap :=
        { p := p, rbase := d.rbase
          sdelta := (BitVec.ofNat 32 (entryField e 0x20 4)).toInt }
      if restoreBounds r.2.2 m d then answer 0x04 r.2.2
      else if restoreQuota r.2.2 m d then answer 0x10 r.2.2
      else answer 0 (restoreAll r.2.2 m d)

/-- PART_RESTORE (R387) on AQ `r`. -/
def execPartRestore (r : Nat) (s : State) : Res := .next (adminCommand 0x64 r partRestore s)

end Sys2Proof.Machine
end

