-- ==== Sys2Proof/Machine/HostSteps.lean ====
section
/-! DEFINITION. The host attachment: the CXL link, BAR2 and HDM accesses, PERST_N, the retention record
and DRDY's pulses (R336 to R364, R431, R432). -/

namespace Sys2Proof.Machine

/-! The retention record (R358). -/

/-- The 64 bytes of a record. -/
def retentionRecord (s : State) (base size reason gen : Nat) : List Byte :=
  let head := leBytes 4 0x52544E31 ++ leBytes 2 1 ++
    [BitVec.ofNat 8 reason, BitVec.ofNat 8 (flagBit ((reg s haPolicy).getLsbD 0) 0)] ++
    leBytes 8 gen ++ leBytes 8 base ++ leBytes 8 size ++ leBytes 8 (fdTime s) ++
    leBytes 4 s.host.retPoison ++ leBytes 4 s.host.lost ++ leBytes 12 0
  head ++ leBytes 4 (crc32c head).toNat

/-- R358: while the retained region is in force its record is written, with a new generation. -/
def writeRetention (s : State) (reason : Nat) : State :=
  match retained s with
  | none => s
  | some (base, size) =>
    let gen := (reg s haRetGen).toNat + 1
    let s1 := writeMem s base (retentionRecord s base size reason gen)
    let s2 := setReg s1 haRetGen (BitVec.ofNat 64 gen)
    { s2 with host := { s2.host with retPoison := 0 } }

/-! Host reset and link loss (R186, R359 to R361). -/

/-- R174, R186: a host-memory ring goes to ERROR, and a privileged one to IDLE, with its head report
where that can be written. The TMR runs on. -/
def losePath (s : State) (r : Nat) : State :=
  let x := ring s r
  if r = tmrRing then s
  else if r < 0x200 then setRing (errorReport s r) r Ring.idle
  else if x.state ≠ .idle ∧ x.state ≠ .error ∧ hostVa s x.part x.ctx x.base.toNat then
    modRing (errorReport s r) r fun y => { y with state := .error, lastSt := 0x08 }
  else s

/-- R359 step 2: queue pairs whose context is backed in host memory enter ERROR. -/
def loseQps (s : State) : State :=
  let hit (x : Nat × Qp) : Bool :=
    regionOf (qpStore s (qpPart x.1) + 512 * qpNum x.1) == .hostMem && x.2.state != .error &&
      x.2.state != .frozen
  ((s.qps.filter hit).map Prod.fst).foldl (fun s k => enterError s k 0x22 0x08) s

/-- R359 step 3: with QUIESCE every partition is pre-empted, or held where it cannot be. -/
def quiescePart (s : State) (p : Nat) : State :=
  match (partition s p).state with
  | .run =>
    let s1 := if preEnabled s then preemptPartition s p else holdRings s p true
    modPart s1 p fun x => { x with quiesced := true }
  | .preempted => modPart s p fun x => { x with quiesced := true }
  | _ => s

/-- Steps 2 to 4 of R359, with the reason of the record. -/
def losePathSteps (s : State) (reason : Nat) : State :=
  let s1 := loseQps ((s.rings.map Prod.fst).foldl losePath s)
  let s2 := if (reg s haPolicy).getLsbD 0 then (List.range 65).foldl quiescePart s1 else s1
  xptDone s (writeRetention (modSched s2 fun z => { z with moving := [] }) reason)

/-- PERST_ASSERT (R359 steps 1 to 4, R360). -/
def execPerstAssert (s : State) : Res :=
  .next (if s.host.perst ∨ !powered s then s
    else
      let s1 := if s.linkUp then bump s 0x0008000 32 16 1 else s
      let s2 := drdyBusy { s1 with
        linkUp := false
        host := { s1.host with perst := true, proto := 0, width := 0, speed := 0, downAt := none
                               timedOut := true, lost := if s.linkUp then 0 else s.host.lost } } .perst
      if s.err.fatal then s2
      else
        let s3 := losePathSteps s2 1
        (List.range 65).foldl (fun s n => setReg s (if n = 0 then haB2 else regKey n 8) 0) s3)

/-- PERST_DEASSERT (R359 step 5): configuration space resets, VF Enable with it, and the partitions
stay as they are (log entry 31). -/
def execPerstDeassert (s : State) : Res :=
  .next (if !s.host.perst ∨ !powered s then s
    else { s with host := { s.host with perst := false, vfs := 0 } })

/-- CXL_LINK_UP (R336, R359 step 6): the link trains in protocol `proto` (1 CXL 3.1, 2 CXL 2.0, 3 PCIe
5.0) at width code `width` (2 x4, 3 x8, 4 x16). While the link is up `downAt` holds how long it was
down, until HOST_PATH_RESTORED. -/
def execCxlLinkUp (proto width : Nat) (s : State) : Res :=
  .next (if s.linkUp ∨ s.host.perst ∨ !powered s ∨ proto = 0 ∨ 3 < proto ∨ width < 2 ∨ 4 < width then s
    else drdyDone { s with
      linkUp := true
      host := { s.host with
        proto := proto, width := width, speed := if proto = 1 then 64 else 32, timedOut := false
        downAt := s.host.downAt.map fun t => fdTime s - t } } .perst)

/-- CXL_LINK_DOWN (R361): the link retrains or goes down without PERST_N. -/
def execCxlLinkDown (s : State) : Res :=
  .next (if !s.linkUp then s
    else bump { s with
      linkUp := false
      host := { s.host with downAt := some (fdTime s), timedOut := false, lost := 0 } } 0x0008000 32 16 1)

/-- HOST_PATH_RESTORED (R353, R361): the link is back; the lost accesses have completed. -/
def execHostPathRestored (s : State) : Res :=
  .next (match s.host.downAt with
    | none => s
    | some d =>
      if !s.linkUp ∨ s.err.fatal then s
      else post { s with host := { s.host with downAt := none } } (eqOf 0) 0x52 0
        (BitVec.ofNat 64 s.host.lost) (BitVec.ofNat 64 (d / 1500)))

/-- LINK_DOWN_TIMEOUT (R361): the link has been down for DOWNMS. -/
def execLinkDownTimeout (s : State) : Res :=
  .next (match s.host.downAt with
    | none => s
    | some t =>
      let ms := max 1 (bits (reg s haPolicy) 16 16)
      if s.linkUp ∨ s.host.perst ∨ s.host.timedOut ∨ s.err.fatal ∨ !powered s ∨
          fdTime s < t + ms * 1500000 then s
      else losePathSteps { s with host := { s.host with timedOut := true } } 3)

/-- POLICY_RESUME (R359, R364): HA_POLICY is written with RESUME set: its fields, and every partition
quiesced by a host reset goes on. -/
def execPolicyResume (v : Word) (s : State) : Res :=
  .next (if !bar0 s then s
    else
      let s1 := setReg s haPolicy (v &&& BitVec.ofNat 64 (fieldMask 31 16 + 1))
      (List.range 65).foldl (fun s p =>
        if (partition s p).quiesced then
          unholdPartition (modPart (if (partition s p).state = .run then holdRings s p false else s) p
            fun x => { x with quiesced := false }) p
        else s) s1)

/-! BAR2 and HDM (R343 to R346, R431, R432). -/

/-- R345: an access failed: it is counted, and recorded for the partition. -/
def pathFail (s : State) (p : Nat) (st : BitVec 8) (addr : Nat) (isVa : Bool) (c : BitVec 20) : State :=
  recordError (bump s haPathstat 0 32 1)
    { code := 0x04, unit := 0x10, inst := 0, part := some p, status := st, addr := addr, isVa := isVa
      ctx := c, data0 := 0 }

/-- R431: the image slots. -/
def inSlots (pa : Nat) : Bool := decide (0x00FFDC000000 ≤ pa ∧ pa < 0x00FFFC000000)

/-- Where a BAR2 access goes: nowhere, with EN clear; to a physical address; or it fails. -/
inductive Bar2Target where
  | off
  | pa (a : Nat)
  | fail

/-- BAR2 of function `fn`: EN, PHYS, BASE and CTX. -/
def bar2Reg (s : State) (fn : Nat) : Word := if fn = 0 then reg s haB2 else regFn s fn 8

/-- R343, R345, R432: offset `off` of a function's BAR2. -/
def bar2Target (s : State) (fn off : Nat) (write : Bool) : Bar2Target × State :=
  let w := bar2Reg s fn
  let base := bits w 36 21 * 2 ^ 36
  if fn = 0 ∧ s.boot.st = .rom then
    (if off < 0x4000000 then (.pa (0x00FFFC000000 + off), s) else (.off, s))
  else if !w.getLsbD 63 then (.off, s)
  else if fn = 0 ∧ w.getLsbD 62 then
    let pa := base % 2 ^ 48 + off
    ((if (regionOf pa = .lpddr ∨ regionOf pa = .sram) ∧ !inSlots pa then .pa pa else .fail), s)
  else
    let a := access s .bar2 fabricUnit fn (w.extractLsb' 0 20) (base + off) write
    match a.1 with
    | .error _ => (.fail, a.2)
    | .ok pa => ((if inSlots pa then .fail else .pa pa), a.2)

/-- A BAR2 access that the device serves: `n` bytes at offset `off` within one 4 KiB page. -/
def bar2Served (s : State) (fn off n : Nat) : Bool :=
  powered s && !s.err.fatal && decide (fn ≤ 64 ∧ off % 4096 + n ≤ 4096 ∧ off + n ≤ 2 ^ 36 ∧ 0 < n)

/-- The offsets of a function's BAR2 are device physical addresses (R343). -/
def bar2Phys (s : State) (fn : Nat) : Bool := fn == 0 && (bar2Reg s fn).getLsbD 62

/-- The address of a BAR2 access for the record: the virtual one where it is translated. -/
def bar2Va (s : State) (fn off : Nat) : Nat :=
  let a := bits (bar2Reg s fn) 36 21 * 2 ^ 36
  (if bar2Phys s fn then a % 2 ^ 48 else a) + off

/-- BAR2_READ (R343, R345): the answer's first byte says how the read completes: 0 data follow, 1
Unsupported Request, 2 Completer Abort, 3 poisoned. -/
def execBar2Read (fn off n : Nat) (s : State) : Res :=
  .next (if !bar2Served s fn off n then s
    else
      let c := (bar2Reg s fn).extractLsb' 0 20
      let t := bar2Target s fn off false
      match t.1 with
      | .off => { pathFail t.2 fn 0 off false c with readData := [1] }
      | .fail => { pathFail t.2 fn 0x05 (bar2Va s fn off) (!bar2Phys s fn) c with readData := [2] }
      | .pa a =>
        let r := readMem t.2 a n
        if r.1 then { pathFail r.2.2 fn 0x0D a false c with readData := [3] }
        else { r.2.2 with readData := 0 :: r.2.1 })

/-- BAR2_WRITE (R343, R345). -/
def execBar2Write (fn off : Nat) (bs : List Byte) (s : State) : Res :=
  .next (if !bar2Served s fn off bs.length then s
    else
      let c := (bar2Reg s fn).extractLsb' 0 20
      let t := bar2Target s fn off true
      match t.1 with
      | .off => pathFail t.2 fn 0 off false c
      | .fail => pathFail t.2 fn 0x05 (bar2Va s fn off) (!bar2Phys s fn) c
      | .pa a => writeMem t.2 a bs)

/-- R344: the owner check of an HDM access, with the identity of HA_HDM_ID. -/
def hdmCheck (s : State) (pa : Nat) (write : Bool) : Bool × State :=
  let w := reg s haHdmId
  let p := bits w 32 7
  if inSlots pa then (false, s)
  else if (reg s xuPotBase).getLsbD 0 then
    let e := ownerEntry s (granuleIndex pa)
    let c : BitVec 20 := if w.getLsbD 20 then e.1.extractLsb' 0 20 else w.extractLsb' 0 20
    (ownerMatches e.1 p c write, e.2)
  else (p == 0, s)

/-- An HDM access that the device serves: a CXL mode, a link that is up, and bytes of one 64 B line. -/
def hdmServed (s : State) (pa n : Nat) : Bool :=
  powered s && !s.err.fatal && s.linkUp && (s.host.proto == 1 || s.host.proto == 2) &&
    decide (pa % 64 + n ≤ 64 ∧ regionOf pa = .lpddr ∧ 0 < n)

/-- HDM_READ (R344, R345) of the LPDDR5X address that the decoder gives: the answer's first byte is 0
with data, or 3 with the poison indication. -/
def execHdmRead (pa n : Nat) (s : State) : Res :=
  .next (if !hdmServed s pa n then s
    else
      let p := bits (reg s haHdmId) 32 7
      let c := hdmCheck s pa false
      if !c.1 then { pathFail c.2 p 0x05 pa false 0 with readData := [3] }
      else
        let r := readMem c.2 pa n
        if r.1 then { pathFail r.2.2 p 0x0D pa false 0 with readData := [3] }
        else { r.2.2 with readData := 0 :: r.2.1 })

/-- HDM_WRITE (R344, R345). -/
def execHdmWrite (pa : Nat) (bs : List Byte) (s : State) : Res :=
  .next (if !hdmServed s pa bs.length then s
    else
      let c := hdmCheck s pa true
      if !c.1 then pathFail c.2 (bits (reg s haHdmId) 32 7) 0x05 pa false 0
      else writeMem c.2 pa bs)

/-! DRDY (R362, R363). -/

/-- ATTENTION_PULSE_END: 1.8 us of the pulse have passed. -/
def execAttentionPulseEnd (s : State) : Res :=
  .next (if s.drdy.state = .pulse ∧ s.drdy.since + 90 ≤ glTime s then
    { s with drdy := { s.drdy with state := .holdoff, since := glTime s } }
  else s)

/-- ATTENTION_HOLDOFF_END: 48 us after the pulse. -/
def execAttentionHoldoffEnd (s : State) : Res :=
  .next (if s.drdy.state = .holdoff ∧ s.drdy.since + 2400 ≤ glTime s then
    { s with drdy := { s.drdy with
        state := if s.drdy.pending then .pulse else .ready, since := glTime s, pending := false } }
  else s)

/-- DRDY_BUSY_MINIMUM_END: nothing holds DRDY any longer, and busy has lasted 100 us. -/
def execDrdyBusyMinimumEnd (s : State) : Res :=
  .next (if s.drdy.state = .busy ∧ s.drdy.causes.isEmpty ∧ busyLong s then drdyRelease s else s)

/-- POST_BUSY_ATTENTION: 10 us after busy. -/
def execPostBusyAttention (s : State) : Res :=
  .next (if s.drdy.state = .after ∧ s.drdy.since + 500 ≤ glTime s then
    { s with drdy := { s.drdy with state := .pulse, since := glTime s, pending := false } }
  else s)

end Sys2Proof.Machine
end

