-- ==== Sys2Proof/Machine/Frames.lean ====
section
/-! DEFINITION. Frames on the wire: checksums, the headers that a port adds, LLDP, and how an arriving
frame is read (R187, R188, R298 to R302, R314). -/

namespace Sys2Proof.Machine

/-! Checksums (R299). -/

/-- Sum of the 16-bit big-endian words of a byte list. -/
def sum16 : List Byte → Nat
  | [] => 0
  | [a] => 256 * a.toNat
  | a :: b :: r => 256 * a.toNat + b.toNat + sum16 r

/-- Fold carries into 16 bits; `n` bounds the folds. -/
def fold16 : Nat → Nat → Nat
  | 0, x => x % 65536
  | n + 1, x => if x < 65536 then x else fold16 n (x % 65536 + x / 65536)

/-- The ones-complement checksum of a sum. -/
def checksum16 (x : Nat) : Nat := 65535 - fold16 8 x

/-- Bytes of an IP address as it stands in a header. -/
def addrBytes (a : BitVec 128) : List Byte :=
  if isV4 a then beBytes 4 (a.extractLsb' 0 32).toNat else beBytes 16 a.toNat

/-- The checksum of a UDP datagram between two addresses; never sent as zero. -/
def udpSum (src dst : BitVec 128) (udp : List Byte) : Nat :=
  checksum16 (sum16 (addrBytes src) + sum16 (addrBytes dst) + 17 + udp.length + sum16 udp)

/-- What goes on the wire for a UDP checksum. -/
def udpSumSent (src dst : BitVec 128) (udp : List Byte) : Nat :=
  let x := udpSum src dst udp
  if x = 0 then 65535 else x

/-! Headers (R188, R298). -/

/-- PORT_DSCP and PORT_MAC fields of a port. -/
def dscpOf (s : State) (n c : Nat) : Nat := bits (reg s (portReg n 0x48)) (8 * c) 6
def vlanOn (s : State) (n : Nat) : Bool := (reg s (portMacReg n)).getLsbD 29
def vlanId (s : State) (n : Nat) : Nat := bits (reg s (portMacReg n)) 16 12
def maxFrm (s : State) (n : Nat) : Nat := max 1518 (min 9216 (bits (reg s (portMacReg n)) 32 16))

/-- The port's own address (R318). -/
def portMac (s : State) (n : Nat) : Nat := bits (reg s (portReg n 0)) 0 48

/-- R298: the VLAN tag that a port adds. -/
def vlanTag (s : State) (n cls : Nat) : List Byte :=
  if vlanOn s n then beBytes 2 0x8100 ++ beBytes 2 (cls * 8192 + vlanId s n) else []

/-- The UDP datagram of a transport packet. -/
def udpBytes (s : State) (src dst : BitVec 128) (sport : BitVec 16) (body : List Byte) : List Byte :=
  let head (c : Nat) : List Byte :=
    beBytes 2 sport.toNat ++ beBytes 2 (bits (reg s xptUdp) 0 16) ++ beBytes 2 (8 + body.length) ++
      beBytes 2 c
  head (udpSumSent src dst (head 0 ++ body)) ++ body

/-- XPT_UDP.HOPLIM, where 0 acts as 64. -/
def hopLimit (s : State) : Nat :=
  let h := bits (reg s xptUdp) 16 8
  if h = 0 then 64 else h

/-- The IP header of a transport packet; the IPv4 identification is not stated, and free (log entry
4). -/
def ipBytes (s : State) (n cls ident : Nat) (src dst : BitVec 128) (sport : BitVec 16) (len : Nat) :
    List Byte :=
  let hop := hopLimit s
  let dscp := dscpOf s n cls
  if isV4 dst then
    let head (c : Nat) : List Byte :=
      [0x45, BitVec.ofNat 8 (4 * dscp)] ++ beBytes 2 (20 + len) ++ beBytes 2 ident ++
        beBytes 2 0x4000 ++ [BitVec.ofNat 8 hop, 17] ++ beBytes 2 c ++ addrBytes src ++ addrBytes dst
    head (checksum16 (sum16 (head 0)))
  else
    beBytes 4 (0x60000000 + dscp * 2 ^ 22 + sport.toNat) ++ beBytes 2 len ++
      [17, BitVec.ofNat 8 hop] ++ addrBytes src ++ addrBytes dst

/-- A whole frame without its FCS, from its destination MAC on. -/
def packetFrame (s : State) (n cls ident : Nat) (x : TxPkt) (body : List Byte) : List Byte :=
  let udp := udpBytes s x.src x.dst x.sport body
  beBytes 6 x.nhmac.toNat ++ beBytes 6 (portMac s n) ++ vlanTag s n cls ++
    beBytes 2 (if isV4 x.dst then 0x0800 else 0x86DD) ++
    ipBytes s n cls ident x.src x.dst x.sport udp.length ++ udp

/-- A raw frame with the tag that the port adds. -/
def rawFrame (s : State) (n cls : Nat) (bs : List Byte) : List Byte :=
  bs.take 12 ++ vlanTag s n cls ++ bs.drop 12

/-- R298: a frame without the VLAN tag it came with. -/
def untag (bs : List Byte) : List Byte :=
  if beField bs 12 2 = 0x8100 then bs.take 12 ++ bs.drop 16 else bs

/-! Reading a frame (R301, R302). -/

/-- What the classifier finds in a frame: its EtherType after any tag, the TCI, and what follows. -/
structure EthView where
  dst : Nat
  tagged : Bool
  tci : Nat
  etype : Nat
  body : List Byte
  deriving DecidableEq, Repr

/-- The Ethernet header. -/
def ethView (bs : List Byte) : EthView :=
  let t := beField bs 12 2
  if t = 0x8100 then
    { dst := beField bs 0 6, tagged := true, tci := beField bs 14 2, etype := beField bs 16 2
      body := bs.drop 18 }
  else
    { dst := beField bs 0 6, tagged := false, tci := 0, etype := t, body := bs.drop 14 }

/-- Put bytes over others at an offset. -/
def overlay (bs : List Byte) (off : Nat) (new : List Byte) : List Byte :=
  bs.take off ++ new ++ bs.drop (off + new.length)

/-- R298: an IP packet carries in its DSCP field what PORT_DSCP gives for its class; set as the frame
enters the transmit buffer (log entry 71). -/
def setDscp (s : State) (n cls : Nat) (bs : List Byte) : List Byte :=
  let e := ethView bs
  let off := bs.length - e.body.length
  let w := beField e.body 0 2
  if e.etype = 0x0800 then
    overlay bs off (beBytes 2 (w / 256 * 256 + 4 * dscpOf s n cls + w % 4))
  else if e.etype = 0x86DD then
    overlay bs off (beBytes 2 (w / 4096 * 4096 + 64 * dscpOf s n cls + w % 64))
  else bs

/-- What the classifier finds of an IP packet: its addresses, protocol, payload and flags of R302. -/
structure IpView where
  src : BitVec 128
  dst : BitVec 128
  proto : Nat
  data : List Byte
  ipcsum : Bool
  l4csum : Bool
  frag : Bool
  hdr : Bool
  opts : Bool
  deriving DecidableEq, Repr

/-- An IPv4 address within the form of `State`. -/
def v4 (x : Nat) : BitVec 128 := (0xFFFF#96) ++ (BitVec.ofNat 32 x)

/-- R302: an IPv4 packet; `dport` is XPT_UDP.DPORT. Each flag is found on its own, over the bytes that
the frame has (log entry 71). -/
def ipv4View (dport : Nat) (bs : List Byte) : IpView :=
  let ihl := beField bs 0 1 % 16
  let len := beField bs 2 2
  let bad := beField bs 0 1 / 16 != 4 || decide (ihl < 5 ∨ bs.length < len)
  let src := v4 (beField bs 12 4)
  let dst := v4 (beField bs 16 4)
  let data := (bs.take len).drop (4 * ihl)
  let proto := beField bs 9 1
  let frag := decide (beField bs 6 2 % 16384 ≠ 0)
  let udp := data.take (beField data 4 2)
  { src := src, dst := dst, proto := proto, data := data
    ipcsum := checksum16 (sum16 (bs.take (4 * ihl))) != 0
    l4csum := !frag && proto == 17 && beField data 6 2 != 0 && udpSum src dst udp != 0
    frag := frag, hdr := bad
    opts := decide (5 < ihl) && proto == 17 && beField data 2 2 == dport }

/-- R302: an IPv6 packet. Extension headers are not read. -/
def ipv6View (bs : List Byte) : IpView :=
  let len := beField bs 4 2
  let bad := beField bs 0 1 / 16 != 6 || decide (bs.length < 40 + len)
  let src : BitVec 128 := BitVec.ofNat 128 (beField bs 8 16)
  let dst : BitVec 128 := BitVec.ofNat 128 (beField bs 24 16)
  let data := (bs.drop 40).take len
  let proto := beField bs 6 1
  let udp := data.take (beField data 4 2)
  { src := src, dst := dst, proto := proto, data := data, ipcsum := false
    l4csum := proto == 17 && (beField data 6 2 == 0 || udpSum src dst udp != 0)
    frag := false, hdr := bad, opts := false }

/-- The flags of R303's eflags. -/
def eflags (v : IpView) : Nat :=
  flagBit v.ipcsum 0 + flagBit v.l4csum 1 + flagBit v.frag 2 + flagBit v.hdr 3 + flagBit v.opts 4

/-! LLDP (R314). The TLVs are those of IEEE 802.1AB and IEEE 802.3, which the spec names and does not
lay out (log entry 26). -/

/-- A TLV. -/
def lldpTlv (typ : Nat) (v : List Byte) : List Byte := beBytes 2 (typ * 512 + v.length) ++ v

/-- The EEE TLV's fixed part: OUI 00-12-0F, subtype 5. -/
def eeeHead : List Byte := [0x00, 0x12, 0x0F, 0x05]

/-- An LLDPDU with the EEE TLV: the transmit and receive wake times of this side. -/
def lldpFrame (mac txtw rxtw echoTx echoRx : Nat) : List Byte :=
  beBytes 6 0x0180C200000E ++ beBytes 6 mac ++ beBytes 2 0x88CC ++
    lldpTlv 1 (4 :: beBytes 6 mac) ++ lldpTlv 2 (3 :: beBytes 6 mac) ++ lldpTlv 3 (beBytes 2 120) ++
    lldpTlv 127 (eeeHead ++ beBytes 2 txtw ++ beBytes 2 rxtw ++ beBytes 2 rxtw ++ beBytes 2 echoTx ++
      beBytes 2 echoRx) ++ lldpTlv 0 []

/-- The partner's Receive Tw in an LLDPDU, if it carries the EEE TLV; `n` bounds the TLVs. -/
def eeeRxtw : Nat → List Byte → Option Nat
  | 0, _ => none
  | n + 1, bs =>
    let h := beField bs 0 2
    let len := h % 512
    let v := (bs.drop 2).take len
    if bs.length < 2 ∨ h / 512 = 0 then none
    else if h / 512 = 127 ∧ v.take 4 = eeeHead ∧ 8 ≤ len then some (beField v 6 2)
    else eeeRxtw n (bs.drop (2 + len))

end Sys2Proof.Machine
end

