-- ==== Sys2Proof/Machine/PortTx.lean ====
section
/-! DEFINITION. Ports: the link, the classes and gates, and what is sent (R290 to R300, R305 to R317). -/

namespace Sys2Proof.Machine

/-! The link. -/

/-- A port runs: the reference clock is there and the dies have power (R21, R479). -/
def portRuns (s : State) : Bool := powered s && s.supply.refclk156

/-- Post an event of a port (R316). -/
def portEvent (s : State) (n code d0 d1 : Nat) : State :=
  post s (eqOf 0) code n (BitVec.ofNat 64 d0) (BitVec.ofNat 64 d1)

/-- R292, R300: the frames of a port's transmit buffer, and a raw frame that waits for room, are
discarded and counted; the sources that wait have room. -/
def portDiscard (s : State) (n : Nat) : State :=
  let p := portOf s n
  modPort (portCount s n 18 (p.txq.length + (if p.rawGo then 1 else 0))) n fun p =>
    refill (tc7On s n) { p with txq := [], deficits := [], rawGo := false }

/-- R292, R317: the link goes down; waiting frames are discarded. -/
def portDown (s : State) (n reason : Nat) : State :=
  let s1 := portDiscard s n
  if !(portOf s n).link then s1
  else
    let s2 := modPort s1 n fun p => { p with
      link := false, actMode := 0, lpiTx := false, lpiRx := false, wakeAt := none }
    portEvent (portCount s2 n 22 1) n 0x31 reason (portTime s n)

/-- PORT_MODE_WRITE (R290, R292): the fields are stored, a reserved mode as 0, and the link goes down. -/
def execPortModeWrite (n : Nat) (v : Word) (s : State) : Res :=
  .next (if !bar0 s ∨ 8 ≤ n then s
    else
      let m := if 7 < bits v 0 4 then 0 else bits v 0 4
      let w := setBits (v &&& BitVec.ofNat 64 (fieldMask 31 16 + fieldMask 9 8)) 0 4 m
      portDown (setReg s (portReg n 8) w) n 1)

/-- PORT_LINK_UP (R316): a port with a mode trains. -/
def execPortLinkUp (n : Nat) (s : State) : Res :=
  .next (if (portOf s n).link ∨ portMode s n = 0 ∨ !portRuns s ∨ s.err.fatal ∨ 8 ≤ n then s
    else
      let s1 := modPort s n fun p => { p with
        link := true, actMode := portMode s n, idleSince := portTime s n }
      portEvent s1 n 0x30 (portMode s n) (portTime s n))

/-- PORT_LINK_DOWN (R316): loss of lock. -/
def execPortLinkDown (n : Nat) (s : State) : Res :=
  .next (if (portOf s n).link then portDown s n 0 else s)

/-! Gates (R307, R308). -/

/-- The gate of class 7, or of the classes 0 to 6, in an entry. -/
def entryOpen (seven : Bool) (e : GclEntry) : Bool := if seven then e.open7 else !e.excl

/-- Ticks from the start of a list until its gate closes. -/
def openRun (seven : Bool) (es : List GclEntry) : Nat :=
  ((es.takeWhile (entryOpen seven)).map GclEntry.interval).foldl (· + ·) 0

/-- The list from entry `i` on, once around. -/
def rotated (es : List GclEntry) (i : Nat) : List GclEntry := es.drop i ++ es.take i

/-- The gate never closes. -/
def alwaysOpen (p : Port) (seven : Bool) : Bool := p.gclOper.all (entryOpen seven)

/-- Ticks until the gate closes; 0 while it is closed. -/
def openFor (p : Port) (seven : Bool) (now : Nat) : Nat :=
  match rotated p.gclOper p.gclCur with
  | [] => 0
  | e :: es =>
    if entryOpen seven e ∧ now < p.gclEnd then p.gclEnd - now + openRun seven es else 0

/-- The longest run of consecutive open entries. -/
def longestRun (p : Port) (seven : Bool) : Nat :=
  ((List.range p.gclOper.length).map fun i => openRun seven (rotated p.gclOper i)).foldl max 0

/-- R308: ticks that a frame takes on the wire. -/
def frameTicks (mode size : Nat) : Nat :=
  let den := lineRate mode * 64
  ((size + 20) * 8 * 10000 + den - 1) / den

/-- A frame ends before its gate closes. -/
def gateAllows (p : Port) (now : Nat) (f : TxFrame) : Bool :=
  alwaysOpen p (f.cls == 7) ||
    decide (frameTicks p.actMode f.size ≤ openFor p (f.cls == 7) now)

/-- A frame that fits no run of open entries. -/
def fitsNoRun (p : Port) (f : TxFrame) : Bool :=
  !alwaysOpen p (f.cls == 7) &&
    decide (longestRun p (f.cls == 7) < frameTicks p.actMode f.size)

/-! The choice of a frame (R305, R306). -/

/-- R243: the pacing of a controlled queue pair allows its next packet on the wire. -/
def wirePaced (s : State) (n k : Nat) : Bool :=
  let q := qp s k
  !controlled s q || q.rate == 0 || decide (q.wireAt ≤ portTime s n)

/-- The frame waits for nothing but its turn: the partner has acknowledged what it must (R417), its
queue pair's pacing allows it (R243), and a tagged packet has its key and a new tick (R321). -/
def frameReady (s : State) (n : Nat) (f : TxFrame) : Bool :=
  holdOver s f.hold && (match f.body with
    | .raw _ => true
    | .pkt x => wirePaced s n x.qp && (!x.tagged || ((qpSlot x.qp (qp s x.qp)).any fun i => (keySlot s i).tx.isSome) &&
        decide ((qp s x.qp).lastTagged ≤ portTime s n)))

/-- The frames of a class that are ready, answers first. -/
def classFrames (s : State) (n c : Nat) : List TxFrame :=
  let fs := (portOf s n).txq.filter fun f => f.cls == c && frameReady s n f
  fs.filter TxFrame.ctl ++ fs.filter fun f => !f.ctl

/-- The first frame of a class. -/
def classHead (s : State) (n c : Nat) : Option TxFrame := (classFrames s n c).head?

/-- PORT_DWRR weight of a class; 0 acts as 1. -/
def classWeight (s : State) (n c : Nat) : Nat := max 1 (bits (reg s (portReg n 0x50)) (8 * c) 8)

/-- Key under which a port's deficits hold what class 6 owes for control frames sent ahead (R306). -/
def debtKey : Nat := 7

/-- A round begins: a class with a frame waiting gains its quantum, another loses its deficit. -/
def dwrrRound (s : State) (n : Nat) : State :=
  let grant (d : Table Nat) (c : Nat) : Table Nat :=
    if (portOf s n).txq.any fun f => f.cls == c then
      let q := 512 * classWeight s n c
      let debt := if c = 6 then tget 0 d debtKey else 0
      let d1 := if c = 6 then tset 0 d debtKey (debt - q) else d
      tset 0 d1 c (tget 0 d1 c + (q - debt))
    else tset 0 d c 0
  modPort s n fun p => { p with deficits := (List.range 7).foldl grant p.deficits }

/-- The first of the classes 0 to 6 whose frame fits its deficit and its gate. -/
def dwrrPick (s : State) (n : Nat) : Option TxFrame :=
  let p := portOf s n
  (List.range 7).findSome? fun c => match classHead s n c with
    | some f => if f.size ≤ tget 0 p.deficits c ∧ gateAllows p (portTime s n) f then some f else none
    | none => none

/-- Some class's frame may go once its deficit allows. -/
def dwrrWaiting (s : State) (n : Nat) : Bool :=
  (List.range 7).any fun c => (classHead s n c).any fun f => gateAllows (portOf s n) (portTime s n) f

/-- R305: choose by deficits; at most `k` rounds begin. -/
def dwrrChoose (s : State) (n : Nat) : Nat → Option TxFrame × State
  | 0 => (none, s)
  | k + 1 =>
    match dwrrPick s n with
    | some f => (some f, modPort s n fun p => { p with
        deficits := tset 0 p.deficits f.cls (tget 0 p.deficits f.cls - f.size) })
    | none => if dwrrWaiting s n then dwrrChoose (dwrrRound s n) n k else (none, s)

/-- A control frame of Bushel that goes ahead, and its charge to class 6 (R306). -/
def aheadFrame (s : State) (n : Nat) : Option TxFrame :=
  (portOf s n).txq.find? fun f => f.ahead && f.cls != 7 && frameReady s n f &&
    gateAllows (portOf s n) (portTime s n) f

/-- Charge class 6. -/
def chargeSix (s : State) (n size : Nat) : State :=
  modPort s n fun p =>
    let d := tget 0 p.deficits 6
    let d1 := tset 0 p.deficits 6 (d - size)
    { p with deficits := tset 0 d1 debtKey (tget 0 d1 debtKey + (size - d)) }

/-- The frame that starts now: class 7 first, then what goes ahead, then by deficits. -/
def chooseFrame (s : State) (n : Nat) : Option TxFrame × State :=
  match (classHead s n 7).filter (gateAllows (portOf s n) (portTime s n)) with
  | some f => (some f, s)
  | none =>
    match aheadFrame s n with
    | some f => (some f, chargeSix s n f.size)
    | none => dwrrChoose s n 64

/-! Transmission. -/

/-- INT_STAT.TAGGED counts packets tagged in units of 2^16 (R332). -/
def countTagged (s : State) : State :=
  if s.tagged + 1 < 65536 then { s with tagged := s.tagged + 1 }
  else bump { s with tagged := 0 } intStat 32 32 1

/-- The transport packet as it leaves (R190, R321, R323): its ts, and its tag where it has one. -/
def stampPacket (s : State) (n : Nat) (x : TxPkt) : List Byte × State :=
  let now := portTime s n
  let ts : BitVec 32 := BitVec.ofNat 32 now
  let aad := x.pth.take 12 ++ beBytes 4 ts.toNat ++ x.pth.drop 16 ++ x.payload
  match (if x.tagged then qpSlot x.qp (qp s x.qp) else none) with
  | none => (aad, s)
  | some i =>
    let y := keySlot s i
    let hi : BitVec 32 := BitVec.ofNat 32 (now / 2 ^ 32)
    let base := y.txBase.getD hi
    let tag := (y.tx.map fun key => tagBytes key (qpNum x.qp) (hi - base) ts aad).getD []
    (aad ++ tag, modQp (setSlot (countTagged s) i { y with txBase := some base, txUsed := true }) x.qp
      fun q => { q with lastTagged := now + 1 })

/-- The bytes of a frame on the wire. -/
def frameBytes (s : State) (n : Nat) (f : TxFrame) : List Byte × State :=
  match f.body with
  | .raw bs => (rawFrame s n f.cls bs, s)
  | .pkt x =>
    let r := stampPacket s n x
    let i := takeFree r.2
    (packetFrame s n f.cls (bits i.1 0 16) x r.1, i.2)

/-- R243: a packet of a controlled queue pair starts on the wire: the next waits for its length at the
rate R. -/
def paceWire (s : State) (n : Nat) (f : TxFrame) : State :=
  match f.body with
  | .raw _ => s
  | .pkt x =>
    let q := qp s x.qp
    if controlled s q ∧ q.rate ≠ 0 then
      modQp s x.qp fun q => { q with wireAt := portTime s n + (f.size * 1250 + q.rate - 1) / q.rate }
    else s

/-- A frame starts on the wire and is counted (R295, R319). -/
def startFrame (s : State) (n : Nat) (f : TxFrame) : State :=
  let r := frameBytes (paceWire s n f) n f
  let stop := portTime s n + frameTicks (portOf s n).actMode f.size
  let s1 := modPort r.2 n fun p => { p with
    txq := p.txq.erase f, wire := r.1, busyUntil := stop, idleSince := stop, wakeAt := none }
  portCount (portCount (portCount s1 n 2 1) n 3 f.size) n (23 + f.cls) 1

/-! The raw window (R300). -/

/-- PORT_TXRAW of a port. -/
def txrawReg (n : Nat) : Nat := portReg n 0x40

/-- R299: the IPv4 header checksum of a frame that is to have it. -/
def fillIpSum (bs : List Byte) : List Byte :=
  let e := ethView bs
  if e.etype = 0x0800 then
    let off := bs.length - e.body.length
    let head := (overlay e.body 10 [0, 0]).take (4 * (beField e.body 0 1 % 16))
    overlay bs (off + 10) (beBytes 2 (checksum16 (sum16 head)))
  else bs

/-- R299: the UDP checksum of a frame that is a UDP datagram. -/
def fillUdpSum (dport : Nat) (bs : List Byte) : List Byte :=
  let e := ethView bs
  let v := if e.etype = 0x0800 then some (ipv4View dport e.body)
    else if e.etype = 0x86DD then some (ipv6View e.body) else none
  match v with
  | some v =>
    if v.proto = 17 ∧ !v.hdr ∧ !v.frag then
      let off := bs.length - e.body.length +
        (if e.etype = 0x0800 then 4 * (beField e.body 0 1 % 16) else 40)
      let udp := overlay (v.data.take (beField v.data 4 2)) 6 [0, 0]
      overlay bs (off + 6) (beBytes 2 (udpSumSent v.src v.dst udp))
    else bs
  | none => bs

/-- The frame in the window: untagged, padded, with its DSCP and the checksums asked for (R298 to
R300). -/
def windowFrame (s : State) (n : Nat) : List Byte :=
  let w := reg s (txrawReg n)
  let len := bits w 0 14
  let bs := untag ((List.range len).map fun i => tget 0 (portOf s n).rawWin i)
  let bs := setDscp s n (bits w 20 3) (bs ++ List.replicate (60 - bs.length) 0)
  let bs := if w.getLsbD 17 then fillUdpSum (bits (reg s xptUdp) 0 16) bs else bs
  if w.getLsbD 16 then fillIpSum bs else bs

/-- A frame that is no transport packet, as it waits in the transmit buffer. -/
def rawTx (s : State) (n cls : Nat) (bs : List Byte) : TxFrame :=
  { hold := some 0, cls := cls, ctl := false, ahead := false
    size := bs.length + 4 + (if vlanOn s n then 4 else 0), body := .raw (setDscp s n cls bs) }

/-- GO: the window's frame goes into the transmit buffer, is discarded, or waits for room. -/
def goRaw (s : State) (n : Nat) : State :=
  let w := reg s (txrawReg n)
  let len := bits w 0 14
  let off (s : State) : State := modPort s n fun p => { p with rawGo := false }
  if len < 14 ∨ maxFrm s n - 4 < len then off s
  else if !(portOf s n).link then off (portCount s n 18 1)
  else
    let f := rawTx s n (bits w 20 3) (windowFrame s n)
    if halfFits (portOf s n) f.cls f.size then
      modPort s n fun p => { p with rawGo := false, txq := p.txq ++ [f] }
    else modPort s n fun p => { p with rawGo := true }

/-- R305: a class with no frame waiting has no deficit. -/
def clearIdle (p : Port) : Port :=
  { p with deficits := (List.range 7).foldl (fun d c =>
      if p.txq.any fun f => f.cls == c then d else tset 0 d c 0) p.deficits }

/-- R295, R300: room has come about in a port's transmit half: the sources that wait go on, and the raw
window. -/
def afterRoom (s : State) (n : Nat) : State :=
  let s1 := modPort s n fun p => refill (tc7On s n) (clearIdle p)
  if (portOf s1 n).rawGo then goRaw s1 n else s1

/-- RAW_TRANSMIT (R300): PORT_TXRAW is written with GO set. -/
def execRawTransmit (n : Nat) (v : Word) (s : State) : Res :=
  .next (if !bar0 s ∨ 8 ≤ n ∨ (portOf s n).rawGo then s
    else
      let m := BitVec.ofNat 64 (fieldMask 22 20 + fieldMask 17 16 + fieldMask 13 0)
      goRaw (setReg s (txrawReg n) (v &&& m)) n)

/-- The port may start a frame: its link is up and awake, and the last frame has ended. -/
def mayTransmit (s : State) (n : Nat) : Bool :=
  let p := portOf s n
  p.link && portRuns s && !s.err.fatal && !s.twin.fenced && !p.lpiTx &&
    decide (p.busyUntil ≤ portTime s n) && decide (p.wakeAt.getD 0 ≤ portTime s n)

/-- FRAME_TRANSMIT (R305 to R308): a frame that fits no window is dropped; else the one chosen
starts. -/
def execFrameTransmit (n : Nat) (s : State) : Res :=
  .next (if !mayTransmit s n then s
    else
      let p := portOf s n
      match p.txq.find? fun f => fitsNoRun p f with
      | some f =>
        portCount (afterRoom (modPort s n fun p => { p with
          txq := p.txq.erase f, idleSince := portTime s n }) n) n 19 1
      | none =>
        let c := chooseFrame s n
        match c.1 with
        | none => c.2
        | some f => afterRoom (startFrame c.2 n f) n)

/-! Gate lists (R307, R309, R310). -/

/-- Registers of a port's gate list. -/
def gclCtl (n : Nat) : Nat := portReg n 0x100
def gclCycle (n : Nat) : Nat := portReg n 0x108
def gclBase (n : Nat) : Nat := portReg n 0x110

/-- The admin list. -/
def adminList (s : State) (n : Nat) : List GclEntry :=
  (List.range (bits (reg s (gclCtl n)) 0 7)).map fun i =>
    let w := reg s (portReg n (0x200 + 8 * i))
    { open7 := w.getLsbD 31, excl := w.getLsbD 30, interval := bits w 0 21 }

/-- R309: the admin list is valid. -/
def adminValid (s : State) (n : Nat) : Bool :=
  let len := bits (reg s (gclCtl n)) 0 7
  let es := adminList s n
  let cycle := bits (reg s (gclCycle n)) 0 21
  decide (len ≤ 64) && es.all (fun e => decide (16 ≤ e.interval ∧ e.interval ≤ 1562500)) &&
    (len == 0 || (decide (157 ≤ cycle ∧ cycle ≤ 1562500) &&
      (es.map GclEntry.interval).foldl (· + ·) 0 == cycle))

/-- R309: the switch time without SYNC. -/
def switchTime (now base cycle : Nat) : Nat :=
  if now + 64 ≤ base then base
  else if cycle = 0 then now + 64
  else base + (now + 64 - base + cycle - 1) / cycle * cycle

/-- GCL_CHANGE (R309, R310): PORT_GCL_CTL is written with CHANGE set. -/
def execGclChange (n : Nat) (v : Word) (s : State) : Res :=
  .next (if !bar0 s ∨ 8 ≤ n ∨ (portOf s n).gclSwitch.isSome then s
    else
      let s1 := setReg s (gclCtl n) (v &&& BitVec.ofNat 64 (fieldMask 16 16 + fieldMask 6 0))
      if !adminValid s1 n then
        portEvent (modPort s1 n fun p => { p with gclErr := true }) n 0x33 0 0
      else if v.getLsbD 16 then
        modPort s1 n fun p => { p with
          gclErr := false, gclSwitch := some none, syncArm := true, syncValid := false }
      else
        let t := switchTime (portTime s n) (reg s (gclBase n)).toNat (bits (reg s (gclCycle n)) 0 21)
        modPort s1 n fun p => { p with gclErr := false, gclSwitch := some (some t) })

/-- GCL_ABORT (R309): PORT_GCL_CTL is written with ABORT set: a pending switch is cancelled, and with
none pending the fields are stored. -/
def execGclAbort (n : Nat) (v : Word) (s : State) : Res :=
  .next (if !bar0 s ∨ 8 ≤ n then s
    else if (portOf s n).gclSwitch.isSome then modPort s n fun p => { p with gclSwitch := none }
    else setReg s (gclCtl n) (v &&& BitVec.ofNat 64 (fieldMask 16 16 + fieldMask 6 0)))

/-- GCL_SWITCH (R309, R317): the switch time has come, whatever the link does. -/
def execGclSwitch (n : Nat) (s : State) : Res :=
  .next (match (portOf s n).gclSwitch with
    | some (some t) =>
      if portTime s n < t ∨ !powered s then s
      else
        let es := adminList s n
        let s1 := modPort s n fun p => { p with
          gclOper := es, gclCur := 0, gclEnd := t + (es.head?.map GclEntry.interval).getD 0
          gclSwitch := none, gclSwt := t }
        portEvent s1 n 0x32 t es.length
    | _ => s)

/-- GCL_ENTRY_ADVANCE (R307): the entry's interval is over. -/
def execGclEntryAdvance (n : Nat) (s : State) : Res :=
  let p := portOf s n
  .next (if p.gclOper.isEmpty ∨ portTime s n < p.gclEnd ∨ !powered s then s
    else
      let i := (p.gclCur + 1) % p.gclOper.length
      modPort s n fun p => { p with
        gclCur := i, gclEnd := p.gclEnd + (p.gclOper[i]?.map GclEntry.interval).getD 0 })

/-- SYNC_ARM (R22, R318): PORT_SYNC.ARM. -/
def execSyncArm (n : Nat) (s : State) : Res :=
  .next (if !bar0 s ∨ 8 ≤ n then s
    else modPort s n fun p => { p with syncArm := true, syncValid := false })

/-- R22, R310, R480: an armed port captures its counter; the synchroniser takes two ticks, or three
(the free value). -/
def captureSync (s : State) (n : Nat) : State :=
  if !(portOf s n).syncArm then s
  else
    let r := takeFree s
    let cap := portTime s n + 2 + (if r.1.getLsbD 0 then 1 else 0)
    let base := (reg s (gclBase n)).toNat
    modPort r.2 n fun p => { p with
      syncArm := false, syncValid := true, syncCap := cap
      gclSwitch := if p.gclSwitch = some none then some (some (cap + max 64 base)) else p.gclSwitch }

/-- SYNC_IN_EDGE (R480): a rising edge of SYNC_IN. -/
def execSyncInEdge (s : State) : Res :=
  .next (if !portRuns s then s else (List.range 8).foldl captureSync s)

end Sys2Proof.Machine
end

