-- ==== Sys2Proof/Machine/PortRx.lean ====
section
/-! DEFINITION. Ports: what is received, low-power idle and the LLDP agent (R301 to R304, R312 to
R315). -/

namespace Sys2Proof.Machine

/-! The raw path (R303, R304). -/

/-- PORT_RXCQ and PORT_RXBASE of a port. -/
def rxcqReg (n : Nat) : Nat := portReg n 0x28
def rxbaseReg (n : Nat) : Nat := portReg n 0x30

/-- LOG2N and CQ. -/
def rxLog2n (s : State) (n : Nat) : Nat := bits (reg s (rxcqReg n)) 16 4
def rxCq (s : State) (n : Nat) : Nat := bits (reg s (rxcqReg n)) 0 16

/-- EN as it reads. -/
def rxEnabled (s : State) (n : Nat) : Bool :=
  (reg s (rxcqReg n)).getLsbD 32 && decide (4 ≤ rxLog2n s n ∧ rxLog2n s n ≤ 12)

/-- R304: the raw path has a slot and a completion entry for one more frame. -/
def rawRoom (s : State) (n : Nat) : Bool :=
  let p := portOf s n
  let x := ring s (rxCq s n)
  rxEnabled s n && decide (p.delivered - p.rel < 2 ^ rxLog2n s n) && x.typ == 2 && x.part == 0 &&
    x.state == .run && !cqBlocked s (rxCq s n)

/-- The entry of a delivered frame (R303). -/
def rawCqe (k n len flags etype tci ts : Nat) : List Byte :=
  leBytes 8 k ++ [if flags = 0 then 0 else 0x02, 0] ++ leBytes 2 (0x01F8 + n) ++ leBytes 4 len ++
    leBytes 2 flags ++ leBytes 2 etype ++ leBytes 2 tci ++ [0, 0] ++ leBytes 8 ts

/-- Deliver a frame on the raw path, or count it in RX_RAWFULL. -/
def rawDeliver (s : State) (n : Nat) (bs : List Byte) (flags : Nat) : State :=
  if !rawRoom s n then portCount s n 13 1
  else
    let p := portOf s n
    let c := rxCq s n
    let va := bits (reg s (rxbaseReg n)) 14 43 * 16384 + 16384 * (p.delivered % 2 ^ rxLog2n s n)
    let w := writeVa s .fabric fabricUnit 0 (ring s c).ctx va bs
    match w.1 with
    | .error _ => portCount w.2 n 13 1
    | .ok _ =>
      let e := ethView bs
      let s1 := cqTake w.2 c
        { ring := 0x01F8 + n, counts := false, write := true
          bytes := rawCqe p.delivered n bs.length flags e.etype e.tci (portTime s n) }
      portCount (modPort s1 n fun p => { p with delivered := p.delivered + 1 }) n 14 1

/-- RXCQ_ENABLE (R304): PORT_RXCQ is written with EN set: the delivered count restarts. -/
def execRxcqEnable (n : Nat) (v : Word) (s : State) : Res :=
  .next (if !bar0 s ∨ 8 ≤ n then s
    else
      let m := BitVec.ofNat 64 (fieldMask 32 32 + fieldMask 19 0)
      modPort (setReg s (rxcqReg n) (v &&& m)) n fun p => { p with delivered := 0, rel := 0 })

/-! Arrival (R301, R302). -/

/-- The MAC filter of step 3. -/
def macAccepts (s : State) (n : Nat) (e : EthView) : Bool :=
  let w := reg s (portMacReg n)
  if w.getLsbD 0 then true
  else if e.dst = 2 ^ 48 - 1 then w.getLsbD 1
  else if e.dst / 2 ^ 40 % 2 = 1 then w.getLsbD 2
  else e.dst == portMac s n

/-- The VLAN filter of step 4. -/
def vlanAccepts (s : State) (n : Nat) (e : EthView) : Bool :=
  let vid := e.tci % 4096
  !e.tagged || vid == 0 || (vlanOn s n && vid == vlanId s n)

/-- The IP packet of a frame. -/
def ipOf (s : State) (e : EthView) : Option IpView :=
  if e.etype = 0x0800 then some (ipv4View (bits (reg s xptUdp) 0 16) e.body)
  else if e.etype = 0x86DD then some (ipv6View e.body) else none

/-- The PORT_CLS bit that lets a frame onto the raw path (step 8). -/
def clsBit (e : EthView) (v : Option IpView) : Nat :=
  if e.etype = 0x0806 then 0
  else if e.etype = 0x88CC then 2
  else match v with
    | some v => if e.etype = 0x86DD ∧ v.proto = 58 then 1 else 3
    | none => 4

/-- PORT_CLS of a port. -/
def clsOn (s : State) (n b : Nat) : Bool := (reg s (portReg n 0x20)).getLsbD b

/-- R189, steps 1 and 2: a datagram for the transport. -/
def toTransport (s : State) (n : Nat) (v : IpView) : State :=
  let p : Packet :=
    { port := n, src := v.src, dst := v.dst, bytes := (v.data.take (beField v.data 4 2)).drop 8 }
  if (targetPart s p).isNone then bump s xptDrop 48 16 1
  else if (parsePth p.bytes).isNone then bump s xptDrop 0 16 1
  else { s with arrived := s.arrived ++ [{ p with time := portTime s n, bad := false }] }

/-- R267, R296: Bushel sees the bytes of a BSH_DATA frame before its FCS fails. -/
def cutThrough (s : State) (n : Nat) (e : EthView) : State :=
  match (ipOf s e).filter fun v => eflags v == 0 && v.proto == 17 &&
      beField v.data 2 2 == bits (reg s xptUdp) 0 16 with
  | none => s
  | some v =>
    let p : Packet :=
      { port := n, src := v.src, dst := v.dst, bytes := (v.data.take (beField v.data 4 2)).drop 8 }
    if (targetPart s p).isSome ∧ (parsePth p.bytes).any (fun x => x.1.op == 0x30) then
      { s with arrived := s.arrived ++ [{ p with time := portTime s n, bad := true }] }
    else s

/-- PORT_LPI of a port (R318). -/
def lpiReg (n : Nat) : Nat := portReg n 0x58

/-- R314: the agent takes a partner's EEE TLV. -/
def lldpTake (s : State) (n : Nat) (e : EthView) : State :=
  if e.etype = 0x88CC ∧ (reg s (lpiReg n)).getLsbD 3 ∧ inService s then
    match eeeRxtw 64 e.body with
    | some w => modPort s n fun p => { p with neg := true, tlvAt := portTime s n, partnerTw := w }
    | none => s
  else s

/-- Steps 6 to 9 of R301. -/
def classify (s : State) (n : Nat) (bs : List Byte) (e : EthView) : State :=
  let v := ipOf s e
  let flags := (v.map eflags).getD 0
  if flags ≠ 0 then
    let s1 := portCount s n (if flags % 4 = 0 then 11 else 10) 1
    if clsOn s n 5 then rawDeliver s1 n bs flags else s1
  else
    match v.filter fun v => v.proto == 17 && beField v.data 2 2 == bits (reg s xptUdp) 0 16 with
    | some u => toTransport s n u
    | none =>
      let s1 := lldpTake s n e
      if clsOn s n (clsBit e v) then rawDeliver s1 n bs 0 else portCount s1 n 12 1

/-- Bytes of a port's receive half that packets hold (R295; log entry 27). -/
def rxHeld (s : State) (n : Nat) : Nat :=
  ((s.arrived.filter fun p => p.port == n).map fun p => p.bytes.length).foldl (· + ·) 0

/-- FRAME_RECEIVE (R294, R301): a frame arrives on port `n`: its bytes without the FCS, whether its FCS
is bad, and what the FEC decoder corrected and could not correct. -/
def execFrameReceive (n : Nat) (bs : List Byte) (badFcs : Bool) (corr uncorr syms : Nat) (s : State) :
    Res :=
  .next (if !(portOf s n).link ∨ s.err.fatal ∨ 8 ≤ n then s
    else
      let s0 := portCount (portCount (portCount s n 15 corr) n 16 uncorr) n 17 syms
      let e := ethView bs
      if badFcs ∨ 0 < uncorr then
        let s1 := portCount s0 n 4 1
        if macAccepts s n e ∧ vlanAccepts s n e then cutThrough s1 n e else s1
      else if bs.length + 4 < 64 then portCount s0 n 5 1
      else if maxFrm s n < bs.length + 4 then portCount s0 n 6 1
      else if 1048576 < rxHeld s n + bs.length then portCount s0 n 7 1
      else if !macAccepts s n e ∨ !vlanAccepts s n e then portCount s0 n 8 1
      else if e.etype = 0x8808 then portCount s0 n 9 1
      else classify (portCount (portCount s0 n 0 1) n 1 (bs.length + 4)) n bs e)

/-! Low-power idle (R312 to R315). -/

/-- R312: low-power idle is allowed in the port's mode. -/
def lpiAllowed (s : State) (n : Nat) : Bool :=
  Config.lpiStd (portOf s n).actMode || (reg s (lpiReg n)).getLsbD 1

/-- The transmit side may enter LPI (R313, R315). -/
def lpiOn (s : State) (n : Nat) : Bool :=
  lpiAllowed s n && ((reg s (lpiReg n)).getLsbD 0 || s.sched.power == .doze)

/-- R314: the transmit wake time, in microseconds. -/
def txtwNow (s : State) (n : Nat) : Nat :=
  let p := portOf s n
  let w := reg s (lpiReg n)
  if w.getLsbD 3 ∧ p.neg then max 4 p.partnerTw
  else if w.getLsbD 1 then 4 else Config.lpiWake p.actMode

/-- LPI_ENTER (R313): nothing has waited for IDLE, or the port is in Doze. -/
def execLpiEnter (n : Nat) (s : State) : Res :=
  let p := portOf s n
  let idle := max 1 (bits (reg s (lpiReg n)) 8 8) * 1000
  .next (if p.link ∧ !p.lpiTx ∧ lpiOn s n ∧ p.txq.isEmpty ∧ portRuns s ∧ !s.err.fatal ∧
      p.idleSince + idle ≤ portTime s n then
    portCount (modPort s n fun p => { p with
      lpiTx := true, idleSince := portTime s n, wakeAt := none }) n 20 1
  else s)

/-- R319: LPI_TIME counts the ticks that pass in transmit LPI; of a port in LPI, `idleSince` is the time
up to which they are counted. -/
def lpiAccrue (s : State) (n : Nat) : State :=
  if (portOf s n).lpiTx then
    modPort (portCount s n 21 (portTime s n - (portOf s n).idleSince)) n fun p => { p with
      idleSince := portTime s n }
  else s

/-- The transmit side leaves LPI: a frame may start TXTW later. -/
def lpiLeave (s : State) (n : Nat) : State :=
  let w := txtwNow s n
  let at_ := portTime s n + usTicks w
  modPort s n fun p => { p with
    lpiTx := false, txtw := w, wakeAt := some at_, idleSince := at_ }

/-- LPI_WAKE (R313): a frame is queued. -/
def execLpiWake (n : Nat) (s : State) : Res :=
  let p := portOf s n
  .next (if p.lpiTx ∧ !p.txq.isEmpty ∧ portRuns s ∧ !s.err.fatal then lpiLeave s n else s)

/-- When each entry after the one in force begins. -/
def entryStarts (p : Port) : List (Nat × GclEntry) :=
  let es := (rotated p.gclOper ((p.gclCur + 1) % p.gclOper.length))
  (es.foldl (fun (a : Nat × List (Nat × GclEntry)) e => (a.1 + e.interval, a.2 ++ [(a.1, e)]))
    (p.gclEnd, [])).2

/-- PREWAKE (R315): an entry with OPEN7 begins within TXTW. -/
def execPrewake (n : Nat) (s : State) : Res :=
  let p := portOf s n
  let near := (entryStarts p).any fun x =>
    x.2.open7 && decide (x.1 ≤ portTime s n + usTicks (txtwNow s n))
  .next (if p.lpiTx ∧ (reg s (lpiReg n)).getLsbD 2 ∧ !p.gclOper.isEmpty ∧ near ∧ portRuns s ∧ !s.err.fatal
    then lpiLeave s n else s)

/-! The LLDP agent (R314). -/

/-- RXTW of a port; 0 acts as 1. -/
def rxtwOf (s : State) (n : Nat) : Nat := max 1 (bits (reg s (lpiReg n)) 32 16)

/-- LLDPDU_TRANSMIT (R314): 30 s have passed, or RXTW has changed. -/
def execLldpduTransmit (n : Nat) (s : State) : Res :=
  let p := portOf s n
  let f := rawTx s n 0 (lldpFrame (portMac s n) (txtwNow s n) (rxtwOf s n) 0 p.partnerTw)
  .next (if p.link ∧ (reg s (lpiReg n)).getLsbD 3 ∧ inService s ∧ !s.err.fatal ∧
      (p.lldpDue ∨ p.lldpAt + usTicks 30000000 ≤ portTime s n) ∧ txRoom s n 0 f.size then
    modPort s n fun p => { p with
      txq := p.txq ++ [f], lldpAt := portTime s n, lldpDue := false }
  else s)

/-- LLDP_TLV_EXPIRY (R314): a partner's TLV was not renewed within 120 s. -/
def execLldpTlvExpiry (n : Nat) (s : State) : Res :=
  .next (if (portOf s n).neg ∧ (portOf s n).tlvAt + usTicks 120000000 ≤ portTime s n then
    modPort s n fun p => { p with neg := false }
  else s)

end Sys2Proof.Machine
end

