-- ==== Sys2Proof/Machine/PowerSteps.lean ====
section
/-! DEFINITION. Power states: requests, Doze, Standby, Off and power-up (R401 to R403, R442, R443, R466
to R469, R479). -/

namespace Sys2Proof.Machine

/-! Standby, Off and boot. -/

/-- Registers that keep their values through Standby: Gill's, and HA_POLICY, HA_RET, HA_RET_GEN and
HA_HDM_ID (R364, R403). -/
def keepsStandby (key : Nat) : Bool :=
  decide (0x0028000 ≤ key ∧ key < 0x0029000) || key == haPolicy || key == haRet || key == haRetGen ||
    key == haHdmId

/-- What lies outside the module, and what its EEPROM holds, whatever its power. -/
def darkState (s : State) (p : PowerState) (keepPa : Nat → Bool) : State :=
  { State.reset with
    pending := s.pending, readData := s.readData, freeCtr := s.freeCtr
    mem := s.mem.filter fun x => keepPa x.1
    checks := s.checks.filter fun x => keepPa (x.1 * 8)
    sched := { Sched.reset with power := p }
    host := { State.reset.host with perst := s.host.perst }
    boot := { State.reset.boot with
      floor := s.boot.floor, settings := s.boot.settings, boots := s.boot.boots }
    supply := s.supply }

/-- R403, R443: what Standby keeps: LPDDR5X, Gill and its registers, GL_FATAL, the sync objects (R155)
and which image was active. Everything else is lost, and no completion is written. -/
def standbyState (s : State) : State :=
  let d := darkState s .standby fun pa => regionOf pa == .lpddr || regionOf pa == .hostMem
  { d with
    regs := s.regs.filter fun x => keepsStandby x.1
    clocks := s.clocks.filter fun x => x.1 == 5
    syncs := s.syncs
    gill := s.gill
    err := { ErrUnit.reset with glFatal := s.err.glFatal }
    drdy := { d.drdy with since := glTime s }
    boot := { d.boot with
      zeroFill := false, retained := s.boot.active, slotA := s.boot.slotA, gill := s.boot.gill } }

/-- R403: entry to Standby, which is no trip; the retention record is written (R358). -/
def enterStandby (s : State) : State :=
  let s1 := standbyState (writeRetention s 2)
  { s1 with gill := { s1.gill with tripped := false, tripRule := 0 } }

/-- R402: a request for Standby that a transition has held back applies. -/
def enterWanted (s : State) : State :=
  if s.sched.target = some .standby then enterStandby s else s

/-- LEDGER_WINDOW_BOUNDARY (R390): charges close, budgets, levels and corrections apply, admission
runs, and pre-emption where a candidate has waited long enough. A request for Standby made during a
transition that completes here applies (R402). -/
def execLedgerWindowBoundary (s : State) : Res :=
  .next (
    if !windowOver s then s
    else
      let s1 := applyTrim (applyBudgets (closeWindow s))
      let s2 := admitAll s1 (candidates s1).length
      enterWanted (preemptStarved (countSkipped (openWindow s2))))

/-- R403, R450: the trip of a rule: it is recorded, and the module goes to Standby at once. -/
def tripStandby (s : State) (rule : Nat) : State :=
  let s1 := enterStandby (recordError s
    { code := 0x0F, unit := 0x12, inst := 0, part := none, status := 0, addr := 0, isVa := false
      ctx := 0, data0 := BitVec.ofNat 64 rule })
  { s1 with gill := { s1.gill with tripped := true, tripRule := rule } }

/-- R333, R334, R442: the boot ROM runs: the boot is counted, and an identity that cannot be derived is
recorded. -/
def bootRom (s : State) : State :=
  let s1 := { s with
    sched := { s.sched with power := .full }
    gill := { s.gill with wake := false }
    boot := { s.boot with boots := s.boot.boots + 1 } }
  match Config.identity s1.boot.boots with
  | some _ => s1
  | none => recordError s1
      { code := 0x0E, unit := 0x11, inst := 0, part := none, status := 0, addr := 0, isVa := false
        ctx := 0, data0 := 0 }

/-- R403, R484: a wake in Standby boots the module, after a trip once the tripping rule has
released. -/
def bootFromStandby (s : State) : State :=
  if s.gill.tripped ∧ tget false s.gill.fired s.gill.tripRule then
    { s with gill := { s.gill with wake := true } }
  else bootRom s

/-- POWER_ON (R442, R466, R467): PWR_IN rises through the turn-on threshold: everything is at its value
after power-up, and the zero-fill of LPDDR5X begins. -/
def execPowerOn (s : State) : Res :=
  .next (if s.sched.power ≠ .off then s
    else bootRom { s with supply := { s.supply with ovOpen := false } })

/-- R468: the module is Off: only what lies outside it, and the EEPROM, is kept. -/
def enterOff (s : State) : State := darkState s .off fun pa => regionOf pa == .hostMem

/-- POWER_LOSS (R468): PWR_IN has been below the turn-off threshold for 50 us. -/
def execPowerLoss (s : State) : Res := .next (if s.sched.power = .off then s else enterOff s)

/-- OVERVOLTAGE_DISCONNECT (R467). -/
def execOvervoltageDisconnect (s : State) : Res :=
  .next (if s.sched.power = .off then s
    else
      let s1 := enterOff s
      { s1 with supply := { s1.supply with ovOpen := true } })

/-! Requests (R402). -/

/-- PWR_STATE. -/
def pwrState : Nat := 0x0020008

/-- REQ is written: it is stored, and outside the fatal state the state is requested. -/
def writeReq (s : State) (code : Nat) (p : PowerState) : State :=
  let s1 := setReg s pwrState (BitVec.ofNat 64 code)
  if s.err.fatal then s1 else requestPower s1 p

/-- REQ_FULL (R402). -/
def execReqFull (s : State) : Res := .next (if powered s then writeReq s 0 .full else s)

/-- REQ_TRIM (R402). -/
def execReqTrim (s : State) : Res := .next (if powered s then writeReq s 1 .trim else s)

/-- REQ_DOZE (R402). -/
def execReqDoze (s : State) : Res := .next (if powered s then writeReq s 2 .doze else s)

/-- REQ_STANDBY (R402, R403, R460): in every state with power, the fatal one among them; during a
transition it applies after it. -/
def execReqStandby (s : State) : Res :=
  let s1 := setReg s pwrState 3
  .next (if !powered s then s
    else if s.sched.target.isSome ∧ !s.err.fatal then requestPower s1 .standby
    else enterStandby s1)

/-! Doze (R401, R402). -/

/-- A group is resident on a compute die. -/
def computeGroups (s : State) : Bool :=
  s.groups.any fun x => decide (x.2.engine < 16384) && !x.2.threads.isEmpty

/-- DOZE_GATE (R402): the last group has left, and the compute dies are gated. -/
def execDozeGate (s : State) : Res :=
  .next (if s.sched.target ≠ some .doze ∨ computeGroups s ∨ s.err.fatal ∨ !powered s then s
    else enterWanted (arrivePower (modSched s fun z => { z with gated := true }) .doze))

/-- R401: every local store and accumulator of the compute dies is written with zeros. -/
def zeroLocal (s : State) : State :=
  let s1 := zeroMem s (localPa 0 0) (32768 * 16384)
  { s1 with accs := s1.accs.filter fun x => !decide (x.1 < 16384 * 32768) }

/-- R402: a partition pre-empted for Doze runs again, unless a host reset quiesced it. -/
def resumeDozed (s : State) (p : Nat) : State :=
  if (partition s p).quiesced then s else unholdPartition s p

/-- DOZE_EXIT_COMPLETE (R401, R402). -/
def execDozeExitComplete (s : State) : Res :=
  .next (if s.sched.power ≠ .doze ∨ s.sched.target ≠ some .full ∨ s.err.fatal then s
    else
      let ps := s.sched.dozePre
      let s1 := modSched (zeroLocal s) fun z => { z with
        gated := false, selfRefresh := false, dozePre := [] }
      enterWanted (arrivePower (ps.foldl resumeDozed s1) .full))

/-- SELF_REFRESH_ENTRY (R401): LPDDR5X has had no access for 10 us. -/
def execSelfRefreshEntry (s : State) : Res :=
  .next (if s.sched.power = .doze ∧ s.sched.target = none then
    modSched s fun z => { z with selfRefresh := true }
  else s)

/-- R402: a wake leaves Doze; during its entry it applies once Doze is reached, and in Trim it asks for
Full. -/
def wakePower (s : State) : State :=
  if s.err.fatal ∨ !powered s then s
  else if s.sched.power = .doze ∨ s.sched.target = some .doze ∨ s.sched.power = .trim then
    requestPower s .full
  else s

/-- An entry is a LAUNCH. -/
def isLaunch (e : RingEntry) : Bool := entryOpcode e == 0x01

/-- R402: with AUTOWAKE, a LAUNCH taken in during Doze leaves it. -/
def autoWake (s0 s1 : State) (r : Nat) : State :=
  let n (s : State) : Nat := ((ring s r).taken.filter isLaunch).length
  if (reg s1 pwrCtl).getLsbD 1 ∧ s1.sched.power = .doze ∧ s1.sched.target = none ∧
      (ring s1 r).typ = 1 ∧ n s0 < n s1 then
    wakePower s1
  else s1

/-- POLL_RESPONSE (R173, R402): the response of a poll of ring `r` arrives. -/
def execPollResponse (r : Nat) (s : State) : Res := .next (autoWake s (pollResponse s r) r)

/-! The reference clock (R479). -/

/-- REFCLK156_LOSS: every port and the twin link lose link, and the port counters hold. -/
def execRefclk156Loss (s : State) : Res :=
  .next (if !s.supply.refclk156 then s
    else
      let s1 := (List.range 8).foldl (fun s n => portDown s n 0) s
      { s1 with supply := { s1.supply with refclk156 := false }, twin := { s1.twin with link := false } })

/-- REFCLK156_RESTORE: the counters resume. -/
def execRefclk156Restore (s : State) : Res :=
  .next { s with supply := { s.supply with refclk156 := true } }

end Sys2Proof.Machine
end

