-- ==== Sys2Proof/Machine/GillSteps.lean ====
section
/-! DEFINITION. Gill: its channels and filters, its inputs, its rules and their actions, and its reports
to the scheduler (R26, R404 to R411). -/

namespace Sys2Proof.Machine

/-- Gill has power: it samples and evaluates in every state but Off (R403, R460). -/
def gillRuns (s : State) : Bool := s.sched.power != .off

/-- Change Gill. -/
def modGill (s : State) (f : Gill → Gill) : State := { s with gill := f s.gill }

/-- A channel, and an input. -/
def gillChannel (s : State) (c : Nat) : GillChannel := tget GillChannel.reset s.gill.channels c
def gillInput (s : State) (d : Nat) : GillInput := tget GillInput.reset s.gill.inputs d
def setInput (s : State) (d : Nat) (x : GillInput) : State :=
  modGill s fun g => { g with inputs := tset GillInput.reset g.inputs d x }

/-- GL registers (R411). -/
def glCh (c : Nat) : Nat := 0x0028100 + 8 * c
def glDin (d : Nat) : Nat := 0x0028200 + 8 * d
def glRuleB (i : Nat) : Nat := 0x0028408 + 16 * i

/-- A 16-bit field as a signed number. -/
def signed16 (n : Nat) : Int := (BitVec.ofNat 16 n).toInt

/-! Rules (R406). -/

/-- Fields of a rule. -/
def ruleOn (s : State) (i : Nat) : Bool := (reg s (glRuleA i)).getLsbD 63
def ruleAction (s : State) (i : Nat) : Nat := bits (reg s (glRuleA i)) 60 3
def ruleDig (s : State) (i : Nat) : Bool := (reg s (glRuleA i)).getLsbD 51
def ruleCh (s : State) (i : Nat) : Nat := bits (reg s (glRuleA i)) 48 3
def ruleThresh (s : State) (i : Nat) : Int := signed16 (bits (reg s (glRuleA i)) 16 16)
def ruleHyst (s : State) (i : Nat) : Int := bits (reg s (glRuleA i)) 0 16
def ruleFired (s : State) (i : Nat) : Bool := tget false s.gill.fired i

/-- The condition of a rule. -/
def ruleHolds (s : State) (i : Nat) : Bool :=
  if ruleDig s i then (gillInput s (ruleCh s i)).level && !(gillInput s (ruleCh s i)).stuck
  else
    let v := (gillChannel s (ruleCh s i)).value
    if (reg s (glRuleA i)).getLsbD 47 then decide (v < ruleThresh s i) else decide (ruleThresh s i ≤ v)

/-- The reverse condition of a rule, widened by HYST. -/
def ruleReverse (s : State) (i : Nat) : Bool :=
  if ruleDig s i then !ruleHolds s i
  else
    let v := (gillChannel s (ruleCh s i)).value
    if (reg s (glRuleA i)).getLsbD 47 then decide (ruleThresh s i + ruleHyst s i ≤ v)
    else decide (v < ruleThresh s i - ruleHyst s i)

/-- What a rule waits for: its condition, or once it has fired the reverse condition. -/
def ruleWaits (s : State) (i : Nat) : Bool := if ruleFired s i then ruleReverse s i else ruleHolds s i

/-- A rule is evaluated: how long what it waits for has held. While Gill is silent none is. -/
def evalRule (s : State) (i : Nat) : State :=
  let on := ruleOn s i && !s.sched.silent && ruleWaits s i
  let at_ := if !on then 0 else if tget 0 s.gill.condAt i = 0 then glTime s + 1
    else tget 0 s.gill.condAt i
  modGill s fun g => { g with condAt := tset 0 g.condAt i at_ }

/-- Evaluate the rules of a channel (or an input). -/
def evalRules (s : State) (dig : Bool) (c : Nat) : State :=
  (List.range 32).foldl (fun s i => if ruleDig s i = dig ∧ ruleCh s i = c then evalRule s i else s) s

/-- What a rule waits for has held for DUR. -/
def ruleDue (s : State) (i : Nat) : Bool :=
  let at_ := tget 0 s.gill.condAt i
  decide (at_ ≠ 0 ∧ at_ + 50 * bits (reg s (glRuleB i)) 0 24 ≤ glTime s + 1) && ruleWaits s i

/-- Throttle levels in force, 3 bits per die (R409). -/
def throttleWord (s : State) : Nat := ((List.range 5).map fun d => dieLevel s d * 8 ^ d).foldl (· + ·) 0

/-- GILL_RULE (R409): posted to PF0's EQ, or kept in Standby for the next boot. VALUE of a digital rule
is free (log entry 33). -/
def ruleEvent (s : State) (i : Nat) (fired : Bool) : State :=
  let f := takeFree s
  let s1 := if ruleDig s i then f.2 else s
  let v := if ruleDig s i then f.1.setWidth 16
    else BitVec.ofInt 16 (gillChannel s (ruleCh s i)).value
  let d0 := flagBit fired 0 + ruleAction s i * 256 + v.toNat * 65536
  let e : Event := { eq := eqOf 0, code := 0x60, source := i, data0 := BitVec.ofNat 64 d0
                     data1 := BitVec.ofNat 64 (throttleWord s) }
  if s.sched.power = .standby then modGill s1 fun g => { g with kept := g.kept ++ [e] }
  else post s1 e.eq e.code e.source e.data0 e.data1

/-- The rule has fired, or released. -/
def setFired (s : State) (i : Nat) (v : Bool) : State :=
  evalRule (modGill s fun g => { g with
    fired := tset false g.fired i v, condAt := tset 0 g.condAt i 0 }) i

/-- R406: a Gill WAKE. -/
def gillWake (s : State) : State :=
  if s.sched.power = .standby then bootFromStandby s else wakePower s

/-- GILL_RULE_FIRE (R406, R410): a throttle level applies from the next boundary; a trip in Standby is
only recorded. -/
def execGillRuleFire (i : Nat) (s : State) : Res :=
  .next (if 32 ≤ i ∨ !gillRuns s ∨ !ruleOn s i ∨ ruleFired s i ∨ !ruleDue s i then s
    else
      let s1 := ruleEvent (setFired s i true) i true
      match ruleAction s i with
      | 1 => gillWake s1
      | 3 => if s.sched.power = .standby then s1 else tripStandby s1 i
      | _ => s1)

/-- GILL_RULE_RELEASE (R406, R403): a boot that waits for the tripping rule begins. -/
def execGillRuleRelease (i : Nat) (s : State) : Res :=
  .next (if 32 ≤ i ∨ !gillRuns s ∨ !ruleOn s i ∨ !ruleFired s i ∨ !ruleDue s i then s
    else
      let s1 := ruleEvent (setFired s i false) i false
      if s1.gill.wake ∧ s1.sched.power = .standby then bootFromStandby s1 else s1)

/-! Channels (R404). -/

/-- A quotient that is not exact is free between the two nearest numbers (log entry 34). -/
def roundFree (s : State) (a : Int) (n : Nat) : Int × State :=
  let f := takeFree s
  if a % n = 0 then (a / n, s) else (a / n + (if f.1.getLsbD 0 then 1 else 0), f.2)

/-- Insert a sample in rising order. -/
def insertInt (x : Int) : List Int → List Int
  | [] => [x]
  | y :: ys => if x ≤ y then x :: y :: ys else y :: insertInt x ys

/-- The middle of an odd number of samples. -/
def median (l : List Int) : Int := (l.foldl (fun a x => insertInt x a) []).getD (l.length / 2) 0

/-- R404: a filter's output for the samples kept (newest first) and its last output. Where the filter
has fewer samples than it wants, or PARAM is out of range, the value is free (log entry 34). -/
def filterSample (s : State) (filt param : Nat) (last : Int) (h : List Int) : Int × State :=
  let f := takeFree s
  let free : Int × State := ((f.1.setWidth 16).toInt, f.2)
  match filt with
  | 0 => (h.headD 0, s)
  | 1 =>
    if param = 0 ∨ h.length < param then free
    else roundFree s ((h.take param).foldl (· + ·) 0) param
  | 2 =>
    if param = 0 ∨ 8 < param then free
    else
      let r := roundFree s (h.headD 0 - last) (2 ^ param)
      (last + r.1, r.2)
  | _ =>
    let n := if param % 2 = 0 then param + 1 else param
    if n < 3 ∨ 15 < n ∨ h.length < n then free else (median (h.take n), s)

/-- GILL_SAMPLE (R404): channel `c` samples `x`, and the rules on it are evaluated. -/
def execGillSample (c : Nat) (x : BitVec 16) (s : State) : Res :=
  .next (if 8 ≤ c ∨ !gillRuns s then s
    else
      let w := reg s (glCh c)
      let y := gillChannel s c
      let h := x.toInt :: y.history.take 62
      let r := filterSample s (bits w 30 2) (bits w 24 6) y.value h
      let v : Int := (BitVec.ofInt 16 r.1).toInt
      let z : GillChannel := { value := v, raw := x.toInt, history := h }
      evalRules (modGill r.2 fun g => { g with channels := tset GillChannel.reset g.channels c z })
        false c)

/-! Inputs (R405). -/

/-- Gill cycles in a millisecond. -/
def glMs : Nat := 50000

/-- Events of an input in the last millisecond. -/
def recentEvents (s : State) (x : GillInput) : List Nat := x.times.filter fun t => decide (glTime s < t + glMs)

/-- GILL_INPUT (R409): posted to PF0's EQ, or kept in Standby. -/
def inputEvent (s : State) (d code : Nat) : State :=
  let n := (recentEvents s (gillInput s d)).length
  let e : Event := { eq := eqOf 0, code := 0x61, source := d, data0 := BitVec.ofNat 64 code
                     data1 := BitVec.ofNat 64 n }
  if s.sched.power = .standby then modGill s fun g => { g with kept := g.kept ++ [e] }
  else post s e.eq e.code e.source e.data0 e.data1

/-- R424: what the twin unit sees of TWIN_HB. -/
def noteHb (s : State) (d : Nat) (level : Bool) : State :=
  if d = 2 then { s with twin := { s.twin with hbInactive := !level, hbSince := fdTime s } } else s

/-- A change of level is accepted: an event, which may begin CHATTER. -/
def acceptChange (s : State) (d : Nat) : State :=
  let x := gillInput s d
  let times := glTime s :: recentEvents s x
  let max := bits (reg s (glDin d)) 16 16
  let chat := max != 0 && decide (max < times.length)
  let y : GillInput := { x with
    level := x.pin, chatter := chat, times := times, since := glTime s, chatAt := glTime s
    pinTimes := [] }
  let s1 := noteHb (setInput s d y) d x.pin
  evalRules (if chat then inputEvent s1 d 1 else s1) true d

/-- GILL_INPUT_CHANGE (R405): the pin of input `d` has held a new level (true: active) for GLITCH. In
CHATTER it is only noted. Input 7 is not connected. -/
def execGillInputChange (d : Nat) (level : Bool) (s : State) : Res :=
  let x := gillInput s d
  .next (if 7 ≤ d ∨ !gillRuns s ∨ x.pin = level then s
    else if x.chatter then
      setInput s d { x with pin := level, pinTimes := glTime s :: x.pinTimes }
    else acceptChange (setInput s d { x with pin := level }) d)

/-- GILL_CHATTER_END (R405): a millisecond has passed with at most MAXRATE / 2 changes on the pin. A
level that the pin has taken meanwhile is accepted. -/
def execGillChatterEnd (d : Nat) (s : State) : Res :=
  let x := gillInput s d
  let recent := x.pinTimes.filter fun t => decide (glTime s < t + glMs)
  .next (if !x.chatter ∨ !gillRuns s ∨ glTime s < x.chatAt + glMs ∨
      bits (reg s (glDin d)) 16 16 / 2 < recent.length then s
    else
      let s1 := inputEvent (setInput s d { x with chatter := false, pinTimes := [] }) d 2
      if x.pin = x.level then s1 else acceptChange s1 d)

/-- GILL_INPUT_STUCK (R405): the input has been active for HOLD ms. -/
def execGillInputStuck (d : Nat) (s : State) : Res :=
  let x := gillInput s d
  let hold := bits (reg s (glDin d)) 32 16
  .next (if !x.level ∨ x.stuck ∨ hold = 0 ∨ !gillRuns s ∨ glTime s < x.since + hold * glMs then s
    else evalRules (inputEvent (setInput s d { x with stuck := true }) d 3) true d)

/-- GILL_STUCK_END (R405): the input has been inactive for 1 ms. -/
def execGillStuckEnd (d : Nat) (s : State) : Res :=
  let x := gillInput s d
  .next (if !x.stuck ∨ x.level ∨ !gillRuns s ∨ glTime s < x.since + glMs then s
    else evalRules (inputEvent (setInput s d { x with stuck := false }) d 4) true d)

/-! Reports to the scheduler (R26, R410). -/

/-- GILL_SILENT (R26, R409). -/
def execGillSilent (s : State) : Res :=
  .next (if s.sched.silent ∨ !powered s then s
    else
      let s1 := bump (modGill (modSched s fun z => { z with silent := true }) fun g =>
        { g with condAt := [] }) pwrStat 0 16 1
      let s2 := recordError s1
        { code := 0x0D, unit := 0x12, inst := 0, part := none, status := 0, addr := 0, isVa := false
          ctx := 0, data0 := 0 }
      post s2 (eqOf 0) 0x64 0 1 (BitVec.ofNat 64 s.sched.window))

/-- GILL_REPORTS_RESUME (R26, R409): the level is withdrawn at the next boundary, and the rules act
again. -/
def execGillReportsResume (s : State) : Res :=
  .next (if !s.sched.silent ∨ !powered s then s
    else
      let s1 := modSched s fun z => { z with silent := false }
      let s2 := (List.range 32).foldl (fun s i => if ruleDig s i then evalRule s i else s) s1
      post s2 (eqOf 0) 0x64 0 2 (BitVec.ofNat 64 s.sched.window))

/-! Register writes in Gill's domain (R408, R411). -/

/-- A rule's registers have been written: a rule not in force is not fired, and its timing begins
again. -/
def ruleWritten (s : State) (i : Nat) : State :=
  let s1 := modGill s fun g => { g with
    fired := if ruleOn s i then g.fired else tset false g.fired i false
    condAt := tset 0 g.condAt i 0 }
  if ruleDig s1 i then evalRule s1 i else s1

/-- R408: LOCK protects a rule whose ACTION is TRIP, and keeps ACTION from becoming it. -/
def ruleLocked (s : State) (i : Nat) (isA : Bool) (v : Word) : Bool :=
  s.gill.lock && (ruleAction s i == 3 || (isA && bits v 60 3 == 3))

/-- A write of GL_RULE_A or GL_RULE_B: ACTION 4 to 7 clear EN. -/
def writeRule (s : State) (i : Nat) (isA : Bool) (v : Word) : State :=
  if ruleLocked s i isA v then s
  else
    let key := if isA then glRuleA i else glRuleB i
    let w := v &&& BitVec.ofNat 64 (gillSpec key).rw
    let w := if isA ∧ 4 ≤ bits w 60 3 then setBits w 63 1 0 else w
    ruleWritten (setReg s key w) i

/-- A write at an offset of the PWR region from 0x8000 on (R411, R483). -/
def writeGl (s : State) (off : Nat) (v : Word) : State :=
  if off = 0x8000 then (if v.getLsbD 63 then modGill s fun g => { g with lock := true } else s)
  else if 0x8100 ≤ off ∧ off < 0x8140 ∧ off % 8 = 0 then
    setReg s (0x0020000 + off) (v &&& BitVec.ofNat 64 (fieldMask 31 24 + fieldMask 15 0))
  else if 0x8200 ≤ off ∧ off < 0x8240 ∧ off % 8 = 0 then
    setReg s (0x0020000 + off) (v &&& BitVec.ofNat 64 (fieldMask 47 0))
  else if 0x8400 ≤ off ∧ off < 0x8600 ∧ off % 8 = 0 then
    writeRule s ((off - 0x8400) / 16) (off % 16 == 0) v
  else s

/-- GILL_LOCK (R408): GL_CTL is written with LOCK set. -/
def execGillLock (s : State) : Res := .next (if bar0 s then writeGl s 0x8000 (1#64 <<< 63) else s)

/-! Gill's registers as they read (R411, R462). -/

/-- The eight words of an error record (R452). -/
def errWord (r : ErrRec) (k : Nat) : Nat :=
  match k with
  | 0 => r.seq
  | 1 => r.time
  | 2 => r.cls + r.unit * 2 ^ 8 + r.inst * 2 ^ 16 + r.code * 2 ^ 32 + r.part.getD 0xFF * 2 ^ 48 +
      r.status.toNat * 2 ^ 56
  | 3 => r.addr
  | 4 => r.ctx.toNat + r.count * 2 ^ 32
  | 5 => flagBit r.escalated 0 + flagBit r.fenced 1 + flagBit r.isVa 2
  | 6 => r.data0.toNat
  | _ => r.data1.toNat

/-- Bits of the rules, or the inputs, that satisfy a test. -/
def flagBits (n : Nat) (f : Nat → Bool) : Nat :=
  ((List.range n).map fun i => flagBit (f i) i).foldl (· + ·) 0

/-- GL_STAT. -/
def glStat (s : State) : Nat :=
  flagBits 32 (ruleFired s) * 2 ^ 32 + flagBit s.gill.tripped 31 + s.gill.tripRule * 2 ^ 16 +
    flagBits 8 (fun d => (gillInput s d).chatter) * 2 ^ 8 + flagBits 8 fun d => (gillInput s d).stuck

/-- The register at an offset of the PWR region from 0x8000 on. -/
def readGl (s : State) (off : Nat) : Nat :=
  let r := (reg s (0x0020000 + off)).toNat
  let i16 (x : Int) : Nat := (BitVec.ofInt 16 x).toNat
  if off = 0x8000 then flagBit s.gill.lock 63
  else if off = 0x8008 then glStat s
  else if 0x8100 ≤ off ∧ off < 0x8140 then
    let c := gillChannel s ((off - 0x8100) / 8)
    i16 c.value * 2 ^ 48 + i16 c.raw * 2 ^ 32 + r
  else if 0x8200 ≤ off ∧ off < 0x8240 then
    flagBit (gillInput s ((off - 0x8200) / 8)).level 63 + r
  else if 0x8800 ≤ off ∧ off < 0x8840 then
    (match s.err.glFatal with
      | some e => errWord e ((off - 0x8800) / 8)
      | none => 0)
  else r

/-! SMBus (R482 to R484). -/

/-- An offset that the SMBus commands take. -/
def smbusOffset (off : Nat) : Bool := decide (0x8000 ≤ off ∧ off < 0x9000 ∧ off % 8 = 0)

/-- The power field of STATUS. -/
def smbusPower (s : State) : Nat :=
  if s.err.fatal then 5
  else if s.sched.power = .standby then 3
  else if s.boot.st ≠ .service then 4
  else powerCode s.sched.power

/-- SMBUS_STATUS. -/
def execSmbusStatus (s : State) : Res :=
  .next (if !gillRuns s then s
    else { s with readData :=
      [BitVec.ofNat 8 (smbusPower s + flagBit s.gill.tripped 3 + flagBit s.boot.gill 4)] })

/-- SMBUS_READ; an offset not acknowledged is answered with nothing. -/
def execSmbusRead (off : Nat) (s : State) : Res :=
  .next (if !gillRuns s then s
    else { s with readData := if smbusOffset off then leBytes 8 (readGl s off) else [] })

/-- SMBUS_WRITE: as the same write through BAR0, once the GILL component is loaded. -/
def execSmbusWrite (off : Nat) (v : Word) (s : State) : Res :=
  .next (if !gillRuns s ∨ !s.boot.gill ∨ !smbusOffset off then s else writeGl s off v)

/-- SMBUS_WAKE with its data byte (R484). -/
def execSmbusWake (v : Byte) (s : State) : Res :=
  .next (if !gillRuns s ∨ v ≠ 0xA5 then s
    else if s.sched.power = .standby then bootFromStandby s
    else if s.err.fatal then
      bootFromStandby (enterStandby s)
    else if s.sched.power = .doze ∨ s.sched.target = some .doze then wakePower s
    else s)

end Sys2Proof.Machine
end

