-- ==== Sys2Proof/Machine/TwinSteps.lean ====
section
/-! DEFINITION. The twin link's commands: pairing, frames that arrive, heartbeats, failure and takeover
(R412 to R430). -/

namespace Sys2Proof.Machine

/-- Post TWIN_STATE (R429). -/
def postTwin (s : State) (new old : TwinState) : State :=
  post s (eqOf 0) 0x70 0 (BitVec.ofNat 64 (twinCode new)) (BitVec.ofNat 64 (twinCode old))

/-- The pair moves to a state that does not mirror (R421). -/
def endPair (s : State) (new : TwinState) : State :=
  let s1 := postTwin (leavePair s new) new s.twin.state
  if new = .unpaired then modTwin s1 fun t => { t with epoch := 0, mate := none } else s1

/-- Partitions with a bit of TWIN_PMAP set. -/
def mirroredParts (s : State) : List Nat := (List.range 65).filter (pmapMirrored s)
def standbyParts (s : State) : List Nat := (List.range 65).filter (pmapStandby s)

/-! Pairing (R419, R420). -/

/-- The capacities that a partition's stores hold (R376, R419). -/
def capsWord (s : State) (p : Nat) : Nat :=
  if pmapStandby s p then qpCap s p * 2 ^ 32 + keyCap s p else 0

/-- The payload of a PAIR frame. -/
def pairPayload (s : State) (rnd : BitVec 32) : List Byte :=
  beBytes 8 Config.serial.toNat ++ [1, 0, 0, 0] ++ beBytes 4 rnd.toNat ++
    (List.range 65).flatMap (fun p => beBytes 8 (reg s (twinPmap p)).toNat) ++
    (List.range 16).flatMap (fun i =>
      beBytes 8 (reg s (twinRgnL i)).toNat ++ beBytes 8 (reg s (twinRgnP i)).toNat) ++
    (List.range 65).flatMap fun p => beBytes 8 (capsWord s p)

/-- Words of the partner's payload. -/
def mateWord (m : List Byte) (off : Nat) : Word := BitVec.ofNat 64 (beField m off 8)
def matePmap (m : List Byte) (p : Nat) : Word := mateWord m (0x10 + 8 * p)
def mateCaps (m : List Byte) (p : Nat) : Word := mateWord m (0x418 + 8 * p)

/-- A partition holds a queue pair or a registered key. -/
def holdsNet (s : State) (p : Nat) : Bool :=
  s.qps.any (fun x => qpPart x.1 == p) || s.keys.any fun x => x.1 / 2 ^ 24 == p && x.2.live

/-- R420: a mirrored partition's partner is no standby partition, or cannot hold it. -/
def ownMapBad (s : State) (m : List Byte) (p : Nat) : Bool :=
  let rp := pmapPart s p
  let c := mateCaps m rp
  pmapMirrored s p && (decide (64 < rp) || !(matePmap m rp).getLsbD 62 ||
    decide (bits c 32 32 < (partition s p).qpQ ∨ bits c 0 32 < (partition s p).keyQ))

/-- R420: the partner names a partition here that is no standby partition, or holds something. -/
def mateMapBad (s : State) (m : List Byte) (p : Nat) : Bool :=
  let w := matePmap m p
  let rp := bits w 48 7
  w.getLsbD 63 && (decide (64 < rp) || !pmapStandby s rp || holdsNet s rp)

/-- R420: a region's partner range here lies outside granules of standby partitions. -/
def mateRegionBad (s : State) (m : List Byte) (i : Nat) : Bool :=
  let l := mateWord m (0x218 + 16 * i)
  let base := bits (mateWord m (0x220 + 16 * i)) 16 32
  l.getLsbD 63 && (List.range (bits l 0 16)).any fun k =>
    match granuleOwner s ((base + k) * 65536) with
    | some p => !pmapStandby s p
    | none => true

/-- The first status of R420 that the partner's PAIR frame gives. -/
def pairStatus (s : State) (m : List Byte) : BitVec 8 :=
  if (List.range 65).any (ownMapBad s m) || (List.range 65).any (mateMapBad s m) ||
      (List.range 16).any (mateRegionBad s m) then 0x04
  else if (m.getD 8 0) ≠ 1 then 0x0F
  else 0

/-- Complete TWIN_PAIR. -/
def finishPair (s : State) (st : BitVec 8) : State :=
  match s.twin.pairAq with
  | none => s
  | some (r, e, _) =>
    let s1 := modTwin s fun t => { t with pairAq := none }
    if st = 0 then completeEntry s1 r e 0 0 s.twin.peer (s.twin.epoch.setWidth 64)
    else completeEntry s1 r e st 0 0 0

/-- R420: pairing fails before SYNCING: what was not acknowledged is withdrawn. -/
def failPair (s : State) (st : BitVec 8) : State :=
  finishPair (modTwin s fun t => { t with items := [], txNext := t.ackIn, mate := none }) st

/-- R420: pairing fails in SYNCING. -/
def failSync (s : State) (st : BitVec 8) : State := finishPair (endPair s .unpaired) st

/-- R420: the copy of every mirrored context, log and key entry, and of every region. -/
def queueCopy (s : State) : State :=
  let qs := s.qps.filter fun x => pmapMirrored s (qpPart x.1) && x.2.state != .none
  let ks := s.keys.filter fun x => pmapMirrored s (x.1 / 2 ^ 24)
  let es := qs.flatMap (fun x =>
      ((List.range 16).zip (ctxSegs (qpBytes s x.1))).map fun y =>
        tmrEntry 1 (pmapPart s (qpPart x.1)) y.1 (qpNum x.1) y.2) ++
    ks.map fun x => tmrEntry 2 (pmapPart s (x.1 / 2 ^ 24)) 0 (x.1 % 2 ^ 24) (keyBytes x.2)
  let s1 := queueDeltas s es false (es.length + 1)
  let s2 := (List.range 16).foldl (fun s i => match twinRegion s i with
    | some (base, size, ppa) => queueData s base ppa size (size / 4096 + 1)
    | none => s) s1
  flushItems (modTwin s2 fun t => { t with copyEnd := t.txNext })

/-- R420: both PAIR frames are known: they are checked, and SYNCING begins. -/
def tryPair (s : State) : State :=
  match s.twin.pairAq, s.twin.mate with
  | some _, some m =>
    if s.twin.state ≠ .unpaired then s
    else
      let st := pairStatus s m
      if st ≠ 0 then failPair s st
      else
        let rnd : BitVec 32 := BitVec.ofNat 32 (beField m 0x0C 4)
        let s1 := modTwin s fun t => { t with
          state := .syncing, used := true, peer := mateWord m 0, epoch := t.rnd ^^^ rnd }
        queueCopy (postTwin s1 .syncing .unpaired)
  | _, _ => s

/-- A TWIN_PMAP entry has both V and SBY. -/
def pmapBoth (s : State) : Bool := (List.range 65).any fun p => pmapMirrored s p && pmapStandby s p

/-- TWIN_PAIR's effect (R419, R420). -/
def twinPair (s : State) (aq : Nat) (e : RingEntry) : AdminAnswer :=
  if entryField e 0x10 2 = 0 ∨ !zeroField e 0x12 46 then answer 0x02 s
  else if s.twin.state ≠ .unpaired ∨ s.twin.pairAq.isSome ∨ (ring s tmrRing).state ≠ .run ∨
      pmapBoth s then answer 0x04 s
  else if s.twin.key.isNone ∨ s.twin.used then answer 0x0C s
  else
    let f := takeFree s
    let rnd : BitVec 32 := f.1.setWidth 32
    let s1 := modTwin f.2 fun t => { t with rnd := rnd, pairAq := some (aq, e, fdTime s) }
    answerLater (tryPair (flushItems (queueItem s1 0x05 (pairPayload s rnd) 0 0 0 0)))

/-- TWIN_PAIR (R419) on AQ `r`. -/
def execTwinPair (r : Nat) (s : State) : Res := .next (adminCommand 0x69 r twinPair s)

/-- TWIN_SYNC_COMPLETE (R420): the copy is acknowledged. -/
def execTwinSyncComplete (s : State) : Res :=
  .next (if s.twin.state ≠ .syncing ∨ s.twin.ackIn < s.twin.copyEnd ∨ s.err.fatal then s
    else xptDone s (finishPair (postTwin (modTwin s fun t => { t with state := .paired })
      .paired .syncing) 0))

/-- TWIN_PAIR_TIMEOUT (R420): no PAIR frame within tmo. -/
def execTwinPairTimeout (s : State) : Res :=
  .next (match s.twin.pairAq with
    | some (_, e, t0) =>
      if s.twin.state ≠ .unpaired ∨ s.err.fatal ∨
          fdTime s < t0 + entryField e 0x10 2 * 1500000 then s
      else xptDone s (failPair s 0x0E)
    | none => s)

/-! TWIN_UNPAIR (R422). -/

/-- Complete TWIN_UNPAIR. -/
def finishUnpair (s : State) : State :=
  match s.twin.unpairAq with
  | none => s
  | some (r, e, _) =>
    completeEntry (endPair (modTwin s fun t => { t with unpairAq := none }) .unpaired) r e 0 0 0 0

/-- The UNPAIR frame's turn has come: every earlier frame is acknowledged, or 1 ms has passed. -/
def unpairEnds (s : State) : Bool :=
  match s.twin.unpairAq with
  | none => false
  | some (_, _, t0) =>
    decide (t0 + 1500000 ≤ fdTime s) || (s.twin.items.head?.all fun x => x.kind == 0x06)

/-- TWIN_UNPAIR's effect. -/
def twinUnpair (s : State) (aq : Nat) (e : RingEntry) : AdminAnswer :=
  if !zeroField e 0x10 48 then answer 0x02 s
  else match s.twin.state with
    | .syncing => answer 0x04 s
    | .unpaired => answer 0 s
    | .paired =>
      if s.twin.unpairAq.isSome then answer 0x04 s
      else
        let s1 := modTwin s fun t => { t with unpairAq := some (aq, e, fdTime s) }
        let s2 := flushItems (queueItem s1 0x06 (beBytes 8 Config.serial.toNat) 0 0 0 0)
        answerLater s2
    | _ => answer 0 (endPair s .unpaired)

/-- End an unpairing whose wait is over. -/
def settleUnpair (s : State) : State := if unpairEnds s then finishUnpair s else s

/-- TWIN_UNPAIR (R422) on AQ `r`. -/
def execTwinUnpair (r : Nat) (s : State) : Res :=
  .next (xptDone s (settleUnpair (adminCommand 0x6A r twinUnpair s)))

/-! Frames that arrive (R412 to R415). -/

/-- Payload sizes of a kind (R412, R419, R422). -/
def twinLenOk (kind n : Nat) : Bool :=
  match kind with
  | 1 => n == 8
  | 2 => decide (64 ≤ n ∧ n ≤ 4096) && n % 64 == 0
  | 3 => decide (9 ≤ n ∧ n ≤ 4104)
  | 4 => n == 0
  | 5 => n == 1568
  | 6 => n == 8
  | _ => false

/-- R413: the tag of an arriving frame verifies. While no pairing has told the partner's serial,
either order of the serials is taken (log entry 35). -/
def twinTagOk (s : State) (bs : List Byte) : Bool :=
  let n := beField bs 2 2
  let body := bs.take (32 + n)
  let tag := bs.drop (32 + n)
  match s.twin.key with
  | none => false
  | some k =>
    let ok (side : Nat) : Bool :=
      tag == beBytes 16 (Config.gmac k.k256 k.bytes
        (BitVec.ofNat 96 (side * 2 ^ 64 + beField bs 8 8)) body).toNat
    let side (peer : Nat) : Nat := if peer < Config.serial.toNat then 0 else 1
    if bs.getD 0 0 = 5 then ok (side (beField bs 32 8))
    else if s.twin.peer = 0 then ok 0 || ok 1
    else ok (side s.twin.peer.toNat)

/-- R413: a frame is good: its FEC codewords, its tag and its epoch. -/
def twinGood (s : State) (bs : List Byte) (badFec : Bool) : Bool :=
  let epoch := if bs.getD 0 0 = 5 then 0 else s.twin.epoch.toNat
  !badFec && decide (bs.length = 48 + beField bs 2 2) && twinTagOk s bs && beField bs 4 4 == epoch

/-- R414, R415, R417: the partner's ack moves on: frames are dropped, CONS advances, and what waited goes
on. -/
def takeTwinAck (s : State) (a : Nat) : State :=
  let t := s.twin
  if a ≤ t.ackIn ∨ t.txNext < a then s
  else
    let done := t.items.filter fun x => decide (x.seq < a)
    let n := (done.map TwinItem.entries).foldl (· + ·) 0
    let s1 := modTwin s fun t => { t with
      items := t.items.filter fun x => !decide (x.seq < a), ackIn := a, ackAt := fdTime s }
    let s2 := modRing s1 tmrRing fun x => { x with cons := x.cons + BitVec.ofNat 32 n }
    settleUnpair (flushItems (releaseHeld s2))

/-- A frame of one kind arrives: what it reports is taken; the payload where the frame is to be
applied. -/
def recvTwin (s : State) (kind : Nat) (bs : List Byte) (badFec : Bool) : Option (List Byte) × State :=
  if !s.twin.link ∨ !powered s ∨ s.err.fatal ∨ (bs.getD 0 0).toNat ≠ kind then (none, s)
  else if !twinGood s bs badFec then (none, bump s twinStat 32 16 1)
  else if !twinLenOk kind (beField bs 2 2) then (none, s)
  else
    let s1 := modTwin s fun t => { t with rxAt := fdTime s }
    let s2 := takeTwinAck s1 (beField bs 24 8)
    let payload := (bs.drop 32).take (beField bs 2 2)
    if kind = 1 ∨ kind = 4 then (some payload, s2)
    else if beField bs 16 8 = s2.twin.rxNext then
      (some payload, modTwin s2 fun t => { t with rxNext := t.rxNext + 1 })
    else (none, s2)

/-- A frame that says nothing but what its header reports. -/
def reportFrame (kind : Nat) (bs : List Byte) (badFec : Bool) (s : State) : State :=
  xptDone s (recvTwin s kind bs badFec).2

/-- TWIN_HB_FRAME (R414). -/
def execTwinHbFrame (bs : List Byte) (badFec : Bool) (s : State) : Res :=
  .next (reportFrame 1 bs badFec s)

/-- TWIN_ACK (R414, R417). -/
def execTwinAck (bs : List Byte) (badFec : Bool) (s : State) : Res :=
  .next (reportFrame 4 bs badFec s)

/-- Apply one mirror entry (R415). -/
def applyEntry (s : State) (e : List Byte) : State :=
  let p := (e.getD 2 0).toNat
  let id := leNat ((e.drop 4).take 4)
  if 64 < p then s
  else match (e.getD 0 0).toNat with
    | 1 => writeMem s (qpStore s p + 512 * (id % 2 ^ 22) + 32 * ((e.getD 3 0).toNat % 16)) (e.drop 32)
    | 2 => writeMem s (keyStore s p + 32 * (id % 2 ^ 24)) (e.drop 32)
    | 3 => writeMem s (qpStore s p + 512 * (id % 2 ^ 22)) (List.replicate 512 0)
    | _ => s

/-- TWIN_DELTA (R414, R415). -/
def execTwinDelta (bs : List Byte) (badFec : Bool) (s : State) : Res :=
  let r := recvTwin s 2 bs badFec
  .next (xptDone s (match r.1 with
    | some d => if mirroring r.2 then (deltaEntries d 64).foldl applyEntry r.2 else r.2
    | none => r.2))

/-- TWIN_DATA (R412, R414): bytes are written at the address that the frame names. -/
def execTwinData (bs : List Byte) (badFec : Bool) (s : State) : Res :=
  let r := recvTwin s 3 bs badFec
  .next (xptDone s (match r.1 with
    | some d =>
      let pa := beField d 0 8
      if mirroring r.2 ∧ (regionOf pa = .lpddr ∨ regionOf pa = .sram) then writeMem r.2 pa (d.drop 8)
      else r.2
    | none => r.2))

/-- TWIN_PAIR_FRAME (R419, R420). -/
def execTwinPairFrame (bs : List Byte) (badFec : Bool) (s : State) : Res :=
  let waiting := s.twin.pairAq.isSome && s.twin.state == .unpaired
  let r := recvTwin s 5 bs badFec
  .next (xptDone s (match r.1 with
    | some d =>
      if r.2.twin.state = .unpaired then
        tryPair (modTwin r.2 fun t => { t with mate := some d })
      else r.2
    | none =>
      if waiting ∧ bs.getD 0 0 = 5 ∧ r.2.twin.link ∧ !twinTagOk s bs then failPair r.2 0x0C else r.2))

/-- R422: the mirrored contexts and key entries of a standby partition are discarded. -/
def discardMirror (s : State) (p : Nat) : State :=
  zeroMem (zeroMem s (qpStore s p) (512 * qpCap s p)) (keyStore s p) (32 * keyCap s p)

/-- TWIN_UNPAIR_FRAME (R422): in SYNCING it ends the pairing as a failure. -/
def execTwinUnpairFrame (bs : List Byte) (badFec : Bool) (s : State) : Res :=
  let r := recvTwin s 6 bs badFec
  .next (xptDone s (match r.1 with
    | some _ =>
      let s1 := (standbyParts r.2).foldl discardMirror r.2
      (match r.2.twin.state with
        | .paired =>
          if r.2.twin.unpairAq.isSome then finishUnpair s1 else endPair s1 .unpaired
        | .syncing => failSync s1 0x01
        | _ => r.2)
    | none => r.2))

/-! What this side sends on time (R414). -/

/-- TWIN_LINK_TRAINED (R414): heartbeats begin. -/
def execTwinLinkTrained (s : State) : Res :=
  .next (if s.twin.link ∨ !portRuns s then s
    else modTwin s fun t => { t with link := true, hbAt := fdTime s, hbGill := glTime s, rxAt := fdTime s })

/-- TWIN_HB_SEND (R412, R414): 10 us after the last, paired or not. -/
def execTwinHbSend (s : State) : Res :=
  .next (if !twinSpeaks s ∨ s.err.fatal ∨ fdTime s < s.twin.hbAt + 15000 then s
    else
      let s1 := sendTwin s 1 0 (List.replicate 7 0 ++ [BitVec.ofNat 8 (twinCode s.twin.state)])
      modTwin s1 fun t => { t with hbAt := fdTime s, hbGill := glTime s })

/-- TWIN_ACK_TIMER (R414). -/
def execTwinAckTimer (s : State) : Res :=
  let t := s.twin
  .next (if !twinSends s ∨ s.err.fatal ∨ t.rxNext ≤ t.reported ∨
      (t.rxNext < t.reported + 64 ∧ fdTime s < t.reportAt + 1500) then s
    else sendTwin s 4 0 [])

/-- TWIN_RESEND (R414): the ack has not advanced for 4 us. -/
def execTwinResend (s : State) : Res :=
  .next (if !twinSends s ∨ s.err.fatal ∨ fdTime s < s.twin.ackAt + 6000 then s
    else
      let again := s.twin.items.filter TwinItem.sent
      if again.isEmpty then s
      else
        let s1 := bump (again.foldl sendItem s) twinStat 48 16 again.length
        modTwin s1 fun t => { t with ackAt := fdTime s })

/-- TWIN_HB_SILENT (R423): the twin unit has sent no heartbeat for 25 us of Gill's clock. -/
def execTwinHbSilent (s : State) : Res :=
  .next (if s.twin.hbLow ∨ glTime s < s.twin.hbGill + 1250 then s else holdHb s)

/-! Failure and takeover (R425 to R427). -/

/-- A queue pair of a standby partition, as its store holds it (R427). -/
def takenQp (s : State) (p n : Nat) : Qp :=
  let q := (qpFromStore s p n).1
  let w := reg s (twinPmap p)
  { q with
    taken := true, sq := bits w 16 16, rcq := bits w 0 16
    ops := q.ops.map fun o => { o with src := .none } }

/-- The mirrored queue pairs and keys become those of a standby partition. -/
def takePart (s : State) (p : Nat) : State :=
  let ns := usedItems s (qpStore s p) 512 (qpCap s p)
  let ks := usedItems s (keyStore s p) 32 (keyCap s p)
  let s1 := ns.foldl (fun s n => setQp s (qpKey p n) (takenQp s p n)) s
  ks.foldl (fun s i => setMemKey s p i (keyOfBytes (peek s (keyStore s p + 32 * i) 32))) s1

/-- The partition at the failed module whose standby partition is `p`. -/
def sourcePart (s : State) (p : Nat) : Nat :=
  match s.twin.mate with
  | none => 0
  | some m => ((List.range 65).find? fun q => (matePmap m q).getLsbD 63 &&
      bits (matePmap m q) 48 7 == p).getD 0

/-- XPT_ADDR entries named in TWIN_TAKE. -/
def takeEntries (s : State) : List Nat :=
  (List.range 256).filter fun n => (reg s (twinTake (n / 64))).getLsbD (n % 64)

/-- A gratuitous ARP for an IPv4 address (log entry 36). -/
def arpFrame (mac : Nat) (a : BitVec 128) : List Byte :=
  List.replicate 6 0xFF ++ beBytes 6 mac ++ beBytes 2 0x0806 ++ beBytes 2 1 ++ beBytes 2 0x0800 ++
    [6, 4] ++ beBytes 2 1 ++ beBytes 6 mac ++ addrBytes a ++ List.replicate 6 0 ++ addrBytes a

/-- The all-nodes address ff02::1. -/
def allNodes : BitVec 128 := BitVec.ofNat 128 0xFF020000000000000000000000000001

/-- An unsolicited neighbour advertisement for an IPv6 address (log entry 36). -/
def naFrame (mac : Nat) (a : BitVec 128) : List Byte :=
  let msg (c : Nat) : List Byte :=
    [136, 0] ++ beBytes 2 c ++ [0x20, 0, 0, 0] ++ addrBytes a ++ [2, 1] ++ beBytes 6 mac
  let sum := sum16 (addrBytes a) + sum16 (addrBytes allNodes) + 32 + 58 + sum16 (msg 0)
  [0x33, 0x33, 0, 0, 0, 1] ++ beBytes 6 mac ++ beBytes 2 0x86DD ++ beBytes 4 0x60000000 ++
    beBytes 2 32 ++ [58, 255] ++ addrBytes a ++ addrBytes allNodes ++ msg (checksum16 sum)

/-- A frame for an address goes into a port's transmit buffer, or waits for room (R295). -/
def announceOn (s : State) (n e : Nat) : State :=
  if !entryOn s e n ∨ !(portOf s n).link then s
  else
    let a := entryAddr s e
    let bs := if isV4 a then arpFrame (portMac s n) a else naFrame (portMac s n) a
    let f := rawTx s n 0 (bs ++ List.replicate (60 - bs.length) 0)
    modPort s n fun p => enqueue (tc7On s n) p f

/-- R426 step 6: the addresses taken are announced on their ports. -/
def announceAll (s : State) : State :=
  (takeEntries s).foldl (fun s e => (List.range 8).foldl (fun s n => announceOn s n e) s) s

/-- R426: takeover. -/
def takeover (s : State) : State :=
  let s1 := modTwin s fun t => { t with state := .survivor, items := [] }
  let s2 := releaseHeld (modRing s1 tmrRing fun x => { x with held := true })
  let s3 := (takeEntries s2).foldl (fun s n =>
    setReg s (xptAddrCtl n) (setBits (reg s (xptAddrCtl n)) 15 1 1)) s2
  let s4 := postTwin ((standbyParts s3).foldl takePart s3) .survivor .paired
  let s5 := (standbyParts s4).foldl (fun s p =>
    post s (eqOf p) 0x71 0 (BitVec.ofNat 64 (sourcePart s p)) s.twin.peer) s4
  if (reg s5 twinCtl).getLsbD 1 then
    modTwin (announceAll s5) fun t => { t with announces := 2, annAt := fdTime s }
  else s5

/-- R425: TWIN_HB has been inactive for 20 us while this side releases it. -/
def hbGone (s : State) : Bool := s.twin.hbInactive && decide (s.twin.hbSince + 30000 ≤ fdTime s)

/-- R425: no valid twin frame for a number of microseconds. -/
def twinQuiet (s : State) (us : Nat) : Bool := decide (s.twin.rxAt + us * 1500 ≤ fdTime s)

/-- The partner has failed, or the link. -/
def pairFails (s : State) (partner : Bool) : State :=
  match s.twin.state with
  | .syncing => failSync s 0x01
  | .paired =>
    if s.twin.unpairAq.isSome then finishUnpair s
    else if partner ∧ (reg s twinCtl).getLsbD 0 then takeover s
    else endPair s .alone
  | _ => s

/-- TWIN_FAILURE_DETECT (R425, R428). -/
def execTwinFailureDetect (s : State) : Res :=
  .next (if !mirroring s ∨ s.twin.hbLow ∨ s.err.fatal then s
    else if hbGone s then
      (if twinQuiet s 20 then xptDone s (pairFails s true) else post s (eqOf 0) 0x72 0 0 0)
    else if twinQuiet s 50 then xptDone s (pairFails s false)
    else s)

/-- TAKEOVER_ANNOUNCE (R426): again at 1 ms and at 2 ms. -/
def execTakeoverAnnounce (s : State) : Res :=
  .next (if s.twin.announces = 0 ∨ s.twin.state ≠ .survivor ∨ s.err.fatal ∨
      fdTime s < s.twin.annAt + (3 - s.twin.announces) * 1500000 then s
    else modTwin (announceAll s) fun t => { t with announces := t.announces - 1 })

/-! The pair key (R430). -/

/-- TWIN_KEY_LOAD (R430): TWIN_KCTL is written with LOAD. Frames are counted anew, and outside a
pairing numbered anew. -/
def execTwinKeyLoad (s : State) : Res :=
  .next (if !bar0 s then s
    else modTwin s fun t =>
      let u : Twin := { t with
        key := some (stagedKey t.k256 t.stage), stage := [0, 0, 0, 0], used := false, tx := 0 }
      if mirroring s then u
      else { u with txNext := 0, ackIn := 0, items := [], rxNext := 0, reported := 0 })

/-- TWIN_KEY_CLR (R430): ignored unless UNPAIRED. -/
def execTwinKeyClr (s : State) : Res :=
  .next (if !bar0 s ∨ s.twin.state ≠ .unpaired then s
    else modTwin s fun t => { t with key := none, stage := [0, 0, 0, 0] })

end Sys2Proof.Machine
end

