-- ==== Sys2Proof/Machine/ErrSteps.lean ====
section
/-! DEFINITION. Errors that the hardware detects, fences that do not end, and the release of records (R450
to R461). -/

namespace Sys2Proof.Machine

/-- ERR_HEAD. -/
def errHead : Nat := 0x0030010

/-- The record of an error that a unit detects. -/
def detected (code unit inst : Nat) (part : Option Nat) (st : BitVec 8) (addr : Nat) (data0 : Word) :
    ErrInfo :=
  { code := code, unit := unit, inst := inst, part := part, status := st, addr := addr, isVa := false
    ctx := 0, data0 := data0 }

/-- CORR_ECC (R134): the word is corrected and counted. -/
def detectCorr (s : State) (unit inst addr : Nat) : State :=
  let s1 := bump s xuScrubStat 32 32 1
  let s2 := if wordCheck s1 addr = .single then setCheck s1 addr .good else s1
  recordError s2 (detected 0x01 unit inst (granuleOwner s addr) 0 addr 0)

/-- UNCORR_DATA of a word (R135): the word is poisoned. -/
def detectWord (s : State) (unit inst addr : Nat) : State :=
  let s1 := bump (setCheck s addr .poison) xuScrubStat 0 32 1
  recordError s1 (detected 0x02 unit inst (granuleOwner s addr) 0 addr 0)

/-- UNCORR_DATA of a Firkin context (R241): its queue pair enters ERROR with ST_POISON, and its queued
packets are dropped. -/
def detectContext (s : State) (inst p n : Nat) : State :=
  let s1 := recordError s (detected 0x02 0x0A inst (some p) 0x0D 0 (BitVec.ofNat 64 n))
  if (qp s1 (qpKey p n)).state = .none then s1
  else enterError (dropMissed s1 (qpKey p n)) (qpKey p n) 0x22 0x0D

/-- SYNC_UNCORR (R155): the count, or the attribute word, of an object. -/
def detectSync (s : State) (i : Nat) (attr : Bool) : State :=
  let o := syncObj s i
  let o1 : SyncObj := if attr then { o with badAttr := .uncorrectable }
    else { o with badCount := .uncorrectable }
  checkSync (setSync s i o1) i

/-- FRAME_UNCORR: a packet of port `n` is dropped, from its transmit buffer or of those received. -/
def detectFrame (s : State) (unit n : Nat) (rx : Bool) (idx : Nat) : State :=
  let mine := s.arrived.filter fun p => p.port == n
  let s1 := if rx then
      match mine[idx]? with
      | some p => { s with arrived := s.arrived.erase p }
      | none => s
    else afterRoom (modPort s n fun p => { p with txq := p.txq.eraseIdx idx }) n
  recordError s1 (detected 0x09 unit n none 0 0 0)

/-- What a unit does about an error that it detects (R450). -/
def detectError (s : State) (code unit inst : Nat) (part : Option Nat) (addr : Nat) (flag : Bool)
    (data0 : Word) : State :=
  match code with
  | 0x01 => detectCorr s unit inst addr
  | 0x02 =>
    if unit = 0x0A then detectContext s inst (part.getD 0) (bits data0 0 22)
    else detectWord s unit inst addr
  | 0x08 => detectSync s (bits data0 0 20) flag
  | 0x09 => detectFrame s unit inst flag addr
  | 0x0F => tripStandby s (bits data0 0 5)
  | _ => recordError s (detected code unit inst part 0 addr data0)

/-- ERROR_DETECT (R450 to R459): a unit detects an error, at a physical address where it concerns a
word, at an index among a port's packets where it concerns one; `flag` names an attribute word, or the
receive side. -/
def execErrorDetect (code unit inst : Nat) (part : Option Nat) (addr : Nat) (flag : Bool) (data0 : Word)
    (s : State) : Res :=
  .next (if !powered s ∨ code = 0 ∨ 0x10 < code then s
    else xptDone s (detectError s code unit inst part addr flag data0))

/-- FENCE_TIMEOUT (R458): the fence of partition `p` has not completed in 100 ms. -/
def execFenceTimeout (p : Nat) (s : State) : Res :=
  .next (match s.err.fences.find? fun f => f.1 == p with
    | none => s
    | some f =>
      if s.err.fatal ∨ fdTime s < f.2.2.1 + 150000000 then s
      else recordError s (detected 0x10 0x11 0 (some p) 0 0 0))

/-- MP_HANG (R450, R460): hart `h` has not served its watchdog for 100 ms. -/
def execMpHang (h : Nat) (s : State) : Res :=
  .next (if !powered s then s else recordError s (detected 0x0C 0x11 h none 0 0 0))

/-- ERR_HEAD_WRITE (R454, R455, R461): records are released; a value beyond TAIL or below the last is
ignored. Records dropped meanwhile are told of once there is room. -/
def execErrHeadWrite (v : Word) (s : State) : Res :=
  let h : BitVec 32 := v.setWidth 32
  .next (if !powered s ∨ (s.err.tail - s.err.head).toNat < (h - s.err.head).toNat then s
    else
      let n := s.err.dropped
      let s1 := { s with err := { s.err with head := h } }
      if n = 0 ∨ (s.err.tail - h).toNat = 256 then s1
      else mpPost { s1 with err := { s1.err with dropped := 0, firstDropped := 0 } }
        { eq := eqOf 0, code := 0x82, source := 0, data0 := BitVec.ofNat 64 n
          data1 := BitVec.ofNat 64 s.err.firstDropped })

end Sys2Proof.Machine
end

