-- ==== Sys2Proof/Machine/XuSteps.lean ====
section
/-! DEFINITION. Invalidation of cached translations and owner entries, and scrubbing (R119 to R121,
R137, R350). -/

namespace Sys2Proof.Machine

/-- XU_INV_VA and XU_INV_CTL in PF0 (R120); a VF's copies are at the offsets of R341. -/
def xuInvVa (fn : Nat) : Nat := if fn = 0 then 0x0501000 else regKey fn 0x2000
def xuInvCtl (fn : Nat) : Nat := if fn = 0 then 0x0501008 else regKey fn 0x2008

/-- Page size of XU_INV_CTL.SIZE. -/
def sizeOfCode (n : Nat) : PageSize :=
  match n with
  | 0 => .k4 | 1 => .k64 | 2 => .m2 | _ => .g1

/-- A cached translation that an invalidation covers (R120). -/
def invCovers (i : Invalidation) (e : TlbEntry) : Bool :=
  e.part == i.part &&
    (match i.scope with
      | .part => true
      | .ctx => e.ctx == i.ctx
      | .page =>
        let lo := i.va.toNat / pageBytes i.size * pageBytes i.size
        let elo := e.page * pageBytes e.size
        e.ctx == i.ctx && decide (elo < lo + pageBytes i.size ∧ lo < elo + pageBytes e.size)
      | .owner => false)

/-- An address of context `c` of partition `p` that an invalidation concerns: it lies in what the scope
names, or in an entry that has been dropped. -/
def invConcerns (i : Invalidation) (p : Nat) (c : BitVec 20) (va : Nat) : Bool :=
  i.part == p &&
    (match i.scope with
      | .part => true
      | .ctx => i.ctx == c
      | .page => i.ctx == c && (va / pageBytes i.size == i.va.toNat / pageBytes i.size ||
          i.dropped.any fun e => va / pageBytes e.size == e.page)
      | .owner => false)

/-- R120: a thread in SPIN whose translation has been dropped translates its next retry anew. -/
def staleSpin (i : Invalidation) (g : Grid) (th : Thread) : Thread :=
  { th with spin := th.spin.map fun x =>
      { x with stale := x.stale || invConcerns i g.part g.ctx x.va.toNat } }

/-- Drop what an invalidation covers (R120, R121, R350 step 1). -/
def invDrop (s : State) (i : Invalidation) : State :=
  match i.scope with
  | .owner => { s with owners := tdel (granuleIndex i.va.toNat) s.owners }
  | _ => { s with
      tlb := s.tlb.filter fun e => !invCovers i e
      threads := s.threads.map fun x => (x.1, staleSpin i (grid s x.2.grid) x.2) }

/-- R152: a context is taken as destroyed by an invalidation of it, or of its partition, that finds no
root in its context-table entry (log entry 67). -/
def contextGone (s : State) (p : Nat) (c : BitVec 20) : Bool :=
  let cb := reg s (xuCtxtBase p)
  !cb.getLsbD 5 || decide (2 ^ min 20 (bits cb 0 5) ≤ c.toNat) ||
    !(BitVec.ofNat 64 (leNat (peek s (bits cb 12 36 * 4096 + 16 * c.toNat) 8)) : Word).getLsbD 0

/-- R152: revoke the objects of the contexts that an invalidation finds destroyed. -/
def revokeGone (s : State) (i : Invalidation) : State :=
  if i.scope = .ctx ∨ i.scope = .part then
    { s with syncs := s.syncs.map fun x =>
        let o := x.2
        if o.part.toNat = i.part ∧ (i.scope = .part ∨ o.ctx = i.ctx) ∧ !o.anyCtx ∧
            (o.state = .live ∨ o.state = .frozen) ∧ contextGone s i.part o.ctx then
          (x.1, revokeObj o) else x }
  else s

/-- Begin an invalidation: it notes the entries that it drops, for the accesses under them. -/
def invBegin (s : State) (i : Invalidation) : State :=
  let j := { i with dropped := s.tlb.filter (invCovers i) }
  let s1 := revokeGone (invDrop s j) j
  { s1 with invs := s1.invs ++ [j] }

/-- A function's invalidation is in progress: GO reads 1. -/
def invBusy (s : State) (fn : Nat) : Bool := s.invs.any fun i => i.who == fn

/-- Start an invalidation of function `fn` with the fields of its registers. -/
def invStart (s : State) (fn : Nat) (scope : InvScope) : State :=
  let c := tget (regReset (xuInvCtl fn)) s.regs (xuInvCtl fn)
  let i : Invalidation :=
    { who := fn, scope := scope, part := if fn = 0 then bits c 32 7 else fn
      ctx := c.setWidth 20, va := tget 0 s.regs (xuInvVa fn), size := sizeOfCode (bits c 24 2)
      dropped := [] }
  if invBusy s fn ∨ !bar0 s ∨ 64 < fn ∨ (scope = .owner ∧ fn ≠ 0) then s else invBegin s i

/-- INV_PAGE (R120): GO with SCOPE 0b00 of function `fn`. -/
def execInvPage (fn : Nat) (s : State) : Res := .next (invStart s fn .page)

/-- INV_CTX (R120): GO with SCOPE 0b01. -/
def execInvCtx (fn : Nat) (s : State) : Res := .next (invStart s fn .ctx)

/-- INV_PART (R120): GO with SCOPE 0b10. -/
def execInvPart (fn : Nat) (s : State) : Res := .next (invStart s fn .part)

/-- INV_OWNER (R120, R121): GO with SCOPE 0b11, PF0 only. -/
def execInvOwner (fn : Nat) (s : State) : Res := .next (invStart s fn .owner)

/-- Who of an ATS Invalidation Request. -/
def atsWho : Nat := 65

/-- ATS_INVALIDATE (R350): an ATS Invalidation Request from the host for a function's host-range
addresses drops the translations of its partition's page. -/
def execAtsInvalidate (p : Nat) (va : Word) (s : State) : Res :=
  let i : Invalidation :=
    { who := atsWho, scope := .part, part := p, ctx := 0, va := va, size := .k4, dropped := [] }
  let s1 := invDrop s i
  .next { s1 with invs := s1.invs ++ [i] }

/-- An operation in flight under a translation that an invalidation covers (R350 step 3). -/
def opCovered (s : State) (i : Invalidation) (th : Thread) (o : Op) : Bool :=
  let g := gridOf s th
  o.phase == .flight &&
    (match o.kind with
      | .load => true | .vload => true | .sig => true | .sread => true | _ => false) &&
    (match i.scope with
      | .owner => granuleIndex o.pa == granuleIndex i.va.toNat
      | _ => invConcerns i g.part g.ctx o.va.toNat)

/-- Every access that started before the invalidation has completed or failed. -/
def invDrained (s : State) (i : Invalidation) : Bool :=
  s.threads.all fun t => t.2.ops.all fun o => !opCovered s i t.2 o

/-- INVALIDATION_COMPLETE (R350): GO of function `who` clears, or for an ATS request (`who` 65) its
completion is sent. -/
def execInvalidationComplete (who : Nat) (s : State) : Res :=
  .next (match s.invs.find? fun i => i.who == who with
    | none => s
    | some i =>
      if invDrained s i then { s with invs := s.invs.erase i } else s)

/-- SCRUB_LINE (R134, R135, R137): one 64 B line of LPDDR5X or stacked SRAM is read, checked and
written back; paused in Doze and Standby. -/
def execScrubLine (pa : Nat) (s : State) : Res :=
  let ctl := reg s xuScrubCtl
  let on : Bool := match regionOf pa with
    | .lpddr => ctl.getLsbD 0
    | .sram => ctl.getLsbD 1
    | _ => false
  .next (if on ∧ (s.sched.power = .full ∨ s.sched.power = .trim) then
      (checkWords s (pa / 64 * 64) 8).2 else s)

end Sys2Proof.Machine
end

