-- ==== Sys2Proof/Machine/RegSteps.lean ====
section
/-! DEFINITION. Writes of registers (R4 to R6, R169, R341, R376, R389): those of
REGISTER_WRITE and of the settings blob (R444). -/

namespace Sys2Proof.Machine

/-- Act as a row of the table does. -/
def asRow (f : State → Res) (s : State) : State := resState s (f s)

/-- R4, R6: the fields of a register that a write sets. -/
def plainWrite (s : State) (key : Nat) (v : Word) : State :=
  match specOf key with
  | none => s
  | some r =>
    let m : Word := BitVec.ofNat 64 r.rw
    setReg s key ((tget (regReset key) s.regs key &&& ~~~m) ||| (v &&& m))

/-! Ring blocks (R168 to R170). -/

/-- RING_POLL: in every state of every ring; the next poll applies it (R169). -/
def pollWrite (s : State) (r : Nat) (v : Word) : State :=
  modRing s r fun x =>
    { x with pollK := bits v 0 5, cont := v.getLsbD 5, emptyN := bits v 8 8, capK := bits v 16 5 }

/-- R169: the other fields of a privileged ring, while IDLE. -/
def setupWrite (s : State) (r off : Nat) (v : Word) : State :=
  if (privRing r).isNone ∨ (ring s r).state ≠ .idle then s
  else match off with
    | 0x00 => modRing s r fun x => { x with base := v &&& BitVec.ofNat 64 (fieldMask 56 6) }
    | 0x08 => modRing s r fun x => { x with
        ctx := v.extractLsb' 40 20, log2sz := bits v 16 5, hrK := bits v 11 5, visible := v.getLsbD 1 }
    | 0x28 => modRing s r fun x => { x with sync := v &&& BitVec.ofNat 64 (fieldMask 56 3) }
    | 0x30 => modRing s r fun x => { x with rpt := v &&& BitVec.ofNat 64 (fieldMask 56 3) }
    | _ => s

/-- A write in a ring's block. -/
def ringWrite (s : State) (r off : Nat) (v : Word) : State :=
  if off = 0x18 then pollWrite s r v
  else if off = 0x10 then (if v.getLsbD 0 then asRow (execRingStartPriv r) s else s)
  else setupWrite s r off v

/-! Key pages (R327). -/

/-- Replace one of four words. -/
def putWord (ws : List Word) (i : Nat) (v : Word) : List Word :=
  (List.range 4).map fun j => if j = i then v else ws.getD j 0

/-- KS_CTL: K256 first, then what the set bits ask for. -/
def ksCtlWrite (s : State) (fn i : Nat) (v : Word) : State :=
  let s1 := modSlot s (slotKey fn i) fun x => { x with k256 := v.getLsbD 0 }
  let s2 := if v.getLsbD 63 then asRow (execTxload fn i) s1 else s1
  let s3 := if v.getLsbD 62 then asRow (execRxload fn i) s2 else s2
  if v.getLsbD 61 then asRow (execKsClr fn i) s3 else s3

/-- A write in a function's key page. -/
def keyPageWrite (s : State) (fn off : Nat) (v : Word) : State :=
  let i := off / 128
  let o := off % 128
  if o < 0x20 then modSlot s (slotKey fn i) fun x => { x with stageTx := putWord x.stageTx (o / 8) v }
  else if o < 0x40 then
    modSlot s (slotKey fn i) fun x => { x with stageRx := putWord x.stageRx ((o - 0x20) / 8) v }
  else if o = 0x40 then ksCtlWrite s fn i v
  else s

/-! Ports (R318). -/

/-- PORT_RXREL (R304): a value below the last, or above the delivered count, is ignored. -/
def rxrelWrite (s : State) (n : Nat) (v : Word) : State :=
  modPort s n fun p =>
    let rel := p.rel + (v.setWidth 32 - BitVec.ofNat 32 p.rel).toNat
    if rel ≤ p.delivered then { p with rel := rel } else p

/-- The raw transmit window (R300). -/
def rawWindowWrite (s : State) (n off : Nat) (v : Word) : State :=
  if (portOf s n).rawGo then s
  else modPort s n fun p => { p with
    rawWin := ((List.range 8).zip (leBytes 8 v.toNat)).foldl (fun w x => tset 0 w (off + x.1) x.2)
      p.rawWin }

/-- PORT_LPI (R314): a change of RXTW makes an LLDPDU due. -/
def lpiWrite (s : State) (n : Nat) (v : Word) : State :=
  let old := bits (reg s (lpiReg n)) 32 16
  let s1 := plainWrite s (lpiReg n) v
  if bits v 32 16 = old then s1 else modPort s1 n fun p => { p with lldpDue := true }

/-- A gate-list register (R309). -/
def gclWrite (s : State) (n off : Nat) (v : Word) : State :=
  if (portOf s n).gclSwitch.isSome then s else plainWrite s (portReg n off) v

/-- A write in a port's region. -/
def portWrite (s : State) (n off : Nat) (v : Word) : State :=
  if 0x4000 ≤ off ∧ off < 0x8000 then rawWindowWrite s n (off - 0x4000) v
  else if 0x200 ≤ off ∧ off < 0x400 then gclWrite s n off v
  else match off with
    | 0x08 => asRow (execPortModeWrite n v) s
    | 0x28 => if v.getLsbD 32 then asRow (execRxcqEnable n v) s else plainWrite s (portReg n off) v
    | 0x38 => rxrelWrite s n v
    | 0x40 =>
      if v.getLsbD 63 then asRow (execRawTransmit n v) s
      else if (portOf s n).rawGo then s
      else plainWrite s (portReg n off) v
    | 0x58 => lpiWrite s n v
    | 0x60 => if v.getLsbD 0 then asRow (execSyncArm n) s else s
    | 0x100 =>
      if v.getLsbD 62 then asRow (execGclAbort n v) s
      else if v.getLsbD 63 then asRow (execGclChange n v) s
      else gclWrite s n off v
    | 0x108 => gclWrite s n off v
    | 0x110 => gclWrite s n off v
    | _ => plainWrite s (portReg n off) v

/-! Other regions. -/

/-- HA_RET (R364): a region beyond the top clears EN. -/
def haRetWrite (s : State) (v : Word) : State :=
  let s1 := plainWrite s haRet v
  if 4095 < bits v 0 12 + bits v 32 12 then setReg s1 haRet (setBits (reg s1 haRet) 63 1 0) else s1

/-- The mailbox (R433, R434): while a command waits its registers are not written; an operation that
is not listed completes as malformed. -/
def mboxWrite (s : State) (off : Nat) (v : Word) : State :=
  if s.boot.start.isSome then s
  else
    let s1 := plainWrite s off v
    if off = 0x0010000 ∧ v.getLsbD 63 ∧ !decide (1 ≤ bits v 0 8 ∧ bits v 0 8 ≤ 7) then
      { s1 with boot := { s1.boot with status := 0x02, info := 0 } }
    else s1

/-- The twin registers (R422, R430). -/
def twinWrite (s : State) (off : Nat) (v : Word) : State :=
  if 0x0040020 ≤ off ∧ off < 0x0040040 then
    modTwin s fun t => { t with stage := putWord t.stage ((off - 0x0040020) / 8) v }
  else if off = 0x0040040 then
    let s1 := modTwin s fun t => { t with k256 := v.getLsbD 0 }
    let s2 := if v.getLsbD 63 then asRow execTwinKeyLoad s1 else s1
    if v.getLsbD 62 then asRow execTwinKeyClr s2 else s2
  else if 0x0040100 ≤ off ∧ s.twin.state ≠ .unpaired then s
  else
    let s1 := plainWrite s off v
    if 0x0040400 ≤ off ∧ off < 0x0040500 ∧ off % 16 = 0 ∧ bits v 0 16 = 0 then
      setReg s1 off (setBits (reg s1 off) 63 1 0)
    else s1

/-- PWR_STATE.REQ (R402, R411). -/
def reqWrite (s : State) (v : Word) : State :=
  match bits v 0 3 with
  | 0 => asRow execReqFull s
  | 1 => asRow execReqTrim s
  | 2 => asRow execReqDoze s
  | 3 => asRow execReqStandby s
  | _ => s

/-- XU_INV_VA and XU_INV_CTL (R120): not while GO reads 1; with GO, the invalidation starts. -/
def invWrite (s : State) (fn key : Nat) (v : Word) : State :=
  if invBusy s fn then s
  else
    let s1 := plainWrite s key v
    if key = xuInvCtl fn ∧ v.getLsbD 63 then
      (match bits v 26 2 with
        | 0 => asRow (execInvPage fn) s1
        | 1 => asRow (execInvCtx fn) s1
        | 2 => asRow (execInvPart fn) s1
        | _ => asRow (execInvOwner fn) s1)
    else s1

/-- FQ_RESOLVE (R355). -/
def resolveWrite (s : State) (v : Word) : State :=
  match bits v 62 2 with
  | 1 => asRow (execFqRetry (bits v 32 7) (bits v 0 12)) s
  | 2 => asRow (execFqFail (bits v 32 7) (bits v 0 12)) s
  | _ => s

/-- General rings of a partition that are not IDLE. -/
def holdsRing (s : State) (p : Nat) : Bool :=
  s.rings.any fun x => decide (0x200 ≤ x.1) && x.2.part == p && x.2.state != .idle

/-- PT_VFMAP (R389): ignored while the partition holds a general ring, and where a field is out of its
range. -/
def vfmapWrite (s : State) (p : Nat) (v : Word) : State :=
  let rb := bits v 48 16
  let sw := bits v 28 20
  if holdsRing s p ∨ rb < 0x200 ∨ 0xFFFF < rb + 1791 ∨ sw % 512 ≠ 0 ∨ 1048575 < sw + 32767 then s
  else plainWrite s (ptReg p 0x38) v

/-- The partition registers (R376, R389). A new key table is zero. -/
def partWrite (s : State) (off : Nat) (v : Word) : State :=
  if off = partPrebase then
    if preEnabled s then setReg s off (setBits (reg s off) 63 1 (bits v 63 1)) else plainWrite s off v
  else
    let p := (off - 0x0601000) / 256
    match (off - 0x0601000) % 256 with
    | 0x08 => if s.qps.any fun x => qpPart x.1 == p then s else plainWrite s off v
    | 0x10 =>
      if s.keys.any fun x => x.1 / 2 ^ 24 == p && x.2.live then s
      else
        let s1 := plainWrite s off v
        { s1 with keys := s1.keys.filter fun x => x.1 / 2 ^ 24 != p }
    | 0x38 => vfmapWrite s p v
    | _ => plainWrite s off v

/-- The DBG region (R87): DBG_CTL's bits, DBG_SEL and the windows. While BUSY reads 1, DBG_CTL and
DBG_SEL are not written. -/
def dbgWrite (s : State) (off : Nat) (v : Word) : State :=
  if off = 8 then
    let s1 := if v.getLsbD 63 then asRow execDbgHaltCmd s else s
    let s2 := if v.getLsbD 62 then asRow execDbgResume s1 else s1
    if v.getLsbD 61 then asRow execDbgStep s2 else s2
  else if off = 0 then (if dbgBusy s then s else plainWrite s dbgSel v)
  else asRow (execDbgWindowWrite off v) s

/-- A write in PF0's BAR0 (R9). -/
def pf0Write (s : State) (off : Nat) (v : Word) : State :=
  if off = haPolicy then (if v.getLsbD 1 then asRow (execPolicyResume v) s else plainWrite s off v)
  else if off = haRet then haRetWrite s v
  else if 0x0010000 ≤ off ∧ off < 0x0020000 then mboxWrite s off v
  else if off = pwrState then reqWrite s v
  else if 0x0028000 ≤ off ∧ off < 0x0029000 then writeGl s (off - 0x0020000) v
  else if off = errHead then asRow (execErrHeadWrite v) s
  else if 0x0040000 ≤ off ∧ off < 0x0050000 then twinWrite s off v
  else if 0x0100000 ≤ off ∧ off < 0x0200000 then
    portWrite s ((off - 0x0100000) / 0x20000) (off % 0x20000) v
  else if off = xptTc7 then (List.range 8).foldl afterRoom (plainWrite s off v)
  else if 0x0280000 ≤ off ∧ off < 0x02C0000 then keyPageWrite s 0 (off - 0x0280000) v
  else if off = 0x0501000 ∨ off = 0x0501008 then invWrite s 0 off v
  else if off = 0x0502000 then resolveWrite s v
  else if 0x0600000 ≤ off ∧ off < 0x0700000 then partWrite s off v
  else if 0x1000000 ≤ off ∧ off < 0x2000000 then
    ringWrite s ((off - 0x1000000) / 256) (off % 256) v
  else if 0x2000000 ≤ off then dbgWrite s (off - 0x2000000) v
  else plainWrite s off v

/-- The ring whose block lies at an offset of VFn's BAR0, and the offset within it (R341). -/
def vfRingAt (s : State) (n off : Nat) : Option (Nat × Nat) :=
  if 0x1000 ≤ off ∧ off < 0x1100 then some (2 * n, off - 0x1000)
  else if 0x1100 ≤ off ∧ off < 0x1200 then some (2 * n + 1, off - 0x1100)
  else if 0x1200 ≤ off ∧ off < 0x1300 then some (eqOf n, off - 0x1200)
  else if 0x90000 ≤ off ∧ off < 0x100000 then some (vfRbase s n + (off - 0x90000) / 256, off % 256)
  else none

/-- A write in VFn's BAR0 (R341). -/
def vfWrite (s : State) (n off : Nat) (v : Word) : State :=
  if off = 0x2000 ∨ off = 0x2008 then invWrite s n (regKey n off) v
  else if 0x10000 ≤ off ∧ off < 0x50000 then keyPageWrite s n (off - 0x10000) v
  else if 0x50000 ≤ off ∧ off < 0x90000 then
    asRow (execSyncWindowWrite n ((off - 0x50000) / 8) v) s
  else match vfRingAt s n off with
    | some (r, o) => ringWrite s r o v
    | none => plainWrite s (regKey n off) v

/-- A function whose registers are reached: PF0, or a VF that is enabled (R369). -/
def fnReached (s : State) (fn : Nat) : Bool :=
  fn == 0 || (decide (fn ≤ 64) && (partition s fn).state != .idle)

/-- R460: where a write is acted on in the fatal state. -/
def fatalWrites (fn off : Nat) : Bool :=
  fn == 0 && (off == errHead || off == pwrState || decide (0x2000000 ≤ off))

/-- Any register write. -/
def regWrite (s : State) (fn off : Nat) (v : Word) : State :=
  if off % 8 ≠ 0 ∨ !powered s ∨ !fnReached s fn ∨ (s.err.fatal ∧ !fatalWrites fn off) then s
  else if fn = 0 then (if off < 2 ^ 26 then pf0Write s off v else s)
  else if off < 2 ^ 20 then vfWrite s fn off v
  else s

end Sys2Proof.Machine
end

