-- ==== Sys2Proof/Machine/RegViews.lean ====
section
/-! DEFINITION. Registers as they read, and READ_CLEAR_REGISTER (R4 to R6). -/

namespace Sys2Proof.Machine

/-- A field of a value at a bit. -/
def fld (lo v : Nat) : Nat := v * 2 ^ lo

/-! GCTL and MBOX (R10, R364, R433, R481). -/

/-- GCTL registers. -/
def gctlView (s : State) (off : Nat) : Nat :=
  let r := (reg s off).toNat
  match off with
  | 0x0000 => fld 32 Config.step.toNat + fld 16 0x0840 + 0x1E5B
  | 0x0008 => Config.serial.toNat
  | 0x0100 => fld 4 (0x48 + Config.pos.toNat) + Config.pos.toNat
  | 0x8000 =>
    r + flagBit s.linkUp 16 + fld 12 s.host.proto + fld 8 s.host.width + s.host.speed
  | _ => r

/-- MB_STAT.BOOTST. -/
def bootCode (s : State) : Nat :=
  if s.err.fatal then 4
  else match s.boot.st with
    | .rom => 0 | .starting => 1 | .service => 2

/-- The security version in a manifest (R435). -/
def manifestSvn (m : List Byte) : Nat := leNat ((m.drop 0x0C).take 2)

/-- MBOX registers. -/
def mboxView (s : State) (off : Nat) : Nat :=
  let b := s.boot
  match off with
  | 0x0010000 => flagBit b.start.isSome 63 + (reg s off).toNat
  | 0x0010020 => fld 48 b.status.toNat + fld 40 (bootCode s) + b.info
  | 0x0010028 =>
    fld 48 ((b.active.map manifestSvn).getD 0) + fld 32 b.floor +
      fld 16 ((b.staged.map manifestSvn).getD 0) + flagBit b.staged.isSome 15 +
      flagBit (b.st == .rom && b.retained.isSome) 14 + b.present.length
  | _ => (reg s off).toNat

/-! PWR (R392, R411). -/

/-- PWR_CAL[i]. -/
def calView (s : State) (i : Nat) : Nat := nominalEnergy i * s.sched.calF / 128

/-- PWR registers below Gill's. -/
def pwrView (s : State) (o : Nat) : Nat :=
  let r := (reg s (0x0020000 + o)).toNat
  if o = 0x008 then
    r + fld 8 (powerCode s.sched.power) + fld 32 (throttleWord s)
  else if o = 0x018 then
    fld 32 s.sched.window + fld 16 s.sched.moduleLast +
      (fixedReserve + ((List.range 4).map (idleOf s)).foldl (· + ·) 0 + reserveAll s) % 32768
  else if 0x020 ≤ o ∧ o < 0x048 then
    let d := (o - 0x020) / 8
    r + fld 16 (tget 0 s.sched.dieLast d % 32768) + fld 32 (reserveDie s d % 32768)
  else if 0x100 ≤ o ∧ o < 0x308 then
    let p := (o - 0x100) / 8
    r + flagBit (s.sched.partPaced.contains p) 15 + fld 16 (tget 0 s.sched.partLast p % 32768) +
      fld 32 (reservePart s p % 32768)
  else if o = 0x408 then s.sched.calF
  else if 0x480 ≤ o ∧ o < 0x500 then calView s ((o - 0x480) / 8)
  else r

/-! ERR (R452, R462). -/

/-- A word of a record, if there is one. -/
def recWord (e : Option ErrRec) (k : Nat) : Nat :=
  match e with
  | some r => errWord r k
  | none => 0

/-- ERR registers. -/
def errView (s : State) (o : Nat) : Nat :=
  if o = 0x008 then
    flagBit s.err.fatal 63 + fld 32 (s.err.tail - s.err.head).toNat + s.err.tail.toNat
  else if o = 0x010 then s.err.head.toNat
  else if 0x100 ≤ o ∧ o < 0x140 then recWord s.err.firstFatal ((o - 0x100) / 8)
  else if 0x1000 ≤ o ∧ o < 0x5000 then
    recWord (tfind s.err.queue ((o - 0x1000) / 64)) (o / 8 % 8)
  else (reg s (0x0030000 + o)).toNat

/-! TWIN (R430). -/

/-- TWIN registers. -/
def twinView (s : State) (o : Nat) : Nat :=
  let t := s.twin
  match o with
  | 0x008 =>
    (reg s twinStat).toNat + flagBit (gillInput s 2).level 4 + flagBit t.link 3 + twinCode t.state
  | 0x010 => t.peer.toNat
  | 0x018 => t.epoch.toNat
  | 0x040 => flagBit t.used 2 + flagBit t.key.isSome 1 + flagBit t.k256 0
  | _ => (reg s (0x0040000 + o)).toNat

/-! PORT (R318). -/

/-- Lanes of a mode (R290). -/
def modeLanes (m : Nat) : Nat :=
  match m with
  | 1 => 8 | 2 => 4 | 3 => 8 | 4 => 2 | 5 => 4 | 6 => 2 | 7 => 1 | _ => 0

/-- An entry of a gate list as a register. -/
def gclWord (e : GclEntry) : Nat := flagBit e.open7 31 + flagBit e.excl 30 + e.interval

/-- PORT_STAT. -/
def portStat (s : State) (n : Nat) : Nat :=
  let p := portOf s n
  let an := (reg s (portReg n 0x08)).getLsbD 8
  if !p.link then flagBit (Config.lpiStd (portMode s n)) 4
  else
    fld 28 p.actMode + fld 16 (2 ^ modeLanes p.actMode - 1) + flagBit (Config.lpiStd p.actMode) 4 +
      flagBit p.lpiRx 3 + flagBit p.lpiTx 2 + flagBit an 1 + 1

/-- A register of a port. -/
def portView (s : State) (n o : Nat) : Nat :=
  let p := portOf s n
  let r := (reg s (portReg n o)).toNat
  if 0x4000 ≤ o ∧ o < 0x8000 then leNat ((List.range 8).map fun i => tget 0 p.rawWin (o - 0x4000 + i))
  else if 0x400 ≤ o ∧ o < 0x600 then ((p.gclOper[(o - 0x400) / 8]?).map gclWord).getD 0
  else match o with
    | 0x10 => portStat s n
    | 0x28 => if (reg s (rxcqReg n)).getLsbD 32 ∧ !rxEnabled s n then r - 2 ^ 32 else r
    | 0x38 => p.rel % 2 ^ 32
    | 0x40 => flagBit p.rawGo 63 + r
    | 0x58 => fld 16 p.txtw + flagBit p.neg 4 + r
    | 0x60 => flagBit p.syncValid 1 + flagBit p.syncArm 0
    | 0x68 => p.syncCap
    | 0x70 => portTime s n
    | 0x100 => flagBit p.gclSwitch.isSome 63 + r
    | 0x118 =>
      flagBit p.gclSwitch.isSome 63 + flagBit p.gclErr 62 + fld 48 p.gclOper.length + fld 32 p.gclCur
    | 0x120 => p.gclSwt
    | _ => r

/-! Key pages, XPT, BSH, CRD, XU (R120, R247, R271, R289, R327). -/

/-- KS_STAT. -/
def ksStat (x : KeySlot) : Nat :=
  flagBit x.bound.isSome 63 + flagBit x.tx.isSome 62 + flagBit x.rx.isSome 61 + flagBit x.txUsed 60 +
    flagBit x.prev.isSome 59 + (x.bound.map qpNum).getD 0

/-- A register of a key page; no register returns key bits. -/
def keyPageView (s : State) (fn off : Nat) : Nat :=
  let x := keySlot s (slotKey fn (off / 128))
  match off % 128 with
  | 0x40 => flagBit x.k256 0
  | 0x48 => ksStat x
  | 0x50 => x.fail.toNat
  | _ => 0

/-- XU_INV_CTL; a VF's copy reads its own partition. -/
def invView (s : State) (fn key : Nat) : Nat :=
  let r := (tget (regReset key) s.regs key).toNat
  if key = xuInvCtl fn then flagBit (invBusy s fn) 63 + r + (if fn = 0 then 0 else fld 32 fn) else r

/-! PART (R367, R369, R389). -/

/-- Code of a partition state. -/
def partStateCode (x : PartState) : Nat :=
  match x with
  | .idle => 0 | .run => 1 | .preempted => 2 | .freezing => 3 | .frozen => 4 | .resetting => 5

/-- A register of a partition block. -/
def partBlockView (s : State) (p o : Nat) : Nat :=
  let x := partition s p
  match o with
  | 0x00 => fld 16 (coresOf s p).length + partStateCode x.state
  | 0x18 => quotaA x
  | 0x20 => quotaB x
  | 0x28 => fld 39 (keysUse s p) + fld 17 (qpsUse s p) + ringsUsed s p
  | 0x30 => syncUsed s p
  | _ => (reg s (ptReg p o)).toNat

/-- PT_CORE[c]. -/
def coreView (s : State) (c : Nat) : Nat :=
  match tget none s.coreOwner c with
  | some p => flagBit (s.sched.moving.contains c) 8 + flagBit true 7 + p
  | none => 0

/-- PART registers. -/
def partView (s : State) (o : Nat) : Nat :=
  if 0x1000 ≤ o ∧ o < 0x5100 then partBlockView s ((o - 0x1000) / 256) (o % 256)
  else if 0x8000 ≤ o ∧ o < 0xA000 then coreView s ((o - 0x8000) / 8)
  else (reg s (0x0600000 + o)).toNat

/-! DBG (R87, R89). -/

/-- DBG_STAT of the selected context. -/
def dbgStat (s : State) : Nat :=
  match selThread s with
  | none => flagBit (dbgBusy s) 63
  | some t =>
    let th := thread s t
    flagBit (dbgBusy s) 63 + flagBit (th.state == .halted && th.debug) 62 + fld 56 (threadStateCode th.state) +
      fld 48 (grid s th.grid).part

/-- The thread window: the record of the selected context. -/
def threadWindow (s : State) (o : Nat) : Nat :=
  match selThread s with
  | none => 0
  | some t =>
    let th := thread s t
    if th.state = .halted ∨ s.err.fatal then
      leNat (((threadRecord (tget Group.none s.groups th.group) th 0).drop o).take 8)
    else 0

/-- What a read in the DBG region returns (R87, R89); for local store, `dbgLocal` has the bytes. -/
def dbgView (s : State) (o : Nat) : Nat :=
  match selEngine s with
  | none => if o = 0 then (reg s dbgSel).toNat else if o = 0x10 then dbgStat s else 0
  | some e =>
    if o = 0 then (reg s dbgSel).toNat
    else if o = 0x10 then dbgStat s
    else if 0x1000 ≤ o ∧ o < 0x1580 then threadWindow s (o - 0x1000)
    else if 0x20000 ≤ o ∧ o < 0x40000 then
      (if engineStill s e then
        let k := e * 8 * 4096 + (o - 0x20000) / 4
        (tget 0 s.accs k).toNat + 2 ^ 32 * (tget 0 s.accs (k + 1)).toNat
      else 0)
    else 0

/-- A read of the local-store window of the DBG region (R89, R134, R135): the word is checked, and the
answer to a poisoned one, a completion with EP set, is the one byte 3. None for other offsets. -/
def dbgLocal (s : State) (o : Nat) : Option (List Byte × State) :=
  match selEngine s with
  | none => none
  | some e =>
    if 0x10000 ≤ o ∧ o < 0x18000 ∧ engineStill s e then
      let r := readMem s (localPa e (o - 0x10000)) 8
      some (if r.1 then ([3], r.2.2) else r.2)
    else none

/-! The whole map. -/

/-- What a register of PF0's BAR0 reads as (R9). -/
def pf0View (s : State) (off : Nat) : Nat :=
  if off < 0x0010000 then gctlView s off
  else if off < 0x0020000 then mboxView s off
  else if off < 0x0028000 then pwrView s (off - 0x0020000)
  else if off < 0x0030000 then readGl s (off - 0x0020000)
  else if off < 0x0040000 then errView s (off - 0x0030000)
  else if off < 0x0050000 then twinView s (off - 0x0040000)
  else if 0x0100000 ≤ off ∧ off < 0x0200000 then
    portView s ((off - 0x0100000) / 0x20000) (off % 0x20000)
  else if 0x0280000 ≤ off ∧ off < 0x02C0000 then keyPageView s 0 (off - 0x0280000)
  else if off = 0x0200310 then (fkPinned s).length
  else if off = 0x0300010 then
    fld 16 s.bushel.length + (s.bushel.filter fun x => x.2.run.isSome).length
  else if off = 0x0400018 then
    fld 16 (s.tags.filter fun x => x.2.inUse).length + s.binds.length
  else if off = 0x0501008 then invView s 0 off
  else if 0x0600000 ≤ off ∧ off < 0x0700000 then partView s (off - 0x0600000)
  else if 0x1000000 ≤ off ∧ off < 0x2000000 then
    let r := (off - 0x1000000) / 256
    ringReg (ringView s r) (off % 256)
  else if 0x2000000 ≤ off then dbgView s (off - 0x2000000)
  else (reg s off).toNat

/-- VF_ID (R341). -/
def vfIdView (s : State) (n : Nat) : Nat := fld 48 (vfRbase s n) + fld 28 (vfSwbase s n) + n

/-- What a register of VFn's BAR0 reads as. -/
def vfView (s : State) (n off : Nat) : Nat :=
  if off = 0 then vfIdView s n
  else if off = 0x2008 then invView s n (regKey n off)
  else if 0x10000 ≤ off ∧ off < 0x50000 then keyPageView s n (off - 0x10000)
  else match vfRingAt s n off with
    | some (r, o) => ringReg (ringView s r) o
    | none => (regFn s n off).toNat

/-- What a register reads as. -/
def regView (s : State) (fn off : Nat) : Nat := if fn = 0 then pf0View s off else vfView s fn off

/-! Reads that clear (R4). -/

/-- Clear the RC fields of a stored register. -/
def clearPlain (s : State) (key : Nat) : State :=
  match specOf key with
  | none => s
  | some r =>
    if r.rc = 0 then s
    else setReg s key (tget (regReset key) s.regs key &&& ~~~(BitVec.ofNat 64 r.rc))

/-- Clear MALF and OVFEV of a ring. -/
def clearRing (s : State) (r off : Nat) : State :=
  if off = 0x50 ∧ ring s r ≠ Ring.idle then modRing s r fun x => { x with malf := 0, ovfev := 0 } else s

/-- Clear KS_FAIL. -/
def clearSlot (s : State) (fn off : Nat) : State :=
  if off % 128 = 0x50 then modSlot s (slotKey fn (off / 128)) fun x => { x with fail := 0 } else s

/-- What reading a register clears. -/
def clearRead (s : State) (fn off : Nat) : State :=
  if fn = 0 then
    if 0x1000000 ≤ off ∧ off < 0x2000000 then clearRing s ((off - 0x1000000) / 256) (off % 256)
    else if 0x0280000 ≤ off ∧ off < 0x02C0000 then clearSlot s 0 (off - 0x0280000)
    else clearPlain s off
  else if 0x10000 ≤ off ∧ off < 0x50000 then clearSlot s fn (off - 0x10000)
  else match vfRingAt s fn off with
    | some (r, o) => clearRing s r o
    | none => s

/-- READ_CLEAR_REGISTER (R4): an 8 B read at an offset of the BAR0 of PF0 (`fn` 0) or VFn: its value, and
its RC fields cleared. One that is not aligned returns 0 (R89, R342). -/
def execReadClearRegister (fn off : Nat) (s : State) : Res :=
  .next (if !powered s ∨ !fnReached s fn then s
    else if off % 8 ≠ 0 then { s with readData := leBytes 8 0 }
    else match if fn = 0 ∧ 0x2000000 ≤ off then dbgLocal s (off - 0x2000000) else none with
      | some r => { r.2 with readData := r.1 }
      | none => { clearRead s fn off with readData := leBytes 8 (regView s fn off) })

end Sys2Proof.Machine
end

