-- ==== Sys2Proof/Machine/BootSteps.lean ====
section
/-! DEFINITION. The boot mailbox: firmware download, START, attestation, settings; ACTIVATE; and writes
of registers as a command (R335, R431 to R449). -/

namespace Sys2Proof.Machine

/-! Staging window and image slots (R431). -/

/-- The staging window. -/
def stageBase : Nat := 0x00FFFC000000
def stageSize : Nat := 2 ^ 26

/-- Bytes `off .. off + n - 1` lie in the staging window. -/
def inStage (off n : Nat) : Bool := decide (off + n ≤ stageSize)

/-- Base of image slot A or B. -/
def slotBase (a : Bool) : Nat := if a then 0x00FFEC000000 else 0x00FFDC000000

/-- Bytes of the firmware area; none where a word reads as poison. -/
def readFirmware (s : State) (pa n : Nat) : Option (List Byte) × State :=
  let r := readMem s pa n
  (if r.1 then none else some r.2.1, r.2.2)

/-! The manifest (R435, R436). -/

/-- A little-endian field. -/
def mfField (m : List Byte) (off n : Nat) : Nat := leNat ((m.drop off).take n)

/-- A range of zeros. -/
def mfZero (m : List Byte) (off n : Nat) : Bool := ((m.drop off).take n).all fun b => b == 0

/-- Its fields. -/
def mfBlocks (m : List Byte) : Nat := mfField m 0x10 4
def mfImgSize (m : List Byte) : Nat := mfField m 0x18 8
def mfRaise (m : List Byte) : Bool := mfField m 0x06 2 % 2 == 1
def mfSetfmt (m : List Byte) : Nat := mfField m 0x0E 2
def mfDigest (m : List Byte) (i : Nat) : List Byte := (m.drop (0x7960 + 32 * i)).take 32

/-- A component entry: type, offset, size and digest. -/
structure Comp where
  typ : Nat
  off : Nat
  size : Nat
  digest : List Byte
  deriving DecidableEq, Repr

/-- Component entry `i`. -/
def mfComp (m : List Byte) (i : Nat) : Comp :=
  let b := 0x7560 + 64 * i
  { typ := mfField m b 1, off := mfField m (b + 4) 4, size := mfField m (b + 8) 4
    digest := (m.drop (b + 16)).take 32 }

/-- The component entries in use. -/
def mfComps (m : List Byte) : List Comp :=
  ((List.range 16).map (mfComp m)).filter fun c => c.typ != 0

/-- An entry alone: zero where it is unused; else its reserved bytes, its type, its place. -/
def compOk (m : List Byte) (i : Nat) : Bool :=
  let b := 0x7560 + 64 * i
  let c := mfComp m i
  if c.typ = 0 then mfZero m b 64
  else decide (c.typ ≤ 5) && mfZero m (b + 1) 3 && mfZero m (b + 12) 4 && mfZero m (b + 48) 16 &&
    c.off % 64 == 0 && decide (c.off + c.size ≤ mfImgSize m)

/-- R436: every type once, and no two overlap. -/
def compsOk (m : List Byte) : Bool :=
  let cs := mfComps m
  (List.range 16).all (compOk m) &&
    (List.range 5).all (fun t => (cs.filter fun c => c.typ == t + 1).length == 1) &&
    cs.all fun a => cs.all fun b =>
      a.typ == b.typ || decide (a.off + a.size ≤ b.off ∨ b.off + b.size ≤ a.off)

/-- R435: its fields are in range. -/
def manifestForm (m : List Byte) (len : Nat) : Bool :=
  let n := mfBlocks m
  mfField m 0 4 == 0x4D464750 && mfField m 4 2 == 1 && decide (mfField m 6 2 ≤ 1) &&
    mfField m 8 4 == len && len == 60864 + 32 * n && decide (1 ≤ mfField m 0x0C 2) &&
    decide (1 ≤ n ∧ n ≤ 4096) && mfField m 0x14 4 == 0 &&
    decide (65536 * (n - 1) + 1 ≤ mfImgSize m ∧ mfImgSize m ≤ 65536 * n) &&
    decide (mfField m 0x28 1 ≤ 1) && mfZero m 0x29 23 &&
    (if mfField m 0x28 1 = 0 then mfZero m 0x80 29920 else mfZero m (0x80 + 72) 56) && compsOk m

/-- R437: the status that the checks of a manifest decide. -/
def checkManifest (m : List Byte) (len floor : Nat) : BitVec 8 :=
  let root := (m.drop 0x40).take 64
  let body := (m.drop 0x80).take 128
  let customer := mfField m 0x28 1 = 1
  let signer := if customer then body.take 64 else root
  let signed := 0x7960 + 32 * mfBlocks m
  if !manifestForm m len then 0x02
  else if Config.shake256 64 root ≠ Config.rootHash then 0x0C
  else if customer ∧ !Config.slhVerify body ((m.drop (0x80 + 128)).take 29792) root then 0x0C
  else if !Config.slhVerify (m.take signed) ((m.drop signed).take 29792) signer then 0x0C
  else if mfField m 0x0C 2 < floor then 0x0F
  else 0

/-- Bytes of block `i` (R434). -/
def blockLen (m : List Byte) (i : Nat) : Nat := min 65536 (mfImgSize m - 65536 * i)

/-- R438: a block's bytes match its digest. -/
def blockMatches (m : List Byte) (i : Nat) (bs : List Byte) : Bool :=
  Config.shake256 32 bs == mfDigest m i

/-- A digest check of bytes in a slot, and the state after it. -/
def slotMatches (s : State) (pa n : Nat) (digest : List Byte) : Bool × State :=
  match readFirmware s pa n with
  | (some bs, s1) => (Config.shake256 32 bs == digest, s1)
  | (none, s1) => (false, s1)

/-- R438 on every block of a slot. -/
def recheckBlocks (s : State) (base : Nat) (m : List Byte) : Bool × State :=
  (List.range (mfBlocks m)).foldl (fun r i =>
    let x := slotMatches r.2 (base + 65536 * i) (blockLen m i) (mfDigest m i)
    (r.1 && x.1, x.2)) (true, s)

/-- R440 step 1: every component's digest. -/
def checkComps (s : State) (base : Nat) (m : List Byte) : Bool × State :=
  (mfComps m).foldl (fun r c =>
    let x := slotMatches r.2 (base + c.off) c.size c.digest
    (r.1 && x.1, x.2)) (true, s)

/-! The mailbox (R433, R434). -/

/-- A mailbox command completes. -/
def mbDone (s : State) (st : BitVec 8) (info : Nat) : State :=
  { s with boot := { s.boot with status := st, info := info % 2 ^ 32 } }

/-- Argument `i`. -/
def mbArg (s : State) (i : Nat) : Nat := (reg s (0x0010008 + 8 * i)).toNat

/-- GO with an OP: the command runs, unless another one does. -/
def mailbox (op : Nat) (f : State → State) (s : State) : State :=
  if !bar0 s ∨ s.boot.start.isSome then s else f (setReg s 0x0010000 (BitVec.ofNat 64 op))

/-- A command that ROM and SERVICE list. -/
def romOrService (s : State) : Bool := s.boot.st == .rom || s.boot.st == .service

/-- The staged slot is emptied. -/
def emptySlot (s : State) : State :=
  { s with boot := { s.boot with staged := none, present := [] } }

/-- MANIFEST's effect. -/
def manifestOp (s : State) : State :=
  let off := mbArg s 0
  let len := mbArg s 1
  if !romOrService s then mbDone s 0x04 0
  else
    let s1 := emptySlot s
    if off % 64 ≠ 0 then mbDone s1 0x02 0
    else if !inStage off len then mbDone s1 0x04 0
    else match readFirmware s1 (stageBase + off) len with
      | (none, s2) => mbDone s2 0x0D 0
      | (some m, s2) =>
        let st := checkManifest m len s2.boot.floor
        if st ≠ 0 then mbDone s2 st 0
        else mbDone { s2 with boot := { s2.boot with staged := some m } } 0 (mfBlocks m)

/-- MANIFEST (R437): the mailbox command 0x01. -/
def execManifest (s : State) : Res := .next (mailbox 1 manifestOp s)

/-- Blocks present in the staged slot with one more. -/
def addBlock (l : List Nat) (i : Nat) : List Nat := if l.contains i then l else insertNat i l

/-- R438: check and copy `n` blocks from block `i`, whose bytes lie at `off`. -/
def takeBlocks (s : State) (m : List Byte) (i off : Nat) : Nat → State
  | 0 => mbDone s 0 s.boot.present.length
  | n + 1 =>
    match readFirmware s (stageBase + off) (blockLen m i) with
    | (none, s1) => mbDone s1 0x0D i
    | (some bs, s1) =>
      if !blockMatches m i bs then mbDone s1 0x0C i
      else
        let s2 := writeMem s1 (slotBase s1.boot.slotA + 65536 * i) bs
        takeBlocks { s2 with boot := { s2.boot with present := addBlock s2.boot.present i } } m (i + 1)
          (off + 65536) n

/-- Bytes that blocks `i .. i + n - 1` take in the window. -/
def blocksLen (m : List Byte) (i n : Nat) : Nat := 65536 * (n - 1) + blockLen m (i + n - 1)

/-- BLOCKS's effect. -/
def blocksOp (s : State) : State :=
  let first := mbArg s 0
  let count := mbArg s 1
  let off := mbArg s 2
  if count = 0 ∨ 1024 < count ∨ off % 65536 ≠ 0 then mbDone s 0x02 0
  else if !romOrService s then mbDone s 0x04 0
  else match s.boot.staged with
    | none => mbDone s 0x04 0
    | some m =>
      if mfBlocks m < first + count then mbDone s 0x02 0
      else if !inStage off (blocksLen m first count) then mbDone s 0x04 0
      else takeBlocks s m first off count

/-- BLOCKS (R438): the mailbox command 0x02. -/
def execBlocks (s : State) : Res := .next (mailbox 2 blocksOp s)

/-- DISCARD's effect. -/
def discardOp (s : State) : State :=
  if !romOrService s then mbDone s 0x04 0 else mbDone (emptySlot s) 0 0

/-- DISCARD (R434): the mailbox command 0x04. -/
def execDiscard (s : State) : Res := .next (mailbox 4 discardOp s)

/-! Settings (R444 to R446). -/

/-- A list of bytes, padded with zeros or cut to a length. -/
def fitBytes (n : Nat) (bs : List Byte) : List Byte := (bs ++ List.replicate n 0).take n

/-- The blob in the EEPROM. -/
def settingsBlob (s : State) : List Byte := fitBytes 8192 s.boot.settings

/-- Its crc, with the field as zero. -/
def blobCrc (b : List Byte) : BitVec 32 :=
  crc32c (b.take 0x1C ++ List.replicate 4 0 ++ b.drop 0x20)

/-- magic and crc stand. -/
def blobGood (b : List Byte) : Bool :=
  mfField b 0 4 == 0x53544731 && mfField b 0x1C 4 == (blobCrc b).toNat

/-- A blob with a new generation, and the crc that follows. -/
def sealBlob (b : List Byte) (gen : Nat) : List Byte :=
  let b1 := b.take 8 ++ leBytes 8 gen ++ b.drop 0x10
  b1.take 0x1C ++ leBytes 4 (blobCrc b1).toNat ++ b1.drop 0x20

/-- The blob of R444's defaults. -/
def defaultBlob (setfmt gen : Nat) : List Byte :=
  sealBlob (fitBytes 8192 (leBytes 4 0x53544731 ++ leBytes 2 setfmt ++ leBytes 2 0)) gen

/-- R444: PF0 BAR0 offsets that a record may write. -/
def settingAllowed (off : Nat) : Bool :=
  let o := off % 0x20000
  off % 8 == 0 &&
    (decide (0x0008008 ≤ off ∧ off ≤ 0x0008030) || decide (0x0020000 ≤ off ∧ off < 0x0020100) ||
      decide (0x0028000 ≤ off ∧ off < 0x0028800) ||
      (decide (0x0100000 ≤ off ∧ off < 0x0200000) &&
        decide ((0x08 ≤ o ∧ o ≤ 0x58) ∨ (0x100 ≤ o ∧ o < 0x600))) ||
      decide (0x0200000 ≤ off ∧ off < 0x0200508) || off == xuScrubCtl || off == 0x0300000 ||
      off == 0x0400000)

/-- Apply `n` records from record `i`; the skipped and the applied ones are counted. -/
def applyRecords (s : State) (b : List Byte) (i skipped applied : Nat) : Nat → Nat × Nat × State
  | 0 => (skipped, applied, s)
  | n + 1 =>
    let off := mfField b (0x20 + 16 * i) 4
    if settingAllowed off then
      applyRecords (regWrite s 0 off (BitVec.ofNat 64 (mfField b (0x28 + 16 * i) 8))) b (i + 1) skipped
        (applied + 1) n
    else applyRecords s b (i + 1) (skipped + 1) applied n

/-- R440 step 5: the blob is applied; INFO of R445. -/
def applySettings (s : State) (setfmt : Nat) : Nat × State :=
  let b := settingsBlob s
  if !blobGood b ∨ mfField b 4 2 < setfmt then
    (2 ^ 30, { s with boot := { s.boot with
      settings := defaultBlob setfmt (mfField b 8 8 + 1) } })
  else if setfmt < mfField b 4 2 then (2 * 2 ^ 30, s)
  else
    let r := applyRecords s b 0 0 0 (min 510 (mfField b 6 2))
    (fld 16 r.1 + r.2.1, r.2.2)

/-- SETTINGS_READ's effect. -/
def settingsRead (s : State) : State :=
  let off := mbArg s 0
  if !inStage off 8192 then mbDone s 0x04 0
  else mbDone (writeMem s (stageBase + off) (settingsBlob s)) 0 8192

/-- SETTINGS_READ (R434): the mailbox command 0x06, in every state but FATAL. -/
def execSettingsRead (s : State) : Res := .next (mailbox 6 settingsRead s)

/-- The settings format that a new blob must have (R446). -/
def setfmtNow (s : State) : Option Nat :=
  if s.boot.st = .service then s.boot.active.map mfSetfmt else s.boot.staged.map mfSetfmt

/-- SETTINGS_WRITE's effect. -/
def settingsWrite (s : State) : State :=
  let off := mbArg s 0
  if !romOrService s ∨ !inStage off 8192 then mbDone s 0x04 0
  else match readFirmware s (stageBase + off) 8192 with
    | (none, s1) => mbDone s1 0x0D 0
    | (some b, s1) =>
      if !blobGood b ∨ 510 < mfField b 6 2 then mbDone s1 0x02 0
      else if setfmtNow s1 ≠ some (mfField b 4 2) then mbDone s1 0x0F 0
      else
        let gen := mfField (settingsBlob s1) 8 8 + 1
        mbDone { s1 with boot := { s1.boot with settings := sealBlob b gen } } 0 gen

/-- SETTINGS_WRITE (R446): the mailbox command 0x07. -/
def execSettingsWrite (s : State) : Res := .next (mailbox 7 settingsWrite s)

/-! START (R439 to R443). -/

/-- R439: the floor rises where the manifest has RAISE set. -/
def raisesFloor (s : State) (m : List Byte) : Bool :=
  mfRaise m && decide (s.boot.floor < manifestSvn m)

/-- The floor after an image has started. -/
def raiseFloor (s : State) (m : List Byte) : State :=
  if raisesFloor s m then { s with boot := { s.boot with floor := manifestSvn m } } else s

/-- START ends without an image in service. -/
def startFails (s : State) : State :=
  mbDone { s with boot := { s.boot with st := .rom, start := none } } 0x01 0

/-- The image that START starts: its manifest. -/
def startImage (s : State) (retained : Bool) : Option (List Byte) :=
  if retained then s.boot.retained else s.boot.staged

/-- R440 step 7: the image takes service. A staged slot becomes the active one. -/
def takeService (s : State) (retained : Bool) (m : List Byte) (info : Nat) : State :=
  let b := s.boot
  let b1 : Boot := { b with st := .service, start := none, active := some m, retained := none }
  let b2 : Boot := if retained then b1
    else { b1 with staged := none, present := [], slotA := !b.slotA }
  let s1 := drdyDone { s with boot := b2 } .boot
  mbDone (modTwin s1 fun t => { t with hbLow := s.err.fatal }) 0 info

/-- R440 steps 5 to 7, once memory is zero. A record of the settings may leave service. -/
def finishStart (s : State) : State :=
  match s.boot.start with
  | none => s
  | some (ret, eeprom) =>
    if s.boot.zeroFill ∨ s.err.fatal then s
    else match startImage s ret with
      | none => startFails s
      | some m =>
        let a := applySettings s (mfSetfmt m)
        if !bar0 a.2 then a.2
        else if raisesFloor a.2 m ∧ !eeprom then startFails a.2
        else takeService (raiseFloor a.2 m) ret m a.1

/-- R443: the retained image is checked again: its manifest, then its blocks. -/
def recheckRetained (s : State) (m : List Byte) : BitVec 8 × State :=
  let st := checkManifest m (60864 + 32 * mfBlocks m) s.boot.floor
  if st = 0x02 then (0x0C, s)
  else if st ≠ 0 then (st, s)
  else
    let r := recheckBlocks s (slotBase !s.boot.slotA) m
    (if r.1 then 0 else 0x0C, r.2)

/-- R440 steps 1 to 4: components are checked and loaded; what follows waits for the zero-fill. -/
def beginStart (s : State) (ret ready eeprom : Bool) (m : List Byte) : State :=
  let c := checkComps s (slotBase (s.boot.slotA != ret)) m
  if !c.1 then startFails c.2
  else if !ready then startFails c.2
  else
    let b := c.2.boot
    finishStart { c.2 with boot := { b with
      st := .starting, gill := true, start := some (ret, eeprom) } }

/-- START's effect. -/
def bootStart (ready eeprom : Bool) (s : State) : State :=
  let a := mbArg s 0
  if 1 < a then mbDone s 0x02 0
  else if s.boot.st ≠ .rom then mbDone s 0x04 0
  else if a = 1 then
    (match s.boot.retained with
      | none => mbDone s 0x04 0
      | some m =>
        let r := recheckRetained s m
        if r.1 ≠ 0 then mbDone { r.2 with boot := { r.2.boot with retained := none } } r.1 0
        else beginStart r.2 true ready eeprom m)
  else match s.boot.staged with
    | none => mbDone s 0x04 0
    | some m =>
      if s.boot.present.length < mfBlocks m then mbDone s 0x04 0
      else beginStart s false ready eeprom m

/-- START (R440): the mailbox command 0x03. `ready` says that every component reports ready, `eeprom`
that a write of the floor succeeds. -/
def execStart (ready eeprom : Bool) (s : State) : Res := .next (mailbox 3 (bootStart ready eeprom) s)

/-- ZEROFILL_COMPLETE (R442): memory is zero; a START that waits goes on. -/
def execZerofillComplete (s : State) : Res :=
  .next (if !powered s ∨ !s.boot.zeroFill then s
    else finishStart { s with boot := { s.boot with zeroFill := false } })

/-! ATTEST (R335). -/

/-- The bytes of an installed program: address in [47:6], size in 64 B units; none where a word of it is
poisoned (R134, R135). -/
def programBytes (s : State) (addr size : Nat) : Option (List Byte) × State :=
  readFirmware s (addr * 64) (64 * size)

/-- The digest of Carder's program. -/
def carderDigest (s : State) : Option (List Byte) × State :=
  let w := reg s crdProg
  if w.getLsbD 63 then
    let d := programBytes s (bits w 6 42) (bits w 48 11)
    (d.1.map (Config.shake256 64), d.2)
  else (some (List.replicate 64 0), s)

/-- The digest of the custom operators. -/
def operatorDigest (s : State) : Option (List Byte) × State :=
  let r := ((List.range 48).map (· + 16)).foldl (fun a k =>
    if (bshOpCtl s k).getLsbD 63 then
      let d := programBytes a.2 (bits (bshProg s k) 6 42) (bits (bshOpCtl s k) 0 11)
      (match a.1, d.1 with
        | some x, some y => some (x ++ BitVec.ofNat 8 k :: y)
        | _, _ => none, d.2)
    else a) ((some [] : Option (List Byte)), s)
  (r.1.map (Config.shake256 64), r.2)

/-- Bytes 0x000 to 0x19F of the report. -/
def reportBody (s : State) (key nonce carder operators : List Byte) : List Byte :=
  leBytes 2 1 ++ leBytes 2 (flagBit (s.twin.state == .paired) 0) ++ leBytes 4 50272 ++
    leBytes 8 Config.serial.toNat ++ fitBytes 32 nonce ++ fitBytes 64 key ++
    fitBytes 64 (Config.shake256 64 (s.boot.active.getD [])) ++
    leBytes 2 ((s.boot.active.map manifestSvn).getD 0) ++ leBytes 2 s.boot.floor ++ leBytes 4 0 ++
    leBytes 8 s.boot.boots ++ fitBytes 64 (Config.shake256 64 (settingsBlob s)) ++
    fitBytes 64 carder ++ fitBytes 64 operators ++ leBytes 8 (fdTime s) ++
    List.replicate 24 0

/-- ATTEST's effect. The signature is hedged: it is a free value. -/
def attestOp (s : State) : State :=
  let off := mbArg s 0
  if off % 64 ≠ 0 then mbDone s 0x02 0
  else if s.boot.st ≠ .service ∨ !inStage off 50272 then mbDone s 0x04 0
  else match Config.identity s.boot.boots with
    | none => mbDone s 0x01 0
    | some key =>
      let n := readFirmware s (stageBase + off) 32
      let c := carderDigest n.2
      let o := operatorDigest c.2
      match n.1, c.1, o.1 with
      | some nonce, some carder, some operators =>
        let body := reportBody o.2 key nonce carder operators
        let f := takeFree o.2
        mbDone (writeMem f.2 (stageBase + off) (body ++ fitBytes 49856 (Config.slhSign f.1 body))) 0
          50272
      | _, _, _ => mbDone o.2 0x0D 0

/-- ATTEST (R335): the mailbox command 0x05. -/
def execAttest (s : State) : Res := .next (mailbox 5 attestOp s)

/-! ACTIVATE (R447, R448). -/

/-- A ring operation stands between two steps: no chunk of the first step that is not complete has
been consumed. -/
def bshAtBoundary (s : State) (gid : Nat) : Bool :=
  let g := bshGroup s gid
  match g.run with
  | none => true
  | some r =>
    r.jobs.isEmpty && (match runAxis g r with
      | some a =>
        let keys := (stageKeys s g r a true).map Prod.fst
        let now := (keys.filter fun k => !r.taken.contains k).foldl (fun m k => min m k.step) 4096
        (keys.filter fun k => k.step == now).all fun k => !r.taken.contains k
      | none => r.phase == 8 || r.phase == 7 || (!r.upSent && r.phase != 4))

/-- R448 step 2: an operation that is not at a boundary aborts. -/
def pauseBushel (s : State) : State :=
  ((s.bushel.filter fun x => x.2.run.isSome).map Prod.fst).foldl (fun s gid =>
    if bshAtBoundary s gid then s else bshAbort s gid 0x01 7 (bshGroup s gid).rank none) s

/-- A running Carder entry that can complete does. -/
def finishTag (s : State) (b : CrdBind) (t : Nat) : State :=
  let x := crdTag s t
  match x.disp, x.comb with
  | some e, _ => if crdOutstanding s b e then s else endDispatch s b t e
  | none, some e =>
    if crdOutstanding s b e ∨ !(missing b x).isEmpty then s else endCombine s b t e
  | none, none => s

/-- R448 steps 1 and 2: running Carder entries complete; the others end ABORTED. -/
def pauseCarder (s : State) : State :=
  s.binds.foldl (fun s b => crdAbort ((bindTags b).foldl (fun s t => finishTag s b t) s) b 0x01) s

/-- R448: the pause, and the new image in service. -/
def activatePause (s : State) (m : List Byte) : State :=
  let s1 := raiseFloor (pauseCarder (pauseBushel s)) m
  let b := s1.boot
  { s1 with boot := { b with active := some m, staged := none, present := [], slotA := !b.slotA } }

/-- ACTIVATE's effect. -/
def activate (ready eeprom : Bool) (s : State) (_ : Nat) (e : RingEntry) : AdminAnswer :=
  if !zeroField e 0x12 46 then answer 0x02 s
  else match s.boot.staged with
    | none => answer 0x04 s
    | some m =>
      if s.boot.st ≠ .service ∨ s.boot.start.isSome ∨ s.boot.present.length < mfBlocks m ∨
          entryField e 0x10 2 ≠ manifestSvn m then answer 0x04 s
      else if manifestSvn m < s.boot.floor then answer 0x0F s
      else
        let base := slotBase s.boot.slotA
        let r := recheckBlocks s base m
        let c := checkComps r.2 base m
        if !r.1 ∨ !c.1 then answer 0x0C c.2
        else
          let s1 := drdyBusy c.2 .activate
          if !ready ∨ (raisesFloor s1 m ∧ !eeprom) then
            answer 0x01 (drdyDone (pauseCarder (pauseBushel s1)) .activate)
          else answer 0 (drdyDone (activatePause s1 m) .activate)

/-- ACTIVATE (R447, R448) on AQ `r`; PF0 only. `ready` and `eeprom` are as for START. -/
def execActivate (r : Nat) (ready eeprom : Bool) (s : State) : Res :=
  .next (adminCommand 0x68 r (activate ready eeprom) s)

/-! REGISTER_WRITE. -/

/-- The mailbox command that GO with an OP starts, its components ready and its EEPROM sound. -/
def mailboxRow (op : Nat) : State → State :=
  match op with
  | 1 => asRow execManifest
  | 2 => asRow execBlocks
  | 3 => asRow (execStart true true)
  | 4 => asRow execDiscard
  | 5 => asRow execAttest
  | 6 => asRow execSettingsRead
  | 7 => asRow execSettingsWrite
  | _ => id

/-- REGISTER_WRITE (R4, R6): 8 B at an offset of the BAR0 of PF0 (`fn` 0) or VFn. -/
def execRegisterWrite (fn off : Nat) (v : Word) (s : State) : Res :=
  let s1 := regWrite s fn off v
  .next (if fn = 0 ∧ off = 0x0010000 ∧ v.getLsbD 63 ∧ bar0 s ∧ s.boot.start.isNone then
    mailboxRow (bits v 0 8) s1
  else s1)

end Sys2Proof.Machine
end

