-- ==== Sys2Proof/Machine/ConsumeSteps.lean ====
section
/-! DEFINITION. An entry leaves the prefetch store (R174, R177, R251). -/

namespace Sys2Proof.Machine

/-- Opcodes whose own commands take the entry from the head of its ring, once it may start: LAUNCH
(R23), the transport's (R218), Bushel's (R251) and Carder's (R276). -/
def startsItself (op : Nat) : Bool :=
  op == 0x01 || isXptOp op || decide (0x20 ≤ op ∧ op ≤ 0x26) || op == 0x30 || op == 0x31

/-- An entry that the ring manager completes with ST_MALFORMED: on a CMQ with a group it uses up a
generation, and the other members are told (R251, R268). -/
def rejectHead (s : State) (r : Nat) (e : RingEntry) : State :=
  match (if (ring s r).typ = 6 ∧ entryOpcode e ≠ 0x02 then cmqGroup s r else none) with
  | none => consumeMalformed s r e
  | some gid =>
    let s1 := consumeHead s r
    bshFailEntry s1 gid e 0x02 (bshGroup s1 gid).rank 6 true

/-- ENTRY_CONSUME (R174, R177): the next entry leaves the prefetch store to start, or completes with
ST_MALFORMED. One whose own command starts it stays at the head. -/
def execEntryConsume (r : Nat) (s : State) : Res :=
  .next (match (ring s r).taken with
    | [] => s
    | e :: _ =>
      if !headReady s r e then s
      else if headerBad (ring s r) e then xptDone s (rejectHead s r e)
      else if startsItself (entryOpcode e) then s
      else consumeHead s r)

end Sys2Proof.Machine
end

