-- ==== Sys2Proof/Machine/PfReset.lean ====
section
/-! DEFINITION. The function-level reset of PF0 (R5, R186, R317, R379, R380, R423, R460). -/

namespace Sys2Proof.Machine

/-- Registers that a reset of PF0 keeps: host windows, PT_QPB, PT_KEYB and PT_VFMAP (R380). -/
def keepsFlr (key : Nat) : Bool :=
  let o := key % 256
  (decide (0x0601000 ≤ key ∧ key < 0x0605100) &&
    (o == 0x08 || o == 0x10 || o == 0x38 || decide (0x40 ≤ o ∧ o < 0xC0)))

/-- Every partition is reset; VFs are IDLE after it. -/
def flrParts (s : State) : State :=
  (List.range 65).foldl (fun s p =>
    if p ≠ 0 ∧ (partition s p).state = .idle then s
    else resetPartition s p (if p = 0 then .run else .idle)) s

/-- R317: links go down, and ports return to reset; their counters run on. -/
def flrPorts (s : State) : State :=
  { (List.range 8).foldl (fun s n => portDown s n 0) s with ports := [] }

/-- Units return to reset: rings, events, the error unit but its fatal records, and the twin unit,
whose failure the partner sees (R423). So do the fields that the unit stores for its registers: Gill's
rules, the last window's charges, the factor F, and the mailbox's last result. Fields that report a
condition as it stands (levels, links, samples, boot state) go on reporting it (log entry 69). -/
def flrUnits (s : State) : State :=
  { s with
    rings := [], mpEvents := [], invs := [], netEvents := [], bushel := [], binds := [], tags := []
    regs := s.regs.filter fun x => keepsFlr x.1
    tagged := 0
    err := { ErrUnit.reset with
      seq := s.err.seq, firstFatal := s.err.firstFatal, glFatal := s.err.glFatal }
    gill := { s.gill with condAt := [], fired := [], tripped := false, tripRule := 0 }
    boot := { s.boot with status := 0, info := 0 }
    twin := { Twin.reset with link := s.twin.link, hbLow := !inService s }
    sched := { s.sched with
      dozePre := [], partPaced := [], dieLast := [], partLast := [], moduleLast := 0, calF := 128
      moving := [] }
    host := { s.host with vfs := 0 } }

/-- PF0_FLR (R186, R379): in the fatal state it resets configuration space alone (R460). -/
def execPf0Flr (s : State) : Res :=
  .next (if !powered s then s
    else if s.err.fatal then { s with host := { s.host with vfs := 0 } }
    else flrUnits (flrPorts (flrParts s)))

end Sys2Proof.Machine
end

