-- ==== Sys2Proof/Machine/Dispatch.lean ====
section
/-! DEFINITION. One arm per command: its meaning. -/

namespace Sys2Proof.Machine

def exec (i : Instr) (s : State) : Host.Outcome State Fault Refusal :=
  match i with
  | .add t f => Sys2Proof.Machine.execAdd t f s
  | .sub t f => Sys2Proof.Machine.execSub t f s
  | .and t f => Sys2Proof.Machine.execAnd t f s
  | .or t f => Sys2Proof.Machine.execOr t f s
  | .xor t f => Sys2Proof.Machine.execXor t f s
  | .shl t f => Sys2Proof.Machine.execShl t f s
  | .shr t f => Sys2Proof.Machine.execShr t f s
  | .sar t f => Sys2Proof.Machine.execSar t f s
  | .min t f => Sys2Proof.Machine.execMin t f s
  | .max t f => Sys2Proof.Machine.execMax t f s
  | .minu t f => Sys2Proof.Machine.execMinu t f s
  | .maxu t f => Sys2Proof.Machine.execMaxu t f s
  | .slt t f => Sys2Proof.Machine.execSlt t f s
  | .sltu t f => Sys2Proof.Machine.execSltu t f s
  | .popc t f => Sys2Proof.Machine.execPopc t f s
  | .clz t f => Sys2Proof.Machine.execClz t f s
  | .ctz t f => Sys2Proof.Machine.execCtz t f s
  | .addi t f => Sys2Proof.Machine.execAddi t f s
  | .subi t f => Sys2Proof.Machine.execSubi t f s
  | .andi t f => Sys2Proof.Machine.execAndi t f s
  | .ori t f => Sys2Proof.Machine.execOri t f s
  | .xori t f => Sys2Proof.Machine.execXori t f s
  | .shli t f => Sys2Proof.Machine.execShli t f s
  | .shri t f => Sys2Proof.Machine.execShri t f s
  | .sari t f => Sys2Proof.Machine.execSari t f s
  | .mini t f => Sys2Proof.Machine.execMini t f s
  | .maxi t f => Sys2Proof.Machine.execMaxi t f s
  | .minui t f => Sys2Proof.Machine.execMinui t f s
  | .maxui t f => Sys2Proof.Machine.execMaxui t f s
  | .slti t f => Sys2Proof.Machine.execSlti t f s
  | .sltui t f => Sys2Proof.Machine.execSltui t f s
  | .mul t f => Sys2Proof.Machine.execMul t f s
  | .mulh t f => Sys2Proof.Machine.execMulh t f s
  | .mulhu t f => Sys2Proof.Machine.execMulhu t f s
  | .madd t f => Sys2Proof.Machine.execMadd t f s
  | .div t f => Sys2Proof.Machine.execDiv t f s
  | .divu t f => Sys2Proof.Machine.execDivu t f s
  | .rem t f => Sys2Proof.Machine.execRem t f s
  | .remu t f => Sys2Proof.Machine.execRemu t f s
  | .movi t f => Sys2Proof.Machine.execMovi t f s
  | .movh t f => Sys2Proof.Machine.execMovh t f s
  | .cmpEq t f => Sys2Proof.Machine.execCmpEq t f s
  | .cmpNe t f => Sys2Proof.Machine.execCmpNe t f s
  | .cmpLt t f => Sys2Proof.Machine.execCmpLt t f s
  | .cmpGe t f => Sys2Proof.Machine.execCmpGe t f s
  | .cmpLtu t f => Sys2Proof.Machine.execCmpLtu t f s
  | .cmpGeu t f => Sys2Proof.Machine.execCmpGeu t f s
  | .cmpiEq t f => Sys2Proof.Machine.execCmpiEq t f s
  | .cmpiNe t f => Sys2Proof.Machine.execCmpiNe t f s
  | .cmpiLt t f => Sys2Proof.Machine.execCmpiLt t f s
  | .cmpiGe t f => Sys2Proof.Machine.execCmpiGe t f s
  | .cmpiLtu t f => Sys2Proof.Machine.execCmpiLtu t f s
  | .cmpiGeu t f => Sys2Proof.Machine.execCmpiGeu t f s
  | .beq t f => Sys2Proof.Machine.execBeq t f s
  | .bne t f => Sys2Proof.Machine.execBne t f s
  | .blt t f => Sys2Proof.Machine.execBlt t f s
  | .bge t f => Sys2Proof.Machine.execBge t f s
  | .bltu t f => Sys2Proof.Machine.execBltu t f s
  | .bgeu t f => Sys2Proof.Machine.execBgeu t f s
  | .br t f => Sys2Proof.Machine.execBr t f s
  | .jal t f => Sys2Proof.Machine.execJal t f s
  | .jr t f => Sys2Proof.Machine.execJr t f s
  | .jalr t f => Sys2Proof.Machine.execJalr t f s
  | .ldB t f => Sys2Proof.Machine.execLdB t f s
  | .ldH t f => Sys2Proof.Machine.execLdH t f s
  | .ldW t f => Sys2Proof.Machine.execLdW t f s
  | .ldD t f => Sys2Proof.Machine.execLdD t f s
  | .ldBu t f => Sys2Proof.Machine.execLdBu t f s
  | .ldHu t f => Sys2Proof.Machine.execLdHu t f s
  | .ldWu t f => Sys2Proof.Machine.execLdWu t f s
  | .ldV t f => Sys2Proof.Machine.execLdV t f s
  | .stB t f => Sys2Proof.Machine.execStB t f s
  | .stH t f => Sys2Proof.Machine.execStH t f s
  | .stW t f => Sys2Proof.Machine.execStW t f s
  | .stD t f => Sys2Proof.Machine.execStD t f s
  | .stV t f => Sys2Proof.Machine.execStV t f s
  | .ldgB t f => Sys2Proof.Machine.execLdgB t f s
  | .ldgH t f => Sys2Proof.Machine.execLdgH t f s
  | .ldgW t f => Sys2Proof.Machine.execLdgW t f s
  | .ldgD t f => Sys2Proof.Machine.execLdgD t f s
  | .ldgBu t f => Sys2Proof.Machine.execLdgBu t f s
  | .ldgHu t f => Sys2Proof.Machine.execLdgHu t f s
  | .ldgWu t f => Sys2Proof.Machine.execLdgWu t f s
  | .ldgV t f => Sys2Proof.Machine.execLdgV t f s
  | .stgB t f => Sys2Proof.Machine.execStgB t f s
  | .stgH t f => Sys2Proof.Machine.execStgH t f s
  | .stgW t f => Sys2Proof.Machine.execStgW t f s
  | .stgD t f => Sys2Proof.Machine.execStgD t f s
  | .stgV t f => Sys2Proof.Machine.execStgV t f s
  | .globalLoadResponse t id => Sys2Proof.Machine.execGlobalLoadResponse t id s
  | .mvpost t f => Sys2Proof.Machine.execMvpost t f s
  | .mvslots t f => Sys2Proof.Machine.execMvslots t f s
  | .vaddInt t f => Sys2Proof.Machine.execVaddInt t f s
  | .vsubInt t f => Sys2Proof.Machine.execVsubInt t f s
  | .vmulInt t f => Sys2Proof.Machine.execVmulInt t f s
  | .vadds t f => Sys2Proof.Machine.execVadds t f s
  | .vsubs t f => Sys2Proof.Machine.execVsubs t f s
  | .vminInt t f => Sys2Proof.Machine.execVminInt t f s
  | .vmaxInt t f => Sys2Proof.Machine.execVmaxInt t f s
  | .vand t f => Sys2Proof.Machine.execVand t f s
  | .vor t f => Sys2Proof.Machine.execVor t f s
  | .vxor t f => Sys2Proof.Machine.execVxor t f s
  | .vshl t f => Sys2Proof.Machine.execVshl t f s
  | .vshr t f => Sys2Proof.Machine.execVshr t f s
  | .vsar t f => Sys2Proof.Machine.execVsar t f s
  | .vmov t f => Sys2Proof.Machine.execVmov t f s
  | .vsel t f => Sys2Proof.Machine.execVsel t f s
  | .vaddFp t f => Sys2Proof.Machine.execVaddFp t f s
  | .vsubFp t f => Sys2Proof.Machine.execVsubFp t f s
  | .vmulFp t f => Sys2Proof.Machine.execVmulFp t f s
  | .vfma t f => Sys2Proof.Machine.execVfma t f s
  | .vfms t f => Sys2Proof.Machine.execVfms t f s
  | .vminFp t f => Sys2Proof.Machine.execVminFp t f s
  | .vmaxFp t f => Sys2Proof.Machine.execVmaxFp t f s
  | .vabs t f => Sys2Proof.Machine.execVabs t f s
  | .vneg t f => Sys2Proof.Machine.execVneg t f s
  | .vdiv t f => Sys2Proof.Machine.execVdiv t f s
  | .vsqrt t f => Sys2Proof.Machine.execVsqrt t f s
  | .vrsqrt t f => Sys2Proof.Machine.execVrsqrt t f s
  | .vexp2 t f => Sys2Proof.Machine.execVexp2 t f s
  | .vcvt t f => Sys2Proof.Machine.execVcvt t f s
  | .vqmx t f => Sys2Proof.Machine.execVqmx t f s
  | .vdqmx t f => Sys2Proof.Machine.execVdqmx t f s
  | .vfoir t f => Sys2Proof.Machine.execVfoir t f s
  | .vufoir t f => Sys2Proof.Machine.execVufoir t f s
  | .vemax t f => Sys2Proof.Machine.execVemax t f s
  | .vbcast t f => Sys2Proof.Machine.execVbcast t f s
  | .vext t f => Sys2Proof.Machine.execVext t f s
  | .vins t f => Sys2Proof.Machine.execVins t f s
  | .vperm t f => Sys2Proof.Machine.execVperm t f s
  | .vrot t f => Sys2Proof.Machine.execVrot t f s
  | .vredsum t f => Sys2Proof.Machine.execVredsum t f s
  | .vredmax t f => Sys2Proof.Machine.execVredmax t f s
  | .vredmin t f => Sys2Proof.Machine.execVredmin t f s
  | .vcmpEq t f => Sys2Proof.Machine.execVcmpEq t f s
  | .vcmpNe t f => Sys2Proof.Machine.execVcmpNe t f s
  | .vcmpLt t f => Sys2Proof.Machine.execVcmpLt t f s
  | .vcmpLe t f => Sys2Proof.Machine.execVcmpLe t f s
  | .vcmpGt t f => Sys2Proof.Machine.execVcmpGt t f s
  | .vcmpGe t f => Sys2Proof.Machine.execVcmpGe t f s
  | .pand t f => Sys2Proof.Machine.execPand t f s
  | .por t f => Sys2Proof.Machine.execPor t f s
  | .pxor t f => Sys2Proof.Machine.execPxor t f s
  | .pandn t f => Sys2Proof.Machine.execPandn t f s
  | .pnot t f => Sys2Proof.Machine.execPnot t f s
  | .pmov t f => Sys2Proof.Machine.execPmov t f s
  | .pget t f => Sys2Proof.Machine.execPget t f s
  | .ppopc t f => Sys2Proof.Machine.execPpopc t f s
  | .pfirst t f => Sys2Proof.Machine.execPfirst t f s
  | .vcmpr t f => Sys2Proof.Machine.execVcmpr t f s
  | .vexpd t f => Sys2Proof.Machine.execVexpd t f s
  | .vbspk t f => Sys2Proof.Machine.execVbspk t f s
  | .vbsup t f => Sys2Proof.Machine.execVbsup t f s
  | .tmma t f => Sys2Proof.Machine.execTmma t f s
  | .tmmaS24 t f => Sys2Proof.Machine.execTmmaS24 t f s
  | .tmmaS48 t f => Sys2Proof.Machine.execTmmaS48 t f s
  | .tmmak t f => Sys2Proof.Machine.execTmmak t f s
  | .tensorComplete t id => Sys2Proof.Machine.execTensorComplete t id s
  | .talloc t f => Sys2Proof.Machine.execTalloc t f s
  | .tfree t f => Sys2Proof.Machine.execTfree t f s
  | .tzero t f => Sys2Proof.Machine.execTzero t f s
  | .tld t f => Sys2Proof.Machine.execTld t f s
  | .tst t f => Sys2Proof.Machine.execTst t f s
  | .tileMoveComplete t id => Sys2Proof.Machine.execTileMoveComplete t id s
  | .sig t f => Sys2Proof.Machine.execSig t f s
  | .waitGe t f => Sys2Proof.Machine.execWaitGe t f s
  | .take t f => Sys2Proof.Machine.execTake t f s
  | .sread t f => Sys2Proof.Machine.execSread t f s
  | .signalAtHome t id => Sys2Proof.Machine.execSignalAtHome t id s
  | .waitRetryResponse t => Sys2Proof.Machine.execWaitRetryResponse t s
  | .takeRetryResponse t => Sys2Proof.Machine.execTakeRetryResponse t s
  | .spinLimitExpiry t => Sys2Proof.Machine.execSpinLimitExpiry t s
  | .fenceC t f => Sys2Proof.Machine.execFenceC t f s
  | .fenceD t f => Sys2Proof.Machine.execFenceD t f s
  | .fenceP t f => Sys2Proof.Machine.execFenceP t f s
  | .fenceN t f => Sys2Proof.Machine.execFenceN t f s
  | .fenceRetire t => Sys2Proof.Machine.execFenceRetire t s
  | .put t f => Sys2Proof.Machine.execPut t f s
  | .get t f => Sys2Proof.Machine.execGet t f s
  | .atomAdd t f => Sys2Proof.Machine.execAtomAdd t f s
  | .atomCas t f => Sys2Proof.Machine.execAtomCas t f s
  | .sigR t f => Sys2Proof.Machine.execSigR t f s
  | .netResponse t id => Sys2Proof.Machine.execNetResponse t id s
  | .nopInsn t f => Sys2Proof.Machine.execNopInsn t f s
  | .end_ t f => Sys2Proof.Machine.execEnd t f s
  | .threadEnd t => Sys2Proof.Machine.execThreadEnd t s
  | .trap t f => Sys2Proof.Machine.execTrap t f s
  | .brk t f => Sys2Proof.Machine.execBrk t f s
  | .mfs t f => Sys2Proof.Machine.execMfs t f s
  | .deferredException t => Sys2Proof.Machine.execDeferredException t s
  | .groupStart gn e => Sys2Proof.Machine.execGroupStart gn e s
  | .launch r => Sys2Proof.Machine.execLaunch r s
  | .admission => Sys2Proof.Machine.execAdmission s
  | .ledgerWindowBoundary => Sys2Proof.Machine.execLedgerWindowBoundary s
  | .gridPace isPart n => Sys2Proof.Machine.execGridPace isPart n s
  | .calFactorUpdate => Sys2Proof.Machine.execCalFactorUpdate s
  | .dbgHaltCmd => Sys2Proof.Machine.execDbgHaltCmd s
  | .dbgResume => Sys2Proof.Machine.execDbgResume s
  | .dbgStep => Sys2Proof.Machine.execDbgStep s
  | .dbgWindowWrite off v => Sys2Proof.Machine.execDbgWindowWrite off v s
  | .pageWalk t => Sys2Proof.Machine.execPageWalk t s
  | .faultPostedHoldoffEnd p => Sys2Proof.Machine.execFaultPostedHoldoffEnd p s
  | .faultIdAssign p => Sys2Proof.Machine.execFaultIdAssign p s
  | .faultTimeout p => Sys2Proof.Machine.execFaultTimeout p s
  | .fqRetry p fid => Sys2Proof.Machine.execFqRetry p fid s
  | .fqFail p fid => Sys2Proof.Machine.execFqFail p fid s
  | .invPage fn => Sys2Proof.Machine.execInvPage fn s
  | .invCtx fn => Sys2Proof.Machine.execInvCtx fn s
  | .invPart fn => Sys2Proof.Machine.execInvPart fn s
  | .invOwner fn => Sys2Proof.Machine.execInvOwner fn s
  | .invalidationComplete who => Sys2Proof.Machine.execInvalidationComplete who s
  | .atsInvalidate p va => Sys2Proof.Machine.execAtsInvalidate p va s
  | .scrubLine pa => Sys2Proof.Machine.execScrubLine pa s
  | .moverDescriptorStart c id => Sys2Proof.Machine.execMoverDescriptorStart c id s
  | .moverComplete c id => Sys2Proof.Machine.execMoverComplete c id s
  | .ringPoll r => Sys2Proof.Machine.execRingPoll r s
  | .pollResponse r => Sys2Proof.Machine.execPollResponse r s
  | .entryConsume r => Sys2Proof.Machine.execEntryConsume r s
  | .consumerReportRead r => Sys2Proof.Machine.execConsumerReportRead r s
  | .overflowDrain r => Sys2Proof.Machine.execOverflowDrain r s
  | .ringStartPriv r => Sys2Proof.Machine.execRingStartPriv r s
  | .ringFenceRead r => Sys2Proof.Machine.execRingFenceRead r s
  | .readClearRegister fn off => Sys2Proof.Machine.execReadClearRegister fn off s
  | .registerWrite fn off v => Sys2Proof.Machine.execRegisterWrite fn off v s
  | .nop r => Sys2Proof.Machine.execNop r s
  | .ringCreate r => Sys2Proof.Machine.execRingCreate r s
  | .ringDestroy r => Sys2Proof.Machine.execRingDestroy r s
  | .ringResize r => Sys2Proof.Machine.execRingResize r s
  | .ringResizeSwitch r => Sys2Proof.Machine.execRingResizeSwitch r s
  | .ringStop r => Sys2Proof.Machine.execRingStop r s
  | .ringStopComplete r => Sys2Proof.Machine.execRingStopComplete r s
  | .ringStart r => Sys2Proof.Machine.execRingStart r s
  | .ringBind r => Sys2Proof.Machine.execRingBind r s
  | .syncGrant r => Sys2Proof.Machine.execSyncGrant r s
  | .syncRevoke r => Sys2Proof.Machine.execSyncRevoke r s
  | .syncRelease r => Sys2Proof.Machine.execSyncRelease r s
  | .syncWindowWrite n k v => Sys2Proof.Machine.execSyncWindowWrite n k v s
  | .syncWindowRead n k => Sys2Proof.Machine.execSyncWindowRead n k s
  | .send r => Sys2Proof.Machine.execSend r s
  | .write r => Sys2Proof.Machine.execWrite r s
  | .writeImm r => Sys2Proof.Machine.execWriteImm r s
  | .read r => Sys2Proof.Machine.execRead r s
  | .atomicFadd r => Sys2Proof.Machine.execAtomicFadd r s
  | .atomicCas r => Sys2Proof.Machine.execAtomicCas r s
  | .signal r => Sys2Proof.Machine.execSignal r s
  | .enable r => Sys2Proof.Machine.execEnable r s
  | .enableGateStart r => Sys2Proof.Machine.execEnableGateStart r s
  | .countGateStart r => Sys2Proof.Machine.execCountGateStart r s
  | .gateTimeout r => Sys2Proof.Machine.execGateTimeout r s
  | .packetTransmit p n => Sys2Proof.Machine.execPacketTransmit p n s
  | .sendArrival p => Sys2Proof.Machine.execSendArrival p s
  | .writeArrival p => Sys2Proof.Machine.execWriteArrival p s
  | .writeImmArrival p => Sys2Proof.Machine.execWriteImmArrival p s
  | .readReq p => Sys2Proof.Machine.execReadReq p s
  | .readResp p => Sys2Proof.Machine.execReadResp p s
  | .atomicFaddArrival p => Sys2Proof.Machine.execAtomicFaddArrival p s
  | .atomicCasArrival p => Sys2Proof.Machine.execAtomicCasArrival p s
  | .atomicResp p => Sys2Proof.Machine.execAtomicResp p s
  | .signalArrival p => Sys2Proof.Machine.execSignalArrival p s
  | .enableArrival p => Sys2Proof.Machine.execEnableArrival p s
  | .ack p => Sys2Proof.Machine.execAck p s
  | .nak p => Sys2Proof.Machine.execNak p s
  | .rnr p => Sys2Proof.Machine.execRnr p s
  | .ackTimer p n => Sys2Proof.Machine.execAckTimer p n s
  | .rtoExpiry p n => Sys2Proof.Machine.execRtoExpiry p n s
  | .rnrPauseEnd p n => Sys2Proof.Machine.execRnrPauseEnd p n s
  | .contextFetchStart p n => Sys2Proof.Machine.execContextFetchStart p n s
  | .contextFetchComplete p n => Sys2Proof.Machine.execContextFetchComplete p n s
  | .qpCreate r => Sys2Proof.Machine.execQpCreate r s
  | .qpModify r => Sys2Proof.Machine.execQpModify r s
  | .qpDestroy r => Sys2Proof.Machine.execQpDestroy r s
  | .keyRegister r => Sys2Proof.Machine.execKeyRegister r s
  | .keyDeregister r => Sys2Proof.Machine.execKeyDeregister r s
  | .connectReq p => Sys2Proof.Machine.execConnectReq p s
  | .connectRep p => Sys2Proof.Machine.execConnectRep p s
  | .connectRtu p => Sys2Proof.Machine.execConnectRtu p s
  | .connectRej p => Sys2Proof.Machine.execConnectRej p s
  | .disconnect p => Sys2Proof.Machine.execDisconnect p s
  | .connectResend p n => Sys2Proof.Machine.execConnectResend p n s
  | .pathMigrate p => Sys2Proof.Machine.execPathMigrate p s
  | .pathMigrateAck p => Sys2Proof.Machine.execPathMigrateAck p s
  | .pathMigrateResend p n => Sys2Proof.Machine.execPathMigrateResend p n s
  | .idleTagAck p n => Sys2Proof.Machine.execIdleTagAck p n s
  | .prevKeyExpiry fn k => Sys2Proof.Machine.execPrevKeyExpiry fn k s
  | .txload fn k => Sys2Proof.Machine.execTxload fn k s
  | .rxload fn k => Sys2Proof.Machine.execRxload fn k s
  | .ksClr fn k => Sys2Proof.Machine.execKsClr fn k s
  | .groupCreate r => Sys2Proof.Machine.execGroupCreate r s
  | .groupDestroy r => Sys2Proof.Machine.execGroupDestroy r s
  | .reduceScatter r => Sys2Proof.Machine.execReduceScatter r s
  | .allGather r => Sys2Proof.Machine.execAllGather r s
  | .broadcast r => Sys2Proof.Machine.execBroadcast r s
  | .barrier r => Sys2Proof.Machine.execBarrier r s
  | .scalarReduce r => Sys2Proof.Machine.execScalarReduce r s
  | .quiesce r => Sys2Proof.Machine.execQuiesce r s
  | .sparseAllGather r => Sys2Proof.Machine.execSparseAllGather r s
  | .bshData p used => Sys2Proof.Machine.execBshData p used s
  | .bshCredit p => Sys2Proof.Machine.execBshCredit p s
  | .bshTree p => Sys2Proof.Machine.execBshTree p s
  | .bshTaint p => Sys2Proof.Machine.execBshTaint p s
  | .bshAbort p => Sys2Proof.Machine.execBshAbort p s
  | .bushelRerun gid => Sys2Proof.Machine.execBushelRerun gid s
  | .bushelComplete gid => Sys2Proof.Machine.execBushelComplete gid s
  | .bushelStallTimeout gid => Sys2Proof.Machine.execBushelStallTimeout gid s
  | .bushelPreemptTimeout gid => Sys2Proof.Machine.execBushelPreemptTimeout gid s
  | .carderBind r => Sys2Proof.Machine.execCarderBind r s
  | .carderUnbind r => Sys2Proof.Machine.execCarderUnbind r s
  | .dispatch r => Sys2Proof.Machine.execDispatch r s
  | .dispatchComplete r t => Sys2Proof.Machine.execDispatchComplete r t s
  | .combine r => Sys2Proof.Machine.execCombine r s
  | .combineComplete r t => Sys2Proof.Machine.execCombineComplete r t s
  | .carderStallTimeout r t => Sys2Proof.Machine.execCarderStallTimeout r t s
  | .crdTok p => Sys2Proof.Machine.execCrdTok p s
  | .crdDone p => Sys2Proof.Machine.execCrdDone p s
  | .crdRet p => Sys2Proof.Machine.execCrdRet p s
  | .portModeWrite n v => Sys2Proof.Machine.execPortModeWrite n v s
  | .portLinkUp n => Sys2Proof.Machine.execPortLinkUp n s
  | .portLinkDown n => Sys2Proof.Machine.execPortLinkDown n s
  | .frameReceive n bs badFcs corr uncorr syms => Sys2Proof.Machine.execFrameReceive n bs badFcs corr uncorr syms s
  | .frameTransmit n => Sys2Proof.Machine.execFrameTransmit n s
  | .rawTransmit n v => Sys2Proof.Machine.execRawTransmit n v s
  | .rxcqEnable n v => Sys2Proof.Machine.execRxcqEnable n v s
  | .gclChange n v => Sys2Proof.Machine.execGclChange n v s
  | .gclAbort n v => Sys2Proof.Machine.execGclAbort n v s
  | .gclSwitch n => Sys2Proof.Machine.execGclSwitch n s
  | .gclEntryAdvance n => Sys2Proof.Machine.execGclEntryAdvance n s
  | .syncArm n => Sys2Proof.Machine.execSyncArm n s
  | .syncInEdge => Sys2Proof.Machine.execSyncInEdge s
  | .lpiEnter n => Sys2Proof.Machine.execLpiEnter n s
  | .lpiWake n => Sys2Proof.Machine.execLpiWake n s
  | .prewake n => Sys2Proof.Machine.execPrewake n s
  | .lldpduTransmit n => Sys2Proof.Machine.execLldpduTransmit n s
  | .lldpTlvExpiry n => Sys2Proof.Machine.execLldpTlvExpiry n s
  | .cxlLinkUp proto width => Sys2Proof.Machine.execCxlLinkUp proto width s
  | .cxlLinkDown => Sys2Proof.Machine.execCxlLinkDown s
  | .hostPathRestored => Sys2Proof.Machine.execHostPathRestored s
  | .linkDownTimeout => Sys2Proof.Machine.execLinkDownTimeout s
  | .bar2Read fn off n => Sys2Proof.Machine.execBar2Read fn off n s
  | .bar2Write fn off bs => Sys2Proof.Machine.execBar2Write fn off bs s
  | .hdmRead pa n => Sys2Proof.Machine.execHdmRead pa n s
  | .hdmWrite pa bs => Sys2Proof.Machine.execHdmWrite pa bs s
  | .perstAssert => Sys2Proof.Machine.execPerstAssert s
  | .perstDeassert => Sys2Proof.Machine.execPerstDeassert s
  | .policyResume v => Sys2Proof.Machine.execPolicyResume v s
  | .attentionPulseEnd => Sys2Proof.Machine.execAttentionPulseEnd s
  | .attentionHoldoffEnd => Sys2Proof.Machine.execAttentionHoldoffEnd s
  | .vfEnable n => Sys2Proof.Machine.execVfEnable n s
  | .functionLevelReset n => Sys2Proof.Machine.execFunctionLevelReset n s
  | .pf0Flr => Sys2Proof.Machine.execPf0Flr s
  | .partResize r => Sys2Proof.Machine.execPartResize r s
  | .partReset r => Sys2Proof.Machine.execPartReset r s
  | .partFreeze r => Sys2Proof.Machine.execPartFreeze r s
  | .partThaw r => Sys2Proof.Machine.execPartThaw r s
  | .partSave r => Sys2Proof.Machine.execPartSave r s
  | .partRestore r => Sys2Proof.Machine.execPartRestore r s
  | .reqFull => Sys2Proof.Machine.execReqFull s
  | .reqTrim => Sys2Proof.Machine.execReqTrim s
  | .reqDoze => Sys2Proof.Machine.execReqDoze s
  | .reqStandby => Sys2Proof.Machine.execReqStandby s
  | .dozeGate => Sys2Proof.Machine.execDozeGate s
  | .gillSample c x => Sys2Proof.Machine.execGillSample c x s
  | .gillInputChange d level => Sys2Proof.Machine.execGillInputChange d level s
  | .gillInputStuck d => Sys2Proof.Machine.execGillInputStuck d s
  | .gillChatterEnd d => Sys2Proof.Machine.execGillChatterEnd d s
  | .gillRuleFire k => Sys2Proof.Machine.execGillRuleFire k s
  | .gillRuleRelease k => Sys2Proof.Machine.execGillRuleRelease k s
  | .gillSilent => Sys2Proof.Machine.execGillSilent s
  | .gillLock => Sys2Proof.Machine.execGillLock s
  | .twinPair r => Sys2Proof.Machine.execTwinPair r s
  | .twinSyncComplete => Sys2Proof.Machine.execTwinSyncComplete s
  | .twinPairTimeout => Sys2Proof.Machine.execTwinPairTimeout s
  | .twinUnpair r => Sys2Proof.Machine.execTwinUnpair r s
  | .twinHbFrame bs badFec => Sys2Proof.Machine.execTwinHbFrame bs badFec s
  | .twinDelta bs badFec => Sys2Proof.Machine.execTwinDelta bs badFec s
  | .twinData bs badFec => Sys2Proof.Machine.execTwinData bs badFec s
  | .twinAck bs badFec => Sys2Proof.Machine.execTwinAck bs badFec s
  | .twinPairFrame bs badFec => Sys2Proof.Machine.execTwinPairFrame bs badFec s
  | .twinUnpairFrame bs badFec => Sys2Proof.Machine.execTwinUnpairFrame bs badFec s
  | .twinHbSend => Sys2Proof.Machine.execTwinHbSend s
  | .twinAckTimer => Sys2Proof.Machine.execTwinAckTimer s
  | .twinResend => Sys2Proof.Machine.execTwinResend s
  | .twinHbSilent => Sys2Proof.Machine.execTwinHbSilent s
  | .twinFailureDetect => Sys2Proof.Machine.execTwinFailureDetect s
  | .takeoverAnnounce => Sys2Proof.Machine.execTakeoverAnnounce s
  | .twinKeyLoad => Sys2Proof.Machine.execTwinKeyLoad s
  | .twinKeyClr => Sys2Proof.Machine.execTwinKeyClr s
  | .manifest => Sys2Proof.Machine.execManifest s
  | .blocks => Sys2Proof.Machine.execBlocks s
  | .start ready eeprom => Sys2Proof.Machine.execStart ready eeprom s
  | .discard => Sys2Proof.Machine.execDiscard s
  | .attest => Sys2Proof.Machine.execAttest s
  | .settingsRead => Sys2Proof.Machine.execSettingsRead s
  | .settingsWrite => Sys2Proof.Machine.execSettingsWrite s
  | .activate r ready eeprom => Sys2Proof.Machine.execActivate r ready eeprom s
  | .powerOn => Sys2Proof.Machine.execPowerOn s
  | .zerofillComplete => Sys2Proof.Machine.execZerofillComplete s
  | .powerLoss => Sys2Proof.Machine.execPowerLoss s
  | .overvoltageDisconnect => Sys2Proof.Machine.execOvervoltageDisconnect s
  | .refclk156Loss => Sys2Proof.Machine.execRefclk156Loss s
  | .refclk156Restore => Sys2Proof.Machine.execRefclk156Restore s
  | .errorDetect code unit inst part addr flag data0 => Sys2Proof.Machine.execErrorDetect code unit inst part addr flag data0 s
  | .fenceTimeout p => Sys2Proof.Machine.execFenceTimeout p s
  | .mpHang h => Sys2Proof.Machine.execMpHang h s
  | .errHeadWrite v => Sys2Proof.Machine.execErrHeadWrite v s
  | .smbusStatus => Sys2Proof.Machine.execSmbusStatus s
  | .smbusRead off => Sys2Proof.Machine.execSmbusRead off s
  | .smbusWrite off v => Sys2Proof.Machine.execSmbusWrite off v s
  | .smbusWake v => Sys2Proof.Machine.execSmbusWake v s
  | .sreadResponse t id => Sys2Proof.Machine.execSreadResponse t id s
  | .gillReportsResume => Sys2Proof.Machine.execGillReportsResume s
  | .gillStuckEnd d => Sys2Proof.Machine.execGillStuckEnd d s
  | .twinLinkTrained => Sys2Proof.Machine.execTwinLinkTrained s
  | .drdyBusyMinimumEnd => Sys2Proof.Machine.execDrdyBusyMinimumEnd s
  | .postBusyAttention => Sys2Proof.Machine.execPostBusyAttention s
  | .dozeExitComplete => Sys2Proof.Machine.execDozeExitComplete s
  | .selfRefreshEntry => Sys2Proof.Machine.execSelfRefreshEntry s

end Sys2Proof.Machine
end

