-- ==== Sys2Proof/Machine/Tick.lean ====
section
/-! DEFINITION. What time does while no command waits (R13 to R21, R149, R391, R455, R458; log entry
3): the clocks advance, the management processor posts its events, and what needs no command goes
on. -/

namespace Sys2Proof.Machine

/-- A clock advances by a free number of cycles. -/
def advanceClock (s : State) (d : Nat) : State :=
  let f := takeFree s
  { f.2 with clocks := tset 0 f.2.clocks d (tget 0 f.2.clocks d + f.1.toNat) }

/-- Clocks that run: Gill's wherever there is power, those of the dies outside Standby, and the ports'
while REFCLK156 runs (R17, R21, R401, R479). -/
def runningClocks (s : State) : List Nat :=
  if s.sched.power = .off then []
  else if s.sched.power = .standby then [5]
  else [0, 1, 2, 3, 4, 5] ++ (if s.supply.refclk156 then (List.range 8).map (· + 8) else [])

/-- Grids with a thread in SPIN on an engine (R149). -/
def spinGrids (s : State) (e : Nat) : List Nat :=
  ((List.range 64).filterMap fun k =>
    let th := tget Thread.free s.threads (64 * e + k)
    if th.state = .spin then some th.grid else none).eraseDups

/-- R149, R391: the spin charge of an engine for `n` cycles, split among the grids that spin. -/
def chargeSpin (s : State) (e n : Nat) : State :=
  let gs := spinGrids s e
  gs.foldl (fun s g => addCharge s e (grid s g).part g (55 * 8192 * n / gs.length)) s

/-- Engines with a thread in SPIN. -/
def spinEngines (s : State) : List Nat :=
  ((s.threads.filter fun x => x.2.state == .spin).map fun x => x.1 / 64).eraseDups

/-- R149: the spin charges of the time that has passed since `s0`. -/
def chargeSpins (s0 s : State) : State :=
  (spinEngines s).foldl (fun s e =>
    let d := if e < 16384 then 0 else 1
    chargeSpin s e (tget 0 s.clocks d - tget 0 s0.clocks d)) s

/-- R15: the management processor posts its events. -/
def postEvents (s : State) : State :=
  s.mpEvents.foldl (fun s e => post s e.eq e.code e.source e.data0 e.data1) { s with mpEvents := [] }

/-- R409: rule events kept through Standby are posted once PF0's EQ runs. -/
def postKept (s : State) : State :=
  if s.boot.st = .service ∧ (ring s (eqOf 0)).state = .run then
    { s with mpEvents := s.mpEvents ++ s.gill.kept, gill := { s.gill with kept := [] } }
  else s

/-- The management processor has failed: its own error made the fatal state (R450). -/
def mpDown (s : State) : Bool :=
  s.err.fatal && match s.err.firstFatal with
    | some r => r.code == 0x0B || r.code == 0x0C
    | none => false

/-- What goes on without a command. In the fatal state only events are posted (R455, R459). -/
def settleIdle (s : State) : State :=
  if bar0 s then
    xptDone s (settleUnpair (settlePreempts (bshGoAll (postEvents (completeFences (postEvents (postKept s)))))))
  else if powered s ∧ !mpDown s then postEvents s
  else s

/-- R313: the receive side of a port follows the partner's signalling, where the mode allows LPI (R312).
-/
def lpiFollow (s : State) (n : Nat) : State :=
  if (portOf s n).link then
    modPort s n fun p => { p with lpiRx := lpiAllowed s n && Config.lpiPartner n (portTime s n) }
  else s

/-- A step with no command waiting. -/
def idleTick (s : State) : State :=
  let s1 := chargeSpins s ((runningClocks s).foldl advanceClock s)
  settleIdle (paceDue ((List.range 8).foldl (fun s n => lpiFollow (lpiAccrue s n) n) s1))

end Sys2Proof.Machine
end

