-- ==== Sys2Proof/Safety.lean ====
section
/-! DEFINITION. What the statements about the model are said in: which instruction a command of an
engine issues and when it issues (R55, R56, R59 to R62), what a command leaves as it was, and what a
well-formed state is. -/

namespace Sys2Proof.Machine

/-- An instruction with a further cause of illegality (R62). -/
def orIllegal (i : Insn) (b : Bool) : Insn :=
  { i with illegal := i.illegal || b }

/-- The fields of a legal `tld` or `tst` (R101). -/
def tileOk (k : OpKind) (fmts : List Fmt) (f : TForm) : Bool :=
  (match fmtOfCode f.fmtA with | some x => fmts.contains x | none => false) &&
    f.sb == 0 && f.sm == 0 && f.fmtB == 0 && (k == .tileStore || f.rnd == 0)

/-- The thread and the instruction of a command that issues an instruction other than a net
instruction (R60 to R63). -/
def engineInsn (c : Instr) : Option (Nat × Insn) :=
  match c with
  | .add t f => some (t, insnR 0x01 0x00 true true true false false f)
  | .sub t f => some (t, insnR 0x01 0x01 true true true false false f)
  | .and t f => some (t, insnR 0x01 0x02 true true true false false f)
  | .or t f => some (t, insnR 0x01 0x03 true true true false false f)
  | .xor t f => some (t, insnR 0x01 0x04 true true true false false f)
  | .shl t f => some (t, insnR 0x01 0x05 true true true false false f)
  | .shr t f => some (t, insnR 0x01 0x06 true true true false false f)
  | .sar t f => some (t, insnR 0x01 0x07 true true true false false f)
  | .min t f => some (t, insnR 0x01 0x08 true true true false false f)
  | .max t f => some (t, insnR 0x01 0x09 true true true false false f)
  | .minu t f => some (t, insnR 0x01 0x0A true true true false false f)
  | .maxu t f => some (t, insnR 0x01 0x0B true true true false false f)
  | .slt t f => some (t, insnR 0x01 0x0C true true true false false f)
  | .sltu t f => some (t, insnR 0x01 0x0D true true true false false f)
  | .popc t f => some (t, insnR 0x01 0x0E true true false false false f)
  | .clz t f => some (t, insnR 0x01 0x0F true true false false false f)
  | .ctz t f => some (t, insnR 0x01 0x10 true true false false false f)
  | .addi t f => some (t, insnI 0x02 0x00 .scalar true f)
  | .subi t f => some (t, insnI 0x02 0x01 .scalar true f)
  | .andi t f => some (t, insnI 0x02 0x02 .scalar true f)
  | .ori t f => some (t, insnI 0x02 0x03 .scalar true f)
  | .xori t f => some (t, insnI 0x02 0x04 .scalar true f)
  | .shli t f => some (t, orIllegal (insnI 0x02 0x05 .scalar true f) (decide (63 < f.imm.toNat)))
  | .shri t f => some (t, orIllegal (insnI 0x02 0x06 .scalar true f) (decide (63 < f.imm.toNat)))
  | .sari t f => some (t, orIllegal (insnI 0x02 0x07 .scalar true f) (decide (63 < f.imm.toNat)))
  | .mini t f => some (t, insnI 0x02 0x08 .scalar true f)
  | .maxi t f => some (t, insnI 0x02 0x09 .scalar true f)
  | .minui t f => some (t, insnI 0x02 0x0A .scalar true f)
  | .maxui t f => some (t, insnI 0x02 0x0B .scalar true f)
  | .slti t f => some (t, insnI 0x02 0x0C .scalar true f)
  | .sltui t f => some (t, insnI 0x02 0x0D .scalar true f)
  | .mul t f => some (t, insnR 0x03 0x00 true true true false false f)
  | .mulh t f => some (t, insnR 0x03 0x01 true true true false false f)
  | .mulhu t f => some (t, insnR 0x03 0x02 true true true false false f)
  | .madd t f => some (t, insnR 0x03 0x03 true true true true false f)
  | .div t f => some (t, insnR 0x03 0x04 true true true false false f)
  | .divu t f => some (t, insnR 0x03 0x05 true true true false false f)
  | .rem t f => some (t, insnR 0x03 0x06 true true true false false f)
  | .remu t f => some (t, insnR 0x03 0x07 true true true false false f)
  | .movi t f => some (t, insnW 0x04 0x00 f)
  | .movh t f => some (t, orIllegal (insnW 0x04 0x01 f) (f.imm.extractLsb' 21 22 != 0))
  | .cmpEq t f => some (t, insnR 0x05 0x00 true true true false true f)
  | .cmpNe t f => some (t, insnR 0x05 0x01 true true true false true f)
  | .cmpLt t f => some (t, insnR 0x05 0x02 true true true false true f)
  | .cmpGe t f => some (t, insnR 0x05 0x03 true true true false true f)
  | .cmpLtu t f => some (t, insnR 0x05 0x04 true true true false true f)
  | .cmpGeu t f => some (t, insnR 0x05 0x05 true true true false true f)
  | .cmpiEq t f => some (t, insnI 0x05 0x10 .predicate true f)
  | .cmpiNe t f => some (t, insnI 0x05 0x11 .predicate true f)
  | .cmpiLt t f => some (t, insnI 0x05 0x12 .predicate true f)
  | .cmpiGe t f => some (t, insnI 0x05 0x13 .predicate true f)
  | .cmpiLtu t f => some (t, insnI 0x05 0x14 .predicate true f)
  | .cmpiGeu t f => some (t, insnI 0x05 0x15 .predicate true f)
  | .beq t f => some (t, insnB 0x08 0x00 true true f)
  | .bne t f => some (t, insnB 0x08 0x01 true true f)
  | .blt t f => some (t, insnB 0x08 0x02 true true f)
  | .bge t f => some (t, insnB 0x08 0x03 true true f)
  | .bltu t f => some (t, insnB 0x08 0x04 true true f)
  | .bgeu t f => some (t, insnB 0x08 0x05 true true f)
  | .br t f => some (t, insnB 0x09 0x00 false false f)
  | .jal t f => some (t, insnB 0x09 0x01 true false f)
  | .jr t f => some (t, insnB 0x09 0x02 true false f)
  | .jalr t f => some (t, insnB 0x09 0x03 true true f)
  | .ldB t f => some (t, insnI 0x0C 0x00 .scalar true f)
  | .ldH t f => some (t, insnI 0x0C 0x01 .scalar true f)
  | .ldW t f => some (t, insnI 0x0C 0x02 .scalar true f)
  | .ldD t f => some (t, insnI 0x0C 0x03 .scalar true f)
  | .ldBu t f => some (t, insnI 0x0C 0x04 .scalar true f)
  | .ldHu t f => some (t, insnI 0x0C 0x05 .scalar true f)
  | .ldWu t f => some (t, insnI 0x0C 0x06 .scalar true f)
  | .ldV t f => some (t, insnI 0x0C 0x07 .vector true f)
  | .stB t f => some (t, insnI 0x0D 0x00 .scalar true f)
  | .stH t f => some (t, insnI 0x0D 0x01 .scalar true f)
  | .stW t f => some (t, insnI 0x0D 0x02 .scalar true f)
  | .stD t f => some (t, insnI 0x0D 0x03 .scalar true f)
  | .stV t f => some (t, insnI 0x0D 0x07 .vector true f)
  | .ldgB t f => some (t, insnI 0x0E 0x00 .scalar true f)
  | .ldgH t f => some (t, insnI 0x0E 0x01 .scalar true f)
  | .ldgW t f => some (t, insnI 0x0E 0x02 .scalar true f)
  | .ldgD t f => some (t, insnI 0x0E 0x03 .scalar true f)
  | .ldgBu t f => some (t, insnI 0x0E 0x04 .scalar true f)
  | .ldgHu t f => some (t, insnI 0x0E 0x05 .scalar true f)
  | .ldgWu t f => some (t, insnI 0x0E 0x06 .scalar true f)
  | .ldgV t f => some (t, insnI 0x0E 0x07 .vector true f)
  | .stgB t f => some (t, insnI 0x0F 0x00 .scalar true f)
  | .stgH t f => some (t, insnI 0x0F 0x01 .scalar true f)
  | .stgW t f => some (t, insnI 0x0F 0x02 .scalar true f)
  | .stgD t f => some (t, insnI 0x0F 0x03 .scalar true f)
  | .stgV t f => some (t, insnI 0x0F 0x07 .vector true f)
  | .mvpost t f => some (t, insnR 0x10 0x00 true true false false false f)
  | .mvslots t f => some (t, insnR 0x10 0x01 true false false false false f)
  | .vaddInt t f =>
    some (t, insnV 0x14 0x00 { vd := true, va := true, vb := true } fmtsAdd [] .lanes false false
      false f)
  | .vsubInt t f =>
    some (t, insnV 0x14 0x01 { vd := true, va := true, vb := true } fmtsAdd [] .lanes false false
      false f)
  | .vmulInt t f =>
    some (t, insnV 0x14 0x02 { vd := true, va := true, vb := true } fmtsInt [] .lanes false false
      false f)
  | .vadds t f =>
    some (t, insnV 0x14 0x03 { vd := true, va := true, vb := true } fmtsInt [] .lanes false false
      false f)
  | .vsubs t f =>
    some (t, insnV 0x14 0x04 { vd := true, va := true, vb := true } fmtsInt [] .lanes false false
      false f)
  | .vminInt t f =>
    some (t, insnV 0x14 0x05 { vd := true, va := true, vb := true } fmtsInt [] .lanes false false
      false f)
  | .vmaxInt t f =>
    some (t, insnV 0x14 0x06 { vd := true, va := true, vb := true } fmtsInt [] .lanes false false
      false f)
  | .vand t f =>
    some (t, insnV 0x14 0x07 { vd := true, va := true, vb := true } fmtsInt [] .lanes false false
      false f)
  | .vor t f =>
    some (t, insnV 0x14 0x08 { vd := true, va := true, vb := true } fmtsInt [] .lanes false false
      false f)
  | .vxor t f =>
    some (t, insnV 0x14 0x09 { vd := true, va := true, vb := true } fmtsInt [] .lanes false false
      false f)
  | .vshl t f =>
    some (t, insnV 0x14 0x0A { vd := true, va := true, vb := true } fmtsInt [] .lanes false false
      false f)
  | .vshr t f =>
    some (t, insnV 0x14 0x0B { vd := true, va := true, vb := true } fmtsInt [] .lanes false false
      false f)
  | .vsar t f =>
    some (t, insnV 0x14 0x0C { vd := true, va := true, vb := true } fmtsInt [] .lanes false false
      false f)
  | .vmov t f =>
    some (t, insnV 0x14 0x0D { vd := true, va := true } fmtsInt [] .lanes false false false f)
  | .vsel t f =>
    some (t, insnV 0x14 0x0E { vd := true, va := true, vb := true, pd := true } fmtsInt [] .lanes
      false false false f)
  | .vaddFp t f =>
    some (t, insnV 0x15 0x00 { vd := true, va := true, vb := true } fmtsFp [] .lanes false false
      false f)
  | .vsubFp t f =>
    some (t, insnV 0x15 0x01 { vd := true, va := true, vb := true } fmtsFp [] .lanes false false
      false f)
  | .vmulFp t f =>
    some (t, insnV 0x15 0x02 { vd := true, va := true, vb := true } fmtsFp [] .lanes false false
      false f)
  | .vfma t f =>
    some (t, insnV 0x15 0x03 { vd := true, va := true, vb := true, vc := true } fmtsFp [] .lanes
      false false false f)
  | .vfms t f =>
    some (t, insnV 0x15 0x04 { vd := true, va := true, vb := true, vc := true } fmtsFp [] .lanes
      false false false f)
  | .vminFp t f =>
    some (t, insnV 0x15 0x05 { vd := true, va := true, vb := true } fmtsFp [] .lanes false false
      false f)
  | .vmaxFp t f =>
    some (t, insnV 0x15 0x06 { vd := true, va := true, vb := true } fmtsFp [] .lanes false false
      false f)
  | .vabs t f =>
    some (t, insnV 0x15 0x07 { vd := true, va := true } fmtsFp [] .lanes false false false f)
  | .vneg t f =>
    some (t, insnV 0x15 0x08 { vd := true, va := true } fmtsFp [] .lanes false false false f)
  | .vdiv t f =>
    some (t, insnV 0x15 0x09 { vd := true, va := true, vb := true } fmtsFp [] .lanes false false
      false f)
  | .vsqrt t f =>
    some (t, insnV 0x15 0x0A { vd := true, va := true } fmtsFp [] .lanes false false false f)
  | .vrsqrt t f =>
    some (t, insnV 0x15 0x0B { vd := true, va := true } fmtsFp [] .lanes false false false f)
  | .vexp2 t f =>
    some (t, insnV 0x15 0x0C { vd := true, va := true } fmtsFp [] .lanes false false false f)
  | .vcvt t f =>
    some (t, insnV 0x16 0x00 { vd := true, va := true } fmtsAll fmtsAll .lanes (decide
      (laneGroups (vFmt f) (vFmt2 f) ≤ f.imm.toNat)) false false f)
  | .vqmx t f =>
    some (t, insnV 0x16 0x01 { vd := true, va := true } fmtsFp fmtsMx (.bit 0) ((f.fmt == 0) &&
      f.va.getLsbD 0) (f.fmt == 0) false f)
  | .vdqmx t f =>
    some (t, insnV 0x16 0x02 { vd := true, va := true } fmtsMx [.fp32] (.bit 0) (f.vd.getLsbD 0)
      false true f)
  | .vfoir t f =>
    some (t, insnV 0x16 0x03 { vd := true, va := true, rs := true } fmtsFp fmtsFoir .lanes
      (decide (laneGroups (vFmt f) (vFmt2 f) ≤ f.imm.toNat)) false false f)
  | .vufoir t f =>
    some (t, insnV 0x16 0x04 { vd := true, va := true, rs := true } fmtsFoir fmtsFp .lanes
      (decide (laneGroups (vFmt f) (vFmt2 f) ≤ f.imm.toNat)) false false f)
  | .vemax t f =>
    some (t, insnV 0x16 0x05 { va := true, rs := true } fmtsFp [] .lanes false false false f)
  | .vbcast t f =>
    some (t, insnV 0x17 0x00 { vd := true, rs := true } fmtsAll [] .lanes false false false f)
  | .vext t f => some (t, insnV 0x17 0x01 { va := true, rs := true } fmtsAll [] (.bit f.imm.toNat)
        (decide (fmtLanes (vFmt f) ≤ f.imm.toNat)) false false f)
  | .vins t f => some (t, insnV 0x17 0x02 { vd := true, rs := true } fmtsAll [] (.bit f.imm.toNat)
        (decide (fmtLanes (vFmt f) ≤ f.imm.toNat)) false false f)
  | .vperm t f =>
    some (t, insnV 0x17 0x03 { vd := true, va := true, vb := true } fmtsAll [] .lanes false false
      false f)
  | .vrot t f =>
    some (t, insnV 0x17 0x04 { vd := true, va := true } fmtsAll [] .lanes false false false f)
  | .vredsum t f =>
    some (t, insnV 0x17 0x05 { vd := true, va := true } fmtsAll [] .lanes false false false f)
  | .vredmax t f =>
    some (t, insnV 0x17 0x06 { vd := true, va := true } fmtsAll [] .lanes false false false f)
  | .vredmin t f =>
    some (t, insnV 0x17 0x07 { vd := true, va := true } fmtsAll [] .lanes false false false f)
  | .vcmpEq t f =>
    some (t, insnV 0x18 0x00 { va := true, vb := true, pd := true } fmtsAll [] .lanes false false
      false f)
  | .vcmpNe t f =>
    some (t, insnV 0x18 0x01 { va := true, vb := true, pd := true } fmtsAll [] .lanes false false
      false f)
  | .vcmpLt t f =>
    some (t, insnV 0x18 0x02 { va := true, vb := true, pd := true } fmtsAll [] .lanes false false
      false f)
  | .vcmpLe t f =>
    some (t, insnV 0x18 0x03 { va := true, vb := true, pd := true } fmtsAll [] .lanes false false
      false f)
  | .vcmpGt t f =>
    some (t, insnV 0x18 0x04 { va := true, vb := true, pd := true } fmtsAll [] .lanes false false
      false f)
  | .vcmpGe t f =>
    some (t, insnV 0x18 0x05 { va := true, vb := true, pd := true } fmtsAll [] .lanes false false
      false f)
  | .pand t f => some (t, insnP 0x00 true true true false false f)
  | .por t f => some (t, insnP 0x01 true true true false false f)
  | .pxor t f => some (t, insnP 0x02 true true true false false f)
  | .pandn t f => some (t, insnP 0x03 true true true false false f)
  | .pnot t f => some (t, insnP 0x04 true true false false false f)
  | .pmov t f => some (t, insnP 0x05 true false false false true f)
  | .pget t f => some (t, insnP 0x06 false true false true false f)
  | .ppopc t f => some (t, insnP 0x07 false true false true false f)
  | .pfirst t f => some (t, insnP 0x08 false true false true false f)
  | .vcmpr t f =>
    some (t, insnV 0x1D 0x00 { vd := true, va := true, pd := true } fmtsAll [] .lanes false false
      false f)
  | .vexpd t f =>
    some (t, insnV 0x1D 0x01 { vd := true, va := true, pd := true } fmtsAll [] .lanes false false
      false f)
  | .vbspk t f =>
    some (t, insnV 0x1D 0x02 { vd := true, rs := true } fmtsMx [] (.bit 0) false false false f)
  | .vbsup t f =>
    some (t, insnV 0x1D 0x03 { vd := true, rs := true } fmtsMx [] (.bit 0) false false false f)
  | .tmma t f =>
    some (t, insnT 0x20 0x00 (pairOk (fmtOfCode f.fmtA) (fmtOfCode f.fmtB) && f.rnd == 0) true
      true false f)
  | .tmmaS24 t f =>
    some (t, insnT 0x20 0x01 (pairOk (fmtOfCode f.fmtA) (fmtOfCode f.fmtB) && f.rnd == 0) true
      true true f)
  | .tmmaS48 t f =>
    some (t, insnT 0x20 0x02 (pairOk (fmtOfCode f.fmtA) (fmtOfCode f.fmtB) && f.rnd == 0) true
      true true f)
  | .tmmak t f =>
    some (t, insnT 0x20 0x03 (pairOk (fmtOfCode f.fmtA) (fmtOfCode f.fmtB) && f.rnd == 0) true
      true true f)
  | .talloc t f => some (t, insnT 0x21 0x00 (accFieldsZero f) true false false f)
  | .tfree t f => some (t, insnT 0x21 0x01 (accFieldsZero f) false false false f)
  | .tzero t f => some (t, insnT 0x21 0x02 (accFieldsZero f) false false false f)
  | .tld t f => some (t, insnT 0x21 0x03 (tileOk .tileLoad fmtsFp f) true false false f)
  | .tst t f =>
    some (t, insnT 0x21 0x04 (tileOk .tileStore (fmtsFp ++ fmtsMx) f) true false false f)
  | .sig t f => some (t, insnS 0x28 0x00 false true true false f)
  | .waitGe t f => some (t, insnS 0x28 0x01 true true true true f)
  | .take t f => some (t, insnS 0x28 0x02 true true false true f)
  | .sread t f => some (t, insnS 0x28 0x03 true true false false f)
  | .fenceC t f => some (t, insnS 0x29 0x00 false false false false f)
  | .fenceD t f => some (t, insnS 0x29 0x01 false false false false f)
  | .fenceP t f => some (t, insnS 0x29 0x02 false false false false f)
  | .fenceN t f => some (t, insnS 0x29 0x03 true false false false f)
  | .nopInsn t f => some (t, insnI 0x30 0x00 .none false f)
  | .end_ t f => some (t, insnI 0x30 0x01 .none false f)
  | .trap t f => some (t, insnI 0x30 0x02 .none false f)
  | .brk t f => some (t, insnI 0x30 0x03 .none false f)
  | .mfs t f => some (t, orIllegal (insnI 0x30 0x04 .scalar false f) (decide (7 < f.imm.toNat)))
  | _ => none

/-- The thread may issue and its next word is the instruction's, which is legal and has its operands
(R55, R56, R60 to R62). -/
structure Reaches (t : Nat) (i : Insn) (s : State) : Prop where
  may : mayIssue s t = true
  word : imageWord s t (thread s t).pc = some i.word
  listed : opcodeReserved i.word = false
  legal : i.illegal = false
  ready : blocked (thread s t) i = false

/-- The instruction issues and its predicate condition lets it take effect (R59). -/
structure Issues (t : Nat) (i : Insn) (s : State) : Prop extends Reaches t i s where
  gate : gateOpen (thread s t) i = true

/-- What a thread becomes after an instruction that left it as `x`: a stepped thread is
debug-halted again at its boundary (R88). -/
def stepped (now : Nat) (th x : Thread) : Thread :=
  if th.stepping then stepEnd now x else x

/-- Only thread `t` and the energy charged to the ledger (R391) differ. -/
structure OnlyThread (s s' : State) (t : Nat) : Prop where
  rest : { s' with threads := s.threads, sched := s.sched, grids := s.grids } = s
  others : ∀ u, u ≠ t → thread s' u = thread s u
  ledger : { s'.sched with
    dieCharge := s.sched.dieCharge, partCharge := s.sched.partCharge
    coreCharge := s.sched.coreCharge } = s.sched
  grids : ∀ g, { grid s' g with charge := (grid s g).charge } = grid s g

/-- The command answers a next state in which thread `t` has become `x` and only that and the ledger
have changed. -/
def ThreadBecomes (c : Instr) (s : State) (t : Nat) (x : Thread) : Prop :=
  ∃ s', exec c s = .next s' ∧ OnlyThread s s' t ∧ thread s' t = stepped (engineNow s t) (thread s t) x

/-! Rows of instructions of one shape: the command and what it computes. -/

/-- Scalar instructions of format R: rd from ra, rb and rc (R64). -/
def scalarRows : List ((Nat → RForm → Instr) × (Word → Word → Word → Word)) := [
  (.add, fun a b _ => a + b), (.sub, fun a b _ => a - b), (.and, fun a b _ => a &&& b),
  (.or, fun a b _ => a ||| b), (.xor, fun a b _ => a ^^^ b),
  (.shl, fun a b _ => a <<< (b.toNat % 64)), (.shr, fun a b _ => a >>> (b.toNat % 64)),
  (.sar, fun a b _ => a.sshiftRight (b.toNat % 64)),
  (.min, fun a b _ => if a.toInt < b.toInt then a else b),
  (.max, fun a b _ => if a.toInt < b.toInt then b else a),
  (.minu, fun a b _ => if a.toNat < b.toNat then a else b),
  (.maxu, fun a b _ => if a.toNat < b.toNat then b else a),
  (.slt, fun a b _ => if a.toInt < b.toInt then 1 else 0),
  (.sltu, fun a b _ => if a.toNat < b.toNat then 1 else 0)]

/-- Counting instructions: rd from ra (R64). -/
def countRows : List ((Nat → RForm → Instr) × (Word → Nat)) := [
  (.popc, fun a => ((List.range 64).filter fun k => a.getLsbD k).length),
  (.clz, leadingZeros), (.ctz, lowestSet)]

/-- Multiply and divide (R64). -/
def mulRows : List ((Nat → RForm → Instr) × (Word → Word → Word → Word)) := [
  (.mul, fun a b _ => BitVec.ofNat 64 (a.toNat * b.toNat)),
  (.mulh, fun a b _ => BitVec.ofInt 64 (a.toInt * b.toInt / 2 ^ 64)),
  (.mulhu, fun a b _ => BitVec.ofNat 64 (a.toNat * b.toNat / 2 ^ 64)),
  (.madd, fun a b c => a * b + c),
  (.div, fun a b _ => if b = 0 then BitVec.allOnes 64 else a.sdiv b),
  (.divu, fun a b _ => if b = 0 then BitVec.allOnes 64 else a.udiv b),
  (.rem, fun a b _ => if b = 0 then a else a.srem b),
  (.remu, fun a b _ => if b = 0 then a else a.umod b)]

/-- Scalar instructions with an immediate: rd from ra and imm32 sign-extended (R64). -/
def immRows : List ((Nat → IForm → Instr) × (Word → Word → Word)) := [
  (.addi, fun a b => a + b), (.subi, fun a b => a - b), (.andi, fun a b => a &&& b),
  (.ori, fun a b => a ||| b), (.xori, fun a b => a ^^^ b),
  (.shli, fun a b => a <<< (b.toNat % 64)), (.shri, fun a b => a >>> (b.toNat % 64)),
  (.sari, fun a b => a.sshiftRight (b.toNat % 64)),
  (.mini, fun a b => if a.toInt < b.toInt then a else b),
  (.maxi, fun a b => if a.toInt < b.toInt then b else a),
  (.minui, fun a b => if a.toNat < b.toNat then a else b),
  (.maxui, fun a b => if a.toNat < b.toNat then b else a),
  (.slti, fun a b => if a.toInt < b.toInt then 1 else 0),
  (.sltui, fun a b => if a.toNat < b.toNat then 1 else 0)]

/-- Comparisons of registers into a predicate (R64). -/
def cmpRows : List ((Nat → RForm → Instr) × (Word → Word → Prop)) := [
  (.cmpEq, fun a b => a = b), (.cmpNe, fun a b => a ≠ b),
  (.cmpLt, fun a b => a.toInt < b.toInt), (.cmpGe, fun a b => b.toInt ≤ a.toInt),
  (.cmpLtu, fun a b => a.toNat < b.toNat), (.cmpGeu, fun a b => b.toNat ≤ a.toNat)]

/-- Comparisons with an immediate into a predicate (R64). -/
def cmpiRows : List ((Nat → IForm → Instr) × (Word → Word → Prop)) := [
  (.cmpiEq, fun a b => a = b), (.cmpiNe, fun a b => a ≠ b),
  (.cmpiLt, fun a b => a.toInt < b.toInt), (.cmpiGe, fun a b => b.toInt ≤ a.toInt),
  (.cmpiLtu, fun a b => a.toNat < b.toNat), (.cmpiGeu, fun a b => b.toNat ≤ a.toNat)]

/-- Conditional branches (R65). -/
def branchRows : List ((Nat → BForm → Instr) × (Word → Word → Prop)) := [
  (.beq, fun a b => a = b), (.bne, fun a b => a ≠ b),
  (.blt, fun a b => a.toInt < b.toInt), (.bge, fun a b => b.toInt ≤ a.toInt),
  (.bltu, fun a b => a.toNat < b.toNat), (.bgeu, fun a b => b.toNat ≤ a.toNat)]

/-- Mask instructions that write pd from pa and pb (R73). -/
def maskRows : List ((Nat → PForm → Instr) × (Word → Word → Word)) := [
  (.pand, fun a b => a &&& b), (.por, fun a b => a ||| b), (.pxor, fun a b => a ^^^ b),
  (.pandn, fun a b => a &&& ~~~b), (.pnot, fun a _ => ~~~a)]

/-- Mask instructions that write rd from pa (R73). -/
def maskReadRows : List ((Nat → PForm → Instr) × (Word → Word)) := [
  (.pget, fun a => a),
  (.ppopc, fun a => BitVec.ofNat 64 ((List.range 64).filter fun k => a.getLsbD k).length),
  (.pfirst, fun a => BitVec.ofNat 64 (lowestSet a))]

/-- The two source lanes of an integer vector instruction, as signed integers and as bits. -/
def onInts (op : Nat → Int → Int → Int) (_ : State) (f : VForm) (th : Thread) (k : Nat) : Nat :=
  intBits (fmtWidth (vFmt f))
    (op (fmtWidth (vFmt f)) (sLane (vFmt f) th f.va k) (sLane (vFmt f) th f.vb k))
def onBits (op : Nat → Nat → Nat → Nat) (_ : State) (f : VForm) (th : Thread) (k : Nat) : Nat :=
  op (fmtWidth (vFmt f)) (srcLane (vFmt f) th f.va k) (srcLane (vFmt f) th f.vb k)

/-- A sum of FOIR lanes (R47), or of integer lanes. -/
def onSums (neg : Bool) (s : State) (f : VForm) (th : Thread) (k : Nat) : Nat :=
  let w := fmtWidth (vFmt f)
  let b := foirOfBits w (srcLane (vFmt f) th f.vb k)
  if fmtIsFoir (vFmt f) then
    foirBits w (foirAdd w (foirOfBits w (srcLane (vFmt f) th f.va k)) (if neg then foirNeg b else b))
  else onInts (fun _ x y => if neg then x - y else x + y) s f th k

/-- Integer, logical and move instructions: the value of lane k (R69). -/
def vecIntRows : List ((Nat → VForm → Instr) × (State → VForm → Thread → Nat → Nat)) := [
  (.vaddInt, onSums false), (.vsubInt, onSums true), (.vmulInt, onInts fun _ x y => x * y),
  (.vadds, onInts fun w x y => satLane w (x + y)), (.vsubs, onInts fun w x y => satLane w (x - y)),
  (.vminInt, onInts fun _ x y => min x y), (.vmaxInt, onInts fun _ x y => max x y),
  (.vand, onBits fun _ x y => x &&& y), (.vor, onBits fun _ x y => x ||| y),
  (.vxor, onBits fun _ x y => x ^^^ y), (.vshl, onBits fun w x y => x * 2 ^ (y % w)),
  (.vshr, onBits fun w x y => x / 2 ^ (y % w)),
  (.vsar, onInts fun w x y => x / (2 ^ (intBits w y % w) : Nat)), (.vmov, onBits fun _ x _ => x),
  (.vsel, fun _ f th k =>
    srcLane (vFmt f) th (if (readP th f.pd).getLsbD k then f.va else f.vb) k)]

/-- Lane k of a floating-point instruction on the values of its source lanes, rounded (R70). -/
def onVals (op : Val → Val → Val → Val) (s : State) (f : VForm) (th : Thread) (k : Nat) : Nat :=
  let x (r : BitVec 4) : Val := decodeElem (vFmt f) (srcLane (vFmt f) th r k)
  encodeFloat (vFmt f) (vRnd f) (srOf s th k) (op (x f.va) (x f.vb) (x f.vc))

/-- Floating-point instructions: the value of lane k (R70). -/
def vecFpRows : List ((Nat → VForm → Instr) × (State → VForm → Thread → Nat → Nat)) := [
  (.vaddFp, onVals fun x y _ => valAdd x y), (.vsubFp, onVals fun x y _ => valAdd x (valNeg y)),
  (.vmulFp, onVals fun x y _ => valMul x y),
  (.vfma, onVals fun x y z => valAdd (valMul x y) z),
  (.vfms, onVals fun x y z => valAdd (valMul x y) (valNeg z)),
  (.vminFp, onVals fun x y _ => valMin x y), (.vmaxFp, onVals fun x y _ => valMax x y),
  (.vabs, onVals fun x _ _ => valAbs x), (.vneg, onVals fun x _ _ => valNeg x),
  (.vdiv, onVals fun x y _ => valDiv x y), (.vsqrt, onVals fun x _ _ => valSqrt x),
  (.vrsqrt, fun _ f th k => rsqrtBits (vFmt f) (srcLane (vFmt f) th f.va k)),
  (.vexp2, fun _ f th k => exp2Bits (vFmt f) (vRnd f) (srcLane (vFmt f) th f.va k))]

/-- Permuting instructions: the value of lane k (R70, R73). -/
def vecPermRows : List ((Nat → VForm → Instr) × (State → VForm → Thread → Nat → Nat)) := [
  (.vbcast, fun _ f th _ => (readS th f.rs).toNat),
  (.vperm, fun _ f th k =>
    srcLane (vFmt f) th f.va (srcLane (vFmt f) th f.vb k % fmtLanes (vFmt f))),
  (.vrot, fun _ f th k => srcLane (vFmt f) th f.va
    ((k + fmtLanes (vFmt f) - f.imm.toNat % fmtLanes (vFmt f)) % fmtLanes (vFmt f))),
  (.vcmpr, fun _ f th k =>
    match (selectedLanes (vFmt f) (readP th f.pd))[k]? with
    | some j => srcLane (vFmt f) th f.va j
    | none => 0),
  (.vexpd, fun _ f th k =>
    if (readP th f.pd).getLsbD k then
      srcLane (vFmt f) th f.va
        ((selectedLanes (vFmt f) (readP th f.pd)).filter fun j => decide (j < k)).length
    else 0)]

/-- Vector comparisons (R70). -/
def vcmpRows : List ((Nat → VForm → Instr) × (Val → Val → Bool)) := [
  (.vcmpEq, fun a b => valEq a b), (.vcmpNe, fun a b => !valEq a b),
  (.vcmpLt, fun a b => valLtNum a b), (.vcmpLe, fun a b => valLtNum a b || valEq a b),
  (.vcmpGt, fun a b => valLtNum b a), (.vcmpGe, fun a b => valLtNum b a || valEq a b)]

/-- Reductions: how two results of the tree combine, given the format, the rounding, the random
values and the number of the combination (R70). -/
def reduceRows :
    List ((Nat → VForm → Instr) × (Fmt → Rnd → (Nat → Nat) → Nat → Nat → Nat → Nat)) := [
  (.vredsum, fun fm r x k a b => addElems fm r (x k) a b),
  (.vredmax, fun fm _ _ _ a b => pickElems valMax fm a b),
  (.vredmin, fun fm _ _ _ a b => pickElems valMin fm a b)]

/-- Conversions between lane groups: the element of the second format (R71, R72). -/
def convertRows : List ((Nat → VForm → Instr) × (State → VForm → Thread → Nat → Nat → Nat)) := [
  (.vcvt, fun s f th k e => convertElem (vFmt f) (vFmt2 f) (vRnd f) (srOf s th k) e),
  (.vfoir, fun _ f th _ e => foirBits (fmtWidth (vFmt2 f))
    (toFoir (fmtWidth (vFmt2 f)) (readS th f.rs).toInt (decodeElem (vFmt f) e))),
  (.vufoir, fun _ f th _ e => foirToFloat (vFmt2 f) (fmtWidth (vFmt f)) (readS th f.rs).toInt
    (foirOfBits (fmtWidth (vFmt f)) e))]

/-- Local loads of format I into a scalar register: their size and whether they sign-extend (R66). -/
def localLoadRows : List ((Nat → IForm → Instr) × Nat × Bool) := [
  (.ldB, 1, true), (.ldH, 2, true), (.ldW, 4, true), (.ldD, 8, false), (.ldBu, 1, false),
  (.ldHu, 2, false), (.ldWu, 4, false)]

/-- Local stores from a scalar register: their size (R66). -/
def localStoreRows : List ((Nat → IForm → Instr) × Nat) := [
  (.stB, 1), (.stH, 2), (.stW, 4), (.stD, 8)]

/-- Global loads: their kind, size and whether they sign-extend (R66). -/
def globalLoadRows : List ((Nat → IForm → Instr) × OpKind × Nat × Bool) := [
  (.ldgB, .load, 1, true), (.ldgH, .load, 2, true), (.ldgW, .load, 4, true),
  (.ldgD, .load, 8, false), (.ldgBu, .load, 1, false), (.ldgHu, .load, 2, false),
  (.ldgWu, .load, 4, false), (.ldgV, .vload, 64, false)]

/-- Global stores: their kind and size (R66). -/
def globalStoreRows : List ((Nat → IForm → Instr) × OpKind × Nat) := [
  (.stgB, .store, 1), (.stgH, .store, 2), (.stgW, .store, 4), (.stgD, .store, 8),
  (.stgV, .vstore, 64)]

/-- The words that `n` bytes at an address touch hold no error (R134). -/
abbrev wordsGood (s : State) (pa n : Nat) : Prop :=
  ∀ k < wordSpan pa n, wordCheck s (pa / 8 * 8 + 8 * k) = .good

/-- The command answers a next state in which thread `t` has become `x`, the bytes `bs` stand at `pa`,
and only these, check bits and the ledger have changed. -/
def Stores (c : Instr) (s : State) (t : Nat) (x : Thread) (pa : Nat) (bs : List Byte) : Prop :=
  ∃ s', exec c s = .next s' ∧ thread s' t = stepped (engineNow s t) (thread s t) x ∧
    OnlyThread s { s' with mem := s.mem, checks := s.checks } t ∧
    (∀ a, memByte s' a =
      if pa ≤ a ∧ a < pa + bs.length then bs.getD (a - pa) 0 else memByte s a) ∧
    ∀ w, (∀ b, pa ≤ b → b < pa + bs.length → b / 8 ≠ w) → tget .good s'.checks w = tget .good s.checks w

/-- The operation that an instruction of a thread starts at its target. -/
def opOf (th : Thread) (i : Insn) (k : OpKind) (a : Word) (n dst : Nat) (sext : Bool) (x : Word)
    (bs : List Byte) : Op :=
  { newOp th i k a n dst with sext := sext, x := x, data := bs }

/-- What the command does with its operation once its thread has gone on (R85, R119): with no cached
translation it waits for a walk; a failed check parks the thread at the instruction; and a translated
address sends it to its target, a store only once no earlier load of the thread has yet to read its
bytes (R126). -/
def StartsOp (c : Instr) (s : State) (t : Nat) (i : Insn) (o : Op) : Prop :=
  let th := thread s t
  let s1 := setThread (chargeIssue s t i.word) t (advance i th)
  let look := cachedAccess s1 (opAccess o.kind) (clusterOf (engineOf t)) (gridOf s th).part
    (gridOf s th).ctx o.va.toNat (opWrites o)
  (look = none → exec c s = .next (afterStep (setThread s1 t
    (pushOp { advance i th with state := .wait } { o with phase := .walk })) t th.stepping)) ∧
  (∀ e s2, look = some (.error e, s2) →
    exec c s = .next (afterStep (park s2 t o e) t th.stepping)) ∧
  (∀ pa s2, look = some (.ok pa, s2) → loadOverlap th o pa = false →
    exec c s = .next (afterStep (goTo s2 t o pa) t th.stepping)) ∧
  (∀ pa s2, look = some (.ok pa, s2) → loadOverlap th o pa = true →
    exec c s = .next (afterStep (setThread s2 t
      (pushOp { advance i th with state := .wait } { o with phase := .walk })) t th.stepping))

/-- Sync instructions: kind, operand and limit in cycles (R75). -/
def syncRows : List ((Nat → SForm → Instr) × OpKind × (Thread → SForm → Word) × (SForm → Nat)) := [
  (.sig, .sig, fun th f => readS th f.rb + f.imm.setWidth 64, fun _ => 0),
  (.waitGe, .wait, fun th f => readS th f.rb, fun f => 64 * f.imm.toNat),
  (.take, .take, fun _ _ => 0, fun f => 64 * f.imm.toNat),
  (.sread, .sread, fun _ _ => 0, fun _ => 0)]

/-- Fences: scope, and the register that receives a status (R76). -/
def fenceRows : List ((Nat → SForm → Instr) × FenceScope × (SForm → BitVec 5)) := [
  (.fenceC, .core, fun _ => 0), (.fenceD, .die, fun _ => 0), (.fenceP, .package, fun _ => 0),
  (.fenceN, .net, fun f => f.rd)]

/-- Tensor multiplies: their minor opcode and the window operands they check (R95, R102 to R105). -/
def multiplyRows : List ((Nat → TForm → Instr) × Nat) := [
  (.tmma, 0), (.tmmaS24, 1), (.tmmaS48, 2), (.tmmak, 3)]

/-- Window operands of a multiply, with their sizes. -/
def multiplyTiles (mn : Nat) (f : TForm) (th : Thread) : List (Word × Nat) :=
  let fa := (fmtOfCode f.fmtA).getD .fp32
  let fb := (fmtOfCode f.fmtB).getD .fp32
  let sa := if mn = 1 ∨ mn = 2 then sparseStride fa else recordStride fa
  [(readS th f.sa, tileBytes sa fa), (readS th f.sb, tileBytes (recordStride fb) fb)] ++
    (if mn = 0 then [] else [(readS th f.sm, if mn = 3 then 8 else 512)])

/-- A net instruction: its command, how it issues, its operation, wire opcode, whether its target is an
8 B word, its destination register, length and data (R77, R217). -/
structure NetRow where
  cmd : Nat → NForm → Instr
  insn : NForm → Insn
  kind : OpKind
  op : Nat
  align : Bool
  dst : NForm → Nat
  len : NForm → Nat
  data : Thread → NForm → Option (List Byte)

/-- Net instructions (R77). -/
def netRows : List NetRow := [
  { cmd := .put, insn := insnN 0x00 false false true true, kind := .put, op := 0x02, align := false
    dst := fun _ => 0, len := fun f => f.len.toNat
    data := fun th f => some (vecBytes (readV th f.vs) f.len.toNat) },
  { cmd := .get, insn := insnN 0x01 false false true true, kind := .get, op := 0x04, align := false
    dst := fun f => f.vs.toNat, len := fun f => f.len.toNat, data := fun _ _ => none },
  { cmd := .atomAdd, insn := insnN 0x02 true true false false, kind := .atomAdd, op := 0x06
    align := true, dst := fun f => f.rd.toNat, len := fun _ => 0
    data := fun th f => some (beBytes 8 (readS th f.rc).toNat) },
  { cmd := .atomCas, insn := insnN 0x03 true true false false, kind := .atomCas, op := 0x07
    align := true, dst := fun f => f.rd.toNat, len := fun _ => 0
    data := fun th f => some (beBytes 8 (readS th f.rc).toNat ++ beBytes 8 (readS th f.rd).toNat) },
  { cmd := .sigR, insn := insnN 0x04 false true false false, kind := .sigR, op := 0x09
    align := false, dst := fun _ => 0, len := fun _ => 0
    data := fun th f => some (beBytes 8 (readS th f.rc).toNat) }]

/-- A command stands for an instruction of thread `t` whose word this is (R60, R61). -/
def SpellsWord (c : Instr) (t : Nat) (w : Word) : Prop :=
  (∃ i, engineInsn c = some (t, i) ∧ i.word = w) ∨
    ∃ r ∈ netRows, ∃ f, c = r.cmd t f ∧ (r.insn f).word = w

/-- AQ `r`'s oldest started entry of an opcode, where the management processor serves that AQ next (R15,
R179). -/
abbrev AqTurn (s : State) (r op : Nat) (e : RingEntry) : Prop :=
  startedOp s r op = some e ∧ mpServes s r = true

/-- An entry of AQ `r` had its effect, which led from `s` to `s'`, and completes with a status and
detail. -/
def aqEnds (s s' : State) (r : Nat) (e : RingEntry) (st : BitVec 8) (d0 : Word) : State :=
  xptDone s (completeEntry (mpTook s' r st) r e st 0 d0 0)

/-- The effect of an entry of AQ `r` led from `s` to `s'` and goes on: the entry waits for its end. -/
def aqHolds (s s' : State) (r : Nat) (e : RingEntry) : State :=
  xptDone s (markActed (mpTook s' r 0) r e)

/-- The same of an entry whose effect is mirrored: its completion waits for the partner (R417). -/
def aqMirrors (s s' : State) (r : Nat) (e : RingEntry) (st : BitVec 8) (d0 : Word) : State :=
  xptDone s (completeMirrored (mpTook s' r st) (aqPart e) r e st d0 0)

/-- AQ commands that run at once: their opcode and effect (R179). -/
def AdminRow (row : (Nat → Instr) × Nat × (State → Nat → RingEntry → AdminAnswer)) : Prop := row ∈ [
  (.ringCreate, 0x40, ringCreate), (.ringResize, 0x42, ringResize), (.ringStop, 0x43, ringStop),
  (.ringStart, 0x44, ringStart), (.ringBind, 0x45, ringBind), (.syncGrant, 0x48, syncGrant),
  (.syncRevoke, 0x49, syncRevoke), (.syncRelease, 0x4A, syncRelease),
  (.partReset, 0x61, partReset), (.partSave, 0x63, partSave), (.partRestore, 0x64, partRestore),
  (fun r => .activate r true true, 0x68, activate true true), (.twinPair, 0x69, twinPair)]

/-- AQ commands of Bushel (R179). -/
def UnitRow (row : (Nat → Instr) × Nat × (State → Nat → RingEntry → BitVec 8 × State)) : Prop := row ∈ [
  (.groupCreate, 0x58, groupCreate), (.groupDestroy, 0x59, groupDestroy)]

/-- AQ commands of the transport (R179). -/
def XptRow (row : (Nat → Instr) × Nat × (State → Nat → RingEntry → AqAnswer)) : Prop := row ∈ [
  (.qpCreate, 0x50, qpCreate), (.qpModify, 0x51, qpModify), (.qpDestroy, 0x52, qpDestroy),
  (.keyRegister, 0x53, keyRegister), (.keyDeregister, 0x54, keyDeregister)]

/-- Mailbox commands: their OP and effect (R434). -/
def MailboxRow (row : Instr × Nat × (State → State)) : Prop := row ∈ [
  (.manifest, 1, manifestOp), (.blocks, 2, blocksOp), (.start true true, 3, bootStart true true),
  (.discard, 4, discardOp), (.attest, 5, attestOp), (.settingsRead, 6, settingsRead),
  (.settingsWrite, 7, settingsWrite)]

/-- A mailbox command of `op` runs from `s`: service or ROM hears it, and no START waits; `s1` holds its
OP (R434). -/
abbrev MailboxRuns (s : State) (op : Nat) (s1 : State) : Prop :=
  bar0 s = true ∧ s.boot.start = none ∧ s1 = setReg s 0x0010000 (BitVec.ofNat 64 op)

/-- SQ commands of the transport: their opcode (R191, R208). -/
def SqRow (row : (Nat → Instr) × Nat) : Prop := row ∈ [
  (.send, 0x10), (.write, 0x11), (.writeImm, 0x12), (.read, 0x13), (.atomicFadd, 0x14),
  (.atomicCas, 0x15), (.signal, 0x16), (.enable, 0x17)]

/-- Arrivals: their wire opcode and handler (R189, R191). -/
def ArrivalRow (row : (Packet → Instr) × Nat × Handler) : Prop := row ∈ [
  (.sendArrival, 0x01, onSend), (.writeArrival, 0x02, onWrite false),
  (.writeImmArrival, 0x03, onWrite true), (.readReq, 0x04, onReadReq), (.readResp, 0x05, onReadResp),
  (.atomicFaddArrival, 0x06, onAtomic faddValue), (.atomicCasArrival, 0x07, onAtomic casValue),
  (.atomicResp, 0x08, onAtomicResp), (.signalArrival, 0x09, onSignal), (.enableArrival, 0x0A, onEnable),
  (.ack, 0x10, onAck), (.nak, 0x11, onNak), (.rnr, 0x12, onRnr), (.connectReq, 0x20, onConnReq),
  (.connectRep, 0x21, onConnRep), (.connectRtu, 0x22, onConnRtu), (.connectRej, 0x23, onConnRej),
  (.disconnect, 0x24, onDisconnect), (.pathMigrate, 0x28, onPathMigrate),
  (.pathMigrateAck, 0x29, onPathMigrateAck), (fun p => .bshData p false, 0x30, onBshData false),
  (fun p => .bshData p true, 0x30, onBshData true), (.bshCredit, 0x31, onBshCredit),
  (.bshTree, 0x32, onBshControl 0x32), (.bshTaint, 0x33, onBshControl 0x33),
  (.bshAbort, 0x34, onBshControl 0x34), (.crdTok, 0x38, onCrdTok), (.crdDone, 0x39, onCrdDone),
  (.crdRet, 0x3A, onCrdRet)]

/-- A packet of opcode `op` has arrived as `a`, its FCS good, for queue pair `k`, whose context is on the
die; every earlier answer of the queue pair is processed, and the packet passes the steps of R189: its
handler begins in `s1`, the packet gone from the receive buffer. -/
def Arrives (s : State) (p : Packet) (op k : Nat) (a : Arrival) (h : Pth) (payload : List Byte)
    (s1 : State) : Prop :=
  ∃ tag part s2, s.arrived.find? (fun x => x.toPacket == p) = some a ∧ a.bad = false ∧
    s.err.fatal = false ∧ parsePth p.bytes = some (h, payload, tag) ∧ targetPart s p = some part ∧
    k = qpKey part h.qpn ∧ h.op = op ∧ (isAnswerOp op = true → answerAhead s k a = false) ∧
    answerWaits s k h = false ∧ fkCached s k = true ∧ stateAccepts (qp s k) h = true ∧
    let s0 := { s with arrived := s.arrived.erase a }
    if isConnOp op then s1 = fkTouch s0 k
    else h.ver = (qp s k).version ∧ checkTag s0 k h p tag = (true, s2) ∧
      let s3 := fkTouch s2 k
      s1 = if (qp s3 k).state = .rts ∨ (qp s3 k).state = .drain then s3 else enterRts s3 k

/-- A request is new at its target, and the mirror ring has room (R224, R418). -/
abbrev NewRequest (s : State) (k : Nat) (h : Pth) : Prop :=
  psnClass (qp s k) h.psn = .new ∧ mirrorFull s (qpPart k) = false

/-- A packet of Bushel comes from the neighbour in direction `d` of group `gid`, which is running `r`. -/
abbrev ForRun (s : State) (k : Nat) (h : Pth) (gid d : Nat) (r : BshRun) : Prop :=
  bpGid h = gid ∧ (bshGroup s gid).part = qpPart k ∧ bshDir (bshGroup s gid) k = some d ∧
    (bshGroup s gid).run = some r ∧ bpGen h = r.gen

/-- CMQ commands: their opcode (R258 to R261). -/
def CmqRow (row : (Nat → Instr) × Nat) : Prop := row ∈ [
  (.reduceScatter, 0x20), (.allGather, 0x21), (.broadcast, 0x22), (.barrier, 0x23),
  (.scalarReduce, 0x24), (.quiesce, 0x25), (.sparseAllGather, 0x26)]

/-- Partner frames: their kind (R412). -/
def FrameRow (row : (List Byte → Bool → Instr) × Nat) : Prop := row ∈ [
  (.twinHbFrame, 1), (.twinDelta, 2), (.twinData, 3), (.twinAck, 4), (.twinPairFrame, 5),
  (.twinUnpairFrame, 6)]

/-- The invalidation that the registers of a function ask for, with the entries that it drops (R120). -/
def invAsked (s : State) (fn : Nat) (scope : InvScope) : Invalidation :=
  let c := tget (regReset (xuInvCtl fn)) s.regs (xuInvCtl fn)
  let i : Invalidation :=
    { who := fn, scope := scope, part := if fn = 0 then bits c 32 7 else fn
      ctx := c.setWidth 20, va := tget 0 s.regs (xuInvVa fn), size := sizeOfCode (bits c 24 2)
      dropped := [] }
  { i with dropped := s.tlb.filter (invCovers i) }

/-- The head of a ring is this entry and may start. -/
def AtHead (s : State) (r : Nat) (e : RingEntry) : Prop :=
  (ring s r).taken.head? = some e ∧ headReady s r e = true ∧ headerBad (ring s r) e = false

end Sys2Proof.Machine
end

