-- ==== Sys2Proof/Certificates/Slice0/Obligations.lean ====
section
/-! DEFINITION. The statements about the model. -/

open Sys2Proof Sys2Proof.Machine

/-- A step runs the command at the front of the queue on the state with the queue's rest; with no
command waiting, time passes instead (the model's choice, log entry 3). -/
def Obligations.step_runs_the_front_command : Prop :=
  (∀ s c cs, s.pending = c :: cs → step s = exec c { s with pending := cs }) ∧
  (∀ s, s.pending = [] → step s = .next (idleTick s))

/-- Every command answers a next state in every state: none ends in a fault or a refusal. -/
def Obligations.every_command_completes : Prop :=
  ∀ c s, ∃ s', exec c s = .next s'

/-- After power-up nothing waits, partition 0 is in RUN and every other IDLE, no thread runs and
every ring is IDLE, every byte of local store and LPDDR5X and every accumulator reads zero (and so
does host memory, by the model's choice, log entry 1), every sync object is FREE, BOOTST is ROM with
the zero-fill under way, and the links are down with DRDY and TWIN_HB low (R139, R369, R389, R442).
-/
def Obligations.state_after_power_up : Prop :=
  let s := State.reset
  s.pending = [] ∧ (partition s 0).state = .run ∧
  (∀ p, p ≠ 0 → (partition s p).state = .idle) ∧
  (∀ t, (thread s t).state = .free) ∧ (∀ r, (ring s r).state = .idle) ∧
  (∀ a, memByte s a = 0) ∧ (∀ e a m n, accGet s e a m n = 0) ∧
  (∀ w, wordCheck s w = .good) ∧ (∀ k, (syncObj s k).state = .free) ∧
  s.boot.st = .rom ∧ s.boot.zeroFill = true ∧ s.linkUp = false ∧ s.drdy.state = .busy ∧
  s.twin.hbLow = true ∧ s.err.fatal = false

/-- What holds of memory and the security floor in every state a run reaches: memory is in its
canonical form and the floor is a number of 16 bits (R439). -/
def Obligations.reset_has_the_invariant : Prop :=
  Memory.wf State.reset.mem = true ∧ State.reset.boot.floor < 2 ^ 16

/-- Every step keeps memory in its canonical form: addresses strictly rising and no byte listed that
reads zero. -/
def Obligations.steps_keep_memory_canonical : Prop :=
  ∀ s s', Memory.wf s.mem = true → step s = .next s' → Memory.wf s'.mem = true

/-- The version floor never decreases, whatever a step does, and stays a number of 16 bits (R439).
-/
def Obligations.version_floor_never_decreases : Prop :=
  ∀ s s', s.boot.floor < 2 ^ 16 → step s = .next s' →
    s.boot.floor ≤ s'.boot.floor ∧ s'.boot.floor < 2 ^ 16

/-- Every word whose opcode is not reserved is the word of one command of a thread and of no other,
and no command's word has a reserved opcode: the encodings of R61 and the opcode map of R63 drop no
bit and overlap nowhere (R60 to R63). -/
def Obligations.words_and_commands_agree : Prop :=
  (∀ t w, opcodeReserved w = false → ∃ c, SpellsWord c t w ∧ ∀ c', SpellsWord c' t w → c' = c) ∧
  (∀ c t w, SpellsWord c t w → opcodeReserved w = false)

/-- Scalar arithmetic, logic, shifts and set-less-than of format R answer a next state in which rd
has become the value of R64 and only the thread has changed. `popc`, `clz` and `ctz` write rd the
counts of R64; zero gives 0, 64 and 64, and rb must be 0. Multiplies and divides write rd the values
of R64; a division by zero gives all ones and its remainder the dividend. Scalar instructions with a
sign-extended imm32 write rd; `movi` writes imm43 sign-extended, and `movh` replaces rd[63:43] with
imm43[20:0], imm43[42:21] being 0 (R64). Comparisons write all 64 bits of their predicate: ones
where the relation holds, zeros where it does not (R64). -/
def Obligations.scalar_results : Prop :=
  (∀ r ∈ scalarRows, ∀ t f s i, engineInsn (r.1 t f) = some (t, i) → Issues t i s →
     ThreadBecomes (r.1 t f) s t (writeS (advance i (thread s t)) f.rd
       (r.2 (readS (thread s t) f.ra) (readS (thread s t) f.rb) (readS (thread s t) f.rc)))) ∧
  ((∀ r ∈ countRows, ∀ t f s i, engineInsn (r.1 t f) = some (t, i) → Issues t i s →
     ThreadBecomes (r.1 t f) s t (writeS (advance i (thread s t)) f.rd
       (BitVec.ofNat 64 (r.2 (readS (thread s t) f.ra))))) ∧
   (∀ x : Word, lowestSet x ≤ 64 ∧ (∀ k < lowestSet x, x.getLsbD k = false) ∧
     (lowestSet x < 64 → x.getLsbD (lowestSet x) = true)) ∧
   (∀ x : Word, leadingZeros x ≤ 64 ∧ (∀ k < leadingZeros x, x.getLsbD (63 - k) = false) ∧
     (leadingZeros x < 64 → x.getLsbD (63 - leadingZeros x) = true)) ∧
   (∀ r ∈ countRows, ∀ t f i, engineInsn (r.1 t f) = some (t, i) → f.rb ≠ 0 → i.illegal = true)) ∧
  (∀ r ∈ mulRows, ∀ t f s i, engineInsn (r.1 t f) = some (t, i) → Issues t i s →
     ThreadBecomes (r.1 t f) s t (writeS (advance i (thread s t)) f.rd
       (r.2 (readS (thread s t) f.ra) (readS (thread s t) f.rb) (readS (thread s t) f.rc)))) ∧
  ((∀ r ∈ immRows, ∀ t f s i, engineInsn (r.1 t f) = some (t, i) → Issues t i s →
     ThreadBecomes (r.1 t f) s t (writeS (advance i (thread s t)) f.rd
       (r.2 (readS (thread s t) f.ra) (f.imm.signExtend 64)))) ∧
   (∀ t f s i, engineInsn (.movi t f) = some (t, i) → Issues t i s →
     ThreadBecomes (.movi t f) s t (writeS (advance i (thread s t)) f.rd (f.imm.signExtend 64))) ∧
   (∀ t f s i, engineInsn (.movh t f) = some (t, i) → Issues t i s →
     ThreadBecomes (.movh t f) s t (writeS (advance i (thread s t)) f.rd
       (f.imm.extractLsb' 0 21 ++ (readS (thread s t) f.rd).extractLsb' 0 43))) ∧
   (∀ t f i, engineInsn (.movh t f) = some (t, i) → f.imm.extractLsb' 21 22 ≠ 0 → i.illegal = true)) ∧
  ((∀ r ∈ cmpRows, ∀ t f s i, engineInsn (r.1 t f) = some (t, i) → Issues t i s →
     let a := readS (thread s t) f.ra
     let b := readS (thread s t) f.rb
     (r.2 a b → ThreadBecomes (r.1 t f) s t
       (writeP (advance i (thread s t)) (f.rd.setWidth 3) (BitVec.allOnes 64))) ∧
     (¬ r.2 a b → ThreadBecomes (r.1 t f) s t
       (writeP (advance i (thread s t)) (f.rd.setWidth 3) 0))) ∧
   (∀ r ∈ cmpiRows, ∀ t f s i, engineInsn (r.1 t f) = some (t, i) → Issues t i s →
     let a := readS (thread s t) f.ra
     let b := f.imm.signExtend 64
     (r.2 a b → ThreadBecomes (r.1 t f) s t
       (writeP (advance i (thread s t)) (f.rd.setWidth 3) (BitVec.allOnes 64))) ∧
     (¬ r.2 a b → ThreadBecomes (r.1 t f) s t
       (writeP (advance i (thread s t)) (f.rd.setWidth 3) 0))))

/-- A branch goes to pc + 8 x off38 where its relation holds and on to the next word where it does
not; `br` always branches and `jal` also writes pc + 8 to ra (R65). `jr` and `jalr` jump to a
multiple of 8 that a pc can hold; `jalr` also writes pc + 8 to ra. An address that is no multiple of
8 raises ALIGN with that address (R65, R82). -/
def Obligations.branch_and_jump_results : Prop :=
  ((∀ r ∈ branchRows, ∀ t f s i, engineInsn (r.1 t f) = some (t, i) → Issues t i s →
     let th := thread s t
     let a := readS th f.ra
     let b := readS th f.rb
     (r.2 a b → ThreadBecomes (r.1 t f) s t
       { advance i th with pc := th.pc + 8 * f.off.signExtend 57 }) ∧
     (¬ r.2 a b → ThreadBecomes (r.1 t f) s t (advance i th))) ∧
   (∀ t f s i, engineInsn (.br t f) = some (t, i) → Issues t i s →
     ThreadBecomes (.br t f) s t
       { advance i (thread s t) with pc := (thread s t).pc + 8 * f.off.signExtend 57 }) ∧
   (∀ t f s i, engineInsn (.jal t f) = some (t, i) → Issues t i s →
     ThreadBecomes (.jal t f) s t (writeS
       { advance i (thread s t) with pc := (thread s t).pc + 8 * f.off.signExtend 57 } f.ra
       (((thread s t).pc + 8).setWidth 64)))) ∧
  ((∀ t f s i, engineInsn (.jr t f) = some (t, i) → Issues t i s →
     let a := readS (thread s t) f.ra
     (a.toNat % 8 = 0 → a.toNat < 2 ^ 57 →
       ThreadBecomes (.jr t f) s t { advance i (thread s t) with pc := a.setWidth 57 }) ∧
     (a.toNat % 8 ≠ 0 → exec (.jr t f) s = .next
       (takeException (chargeIssue s t i.word) t (thread s t).pc i.word a .align 0x04))) ∧
   (∀ t f s i, engineInsn (.jalr t f) = some (t, i) → Issues t i s →
     let a := readS (thread s t) f.rb
     (a.toNat % 8 = 0 → a.toNat < 2 ^ 57 →
       ThreadBecomes (.jalr t f) s t
         { writeS (advance i (thread s t)) f.ra (((thread s t).pc + 8).setWidth 64) with
           pc := a.setWidth 57 }) ∧
     (a.toNat % 8 ≠ 0 → exec (.jalr t f) s = .next
       (takeException (chargeIssue s t i.word) t (thread s t).pc i.word a .align 0x04))))

/-- Mask instructions write pd or rd the values of R73. Vector comparisons write the bits of the
active lanes of p[pd] and keep the others; reductions write lane 0 of vd by the fixed tree, a NaN as
the canonical one, and zero the rest (R30, R70). -/
def Obligations.mask_and_vector_compare_results : Prop :=
  ((∀ r ∈ maskRows, ∀ t f s i, engineInsn (r.1 t f) = some (t, i) → Issues t i s →
     ThreadBecomes (r.1 t f) s t (writeP (advance i (thread s t)) f.pd
       (r.2 (readP (thread s t) f.pa) (readP (thread s t) f.pb)))) ∧
   (∀ r ∈ maskReadRows, ∀ t f s i, engineInsn (r.1 t f) = some (t, i) → Issues t i s →
     ThreadBecomes (r.1 t f) s t (writeS (advance i (thread s t)) f.rd
       (r.2 (readP (thread s t) f.pa)))) ∧
   (∀ t f s i, engineInsn (.pmov t f) = some (t, i) → Issues t i s →
     ThreadBecomes (.pmov t f) s t (writeP (advance i (thread s t)) f.pd (readS (thread s t) f.ra)))) ∧
  ((∀ r ∈ vcmpRows, ∀ t f s i, engineInsn (r.1 t f) = some (t, i) → Issues t i s →
     let th := thread s t
     ThreadBecomes (r.1 t f) s t (writeP (advance i th) f.pd (wordOfBits 64 fun k =>
       if active th f k ∧ k < fmtLanes (vFmt f) then
         r.2 (decodeElem (vFmt f) (srcLane (vFmt f) th f.va k))
           (decodeElem (vFmt f) (srcLane (vFmt f) th f.vb k))
       else (readP th f.pd).getLsbD k))) ∧
   (∀ r ∈ reduceRows, ∀ t f s i, engineInsn (r.1 t f) = some (t, i) → Issues t i s →
     let th := thread s t
     ThreadBecomes (r.1 t f) s t (writeV (advance i th) f.vd
       (vecOfLanes (fmtWidth (vFmt f)) 1 fun _ =>
         quietResult (vFmt f) ((reduceTree (active th f) (srcLane (vFmt f) th f.va)
           (r.2 (vFmt f) (vRnd f) (srOf s th)) (Nat.log2 (fmtLanes (vFmt f))) 0).getD 0)))) ∧
   (∀ fm x, decodeElem fm x = .nan → fmtIsInt fm = false → quietResult fm x = canonicalNaN fm) ∧
   (∀ fm x, decodeElem fm x ≠ .nan → quietResult fm x = x))

/-- A lane of a register made of lanes reads what was put into it, and a lane-wise update changes
the active lanes only (R69, R59). -/
def Obligations.vector_lanes_read_back : Prop :=
  (∀ w n g k, k < n → w * n ≤ 512 → lane w (vecOfLanes w n g) k = g k % 2 ^ w) ∧
  (∀ fm old act g k, k < fmtLanes fm →
    lane (fmtWidth fm) (lanesWhere fm old act g) k =
      if act k then g k % 2 ^ fmtWidth fm else lane (fmtWidth fm) old k)

/-- Integer, logical, shift and select instructions write each active lane of vd the value of R69,
and leave every other lane and everything but the thread as it was. Floating-point instructions
write each active lane of vd the rounded value of R70. Broadcast, permute, rotate, compress and
expand write each active lane of vd (R70, R73); `vext` writes one lane to a scalar register and
`vins` one scalar register to a lane. -/
def Obligations.vector_arithmetic_results : Prop :=
  (∀ r ∈ vecIntRows, ∀ t f s i, engineInsn (r.1 t f) = some (t, i) → Issues t i s →
     ThreadBecomes (r.1 t f) s t (writeV (advance i (thread s t)) f.vd
       (lanesWhere (vFmt f) (readV (thread s t) f.vd) (active (thread s t) f)
         (r.2 s f (thread s t))))) ∧
  (∀ r ∈ vecFpRows, ∀ t f s i, engineInsn (r.1 t f) = some (t, i) → Issues t i s →
     ThreadBecomes (r.1 t f) s t (writeV (advance i (thread s t)) f.vd
       (lanesWhere (vFmt f) (readV (thread s t) f.vd) (active (thread s t) f)
         (r.2 s f (thread s t))))) ∧
  ((∀ r ∈ vecPermRows, ∀ t f s i, engineInsn (r.1 t f) = some (t, i) → Issues t i s →
     ThreadBecomes (r.1 t f) s t (writeV (advance i (thread s t)) f.vd
       (lanesWhere (vFmt f) (readV (thread s t) f.vd) (active (thread s t) f)
         (r.2 s f (thread s t))))) ∧
   (∀ t f s i, engineInsn (.vext t f) = some (t, i) → Issues t i s →
     ThreadBecomes (.vext t f) s t (writeS (advance i (thread s t)) f.rs
       (BitVec.ofNat 64 (srcLane (vFmt f) (thread s t) f.va f.imm.toNat)))) ∧
   (∀ t f s i, engineInsn (.vins t f) = some (t, i) → Issues t i s →
     ThreadBecomes (.vins t f) s t (writeV (advance i (thread s t)) f.vd
       (lanesWhere (vFmt f) (readV (thread s t) f.vd) (fun k => k == f.imm.toNat)
         (fun _ => (readS (thread s t) f.rs).toNat)))))

/-- Conversions write the active lanes of their lane group of vd (R71, R72); `vqmx` and `vdqmx`
convert between 32 values and one MX block, and `vemax` writes the largest exponent to rs. -/
def Obligations.vector_convert_results : Prop :=
  (∀ r ∈ convertRows, ∀ t f s i, engineInsn (r.1 t f) = some (t, i) → Issues t i s →
    let th := thread s t
    let a := vFmt f
    let b := vFmt2 f
    let n := min (fmtLanes a) (fmtLanes b)
    let so := if fmtLanes b < fmtLanes a then f.imm.toNat * n else 0
    let d := if fmtLanes a < fmtLanes b then f.imm.toNat * n else 0
    ThreadBecomes (r.1 t f) s t (writeV (advance i th) f.vd (lanesWhere b (readV th f.vd)
      (fun j => decide (d ≤ j ∧ j < d + n) && active th f j)
      (fun j => r.2 s f th j (srcLane a th f.va (so + (j - d))))))) ∧
  (∀ t f s i, engineInsn (.vqmx t f) = some (t, i) → Issues t i s →
    let th := thread s t
    ThreadBecomes (.vqmx t f) s t (writeV (advance i th) f.vd (mxRegister (vFmt2 f)
      (quantise (vFmt2 f) (vRnd f) (srOf s th) ((List.range 32).map fun k =>
        decodeElem (vFmt f) (if f.fmt = 0 ∧ 16 ≤ k then srcLane (vFmt f) th (f.va + 1) (k - 16)
          else srcLane (vFmt f) th f.va k)))))) ∧
  (∀ t f s i, engineInsn (.vdqmx t f) = some (t, i) → Issues t i s →
    let th := thread s t
    let v := readV th f.va
    let x (k : Nat) : Nat :=
      encodeFloat .fp32 .rne 0 (decodeMx (vFmt f) (mxScale v) (mxElem (vFmt f) v k))
    ThreadBecomes (.vdqmx t f) s t (writeV (writeV (advance i th) f.vd (vecOfLanes 32 16 x))
      (f.vd + 1) (vecOfLanes 32 16 fun k => x (16 + k)))) ∧
  (∀ t f s i, engineInsn (.vemax t f) = some (t, i) → Issues t i s →
    let th := thread s t
    ThreadBecomes (.vemax t f) s t (writeS (advance i th) f.rs
      (match (List.range (fmtLanes (vFmt f))).filterMap (fun k =>
          if active th f k then elemExponent (vFmt f) (srcLane (vFmt f) th f.va k) else none) with
        | [] => 0x8000000000000000
        | e :: es => BitVec.ofInt 64 (es.foldl max e))))

/-- `vbspk` stores the MX block in vd as a BSMX container at the local address in rs (R38, R73), and
`vbsup` reads one whose count, format and reserved byte are right into the dense block of vd (R39,
R73). -/
def Obligations.sparse_container_results : Prop :=
  (∀ t f s i, engineInsn (.vbspk t f) = some (t, i) → Issues t i s →
    let th := thread s t
    let v := readV th f.vd
    let a := readS th f.rs
    let bs := bsmxBytes (vFmt f) (mxScale v) ((List.range 32).map (mxElem (vFmt f) v))
    Memory.wf s.mem = true → checkLocal s th a bs.length 8 = none →
    storeMustWait s (engineOf t) ((groupOf s th).winBase + a.toNat) bs.length = false →
    wordsGood s (windowPa s th a.toNat) bs.length → (groupOf s th).winBase % 64 = 0 →
    Stores (.vbspk t f) s t (advance i th) (windowPa s th a.toNat) bs) ∧
  (∀ t f s i, engineInsn (.vbsup t f) = some (t, i) → Issues t i s →
    let th := thread s t
    let a := readS th f.rs
    let pa := windowPa s th a.toNat
    let h := peek s pa 8
    let mask := leNat (h.take 4)
    let count := (h.getD 6 0).toNat
    let n := bsmxSize count (fmtWidth (vFmt f))
    checkLocal s th a 8 8 = none → checkLocal s th a n 8 = none →
    readMustWait s (engineOf t) ((groupOf s th).winBase + a.toNat) 40 = false →
    wordsGood s pa n → localLost s pa = false → localLost s (windowPa s th (a.toNat + 8)) = false →
    (groupOf s th).winBase % 64 = 0 →
    count = ((List.range 32).filter fun k => mask.testBit k).length →
    h.getD 5 0 = (codeOfFmt (vFmt f)).setWidth 8 → h.getD 7 0 = 0 →
    ThreadBecomes (.vbsup t f) s t (writeV (advance i th) f.vd (mxRegister (vFmt f)
      { scale := (h.getD 4 0).toNat
        elems := bsmxDense (vFmt f) mask
          (peek s (windowPa s th (a.toNat + 8)) (n - 8)) })))

/-- Every instruction of an engine but the net instructions: with its predicate condition false it
has no effect but to go on to the next word (R59). -/
def Obligations.predicated_off_only_advances : Prop :=
  ∀ c t i s, engineInsn c = some (t, i) → Reaches t i s → gateOpen (thread s t) i = false →
    ThreadBecomes c s t (advance i (thread s t))

/-- An illegal encoding raises ILLEGAL whatever its predicate, with the word in the record and the
pc of the instruction; a pc outside the image raises PCRANGE with no word (R60, R62, R82, R84). An
instruction waits while an operand, its destination or its accumulator has an operation outstanding,
and nothing issues of a thread that is not READY or WAIT, that waits at a fence, is to halt or is
paced, of a partition about to be pre-empted, or in the fatal state (R55, R56, R86, R398, R459). -/
def Obligations.illegal_and_waiting_instructions : Prop :=
  ((∀ c t i s, engineInsn c = some (t, i) → mayIssue s t = true →
     imageWord s t (thread s t).pc = some i.word → i.illegal = true →
     exec c s = .next (takeException s t (thread s t).pc i.word 0 .illegal 0x02)) ∧
   (∀ c t i s, engineInsn c = some (t, i) → mayIssue s t = true →
     imageWord s t (thread s t).pc = none →
     exec c s = .next
       (takeException s t (thread s t).pc 0 ((thread s t).pc.setWidth 64) .pcrange 0x04))) ∧
  ((∀ c t i s, engineInsn c = some (t, i) → mayIssue s t = true →
     imageWord s t (thread s t).pc = some i.word → opcodeReserved i.word = false →
     i.illegal = false → blocked (thread s t) i = true →
     exec c s = .next (setThread s t { thread s t with state := .wait })) ∧
   (∀ c t i s, engineInsn c = some (t, i) → mayIssue s t = false → exec c s = .next s) ∧
   (∀ s t, mayIssue s t = true →
     ((thread s t).state = .ready ∨ (thread s t).state = .wait) ∧ (thread s t).fence = none ∧
     (thread s t).halting = false ∧ pacedNow s (gridOf s (thread s t)) = false ∧
     (partition s (gridOf s (thread s t)).part).draining = false ∧ s.err.fatal = false) ∧
   (∀ s g, pacedNow s g = true ↔ g.paced = true ∨ gridSpent g = true ∨ partOverspent s g.part = true))

/-- A register reads what was last written to it and every other keeps its value; s0 reads 0 and p0
all ones, and writes to them are discarded (R57). -/
def Obligations.registers_read_back : Prop :=
  (∀ th r q v, tableWf 0 th.s = true →
    readS (writeS th r v) q = if q = 0 then 0 else if q = r then v else readS th q) ∧
  (∀ th r q v, tableWf 0 th.v = true →
    readV (writeV th r v) q = if q = r then v else readV th q) ∧
  (∀ th r q v, tableWf 0 th.p = true →
    readP (writeP th r v) q = if q = 0 then BitVec.allOnes 64 else if q = r then v else readP th q) ∧
  (∀ th r v, (writeS th r v).v = th.v ∧ (writeS th r v).p = th.p ∧ (writeS th r v).pc = th.pc ∧
    (r = 0 → writeS th r v = th))

/-- A thread that takes an exception, in a grid with EXC_MODE set that still has groups to start: it
is HALTED, the first exception of the grid becomes its record and a later one is only counted, and
the rest of the grid runs on; a HALT of the debugger under way may then end (R83, R84, R88). With
EXC_MODE clear, the exception of a thread stops its grid: no thread of the grid is left READY, WAIT,
SPIN or PARKED, and no further group starts (R83). -/
def Obligations.exception_results : Prop :=
  (∀ s t pc word addr cause st, let th := thread s t
     let g := grid s th.grid
     g.excMode = true → g.state = .running → g.nextGroup ≠ gridGroups g → g.excrec = 0 →
     ∃ s', takeException s t pc word addr cause st = settleDebug s' ∧ s'.dbgHalt = s.dbgHalt ∧
     (s.dbgHalt = none → settleDebug s' = s') ∧
     (thread s' t).state = .halted ∧ (thread s' t).cause = some cause ∧
     (thread s' t).s = th.s ∧ (thread s' t).v = th.v ∧ (thread s' t).p = th.p ∧
     (∀ u, u ≠ t → thread s' u = thread s u) ∧
     (g.exc = none → (grid s' th.grid).exc = some
       { pc := pc, insn := word, tid := tidOf s th, addr := addr, cause := cause, status := st
         engine := engineOf t }) ∧
     (∀ r, g.exc = some r → grid s' th.grid = { g with more := g.more + 1 })) ∧
  (∀ s t pc word addr cause st, let th := thread s t
     let g := grid s th.grid
     tableWf Thread.free s.threads = true → g.excMode = false → g.state = .running →
     g.excrec = 0 →
     (∃ u ∈ gridThreads s th.grid, u ≠ t ∧ (thread s u).state = .ending) →
     ∃ s', takeException s t pc word addr cause st = settleDebug s' ∧
     (s.dbgHalt = none → settleDebug s' = s') ∧ (grid s' th.grid).state = .stopping ∧
     ∀ u ∈ gridThreads s th.grid, (thread s' u).state = .halted ∨ (thread s' u).state = .ending ∨
       (thread s' u).state = .free)

/-- A local load whose access passes its checks, waits for no tile and finds its words good writes
rd the little-endian bytes of the window at ra + imm32, sign- or zero-extended (R52, R66, R112). -/
def Obligations.local_load_results : Prop :=
  (∀ r ∈ localLoadRows, ∀ t f s i, engineInsn (r.1 t f) = some (t, i) → Issues t i s →
    let th := thread s t
    let a := readS th f.ra + f.imm.signExtend 64
    checkLocal s th a r.2.1 r.2.1 = none →
    readMustWait s (engineOf t) ((groupOf s th).winBase + a.toNat) r.2.1 = false →
    wordsGood s (windowPa s th a.toNat) r.2.1 → localLost s (windowPa s th a.toNat) = false →
    ThreadBecomes (r.1 t f) s t (writeS (advance i th) f.rd
      (loadValue r.2.2 (peek s (windowPa s th a.toNat) r.2.1)))) ∧
  (∀ t f s i, engineInsn (.ldV t f) = some (t, i) → Issues t i s →
    let th := thread s t
    let a := readS th f.ra + f.imm.signExtend 64
    checkLocal s th a 64 64 = none →
    readMustWait s (engineOf t) ((groupOf s th).winBase + a.toNat) 64 = false →
    wordsGood s (windowPa s th a.toNat) 64 → localLost s (windowPa s th a.toNat) = false →
    ThreadBecomes (.ldV t f) s t (writeV (advance i th) (f.rd.setWidth 4)
      (vecOfBytes (peek s (windowPa s th a.toNat) 64))))

/-- A local store whose access passes its checks, waits for no tile and finds its words good stores
the low bytes of rd in the window at ra + imm32, little-endian; every other byte of memory, every
other thread and the rest of the state keep their values (R52, R66, R112, R136). -/
def Obligations.local_store_results : Prop :=
  (∀ r ∈ localStoreRows, ∀ t f s i, engineInsn (r.1 t f) = some (t, i) → Issues t i s →
    let th := thread s t
    let a := readS th f.ra + f.imm.signExtend 64
    Memory.wf s.mem = true → checkLocal s th a r.2 r.2 = none →
    storeMustWait s (engineOf t) ((groupOf s th).winBase + a.toNat) r.2 = false →
    wordsGood s (windowPa s th a.toNat) r.2 → (groupOf s th).winBase % 64 = 0 →
    Stores (r.1 t f) s t (advance i th) (windowPa s th a.toNat)
      (leBytes r.2 (readS th f.rd).toNat)) ∧
  (∀ t f s i, engineInsn (.stV t f) = some (t, i) → Issues t i s →
    let th := thread s t
    let a := readS th f.ra + f.imm.signExtend 64
    Memory.wf s.mem = true → checkLocal s th a 64 64 = none →
    storeMustWait s (engineOf t) ((groupOf s th).winBase + a.toNat) 64 = false →
    wordsGood s (windowPa s th a.toNat) 64 → (groupOf s th).winBase % 64 = 0 →
    Stores (.stV t f) s t (advance i th) (windowPa s th a.toNat)
      (leBytes 64 (readV th (f.rd.setWidth 4)).toNat))

/-- A local access at an address that is no multiple of its size raises ALIGN, and one that leaves
the group's window LBOUNDS, each with the address; ALIGN goes first (R66, R82). -/
def Obligations.local_access_traps : Prop :=
  (∀ s th a n, checkLocal s th a n n = some .align ↔ a.toNat % n ≠ 0) ∧
  (∀ s th a n, checkLocal s th a n n = some .lbounds ↔
    a.toNat % n = 0 ∧ (2 ^ 15 ≤ a.toNat ∨ (groupOf s th).winSize < a.toNat + n)) ∧
  (∀ r ∈ localLoadRows, ∀ t f s i cause, engineInsn (r.1 t f) = some (t, i) → Issues t i s →
    let a := readS (thread s t) f.ra + f.imm.signExtend 64
    checkLocal s (thread s t) a r.2.1 r.2.1 = some cause →
    exec (r.1 t f) s = .next (takeException (chargeIssue s t i.word) t (thread s t).pc
      i.word a cause 0x04)) ∧
  (∀ r ∈ localStoreRows, ∀ t f s i cause, engineInsn (r.1 t f) = some (t, i) → Issues t i s →
    let a := readS (thread s t) f.ra + f.imm.signExtend 64
    checkLocal s (thread s t) a r.2 r.2 = some cause →
    exec (r.1 t f) s = .next (takeException (chargeIssue s t i.word) t (thread s t).pc
      i.word a cause 0x04))

/-- A global load or store at an aligned canonical address goes on to the next word and starts its
operation; a store whose bytes an earlier load of the thread has yet to read waits (R66, R85, R119,
R126). An operation at its translated address: a load, `sig` or `sread` is in flight, a store writes
its bytes, `wait.ge` and `take` put their thread in SPIN with their limit, and a sync instruction
whose address is no sync object raises NOTSYNC (R66, R75, R82). -/
def Obligations.global_access_starts : Prop :=
  ((∀ r ∈ globalLoadRows, ∀ t f s i, engineInsn (r.1 t f) = some (t, i) → Issues t i s →
     let th := thread s t
     let a := readS th f.ra + f.imm.signExtend 64
     a.toNat % r.2.2.1 = 0 → a.toNat < 2 ^ 57 →
     StartsOp (r.1 t f) s t i (opOf th i r.2.1 a r.2.2.1 f.rd.toNat r.2.2.2 0 [])) ∧
   (∀ r ∈ globalStoreRows, ∀ t f s i, engineInsn (r.1 t f) = some (t, i) → Issues t i s →
     let th := thread s t
     let a := readS th f.ra + f.imm.signExtend 64
     let v := if r.2.1 = .vstore then (readV th (f.rd.setWidth 4)).toNat else (readS th f.rd).toNat
     a.toNat % r.2.2 = 0 → a.toNat < 2 ^ 57 →
     StartsOp (r.1 t f) s t i (opOf th i r.2.1 a r.2.2 0 false 0 (leBytes r.2.2 v)))) ∧
  ((∀ s t o pa, (o.kind = .load ∨ o.kind = .vload ∨
       ((o.kind = .sig ∨ o.kind = .sread) ∧ regionOf pa = .syncObj)) →
     goTo s t o pa = setThread s t (pushOp (thread s t) { o with phase := .flight, pa := pa })) ∧
   (∀ s t o pa, (o.kind = .store ∨ o.kind = .vstore) → goTo s t o pa = writeMem s pa o.data) ∧
   (∀ s t o pa, (o.kind = .wait ∨ o.kind = .take) → regionOf pa = .syncObj →
     (thread s t).state ≠ .halted → (thread (goTo s t o pa) t).state = .spin ∧
     (thread (goTo s t o pa) t).spin = some
       { take := o.kind == .take, va := o.va, pa := pa, target := o.x
         dst := BitVec.ofNat 5 o.dst, left := o.size, since := engineNow s t, stale := false
         pc := o.pc, word := o.word }) ∧
   (∀ s t o pa, (o.kind = .wait ∨ o.kind = .take) → regionOf pa = .syncObj →
     (thread s t).state = .halted → goTo s t o pa = s) ∧
   (∀ s t o pa, (o.kind = .sig ∨ o.kind = .sread ∨ o.kind = .wait ∨ o.kind = .take) →
     regionOf pa ≠ .syncObj →
     goTo s t o pa = takeException s t o.pc o.word o.va .notsync 0x04))

/-- A write of bytes whose words hold no error stores exactly them, and keeps memory's canonical
form; an aligned write of a whole word also clears poison, and a narrower one leaves a poisoned word
as it was and writes a record (R124, R136). -/
def Obligations.memory_write_effect : Prop :=
  (∀ s pa bs, Memory.wf s.mem = true → wordsGood s pa bs.length →
    Memory.wf (writeMem s pa bs).mem = true ∧
    ∀ a, memByte (writeMem s pa bs) a =
      if pa ≤ a ∧ a < pa + bs.length then bs.getD (a - pa) 0 else memByte s a) ∧
  (∀ s pa bs, pa % 8 = 0 → bs.length = 8 →
    (writeWord s pa bs).mem = pokeMem s.mem pa bs ∧ (writeWord s pa bs).err = s.err) ∧
  (∀ s pa bs, wordCheck s pa = .poison → ¬(pa % 8 = 0 ∧ bs.length = 8) →
    (writeWord s pa bs).mem = s.mem ∧ (writeWord s pa bs).checks = s.checks ∧
    ∃ r, r.code = 0x06 ∧ r.addr = pa / 8 * 8 ∧ writeWord s pa bs = recordError s r)

/-- The data of a global load in flight arrive, of loads that share bytes in their order: its
register is written and the operation ends; a poisoned word leaves a deferred POISON, which stops
the thread at DEFERRED_EXCEPTION (R66, R81, R126). -/
def Obligations.global_load_answers : Prop :=
  (∀ t id s o, findOp (thread s t) id = some o → o.kind = .load → o.phase = .flight →
    o.fail = none → (regionOf o.pa = .hostMem → s.linkUp = true) →
    loadBefore (thread s t) o = false → (readMem s o.pa o.size).1 = false →
    let r := readMem s o.pa o.size
    exec (.globalLoadResponse t id) s = .next (settleThread (setThread r.2.2 t
      (writeS (dropOp (thread s t) id) (BitVec.ofNat 5 o.dst) (loadValue o.sext r.2.1))) t)) ∧
  (∀ t id s o, findOp (thread s t) id = some o → o.kind = .vload → o.phase = .flight →
    o.fail = none → (regionOf o.pa = .hostMem → s.linkUp = true) →
    loadBefore (thread s t) o = false → (readMem s o.pa o.size).1 = false →
    let r := readMem s o.pa o.size
    exec (.globalLoadResponse t id) s = .next (settleThread (setThread r.2.2 t
      (writeV (dropOp (thread s t) id) (BitVec.ofNat 4 o.dst) (vecOfBytes r.2.1))) t)) ∧
  (∀ t id s o, findOp (thread s t) id = some o → o.kind = .load ∨ o.kind = .vload →
    o.phase = .flight → o.fail = none → (regionOf o.pa = .hostMem → s.linkUp = true) →
    loadBefore (thread s t) o = false → (readMem s o.pa o.size).1 = true →
    exec (.globalLoadResponse t id) s = .next (setThread (readMem s o.pa o.size).2.2 t
      (putOp (thread s t)
        { o with fail := some { cause := .poison, status := 0x0D, addr := o.va } }))) ∧
  (∀ t id s o, findOp (thread s t) id = some o → loadBefore (thread s t) o = true →
    exec (.globalLoadResponse t id) s = .next s) ∧
  (∀ t s o x, (thread s t).ops.find? (fun o => o.fail.isSome) = some o → o.fail = some x →
    exec (.deferredException t) s = .next (takeException
      (setThread s t (dropOp (thread s t) o.id)) t o.pc o.word x.addr x.cause x.status))

/-- The walk that a thread waits for completes: the operation goes to its target at the address
walked, or the fault is raised and the thread is PARKED at the instruction, or stays HALTED; a store
waits for the thread's earlier loads of its bytes (R85, R118, R126). -/
def Obligations.page_walk_completes : Prop :=
  ∀ t s o, (thread s t).ops.find? (fun o => o.phase == OpPhase.walk) = some o →
    let th := thread s t
    let r := walkAccess s (opAccess o.kind) (clusterOf (engineOf t)) (gridOf s th).part
      (gridOf s th).ctx (opVa o) (opWrites o)
    let s1 := setThread r.2 t { th with
      ops := th.ops.filter fun x => x.phase != OpPhase.walk
      state := if th.state = .wait then .ready else th.state }
    (∀ e, r.1 = .error e → exec (.pageWalk t) s = .next (settleThread (park r.2 t o e) t)) ∧
    (∀ pa, r.1 = .ok pa → loadOverlap th o pa = true → exec (.pageWalk t) s = .next r.2) ∧
    (∀ pa, r.1 = .ok pa → loadOverlap th o pa = false → o.kind ≠ .mvpost →
      exec (.pageWalk t) s = .next (settleThread (goTo s1 t o pa) t)) ∧
    (∀ pa, r.1 = .ok pa → o.kind = .mvpost → exec (.pageWalk t) s =
      .next (settleThread (startOp s1 t { o with size := o.size + 1 } 2) t)) ∧
    (∀ e, th.state ≠ .halted → park s t o e = raiseFault (setThread s t
      { th with
        state := .parked, pc := o.pc, spin := none, halting := th.halting && !th.stepping
        ops := th.ops.filter fun x => x.phase != OpPhase.walk })
      (gridOf s th).part (gridOf s th).ctx (opVa o) e (opWrites o) 0 (.thread t)) ∧
    (∀ e, th.state = .halted → park s t o e = forgetWaiter (raiseFault (setThread s t
      { th with
        pc := o.pc, spin := none, halting := th.halting && !th.stepping
        ops := th.ops.filter fun x => x.phase != OpPhase.walk })
      (gridOf s th).part (gridOf s th).ctx (opVa o) e (opWrites o) 0 (.thread t)) t)

/-- `mvpost` with a slot free and a descriptor that can be read translates the descriptor's first
bytes, and once all have translated the descriptor goes to the end of the core's queue and rd
receives ST_OK; `mvslots` reads the free slots (R68; a slot is held while the first bytes translate,
the model's choice, log entry 66). The mover's next descriptor, once it starts, moves its lines, or
ends with MALFORMED, or with LBOUNDS where a window offset lies outside its group's window; one of
PUT and GET goes to its queue pair. A finished one writes its status word and, with no sync object,
leaves the queue (R131, R132, R217). -/
def Obligations.mover_results : Prop :=
  ((∀ t f s i, engineInsn (.mvpost t f) = some (t, i) → Issues t i s →
     let th := thread s t
     let a := readS th f.ra
     let bs := peek s (windowPa s th a.toNat) 64
     let s1 := setThread (chargeIssue s t i.word) t (advance i th)
     slotsHeld s (coreOf (engineOf t)) < 256 → checkLocal s th a 64 64 = none →
     readMustWait s (engineOf t) ((groupOf s th).winBase + a.toNat) 64 = false →
     wordsGood s (windowPa s th a.toNat) 64 → localLost s (windowPa s th a.toNat) = false →
     exec (.mvpost t f) s = .next (afterStep
       (startOp s1 t (opOf th i .mvpost a 0 f.rd.toNat false 0 bs) 3) t th.stepping)) ∧
   (∀ s t o n, o.kind = .mvpost → (postTargets o.data).length ≤ o.size →
     startOp s t o (n + 1) = acceptDesc s t o) ∧
   (∀ s t o n pa s1, o.kind = .mvpost → o.size < (postTargets o.data).length →
     cachedAccess s .post (clusterOf (engineOf t)) (gridOf s (thread s t)).part
       (gridOf s (thread s t)).ctx (opVa o) (opWrites o) = some (.ok pa, s1) →
     startOp s t o (n + 1) = startOp s1 t { o with size := o.size + 1 } n) ∧
   (∀ s t o, (thread s t).state ≠ .free → ∃ d,
     (mover (acceptDesc s t o) (coreOf (engineOf t))).queue =
       (mover s (coreOf (engineOf t))).queue ++ [d] ∧ d.bytes = o.data ∧ d.thread = t ∧
     thread (acceptDesc s t o) t = writeS (thread s t) (BitVec.ofNat 5 o.dst) 0) ∧
   (∀ t f s i, engineInsn (.mvslots t f) = some (t, i) → Issues t i s →
     ThreadBecomes (.mvslots t f) s t (writeS (advance i (thread s t)) f.rd
       (BitVec.ofNat 64 (256 - slotsHeld s (coreOf (engineOf t)))))) ∧
   (∀ s c, (∀ t th, (t, th) ∈ s.threads → coreOf (t / 64) = c →
       ∀ o ∈ th.ops, o.kind ≠ .mvpost) →
     slotsHeld s c = (mover s c).queue.length)) ∧
  ((∀ c s d, nextDesc (mover s c) = some d → s.err.fatal = false →
     (partition s d.part).state ≠ .frozen →
     let d1 : MoverDesc := { d with running := true }
     (descMalformed d = true →
       exec (.moverDescriptorStart c d.id) s = .next (stopDesc s c d1 0x02)) ∧
     (descMalformed d = false → descOutside d = true →
       exec (.moverDescriptorStart c d.id) s = .next (stopDesc s c d1 0x04)) ∧
     (descMalformed d = false → descOutside d = false → descRemote d = true →
       exec (.moverDescriptorStart c d.id) s = .next (xptDone s (startRemote s c d))) ∧
     (descMalformed d = false → descOutside d = false → descRemote d = false →
       exec (.moverDescriptorStart c d.id) s =
         .next (moveLines (putDesc s c d1) c d1 (lineBound d)))) ∧
   (∀ c id s d st, findDesc s c id = some d → d.result = some st → d.stalled = false →
     exec (.moverComplete c id) s = .next (settleGrid (completeDesc s c d st) d.grid)) ∧
   (∀ c s d s1, descSync d = 0 → d.err = none →
     (descStat d = 0 ∧ s1 = s) ∨ (descStat d ≠ 0 ∧ d.statDone = false ∧ d.statBad = false ∧
       lineWrite s d false (descStat d) 8 (some (leBytes 8 (65536 * descTotal d))) = (.ok (), s1)) →
     completeDesc s c d 0 =
       setMover s1 c { mover s1 c with queue := (mover s1 c).queue.filter fun x => x.id != d.id }))

/-- A tensor multiply with a free MAC array, aligned operands in the window, an accumulator of its
thread, legal metadata and words without poison takes the array and goes on to the next word; its
result stands when it completes (R74, R95, R103 to R107). A multiply that completes writes its
accumulator the sums of R96, frees the MAC array and is charged its energy; where no mover has
written its operands since, it uses the bytes that it read as it issued (R93, R96, R107, R109; a
line that a mover wrote is old or new by a free value, log entry 68). -/
def Obligations.tensor_multiply_results : Prop :=
  (∀ r ∈ multiplyRows, ∀ t f s i, engineInsn (r.1 t f) = some (t, i) → Issues t i s →
     let th := thread s t
     let e := engineOf t
     let o := { opOf th i .tensor (readS th f.sm) 0 0 false (readS th f.sa) [] with
       y := readS th f.sb, acc := some f.ta.toNat }
     let tiles := multiplyTiles r.2 f th
     let bytes := tiles.flatMap fun x => peek s (windowPa s th x.1.toNat) x.2
     let md := if r.2 = 0 then []
       else peek s (windowPa s th (readS th f.sm).toNat) (if r.2 = 3 then 8 else 512)
     let s1 := chargeIssue s t i.word
     tget none s.macBusy e = none → checkTiles s1 th tiles = none →
     accBad s1 th f.ta.toNat = false →
     (∀ x ∈ tiles, readMustWait s1 e ((groupOf s th).winBase + x.1.toNat) x.2 = false) →
     (r.2 = 1 ∨ r.2 = 2 → ∀ k < 64, metaOk r.2 (metaWord md k) = true) →
     ∀ s2, checkRanges s1 th (bytesRead r.2 (metaWord md 0) o) = (false, s2) →
     exec (r.1 t f) s = .next (afterStep (setThread
       { s2 with macBusy := tset none s2.macBusy e (some (t, th.nextOp)) } t
       (pushOp (advance i th) { o with data := bytes })) t th.stepping)) ∧
  (∀ t id s o a, findOp (thread s t) id = some o → o.kind = .tensor →
     o.acc.bind (physAcc s (thread s t)) = some a →
     let th := thread s t
     let e := engineOf t
     let s1 := accWrite s e a (multiplyResult s th o e a)
     let s2 := chargeThread (takeFree s1).2 t (multiplyCharge s th o)
     exec (.tensorComplete t id) s = .next (settleThread (setThread
       { s2 with macBusy := tset none s2.macBusy e none } t (dropOp th id)) t) ∧
     (∀ pa old n, old = peek s pa old.length → old.length ≤ 64 * n → operandLines s pa old n = old))

/-- An element of an accumulator reads what was last written to it, and writing one accumulator
leaves every other as it was (R98, R99). `talloc` of a free accumulator makes the thread its owner
and writes ST_OK to sa; of one that another thread owns it writes ST_QUOTA and changes no owner;
`tfree` ends ownership and leaves the contents; `tzero` writes +0 to every element (R98 to R100). -/
def Obligations.accumulator_results : Prop :=
  (∀ s e a g, tableWf 0 s.accs = true → a < 8 →
     (∀ m n, m < 64 → n < 64 → accGet (accWrite s e a g) e a m n = g m n) ∧
     (∀ e' a' m n, m < 64 → n < 64 → a' < 8 → (e', a') ≠ (e, a) →
       accGet (accWrite s e a g) e' a' m n = accGet s e' a' m n) ∧
     tableWf 0 (accWrite s e a g).accs = true) ∧
  ((∀ t f s i a, engineInsn (.talloc t f) = some (t, i) → Issues t i s →
     let th := thread s t
     let s1 := chargeIssue s t i.word
     physAcc s1 th f.ta.toNat = some a →
     (accOwner s1 th f.ta.toNat = none → exec (.talloc t f) s = .next (afterStep
       (setThread (setOwner s1 th f.ta.toNat (some th.lane)) t (writeS (advance i th) f.sa 0)) t
       th.stepping)) ∧
     (∀ l, accOwner s1 th f.ta.toNat = some l → l ≠ th.lane →
       ThreadBecomes (.talloc t f) s t (writeS (advance i th) f.sa 0x10)) ∧
     (accOwner s1 th f.ta.toNat = some th.lane →
       ThreadBecomes (.talloc t f) s t (writeS (advance i th) f.sa 0))) ∧
   (∀ t f s i, engineInsn (.tfree t f) = some (t, i) → Issues t i s →
     let th := thread s t
     let s1 := chargeIssue s t i.word
     accBad s1 th f.ta.toNat = false → exec (.tfree t f) s = .next (afterStep
       (setThread (setOwner s1 th f.ta.toNat none) t (advance i th)) t th.stepping)) ∧
   (∀ t f s i a, engineInsn (.tzero t f) = some (t, i) → Issues t i s →
     let th := thread s t
     let s1 := chargeIssue s t i.word
     physAcc s1 th f.ta.toNat = some a → accBad s1 th f.ta.toNat = false →
     exec (.tzero t f) s = .next (afterStep
       (setThread (accWrite s1 (engineOf t) a fun _ _ => 0) t (advance i th)) t th.stepping)) ∧
   (∀ s th k o, k < (groupOf s th).owners.length → accOwner (setOwner s th k o) th k = o) ∧
   (∀ s th k o, (setOwner s th k o).accs = s.accs))

/-- `tld` and `tst` take the engine's free accumulator port and go on; the move happens at its
completion: a load converts its tile into the accumulator, a store writes the tile's bytes (R101,
R108). -/
def Obligations.tile_moves : Prop :=
  (∀ t f s i fm, engineInsn (.tld t f) = some (t, i) → Issues t i s →
    fmtOfCode f.fmtA = some fm →
    let th := thread s t
    let s1 := chargeIssue s t i.word
    let a := readS th f.sa
    let n := tileBytes (recordStride fm) fm
    let o := { opOf th i .tileLoad a n 0 false 0 [] with
      acc := some f.ta.toNat, y := th.srCount.setWidth 64 }
    portBusy s1 (engineOf t) = false → checkTiles s1 th [(a, n)] = none →
    accBad s1 th f.ta.toNat = false →
    ∀ s2, checkRanges s1 th [(a.toNat, n)] = (false, s2) →
    exec (.tld t f) s = .next (afterStep (setThread s2 t (pushOp (advance i th) o)) t
      th.stepping)) ∧
  (∀ t f s i fm, engineInsn (.tst t f) = some (t, i) → Issues t i s →
    fmtOfCode f.fmtA = some fm →
    let th := thread s t
    let s1 := chargeIssue s t i.word
    let a := readS th f.sa
    let n := tileBytes (recordStride fm) fm
    let o := { opOf th i .tileStore a n 0 false 0 [] with
      acc := some f.ta.toNat, y := th.srCount.setWidth 64 }
    portBusy s1 (engineOf t) = false → checkTiles s1 th [(a, n)] = none →
    accBad s1 th f.ta.toNat = false →
    storeMustWait s1 (engineOf t) ((groupOf s1 th).winBase + a.toNat) n = false →
    exec (.tst t f) s = .next (afterStep (setThread s1 t (pushOp (advance i th) o)) t
      th.stepping)) ∧
  (∀ t id s o a, findOp (thread s t) id = some o → o.kind = .tileLoad →
    o.acc.bind (physAcc s (thread s t)) = some a →
    let th := thread s t
    let fm := tensorFmtA o.word
    let tile := leNat (peek s (windowPa s th o.va.toNat) o.size)
    let g (r k : Nat) : BitVec 32 :=
      BitVec.ofNat 32 (convertElem fm .fp32 .rne 0 (tileElem fm (recordStride fm) tile r k))
    exec (.tileMoveComplete t id) s = .next (settleThread (setThread (chargeThread
      (accWrite s (engineOf t) a fun m n => if o.word.getLsbD 19 then g n m else g m n) t tileCharge)
      t (dropOp th id)) t)) ∧
  (∀ t id s o a, findOp (thread s t) id = some o → o.kind = .tileStore →
    o.acc.bind (physAcc s (thread s t)) = some a →
    let th := thread s t
    exec (.tileMoveComplete t id) s = .next (settleThread (setThread (chargeThread
      (writeWindow s th o.va.toNat (tileImage s th o (engineOf t) a)) t tileCharge)
      t (dropOp th id)) t))

/-- `sig`, `wait.ge`, `take` and `sread` at an aligned canonical address go on to the next word and
start their operation with the operand and limit of R75. A `sig` at its home adds to the count of a
LIVE object that the owner check passes; a failed check is a deferred NOTSYNC, and a FROZEN or
REVOKED object discards the signal with a record (R142, R151). An object whose words are intact is
meant. -/
def Obligations.signals_at_home : Prop :=
  (∀ r ∈ syncRows, ∀ t f s i, engineInsn (r.1 t f) = some (t, i) → Issues t i s →
     let th := thread s t
     let a := readS th f.ra
     a.toNat % 8 = 0 → a.toNat < 2 ^ 57 →
     StartsOp (r.1 t f) s t i
       (opOf th i r.2.1 a (r.2.2.2 f) f.rd.toNat false (r.2.2.1 th f) [])) ∧
  (∀ t id s o, findOp (thread s t) id = some o → o.kind = .sig → o.phase = .flight →
     o.fail = none →
     let th := thread s t
     let g := gridOf s th
     let k := syncIndex o.pa
     let x := syncObj s k
     x.badAttr = .good → x.badCount = .good →
     (syncPasses x g.part g.ctx false true = true → x.state = .live →
       exec (.signalAtHome t id) s = .next (settleThread
         (setThread (setSync s k { x with count := x.count + o.x }) t (dropOp th id)) t)) ∧
     (syncPasses x g.part g.ctx false true = false →
       exec (.signalAtHome t id) s = .next (setThread s t
         (putOp th { o with fail := some { cause := .notsync, status := 0x04, addr := o.va } }))) ∧
     (syncPasses x g.part g.ctx false true = true → x.state = .frozen ∨ x.state = .revoked →
       exec (.signalAtHome t id) s = .next (settleThread (recordError
         (setThread s t (dropOp th id)) (discardInfo 0x01 (coreOf (engineOf t)) g.part (some k)
           (if x.state = .frozen then 0x11 else 0x09))) t)))

/-- `sread` returns the count, and 0 of a REVOKED object (R145). -/
def Obligations.sread_result : Prop :=
  ∀ t id s o, findOp (thread s t) id = some o → o.kind = .sread → o.phase = .flight →
    o.fail = none →
    let th := thread s t
    let g := gridOf s th
    let x := syncObj s (syncIndex o.pa)
    x.badAttr = .good → x.badCount = .good → syncPasses x g.part g.ctx false false = true →
    exec (.sreadResponse t id) s = .next (settleThread (setThread s t
      (writeS (dropOp th id) (BitVec.ofNat 5 o.dst)
        (if x.state = .revoked then 0 else x.count))) t)

/-- Retries of a thread in SPIN on a LIVE object of its partition: `wait.ge` ends with ST_OK once
the count is at least its target and otherwise goes on; `take` ends with ST_OK and lowers a count
that is not zero by 1; an object REVOKED ends either with ST_REVOKED; and a retry whose translation
was dropped translates anew (R120, R143, R144, R152). When the spin limit has run out, the thread
goes on with ST_TIMEOUT in its register and nothing else has changed; before that nothing happens
(R150). -/
def Obligations.spin_results : Prop :=
  ((∀ t s sp, (thread s t).spin = some sp → (thread s t).state = .spin → s.err.fatal = false →
     pacedNow s (gridOf s (thread s t)) = false → spinOver s t sp = false → sp.stale = false →
     let th := thread s t
     let g := gridOf s th
     let k := syncIndex sp.pa
     let x := syncObj s k
     let ended (s' : State) (v : Word) : State :=
       setThread s' t (writeS { th with state := .ready, spin := none } sp.dst v)
     x.badAttr = .good → x.badCount = .good → syncPasses x g.part g.ctx false false = true →
     (sp.take = false → x.state = .live → x.part.toNat = g.part →
       (sp.target.toNat ≤ x.count.toNat → exec (.waitRetryResponse t) s = .next (ended s 0)) ∧
       (x.count.toNat < sp.target.toNat → exec (.waitRetryResponse t) s = .next s)) ∧
     (sp.take = true → x.state = .live → x.part.toNat = g.part →
       (x.count ≠ 0 → exec (.takeRetryResponse t) s =
         .next (ended (setSync s k { x with count := x.count - 1 }) 0)) ∧
       (x.count = 0 → exec (.takeRetryResponse t) s = .next s)) ∧
     (sp.take = false → x.state = .revoked →
       exec (.waitRetryResponse t) s = .next (ended s 0x09)) ∧
     (sp.take = true → x.state = .revoked →
       exec (.takeRetryResponse t) s = .next (ended s 0x09))) ∧
   (∀ s t sp pa s1, sp.stale = true →
     access s .sync (clusterOf (engineOf t)) (gridOf s (thread s t)).part (gridOf s (thread s t)).ctx
       sp.va.toNat sp.take = (.ok pa, s1) → regionOf pa = .syncObj →
     retryTarget s t sp = (some pa, setThread s1 t
       { thread s t with spin := some { sp with pa := pa, stale := false } }))) ∧
  (∀ t s sp, (thread s t).spin = some sp → (thread s t).state = .spin →
     (sp.since + sp.left ≤ engineNow s t → s.err.fatal = false →
       pacedNow s (gridOf s (thread s t)) = false → exec (.spinLimitExpiry t) s = .next (setThread s t
         (writeS { thread s t with state := .ready, spin := none } sp.dst 0x0E))) ∧
     (engineNow s t < sp.since + sp.left → exec (.spinLimitExpiry t) s = .next s))

/-- A fence with nothing of its scope outstanding retires at once, `fence.n` writing the first
failure since the previous one or ST_OK; otherwise its thread waits, until FENCE_RETIRE finds
nothing of its scope outstanding (R76). -/
def Obligations.fence_results : Prop :=
  (∀ r ∈ fenceRows, ∀ t f s i, engineInsn (r.1 t f) = some (t, i) → Issues t i s →
    let th := thread s t
    let x := { advance i th with fence := some (r.2.1, r.2.2 f), state := .wait }
    ((∃ o ∈ th.ops, fenceWaits r.2.1 o = true) → ThreadBecomes (r.1 t f) s t x) ∧
    ((∀ o ∈ th.ops, fenceWaits r.2.1 o = false) →
      ThreadBecomes (r.1 t f) s t (retireFence x))) ∧
  (∀ th sc rd, th.fence = some (sc, rd) → sc ≠ .net →
    retireFence th = { th with fence := none, state := .ready }) ∧
  (∀ th rd, th.fence = some (.net, rd) → retireFence th =
    writeS { th with fence := none, netFail := none, state := .ready } rd
      ((th.netFail.getD 0).setWidth 64)) ∧
  (∀ t s sc rd, (thread s t).fence = some (sc, rd) → (thread s t).state = .wait →
    ((∀ o ∈ (thread s t).ops, fenceWaits sc o = false) →
      exec (.fenceRetire t) s = .next (setThread s t (retireFence (thread s t)))) ∧
    ((∃ o ∈ (thread s t).ops, fenceWaits sc o = true) → exec (.fenceRetire t) s = .next s)) ∧
  (∀ sc o, (o.kind = .load ∨ o.kind = .vload ∨ o.kind = .sig ∨ o.kind = .sread ∨ o.kind = .mvpost ∨
      o.kind = .tileLoad ∨ o.kind = .tileStore) → (fenceWaits sc o = true ↔ sc ≠ .net))

/-- A net instruction on a queue pair that takes it goes on to the next word and hands the transport
its operation; one that the queue pair cannot take raises NET with the transport's status, and one
whose queue pair's context is not on the die waits and asks for it (R77, R81, R217, R241). The
answer to a `get` is written to its vector register and that to an atomic to rd; a status leaves a
deferred NET (R78, R81). -/
def Obligations.net_results : Prop :=
  (∀ r ∈ netRows, ∀ t f s, Issues t (r.insn f) s →
     let th := thread s t
     let i := r.insn f
     let s1 := chargeIssue s t i.word
     let ra := readS th f.ra
     let rb := readS th f.rb
     let q := qpKey (gridOf s1 th).part (rbQpn rb)
     (r.align = true → ra.toNat % 8 = 0) → netLimit th r.kind = false → rbRsv rb = 0 →
     (qpTakesNow s1 q r.op = .take → exec (r.cmd t f) s = .next (xptDone s (afterStep
       (submit (fkTouch (setThread s1 t (pushOp (advance i th)
         (newOp th i r.kind ra (r.len f) (r.dst f)))) q) q (.thread t th.nextOp) r.op (rbKey rb)
         ra.toNat 0 (r.len f) 0 0 (r.data th f)) t th.stepping))) ∧
     (∀ st, qpTakesNow s1 q r.op = .fail st → exec (r.cmd t f) s = .next (xptDone s
       (takeException s1 t th.pc i.word 0 .net st))) ∧
     (qpTakesNow s1 q r.op = .wait → exec (r.cmd t f) s = .next (xptDone s
       (setThread (fkWant s q 8) t { th with state := .wait })))) ∧
  (∀ t id s o a, findOp (thread s t) id = some o → o.answer = some a → o.fail = none →
     let th := thread s t
     (a.status = 0 → o.kind = .get → exec (.netResponse t id) s = .next (settleThread
       (setThread s t (writeV (dropOp th id) (BitVec.ofNat 4 o.dst)
         (vecOfBytes (a.bytes.take o.size)))) t)) ∧
     (a.status = 0 → o.kind ≠ .get → exec (.netResponse t id) s = .next (settleThread
       (setThread s t (writeS (dropOp th id) (BitVec.ofNat 5 o.dst)
         (BitVec.ofNat 64 (leNat (a.bytes.take 8))))) t)) ∧
     (a.status ≠ 0 → exec (.netResponse t id) s = .next (setThread s t
       (putOp th { o with fail := some { cause := .net, status := a.status, addr := 0 } }))))

/-- `nop` only goes on; `mfs` reads the thread's number, its place on the device, its partition and
context, or its clock; `trap` raises TRAP with imm32[15:0]; `brk` debug-halts a thread of a grid
with DEBUG set, once its operations have delivered, and otherwise raises BREAK (R58, R79, R86, R88).
`end` puts its thread in ENDING while operations are outstanding; THREAD_END ends an ENDING thread
whose operations have drained: its context is free once more, or NET is raised where a failure was
not reported (R54, R78). -/
def Obligations.system_instruction_results : Prop :=
  ((∀ t f s i, engineInsn (.nopInsn t f) = some (t, i) → Issues t i s →
     ThreadBecomes (.nopInsn t f) s t (advance i (thread s t))) ∧
   (∀ t f s i, engineInsn (.mfs t f) = some (t, i) → Issues t i s →
     let th := thread s t
     let e := engineOf t
     let v : Nat := match f.imm.toNat with
       | 0 => (groupOf s th).index * (gridOf s th).tpg + th.lane
       | 1 => (engineCoords e).1
       | 2 => (engineCoords e).2.1
       | 3 => (engineCoords e).2.2
       | 4 => dieOf e
       | 5 => (gridOf s th).part
       | 6 => (gridOf s th).ctx.toNat
       | _ => tget 0 s.clocks (if e < 16384 then 0 else 1)
     ThreadBecomes (.mfs t f) s t (writeS (advance i th) f.rd (BitVec.ofNat 64 v))) ∧
   (∀ t f s i, engineInsn (.trap t f) = some (t, i) → Issues t i s →
     exec (.trap t f) s = .next (takeException (chargeIssue s t i.word) t (thread s t).pc i.word
       (BitVec.ofNat 64 (f.imm.toNat % 2 ^ 16)) .trap 0x01)) ∧
   (∀ t f s i, engineInsn (.brk t f) = some (t, i) → Issues t i s →
     let th := thread s t
     let s1 := chargeIssue s t i.word
     ((gridOf s th).debug = true → atBoundary th = true → exec (.brk t f) s = .next (afterStep (dbgHaltEvent (setThread s1 t
       { advance i th with state := .halted, debug := true, stepping := false }) t) t
         th.stepping)) ∧
     ((gridOf s th).debug = true → atBoundary th = false →
       exec (.brk t f) s = .next (setThread s t { th with state := .wait })) ∧
     ((gridOf s th).debug = false →
       exec (.brk t f) s = .next (takeException s1 t th.pc i.word 0 .brk 0x01)))) ∧
  ((∀ t f s i, engineInsn (.end_ t f) = some (t, i) → Issues t i s → (thread s t).ops ≠ [] →
     exec (.end_ t f) s = .next (afterStep (setThread (chargeIssue s t i.word) t
       { thread s t with state := .ending }) t (thread s t).stepping)) ∧
   (∀ t f s i, engineInsn (.end_ t f) = some (t, i) → Issues t i s → (thread s t).ops = [] →
     moverPending s t = false → (thread s t).netFail = none →
     exec (.end_ t f) s = .next (afterStep (endThread (setThread (chargeIssue s t i.word) t
       { thread s t with state := .ending }) t) t (thread s t).stepping)) ∧
   (∀ t s, (thread s t).state = .ending → (thread s t).ops = [] → moverPending s t = false →
     ((thread s t).netFail = none → exec (.threadEnd t) s = .next (endThread s t)) ∧
     (∀ st, (thread s t).netFail = some st → exec (.threadEnd t) s = .next
       (takeException s t (thread s t).pc ((imageWord s t (thread s t).pc).getD 0) 0 .net st))) ∧
   (∀ t s, (thread s t).state = .ending → (thread s t).ops ≠ [] → exec (.threadEnd t) s = .next s))

/-- Debug commands on the selected context, with no command under way: HALT has every thread of its
grid halt at its boundary and its event is posted once all have stopped, RESUME lets every
debug-halted one issue again, and STEP the selected one for one instruction. While HALT or STEP is
under way the commands have no effect (R86 to R88). An 8 B write in the debug window of the selected
context: of a debug-halted thread it writes a register, of a still engine its local store or two
accumulator words (R87, R89). -/
def Obligations.debug_results : Prop :=
  ((∀ s g t, selGrid s = some g → selThread s = some t → dbgBusy s = false →
     exec .dbgHaltCmd s = .next (settleDebug
       { (gridThreads s g).foldl debugHalt s with dbgHalt := some (g, t) })) ∧
   (∀ s g, selGrid s = some g → dbgBusy s = false → exec .dbgResume s = .next ((gridThreads s g).foldl
     (fun s t => modThread s t fun th =>
       if th.debug then resumeThread (engineNow s t) th else th) s)) ∧
   (∀ s g t, selGrid s = some g → selThread s = some t → dbgBusy s = false →
     (thread s t).debug = true → exec .dbgStep s =
       .next (setThread s t { resumeThread (engineNow s t) (thread s t) with stepping := true })) ∧
   (∀ s, dbgBusy s = true →
     exec .dbgHaltCmd s = .next s ∧ exec .dbgResume s = .next s ∧ exec .dbgStep s = .next s) ∧
   (∀ s g t, s.dbgHalt = some (g, t) →
     ((∀ u ∈ gridThreads s g, (thread s u).state = .halted ∨ (thread s u).state = .free) →
       settleDebug s = { dbgHaltEvent s t with dbgHalt := none }) ∧
     ((∃ u ∈ gridThreads s g, (thread s u).state ≠ .halted ∧ (thread s u).state ≠ .free) →
       settleDebug s = s)) ∧
   (∀ now th, th.halting = true → atBoundary th = true → th.state = .ready ∨ th.state = .wait →
     haltThread now th =
       { th with state := .halted, debug := true, halting := false, stepping := false }) ∧
   (∀ now th, atBoundary th = false → haltThread now th = th) ∧
   (∀ now th, th.state = .halted → th.cause = none → th.spin = none → th.fence = none →
     (resumeThread now th).state = .ready ∧ (resumeThread now th).debug = false)) ∧
  ((∀ s e t off v, selEngine s = some e → selThread s = some t → off % 8 = 0 → 0x1000 ≤ off →
     off < 0x1580 → (thread s t).state = .halted → (thread s t).debug = true →
     exec (.dbgWindowWrite off v) s =
       .next (setThread s t (writeThreadWindow (thread s t) (off - 0x1000) v))) ∧
   (∀ th k v, k < 32 → writeThreadWindow th (8 * k) v = writeS th (BitVec.ofNat 5 k) v) ∧
   (∀ s e t off v, selEngine s = some e → selThread s = some t → off % 8 = 0 → 0x10000 ≤ off →
     off < 0x18000 → engineStill s e = true → exec (.dbgWindowWrite off v) s =
       .next (writeMem s (localPa e (off - 0x10000)) (leBytes 8 v.toNat))) ∧
   (∀ s e t off v, selEngine s = some e → selThread s = some t → off % 8 = 0 → 0x20000 ≤ off →
     off < 0x40000 → engineStill s e = true →
     let k := e * 8 * 4096 + (off - 0x20000) / 4
     exec (.dbgWindowWrite off v) s = .next { s with
       accs := tset 0 (tset 0 s.accs k (v.setWidth 32)) (k + 1) (v.extractLsb' 32 32) }))

/-- Faults end by FQ_RESOLVE: the fault and all that joined it leave the table and their agents go
on or fail, and the next waiting fault takes an id; a fault whose timeout has passed fails alone
(R352, R354, R355). A fault that waits on die takes the lowest free id and its entry once the FQ has
room, and the rate interval of FAULT_POSTED ends after 10 us (R352, R353). -/
def Obligations.fault_results : Prop :=
  ((∀ p fid s f, bar0 s = true → (faultTable s p).faults.find? (fun f => f.fid == some fid) = some f →
     let t := faultTable s p
     let s1 := setFaults s p { t with faults := t.faults.filter fun g => !sameFault f g }
     exec (.fqRetry p fid) s =
       .next (xptDone s (assignFault (resolveFaults s1 (t.faults.filter (sameFault f)) false) p)) ∧
     exec (.fqFail p fid) s =
       .next (xptDone s (assignFault (resolveFaults s1 (t.faults.filter (sameFault f)) true) p))) ∧
   (∀ f s t, t < 2 ^ 24 → (thread s t).state = .parked →
     resolveAgent f false s (.thread t) = setThread s t { thread s t with state := .ready } ∧
     resolveAgent f true s (.thread t) = takeException s t (thread s t).pc
       ((imageWord s t (thread s t).pc).getD 0) 0 .context 0x05) ∧
   (∀ p s f, (faultTable s p).faults = [f] → f.joined = false → (partition s p).state ≠ .frozen →
     f.time + faultTmo s p ≤ fdTime s →
     exec (.faultTimeout p) s = .next (xptDone s (assignFault (resolveFaults
       (post (setFaults s p { faultTable s p with faults := [] }) (eqOf 0) 0x51 (fqOf p)
         (BitVec.ofNat 64 (f.fid.getD 4096 + 2 ^ 32 * p)) (BitVec.ofNat 64 f.waiters.length))
       [f] true) p)))) ∧
  ((∀ p s f fid s1, (faultTable s p).faults.find? (fun f => f.fid.isNone && !f.joined) = some f →
     (partition s p).state ≠ .frozen → fqReady s p = (true, s1) →
     lowestFid (faultTable s p) 0 4096 = some fid →
     let f1 := { f with fid := some fid }
     let t1 := faultTable s1 p
     exec (.faultIdAssign p) s = .next (writeFq (setFaults s1 p
       { t1 with faults := t1.faults.map fun x => if x = f then f1 else x }) p fid f1)) ∧
   (∀ p s, (faultTable s p).holdoff = true → (faultTable s p).withheld = false →
     (faultTable s p).since + 15000 ≤ fdTime s → exec (.faultPostedHoldoffEnd p) s =
       .next (setFaults s p { faultTable s p with holdoff := false, withheld := false, since := 0 })))

/-- GO of a function drops every cached translation that the scope covers, keeps the others, has the
retries of threads in SPIN under them translate anew, and reads 1 until the accesses that went
before have completed; an invalidation of a context or a partition revokes the objects of contexts
it finds destroyed (the model's choice, log entry 67); owner entries are PF0's to drop, and an ATS
request drops its partition's translations (R120, R121, R152, R350). -/
def Obligations.invalidation_results : Prop :=
  (∀ fn s, fn ≤ 64 → bar0 s = true → invBusy s fn = false →
    let i := invAsked s fn .page
    exec (.invPage fn) s = .next { s with
      tlb := s.tlb.filter fun e => !invCovers i e
      threads := s.threads.map fun x => (x.1, staleSpin i (grid s x.2.grid) x.2)
      invs := s.invs ++ [i] }) ∧
  (∀ fn s, fn ≤ 64 → bar0 s = true → invBusy s fn = false →
    let i := invAsked s fn .ctx
    exec (.invCtx fn) s = .next { s with
      tlb := s.tlb.filter fun e => !invCovers i e
      threads := s.threads.map fun x => (x.1, staleSpin i (grid s x.2.grid) x.2)
      syncs := (revokeGone s i).syncs, invs := s.invs ++ [i] }) ∧
  (∀ fn s, fn ≤ 64 → bar0 s = true → invBusy s fn = false →
    let i := invAsked s fn .part
    exec (.invPart fn) s = .next { s with
      tlb := s.tlb.filter fun e => !invCovers i e
      threads := s.threads.map fun x => (x.1, staleSpin i (grid s x.2.grid) x.2)
      syncs := (revokeGone s i).syncs, invs := s.invs ++ [i] }) ∧
  (∀ s, bar0 s = true → invBusy s 0 = false → exec (.invOwner 0) s = .next { s with
    owners := tdel (granuleIndex (tget 0 s.regs 0x0501000).toNat) s.owners
    invs := s.invs ++ [invAsked s 0 .owner] }) ∧
  (∀ fn s, fn ≠ 0 → exec (.invOwner fn) s = .next s) ∧
  (∀ s fn scope, (invAsked s fn scope).who = fn ∧ (invAsked s fn scope).scope = scope ∧
    (0 < fn → (invAsked s fn scope).part = fn)) ∧
  (∀ i e, i.scope = .part → invCovers i e = (e.part == i.part)) ∧
  (∀ i e, i.scope = .ctx → invCovers i e = (e.part == i.part && e.ctx == i.ctx)) ∧
  (∀ s i k, i.scope = .ctx ∨ i.scope = .part → let o := syncObj s k
    syncObj (revokeGone s i) k =
      if o.part.toNat = i.part ∧ (i.scope = .part ∨ o.ctx = i.ctx) ∧ !o.anyCtx ∧
        (o.state = .live ∨ o.state = .frozen) ∧ contextGone s i.part o.ctx then revokeObj o else o) ∧
  (∀ p va s, let i : Invalidation :=
      { who := 65, scope := .part, part := p, ctx := 0, va := va, size := .k4, dropped := [] }
    exec (.atsInvalidate p va) s = .next { s with
      tlb := s.tlb.filter fun e => e.part != p
      threads := s.threads.map fun x => (x.1, staleSpin i (grid s x.2.grid) x.2)
      invs := s.invs ++ [i] }) ∧
  (∀ who s i, s.invs.find? (fun i => i.who == who) = some i →
    ((∀ t ∈ s.threads, ∀ o ∈ t.2.ops, opCovered s i t.2 o = false) →
      exec (.invalidationComplete who) s = .next { s with invs := s.invs.erase i }) ∧
    ((∃ t ∈ s.threads, ∃ o ∈ t.2.ops, opCovered s i t.2 o = true) →
      exec (.invalidationComplete who) s = .next s))

/-- Scrubbing a line with its kind enabled, in Full or Trim, corrects its single-bit errors: a line
whose words are good is left as it was, and the first single-bit error of one is made good (R134,
R137). An error that a unit detects is recorded by the class its code fixes, and the unit does what
its code asks; a fence that has not completed in 100 ms and a hung management processor are fatal,
and the device then stays in the fatal state; ERR_HEAD releases records (R450, R454, R458, R459). -/
def Obligations.scrub_and_error_results : Prop :=
  ((∀ pa s, (regionOf pa = .lpddr ∧ (reg s xuScrubCtl).getLsbD 0 = true) ∨
       (regionOf pa = .sram ∧ (reg s xuScrubCtl).getLsbD 1 = true) →
     s.sched.power = .full ∨ s.sched.power = .trim →
     exec (.scrubLine pa) s = .next (checkWords s (pa / 64 * 64) 8).2) ∧
   (∀ pa s, regionOf pa = .lpddr → (reg s xuScrubCtl).getLsbD 0 = true → s.sched.power = .full →
     (∀ k < 8, wordCheck s (pa / 64 * 64 + 8 * k) = .good) → exec (.scrubLine pa) s = .next s) ∧
   (∀ pa s, regionOf pa = .lpddr → tableWf .good s.checks = true → wordCheck s pa = .single →
     (checkWord s pa).1 = false ∧ wordCheck (checkWord s pa).2 pa = .good) ∧
   (∀ pa s, regionOf pa = .lpddr → wordCheck s pa = .uncorrectable →
     (checkWord s pa).1 = true ∧ wordCheck (checkWord s pa).2 pa = .poison)) ∧
  ((∀ code unit inst part addr flag d s, powered s = true → 0 < code → code ≤ 0x10 →
     exec (.errorDetect code unit inst part addr flag d) s =
       .next (xptDone s (detectError s code unit inst part addr flag d))) ∧
   (∀ code unit inst part addr flag d s,
     (code = 0x03 ∨ code = 0x04 ∨ code = 0x05 ∨ code = 0x06 ∨ code = 0x07 ∨ code = 0x0A ∨
       code = 0x0B ∨ code = 0x0C ∨ code = 0x0D ∨ code = 0x0E ∨ code = 0x10) →
     detectError s code unit inst part addr flag d = recordError s
       { code := code, unit := unit, inst := inst, part := part, status := 0, addr := addr
         isVa := false, ctx := 0, data0 := d }) ∧
   (∀ unit inst part addr flag d s, unit ≠ 0x0A →
     detectError s 0x02 unit inst part addr flag d = detectWord s unit inst addr) ∧
   (∀ s i, errClass i.code = 3 → (recordError s i).err.fatal = true ∧
     (recordError s i).drdy.state = .busy ∧ (recordError s i).twin.hbLow = true) ∧
   (∀ p s f, s.err.fences.find? (fun f => f.1 == p) = some f → s.err.fatal = false →
     f.2.2.1 + 150000000 ≤ fdTime s → exec (.fenceTimeout p) s = .next (recordError s
       { code := 0x10, unit := 0x11, inst := 0, part := some p, status := 0, addr := 0
         isVa := false, ctx := 0, data0 := 0 })) ∧
   (∀ h s, powered s = true → exec (.mpHang h) s = .next (recordError s
     { code := 0x0C, unit := 0x11, inst := h, part := none, status := 0, addr := 0
       isVa := false, ctx := 0, data0 := 0 })) ∧
   errClass 0x0C = 3 ∧ errClass 0x10 = 3 ∧
   (∀ v s, powered s = true → s.err.dropped = 0 →
     (v.setWidth 32 - s.err.head : BitVec 32).toNat ≤ (s.err.tail - s.err.head).toNat →
     exec (.errHeadWrite v) s = .next { s with err := { s.err with head := v.setWidth 32 } }) ∧
   (∀ v s, powered s = true → (s.err.tail - s.err.head).toNat < (v.setWidth 32 - s.err.head : BitVec 32).toNat →
     exec (.errHeadWrite v) s = .next s))

/-- LAUNCH holds a grid of its entry's fields for admission, refuses a malformed body with MALFORMED
and an energy estimate beyond its partition's budget with ADMISSION; the first candidate that fits
is admitted (R90, R91, R395, R397). GROUP_START places the next new group of a running grid whole on
an engine of the least charged core that has room, and saved groups before new ones (R51, R372,
R396). -/
def Obligations.launch_results : Prop :=
  ((∀ r s e es, (ring s r).taken = e :: es → headReady s r e = true →
     headerBad (ring s r) e = false → entryOpcode e = 0x01 → heldGrid s r = none →
     let g := gridOfLaunch r (ring s r) e
     (launchBad (ring s r).part e = true → exec (.launch r) s = .next (finishHead s r e 0x02)) ∧
     (launchBad (ring s r).part e = false → (partition s (ring s r).part).energy < g.energy →
       exec (.launch r) s = .next (finishHead s r e 0x10)) ∧
     (launchBad (ring s r).part e = false → g.energy ≤ (partition s (ring s r).part).energy →
       neverFits s g = false → exec (.launch r) s = .next { s with
         grids := tset Grid.none s.grids s.nextGrid g, nextGrid := s.nextGrid + 1 })) ∧
   (∀ s g, powerAdmits s = true → pickCandidate s (candidates s) = some g →
     exec .admission s = .next (admitGrid s g)) ∧
   (∀ s n shares, (grid s n).state ≠ .held → neverFits s (grid s n) = false →
     admission s (grid s n) = some shares → (partition s (grid s n).part).state = .run →
     ∃ s', admitGrid s n = s' ∧ (grid s' n).state = .running ∧ (grid s' n).shares = shares ∧
       (grid s' n).skipped = 0 ∧ s'.rings = s.rings)) ∧
  (∀ gn e s p s1, (grid s gn).state = .running → s.err.fatal = false →
     (e < 16384 → s.sched.gated = false) → (partition s (grid s gn).part).state = .run →
     (partition s (grid s gn).part).draining = false →
     fitOn s (grid s gn) e = some p → loadImage s gn (coreOf e) = (none, s1) →
     ((grid s gn).saved = [] → (grid s gn).nextGroup < gridGroups (grid s gn) →
       coreChosen s (grid s gn) ((gridCores s (grid s gn)).filter fun c =>
         dieOfGroup (grid s gn) (grid s gn).nextGroup == some (dieOfCore c)) e = true →
       exec (.groupStart gn e) s = .next (startGroup s1 gn e p)) ∧
     (∀ x xs, (grid s gn).saved = x :: xs →
       coreChosen s (grid s gn) (gridCores s (grid s gn)) e = true →
       exec (.groupStart gn e) s = .next (replaceGroup s1 gn e p x)))

/-- At the ledger window boundary, 100 us after the last, the window's charges close, each die's
with its idle charge and the module's with what is its own, new budgets and levels apply, admission
runs, the passed-over candidates are counted, one may have partitions pre-empted for it, and a
held-back request for Standby applies (R390, R391, R393, R402). A grid whose charge has reached its
reservation, or a partition whose charge has reached its budget, is paced: its threads in SPIN wait;
the calibration factor moves at most once a second and stays within 96 to 160 (R391, R392, R398). -/
def Obligations.ledger_results : Prop :=
  ((∀ s, s.sched.windowStart + 150000 ≤ fdTime s →
     let s1 := applyTrim (applyBudgets (closeWindow s))
     exec .ledgerWindowBoundary s = .next (enterWanted (preemptStarved (countSkipped (openWindow
       (admitAll s1 (candidates s1).length)))))) ∧
   (∀ s, fdTime s < s.sched.windowStart + 150000 → exec .ledgerWindowBoundary s = .next s) ∧
   (∀ s, s.sched.target ≠ some .standby → enterWanted s = s) ∧
   (∀ s, (closeWindow s).sched.window = (s.sched.window + 1) % 2 ^ 32 ∧
     (closeWindow s).sched.dieCharge = [] ∧ (closeWindow s).sched.partCharge = [] ∧
     (closeWindow s).sched.windowStart = s.sched.windowStart + 150000 ∧
     (∃ x ≤ 7150, (closeWindow s).sched.moduleLast = sumList ([0, 1, 2, 3, 4].map fun d =>
       grainsUp (tget 0 s.sched.dieCharge d) + idleOf s d) + x) ∧
     (closeWindow s).sched.dieLast = ([0, 1, 2, 3, 4].map fun d =>
       (d, grainsUp (tget 0 s.sched.dieCharge d) + idleOf s d)).filter fun x => x.2 != 0) ∧
   (∀ s, (applyBudgets s).sched.moduleBudget = min 26000 (bits (reg s pwrBudget) 0 15) ∧
     (∀ d < 5, tget 0 (applyBudgets s).sched.budget d = bits (reg s (pwrDie d)) 0 15) ∧
     (∀ p, (partition s p).energy ≠ (partition s p).nextEnergy → tableWf Partition.idle s.parts = true →
       (partition (applyBudgets s) p).energy = (partition s p).nextEnergy))) ∧
  ((∀ n s, (grid s n).state = .running → (grid s n).paced = false → (grid s n).shares ≠ [] →
     gridReserve (grid s n) * unitsPerGrain ≤ (grid s n).charge →
     exec (.gridPace false n) s = .next (bump (paceGrid s n) pwrStat 48 16 1)) ∧
   (∀ n s, (partition s n).energy * unitsPerGrain ≤ partSpent s n →
     s.sched.partPaced.contains n = false →
     exec (.gridPace true n) s = .next (bump
       (((s.grids.filter fun e => e.2.part == n && e.2.state == .running).map Prod.fst).foldl paceGrid
         (modSched s fun z => { z with partPaced := n :: z.partPaced })) pwrStat 48 16 1)) ∧
   (∀ s, s.sched.calNext ≤ fdTime s → ∃ f, 96 ≤ f ∧ f ≤ 160 ∧ exec .calFactorUpdate s =
     .next (modSched (takeFree s).2 fun z => { z with calF := f, calNext := fdTime s + 1500000000 })) ∧
   (∀ s, fdTime s < s.sched.calNext → exec .calFactorUpdate s = .next s))

/-- REQ asks for a power state: out of Full, Trim or Doze it begins at once, and during a transition
it waits, the last one winning; Standby, where no transition is under way or in the fatal state, is
entered at once and loses all that is not kept (R402, R403, R460). With no group left on the compute
dies the entry to Doze gates them; the exit zeroes their local stores and accumulators, and lets the
partitions pre-empted for Doze run (R401, R402). Power: a rising input boots the module, a falling
one loses all but host memory and the EEPROM, an overvoltage also opens the input; without the
reference clock every port and the twin link are down (R442, R467, R468, R479). -/
def Obligations.power_results : Prop :=
  ((∀ s, powered s = true → s.err.fatal = false → s.sched.target = none →
     (s.sched.power = .trim → exec .reqFull s = .next (modSched (setReg s pwrState 0)
       fun z => { z with target := some .full })) ∧
     (s.sched.power = .full → exec .reqTrim s = .next (modSched (setReg s pwrState 1)
       fun z => { z with target := some .trim })) ∧
     (s.sched.power = .doze → exec .reqFull s = .next (modSched (setReg s pwrState 0)
       fun z => { z with target := some .full })) ∧
     (s.sched.power = .full → exec .reqFull s = .next (setReg s pwrState 0)) ∧
     (s.sched.power = .full ∨ s.sched.power = .trim →
       exec .reqDoze s = .next (enterDoze (setReg s pwrState 2)))) ∧
   (∀ s x, powered s = true → s.err.fatal = false → s.sched.target = some x →
     exec .reqFull s = .next (modSched (setReg s pwrState 0) fun z => { z with wanted := some .full }) ∧
     exec .reqTrim s = .next (modSched (setReg s pwrState 1) fun z => { z with wanted := some .trim }) ∧
     exec .reqDoze s = .next (modSched (setReg s pwrState 2) fun z => { z with wanted := some .doze }) ∧
     exec .reqStandby s =
       .next (modSched (setReg s pwrState 3) fun z => { z with wanted := some .standby })) ∧
   (∀ s, powered s = true → s.sched.target = none ∨ s.err.fatal = true → ∃ s', exec .reqStandby s = .next s' ∧ s'.sched.power = .standby ∧
     s'.threads = [] ∧ s'.grids = [] ∧ s'.rings = [] ∧ s'.qps = [] ∧
     (∀ x ∈ s'.mem, regionOf x.1 = .lpddr ∨ regionOf x.1 = .hostMem) ∧
     ∀ x ∈ s'.regs, keepsStandby x.1 = true)) ∧
  ((∀ s, s.sched.target = some .doze → computeGroups s = false → s.err.fatal = false →
     powered s = true →
     exec .dozeGate s =
       .next (enterWanted (arrivePower (modSched s fun z => { z with gated := true }) .doze))) ∧
   (∀ s, s.sched.power = .doze → s.sched.target = some .full → s.err.fatal = false →
     exec .dozeExitComplete s = .next (enterWanted (arrivePower (s.sched.dozePre.foldl resumeDozed
       (modSched (zeroLocal s) fun z => { z with
         gated := false, selfRefresh := false, dozePre := [] })) .full))) ∧
   (∀ s pa, tableWf 0 s.mem = true → localPa 0 0 ≤ pa → pa < localPa 16384 0 →
     memByte (zeroLocal s) pa = 0) ∧
   (∀ s, s.sched.power = .doze → s.sched.target = none →
     exec .selfRefreshEntry s = .next (modSched s fun z => { z with selfRefresh := true }))) ∧
  ((∀ s, s.sched.power = .off →
     exec .powerOn s = .next (bootRom { s with supply := { s.supply with ovOpen := false } })) ∧
   (∀ s, Config.identity (s.boot.boots + 1) ≠ none → (bootRom s).sched.power = .full ∧
     (bootRom s).boot.boots = s.boot.boots + 1) ∧
   (∀ s, s.sched.power ≠ .off → ∃ s', exec .powerLoss s = .next s' ∧ s'.sched.power = .off ∧
     s'.threads = [] ∧ s'.grids = [] ∧ s'.rings = [] ∧ s'.regs = [] ∧ s'.syncs = [] ∧
     s'.boot.floor = s.boot.floor ∧ s'.supply = s.supply ∧
     s'.mem = s.mem.filter fun x => regionOf x.1 == .hostMem) ∧
   (∀ s, s.sched.power ≠ .off → ∃ s', exec .overvoltageDisconnect s = .next s' ∧
     s'.sched.power = .off ∧ s'.supply.ovOpen = true ∧ s'.regs = [] ∧ s'.boot.floor = s.boot.floor) ∧
   (∀ s, s.supply.refclk156 = true → ∃ s', exec .refclk156Loss s = .next s' ∧
     s'.supply.refclk156 = false ∧ s'.twin.link = false) ∧
   (∀ s, exec .refclk156Restore s = .next { s with supply := { s.supply with refclk156 := true } }))

/-- Rings: the owner mark alternates from lap to lap, starting with 1; a poll issues while it may,
and an answer with no new entry backs off; a privileged ring starts fresh, or goes to ERROR with its
status (R156, R158, R170, R171, R177). Entries: the head leaves the prefetch store to start and CONS
passes it, or completes malformed and is counted, on a CMQ as its group's failure; `nop` completes
with status 0; a produced ring that is full reads its consumer's report, and drains its overflow
(R163, R165, R174 to R177). -/
def Obligations.ring_results : Prop :=
  ((∀ n (i : BitVec 32), i.toNat + 2 ^ n < 2 ^ 32 →
     ownerMark n (i + BitVec.ofNat 32 (2 ^ n)) = 1 - ownerMark n i) ∧
   (∀ n (i : BitVec 32), i.toNat < 2 ^ n → ownerMark n i = 1) ∧
   (∀ r s, mayPoll s r = true → ∃ s', exec (.ringPoll r) s = .next s' ∧
     (ring s' r).pollsOut = (ring s r).pollsOut + 1 ∧ (∀ q, q ≠ r → ring s' q = ring s q) ∧
     s'.mem = s.mem ∧ s'.regs = s.regs) ∧
   (∀ r s bs s2, let y : Ring := { ring s r with pollsOut := (ring s r).pollsOut - 1 }
     (ring s r).pollsOut ≠ 0 → y.state = .run → ringPaused (setRing s r y) r = false →
     y.fetchStopped = false →
     s.err.fatal = false → tfind y.prefetch y.prod.toNat = none →
     readSlot (setRing s r y) r y.prod = (.ok bs, s2) → markPresent y y.prod bs = false →
     y.reported = y.cons →
     exec (.pollResponse r) s = .next (autoWake s (modRing s2 r backOff) r)) ∧
   (∀ x : Ring, x.cont = false → x.emptyN ≠ 0 → x.emptyN ≤ x.emptyRun + 1 →
     (backOff x).curK = min (capK x) (x.curK + 1) ∧ (backOff x).emptyRun = 0) ∧
   (∀ r s typ p bind s1, privRing r = some (typ, p, bind) → (ring s r).state = .idle →
     bar0 s = true →
     let x : Ring := { ring s r with
       typ := typ, part := p, bindEn := bind.isSome, target := bind.getD 0 }
     ringFieldsOk typ x.log2sz x.base x.rpt = true → x.hrK ≤ 20 →
     ringRangeOk s p x.ctx typ x.log2sz x.base x.rpt = (true, s1) →
     (typ ≠ 5 → exec (.ringStartPriv r) s = .next (setRing s1 r (ringFresh x))) ∧
     (typ = 5 → exec (.ringStartPriv r) s =
       .next (repostFaults (setRing s1 r (ringFresh x)) p))) ∧
   (∀ r s typ p bind, privRing r = some (typ, p, bind) → (ring s r).state = .idle → bar0 s = true →
     ringFieldsOk typ (ring s r).log2sz (ring s r).base (ring s r).rpt = false →
     ∃ s', exec (.ringStartPriv r) s = .next s' ∧ (ring s' r).state = .error ∧
       (ring s' r).lastSt = 0x02)) ∧
  ((∀ r s e es, (ring s r).taken = e :: es → headReady s r e = true →
     headerBad (ring s r) e = false → startsItself (entryOpcode e) = false →
     exec (.entryConsume r) s = .next (consumeHead s r)) ∧
   (∀ r s e es, (ring s r).taken = e :: es → headReady s r e = true →
     headerBad (ring s r) e = true →
     ((ring s r).typ ≠ 6 → exec (.entryConsume r) s = .next (xptDone s (finishHead s r e 0x02))) ∧
     (∀ gid, (ring s r).typ = 6 → entryOpcode e ≠ 0x02 → cmqGroup s r = some gid →
       exec (.entryConsume r) s = .next (xptDone s (bshFailEntry (consumeHead s r) gid e 0x02
         (bshGroup (consumeHead s r) gid).rank 6 true)))) ∧
   (∀ s r, countMalf s r 0x02 = modRing s r fun x => { x with malf := min 65535 (x.malf + 1) }) ∧
   (∀ r s e es, (ring s r).taken = e :: es → (ring s r).rpt = 0 →
     (ring (consumeHead s r) r).taken = es ∧
     (ring (consumeHead s r) r).started = (ring s r).started ++ [e] ∧
     (ring (consumeHead s r) r).cons = e.index + BitVec.ofNat 32 (e.bytes.length / 64)) ∧
   (∀ r s e, startedOp s r 0x02 = some e →
     ((ring s r).typ ≠ 3 → exec (.nop r) s = .next (completeEntry s r e 0 0 0 0)) ∧
     ((ring s r).typ = 3 → mpServes s r = true →
       exec (.nop r) s = .next (completeEntry { s with aqLast := r / 2 } r e 0 0 0 0))) ∧
   (∀ r s e st n d0 d1, (ring s r).bindEn = false → tableWf Ring.idle s.rings = true →
     let s' := completeEntry s r e st n d0 d1
     (ring s' r).ccnt = (ring s r).ccnt + 1 ∧
     (ring s' r).started = (ring s r).started.filter (fun y => y.index != e.index)) ∧
   (∀ r s, ringProduced (ring s r) = true → ringTakes (ring s r) = true →
     ringFull (ring s r) = true → s.err.fatal = false →
     exec (.consumerReportRead r) s = .next (reportAgain s r)) ∧
   (∀ r s, (ring s r).typ = 2 ∨ (ring s r).typ = 4 →
     exec (.overflowDrain r) s = .next (drainRing s r) ∧
     exec (.ringFenceRead r) s = .next { s with readData := leBytes 8 (ring s r).prod.toNat }) ∧
   (∀ r s, (ring s r).typ ≠ 2 → (ring s r).typ ≠ 4 →
     exec (.ringFenceRead r) s = .next { s with readData := leBytes 8 0 }))

/-- An AQ command acts on the oldest started entry of its opcode when the management processor
serves that AQ: where its effect ends at once the entry completes with the effect's status and
detail, and otherwise it waits. With no such entry, or while another function's AQ is next, nothing
happens (R15, R179, R182). Rings by AQ: a ring is created in RUN with its indices at 0, held where
its partition is, or refused with its status; a running one stops, and once its last abort is
written it is STOPPED and the command tells its CONS; a stopped one starts again with PROD rolled
back, is bound, or is destroyed; a CQ that has rings bound to it is not destroyed; new memory is
checked, and a drained ring goes on in it (R181, R182, R184, R185). -/
def Obligations.admin_commands_complete : Prop :=
  ((∀ row, AdminRow row → ∀ r s e, AqTurn s r row.2.1 e →
     let a := row.2.2 s r e
     (a.wait = false → exec (row.1 r) s = .next (aqEnds s a.state r e a.st a.d0)) ∧
     (a.wait = true →
       exec (row.1 r) s = .next (xptDone s (markActed (mpTook a.state r a.st) r e)))) ∧
   (∀ row, AdminRow row → ∀ r s, startedOp s r row.2.1 = none ∨ mpServes s r = false →
     exec (row.1 r) s = .next s) ∧
   (∀ ready eeprom r s e, AqTurn s r 0x68 e →
     let a := activate ready eeprom s r e
     a.wait = false ∧ exec (.activate r ready eeprom) s = .next (aqEnds s a.state r e a.st a.d0)) ∧
   (∀ r s e, AqTurn s r 0x6A e →
     let a := twinUnpair s r e
     (a.wait = false → exec (.twinUnpair r) s =
       .next (xptDone s (settleUnpair (aqEnds s a.state r e a.st a.d0)))) ∧
     (a.wait = true → exec (.twinUnpair r) s =
       .next (xptDone s (settleUnpair (xptDone s (markActed (mpTook a.state r a.st) r e)))))) ∧
   (∀ r s e, AqTurn s r 0x41 e → (∀ q, namedRing s e = some q → (ring s q).state ≠ .stopping) →
     let a := ringDestroy s r e
     (a.wait = false → exec (.ringDestroy r) s = .next (aqEnds s a.state r e a.st a.d0)) ∧
     (a.wait = true →
       exec (.ringDestroy r) s = .next (xptDone s (markActed (mpTook a.state r a.st) r e)))) ∧
   (∀ r s e, AqTurn s r 0x62 e → freezeWaits s e = false →
     let a := partFreeze s r e
     a.wait = false ∧
     exec (if entryByte e 0x10 = 1 then .partThaw r else .partFreeze r) s =
       .next (aqEnds s a.state r e a.st a.d0)) ∧
   (∀ r s e, let s1 := modSched s fun z => { z with moving := [] }
     resizeWaits s r = [] → AqTurn s1 r 0x60 e →
     let a := partResize s1 r e
     a.wait = false ∧ exec (.partResize r) s = .next (aqEnds s1 a.state r e a.st a.d0)) ∧
   (∀ row, UnitRow row → ∀ r s e, AqTurn s r row.2.1 e →
     let a := row.2.2 s (aqPart e) e
     let new := a.2.firkin.pinned.drop s.firkin.pinned.length
     exec (row.1 r) s = .next (if new.all (fkCached s) then aqEnds s a.2 r e a.1 0
       else new.foldl (fun s k => fkWant s k 8) s)) ∧
   (∀ r s e, AqTurn s r 0x5A e →
     let a := if cbBad e then (0x02, s)
       else if cbUnbind e then carderUnbind s (aqPart e) e else carderBind s (aqPart e) e
     let new := a.2.firkin.pinned.drop s.firkin.pinned.length
     exec (if cbUnbind e then .carderUnbind r else .carderBind r) s =
       .next (if new.all (fkCached s) then aqEnds s a.2 r e a.1 0
         else new.foldl (fun s k => fkWant s k 8) s)) ∧
   (∀ row, XptRow row → ∀ r s e, AqTurn s r row.2.1 e → mirrorFull s (aqPart e) = false →
     let a := row.2.2 s (aqPart e) e
     exec (row.1 r) s = .next (aqMirrors s a.state r e a.st a.d0))) ∧
  ((∀ s a e s1, AqTurn s a 0x40 e → createBad e = false →
     ringIdOk s (aqPart e) (entryField e 0x10 2) = true →
     (ring s (entryField e 0x10 2)).state = .idle → entryByte e 0x36 = 0 →
     ringsUsed s (aqPart e) < (partition s (aqPart e)).ringQ →
     ringRangeOk s (aqPart e) (BitVec.ofNat 20 (rcCfg e)) (rcType e) (entryByte e 0x13)
       (entryWord e 0x18) (entryWord e 0x20) = (true, s1) →
     exec (.ringCreate a) s = .next (aqEnds s (setRing s1 (entryField e 0x10 2)
       { createdRing (aqPart e) e with held := partHeld s (aqPart e) }) a e 0 0)) ∧
   (∀ s a e, AqTurn s a 0x40 e → createBad e = true →
     exec (.ringCreate a) s = .next (aqEnds s s a e 0x02 0)) ∧
   (∀ p e, let x := createdRing p e
     x.state = .run ∧ x.prod = 0 ∧ x.cons = 0 ∧ x.ccnt = 0 ∧ x.part = p ∧ x.typ = rcType e ∧
       x.base = entryWord e 0x18 ∧ x.rpt = entryWord e 0x20) ∧
   (∀ s aq e r, zeroField e 0x12 46 = true → namedRing s e = some r →
     (AqTurn s aq 0x43 e → (ring s r).state = .run →
       exec (.ringStop aq) s = .next (aqHolds s (stopRing s (some (aq, e.index)) r) aq e)) ∧
     (AqTurn s aq 0x43 e → (ring s r).state ≠ .run →
       exec (.ringStop aq) s = .next (aqEnds s s aq e 0x04 0)) ∧
     (AqTurn s aq 0x41 e → (ring s r).state ≠ .stopping → (ring s r).typ = 2 → boundRings s r ≠ [] →
       exec (.ringDestroy aq) s = .next (aqEnds s s aq e 0x04 0)) ∧
     (AqTurn s aq 0x41 e → (ring s r).state = .stopped → (ring s r).typ ≠ 2 → ringBusy s r = false →
       exec (.ringDestroy aq) s = .next (aqEnds s (removeRing s r) aq e 0 0)) ∧
     (AqTurn s aq 0x41 e → (ring s r).state = .run → (ring s r).typ ≠ 2 →
       exec (.ringDestroy aq) s = .next (aqHolds s (stopRing s (some (aq, e.index)) r) aq e)) ∧
     (AqTurn s aq 0x44 e → (ring s r).state = .stopped → ringConsumed (ring s r) = true →
       (ring s r).taken = [] →
       exec (.ringStart aq) s = .next (aqEnds s (setRing s r { ring s r with
         state := .run, prod := (ring s r).cons, prefetch := [], curK := pollK (ring s r)
         emptyRun := 0 }) aq e 0 0)) ∧
     (AqTurn s aq 0x44 e → (ring s r).state = .stopped → ringConsumed (ring s r) = false →
       exec (.ringStart aq) s =
         .next (aqEnds s (drainRing (setRing s r { ring s r with state := .run }) r) aq e 0 0))) ∧
   (∀ s aq e r, AqTurn s aq 0x45 e → entryByte e 0x16 = 1 → zeroField e 0x12 2 = true →
     zeroField e 0x17 41 = true → namedRing s e = some r →
     bindOk s (ring s r).part (ring s r).typ (entryField e 0x14 2) = true →
     exec (.ringBind aq) s = .next (aqEnds s (setRing s r { ring s r with
       bindEn := true, target := entryField e 0x14 2
       fetchStopped := ringConsumed (ring s r) && !(ring s (entryField e 0x14 2)).unitHeld.isEmpty })
       aq e 0 0)) ∧
   (∀ s aq e r s1, AqTurn s aq 0x42 e → zeroField e 0x12 1 = true → zeroField e 0x14 4 = true →
     zeroField e 0x20 32 = true → 4 ≤ entryByte e 0x13 → entryByte e 0x13 ≤ 20 →
     (entryWord e 0x18).toNat < 2 ^ 57 → namedRing s e = some r →
     (ring s r).state = .run ∨ (ring s r).state = .stopped →
     ringFieldsOk (ring s r).typ (entryByte e 0x13) (entryWord e 0x18) (ring s r).rpt = true →
     ringRangeOk s (ring s r).part (ring s r).ctx (ring s r).typ (entryByte e 0x13) (entryWord e 0x18)
       (ring s r).rpt = (true, s1) →
     exec (.ringResize aq) s = .next (aqHolds s (modRing s1 r fun y => { y with
       resize := some (entryByte e 0x13, entryWord e 0x18, aq, e.index) }) aq e)) ∧
   (∀ r s, stopEnds s r = true → s.err.fatal = false →
     ((ring s r).stopBy = none → ringConsumed (ring s r) = false →
       exec (.ringStopComplete r) s = .next (xptDone s (modRing s r fun y => { y with
         state := if y.state = .error then .error else .stopped, stopBy := none }))) ∧
     (∀ aq i e, (ring s r).stopBy = some (aq, i) → startedAt s aq i = some e →
       entryOpcode e = 0x43 → ringConsumed (ring s r) = true →
       exec (.ringStopComplete r) s = .next (xptDone s (completeWaiting
         (modRing (headReport s r) r fun y => { y with
           state := if y.state = .error then .error else .stopped, stopBy := none })
         (some (aq, i)) 0 ((ring s r).cons.setWidth 64))))) ∧
   (∀ r s l base aq i s1, s.err.fatal = false → (ring s r).resize = some (l, base, aq, i) →
     resizeReady s r = (true, s1) → ringConsumed (ring s1 r) = true → (ring s1 r).state = .run →
     let s2 := setRing s1 r { ring s1 r with
       resize := none, log2sz := l, base := base, prod := 0, cons := 0, reported := 0, prefetch := []
       shift := (ring s1 r).shift + (ring s1 r).prod }
     exec (.ringResizeSwitch r) s = .next (xptDone s (completeWaiting
       (if ringProduced (ring s1 r) then drainRing s2 r else s2) (some (aq, i)) 0
       ((ring s1 r).prod.setWidth 64)))))

/-- Sync objects by AQ: a grant makes free objects LIVE with the count and attributes it names, a
revocation makes them REVOKED, a release makes them FREE; and the host's window signals and reads
the objects of its VF (R139, R141, R142, R145, R342). -/
def Obligations.sync_admin_effects : Prop :=
  (∀ a n, (syncOfAttr a n).state = .live ∧ (syncOfAttr a n).count = n ∧
    (syncOfAttr a n).part = a.extractLsb' 40 7 ∧ (syncOfAttr a n).ctx = a.extractLsb' 0 20) ∧
  (∀ s aq e run, AqTurn s aq 0x48 e → syncRun e = some run →
    attrBad (ring s aq).part (entryWord e 0x18) = false → zeroField e 0x28 24 = true →
    (∀ i ∈ run, (syncObj (checkRun s run) i).state = .free) →
    syncUsed (checkRun s run) (bits (entryWord e 0x18) 40 7) + run.length ≤
      (partition (checkRun s run) (bits (entryWord e 0x18) 40 7)).syncQ →
    exec (.syncGrant aq) s = .next (aqEnds s (run.foldl
      (fun s i => setSync s i (syncOfAttr (entryWord e 0x18) (entryWord e 0x20))) (checkRun s run))
      aq e 0 0)) ∧
  (∀ s aq e run, AqTurn s aq 0x49 e → syncRun e = some run → zeroField e 0x18 40 = true →
    exec (.syncRevoke aq) s = .next (aqEnds s (run.foldl (fun s i =>
      if (syncObj s i).state = .live ∨ (syncObj s i).state = .frozen then
        setSync s i (revokeObj (syncObj s i)) else s) (checkRun s run)) aq e 0 0)) ∧
  (∀ s aq e run, AqTurn s aq 0x4A e → syncRun e = some run → zeroField e 0x18 40 = true →
    (ring s aq).part = 0 →
    let s1 := checkRun s run
    let used := run.filter fun i => (syncObj s1 i).state != .free
    exec (.syncRelease aq) s = .next (aqEnds s (used.foldl (fun s i => setSync s i SyncObj.free)
      ((s1.threads.map Prod.fst).foldl (releaseSpinner used) s1)) aq e 0 0)) ∧
  (∀ n i v s, bar0 s = true → 1 ≤ n → n ≤ 64 → i < 32768 →
    (signalObj s n 0 true (vfSwbase s n + i) v).1 = .applied →
    exec (.syncWindowWrite n i v) s = .next (signalObj s n 0 true (vfSwbase s n + i) v).2) ∧
  (∀ n i s, 1 ≤ n → n ≤ 64 → i < 32768 →
    exec (.syncWindowRead n i) s = .next
      { (readObj s n 0 true (vfSwbase s n + i)).2 with
        readData := leBytes 8 ((readObj s n 0 true (vfSwbase s n + i)).1.getD 0).toNat })

/-- Partitions: PART_RESIZE sets the quota or cores that it names, PART_RESET and a function-level
reset leave the partition in RUN, VF Enable puts its VFs in RUN, FREEZE and THAW move between RUN
and FROZEN (a FREEZE whose threads wait for answers begins, and waits for them: log entry 41),
PART_SAVE writes the image of a frozen partition, PART_RESTORE makes one from an image, and a reset
of PF0 returns partitions, ports and units to reset (R369, R371, R379, R381 to R383, R387). -/
def Obligations.partition_effects : Prop :=
  (∀ s aq e, let s1 := modSched s fun z => { z with moving := [] }
    resizeWaits s aq = [] → AqTurn s1 aq 0x60 e → resizeStatus s1 e = 0 →
    exec (.partResize aq) s = .next (aqEnds s1 (resizeApply s1 (aqPart e) e) aq e 0 0)) ∧
  (∀ s p e, rzRes e = 3 → resizeApply s p e = modPart s p fun x => { x with ringQ := rzValue e }) ∧
  (∀ s p e, rzRes e = 7 → resizeApply s p e = modPart s p fun x => { x with nextEnergy := rzValue e }) ∧
  (∀ s aq e, AqTurn s aq 0x61 e → zeroField e 0x10 48 = true → 1 ≤ aqPart e → aqPart e ≤ 64 →
    (partition s (aqPart e)).state = .run → standbyBusy s (aqPart e) = false →
    exec (.partReset aq) s = .next (aqEnds s (resetPartition s (aqPart e) .run) aq e 0 0)) ∧
  (∀ n s, 1 ≤ n → n ≤ 64 → (partition s n).state = .run → powered s = true → s.err.fatal = false →
    exec (.functionLevelReset n) s = .next (resetPartition s n .run)) ∧
  (∀ s, powered s = true → s.err.fatal = false →
    (∀ p, 1 ≤ p → p ≤ 64 → (partition s p).state = .idle) →
    ∃ s', exec (.vfEnable 1) s = .next s' ∧ (partition s' 1).state = .run ∧ s'.host.vfs = 1 ∧
      (∀ p, p ≠ 1 → partition s' p = partition s p) ∧ s'.rings = s.rings ∧ s'.mem = s.mem) ∧
  (∀ s aq e, AqTurn s aq 0x62 e → entryByte e 0x10 = 0 → zeroField e 0x11 47 = true →
    1 ≤ aqPart e → aqPart e ≤ 64 → (partition s (aqPart e)).state = .run → preEnabled s = true →
    mirrored s (aqPart e) = false → freezeWaits s e = false →
    exec (.partFreeze aq) s = .next (aqEnds s (freezePartition s (aqPart e)) aq e 0 0)) ∧
  (∀ s aq e, AqTurn s aq 0x62 e → freezeWaits s e = true →
    exec (.partFreeze aq) s = .next (beginFreeze s (aqPart e))) ∧
  (∀ s aq e, AqTurn s aq 0x62 e → entryByte e 0x10 = 1 → zeroField e 0x11 47 = true →
    1 ≤ aqPart e → aqPart e ≤ 64 → (partition s (aqPart e)).state = .frozen →
    exec (.partThaw aq) s = .next (aqEnds s (thawPartition s (aqPart e)) aq e 0 0)) ∧
  (∀ s aq e, AqTurn s aq 0x63 e → zeroField e 0x20 32 = true →
    (partition s (aqPart e)).state = .frozen →
    (saveImage s (aqPart e)).length ≤ entryField e 0x18 8 →
    imageRangeOk s (entryField e 0x10 8) (saveImage s (aqPart e)).length = true →
    exec (.partSave aq) s =
      .next (aqEnds s (writeMem s (entryField e 0x10 8) (saveImage s (aqPart e))) aq e 0
        (BitVec.ofNat 64 (saveImage s (aqPart e)).length))) ∧
  (∀ s aq e bs s1 d, AqTurn s aq 0x64 e → zeroField e 0x24 28 = true → aqPart e ≤ 64 →
    256 ≤ entryField e 0x18 8 →
    imageRangeOk s (entryField e 0x10 8) (entryField e 0x18 8) = true →
    readMem s (entryField e 0x10 8) (entryField e 0x18 8) = (false, bs, s1) → imgData bs = some d →
    let m : ImgMap := { p := aqPart e, rbase := d.rbase
                        sdelta := (BitVec.ofNat 32 (entryField e 0x20 4)).toInt }
    restoreBounds s1 m d = false → restoreQuota s1 m d = false →
    exec (.partRestore aq) s = .next (aqEnds s (restoreAll s1 m d) aq e 0 0)) ∧
  (∀ s, powered s = true → s.err.fatal = false →
    exec .pf0Flr s = .next (flrUnits (flrPorts (flrParts s)))) ∧
  (∀ s, (flrUnits s).rings = [] ∧ (flrUnits s).bushel = [] ∧ (flrUnits s).binds = [] ∧
    (flrUnits s).host.vfs = 0 ∧ (flrUnits s).err.firstFatal = s.err.firstFatal)

/-- Queue pairs and memory keys by AQ: a queue pair is created in INIT, moves between RTS and DRAIN,
and is destroyed; a key is registered with the next generation, which its key tells, and
deregistered (R197, R198, R200, R204 to R206). -/
def Obligations.queue_pair_and_key_effects : Prop :=
  (∀ r s e, AqTurn s r 0x50 e → mirrorFull s (aqPart e) = false → qpCreateBad e = false →
    standbyBusy s (aqPart e) = false →
    (qp s (qpKey (aqPart e) (entryField e 0x10 4))).state = .none → entryField e 0x10 4 ≠ 0x3FFFFF →
    entryField e 0x10 4 < (partition s (aqPart e)).qpQ →
    (ring s (entryField e 0x14 2)).typ = 1 → (ring s (entryField e 0x14 2)).state ≠ .idle →
    (ring s (entryField e 0x14 2)).part = aqPart e → (ring s (entryField e 0x16 2)).typ = 2 →
    (ring s (entryField e 0x16 2)).state ≠ .idle → (ring s (entryField e 0x16 2)).part = aqPart e →
    entryField e 0x18 8 = 0 →
    let k := qpKey (aqPart e) (entryField e 0x10 4)
    exec (.qpCreate r) s = .next (aqMirrors s (setQp s k { Qp.none with
      state := .init, sq := entryField e 0x14 2, rcq := entryField e 0x16 2
      rlog2n := entryByte e 0x20, rlog2sz := entryByte e 0x21
      ctx := BitVec.ofNat 20 (entryField e 0x24 4), rrpt := entryField e 0x28 8
      sport := sportOf k 0 }) r e 0 0)) ∧
  (∀ r s e, AqTurn s r 0x50 e → mirrorFull s (aqPart e) = false → qpCreateBad e = true →
    exec (.qpCreate r) s = .next (aqMirrors s s r e 0x02 0)) ∧
  (∀ r s e, let k := qpKey (aqPart e) (entryField e 0x10 4 % 2 ^ 22)
    AqTurn s r 0x51 e → mirrorFull s (aqPart e) = false → zeroField e 0x14 44 = true →
    (entryField e 0x10 4 / 2 ^ 22 = 4 * 4 → (qp s k).state = .drain →
      let s1 := setQp s k { freshRate s (qp s k) with state := .rts }
      exec (.qpModify r) s = .next (aqMirrors s s1 r e 0 (qpDetail s1 k))) ∧
    (entryField e 0x10 4 / 2 ^ 22 = 5 * 4 → (qp s k).state = .rts →
      let s1 := checkDrained (setQp s k { qp s k with state := .drain, drained := false }) k
      exec (.qpModify r) s = .next (aqMirrors s s1 r e 0 (qpDetail s1 k)))) ∧
  (∀ r s e, let k := qpKey (aqPart e) (entryField e 0x10 4)
    AqTurn s r 0x52 e → mirrorFull s (aqPart e) = false → entryField e 0x10 4 < 2 ^ 22 →
    zeroField e 0x14 44 = true →
    ((qp s k).state = .init → exec (.qpDestroy r) s = .next (aqMirrors s (removeQp s k) r e 0 0)) ∧
    ((qp s k).state = .rts →
      exec (.qpDestroy r) s = .next (aqMirrors s (removeQp (sendDisconnect s k) k) r e 0 0))) ∧
  (∀ r s e s1, AqTurn s r 0x53 e → mirrorFull s (aqPart e) = false → keyRegisterBad e = false →
    entryField e 0x10 4 < (partition s (aqPart e)).keyQ →
    (memKey s (aqPart e) (entryField e 0x10 4)).live = false → standbyBusy s (aqPart e) = false →
    entryByte e 0x28 < 8 →
    rangeOk s (aqPart e) (BitVec.ofNat 20 (entryField e 0x14 4)) (entryField e 0x18 8)
      (entryField e 0x20 8)
      ((BitVec.ofNat 4 (entryByte e 0x28)).getLsbD 1 || (BitVec.ofNat 4 (entryByte e 0x28)).getLsbD 2) =
        (true, s1) →
    let g := nextGen (memKey s (aqPart e) (entryField e 0x10 4)).gen
    let bind := entryField e 0x2C 4
    exec (.keyRegister r) s = .next (aqMirrors s (setMemKey s1 (aqPart e) (entryField e 0x10 4)
      { live := true, gen := g, ctx := BitVec.ofNat 20 (entryField e 0x14 4)
        base := entryField e 0x18 8, length := entryField e 0x20 8
        rights := BitVec.ofNat 4 (entryByte e 0x28)
        bound := if 2 ^ 31 ≤ bind then some (bind % 2 ^ 22) else none }) r e 0
      (BitVec.ofNat 64 (g * 2 ^ 24 + entryField e 0x10 4)))) ∧
  (∀ r s e, AqTurn s r 0x54 e → mirrorFull s (aqPart e) = false → entryField e 0x10 4 < 2 ^ 24 →
    zeroField e 0x14 44 = true → (memKey s (aqPart e) (entryField e 0x10 4)).live = true →
    exec (.keyDeregister r) s = .next (aqMirrors s (setMemKey s (aqPart e) (entryField e 0x10 4)
      { memKey s (aqPart e) (entryField e 0x10 4) with live := false }) r e 0 0))

/-- The entry at the head of an SQ starts when its queue pair takes it: without a gate its operation
is handed to the transport; with one it waits at the head; malformed it is completed and counted; a
queue pair that cannot take it ends it with the queue pair's status, and one whose context is not
cached asks for it (R195, R208 to R210, R215, R218, R239). A gated entry starts once its gate is
open, an ENABLE gate taking one from its source's count, and ends with TIMEOUT once its time has
passed; a packet of a queue pair goes out where window, pacing, room and turn allow (R218, R219,
R243). -/
def Obligations.sq_command_results : Prop :=
  (∀ row, SqRow row → ∀ r s e, AtHead s r e → entryOpcode e = row.2 → (ring s r).typ = 1 →
     e.gated = false →
     let k := sqQp s r e
     (sqBad e = true → exec (row.1 r) s = .next (xptDone s (consumeMalformed s r e))) ∧
     (sqBad e = false → (entryGate e = 2 → (qp s k).mode ≠ 0) →
       (∀ st, qpTakes s k (wireOp row.2) = .fail st →
         exec (row.1 r) s = .next (xptDone s (finishHead s r e st))) ∧
       (qpTakes s k (wireOp row.2) = .wait → (qp s k).state = .rts →
         exec (row.1 r) s = .next (xptDone s (fkWant s k 8))) ∧
       (qpTakes s k (wireOp row.2) = .take → (entryRfence e = true → readsWait (qp s k) = false) →
         (entryGate e = 0 → exec (row.1 r) s = .next (xptDone s (sqSubmit s r e))) ∧
         (entryGate e ≠ 0 → (∀ st, gateState s r e ≠ .fail st) →
           exec (row.1 r) s = .next (xptDone s (markGated s r)))))) ∧
  ((∀ r s e, (ring s r).taken.head? = some e → headReady s r e = true → e.gated = true →
     gateExpired s e = false → gateState s r e = .open_ →
     qpTakes s (sqQp s r e) (wireOp (entryOpcode e)) = .take →
     (entryGate e = 1 → exec (.enableGateStart r) s = .next (xptDone s (sqSubmit
       (modQp s (gateQp s r e) fun q => { q with enable := q.enable - 1 }) r e))) ∧
     (entryGate e = 2 → exec (.countGateStart r) s = .next (xptDone s (sqSubmit s r e)))) ∧
   (∀ r s e, (ring s r).taken.head? = some e → headReady s r e = true → gateExpired s e = true →
     exec (.gateTimeout r) s = .next (xptDone s (finishHead s r e 0x0E))) ∧
   (∀ s e t, e.gated = true → bits (gateWord e) 48 16 = t → t ≠ 0 →
     (gateExpired s e = true ↔ e.gateAt + t * 24000 ≤ fdTime s)) ∧
   (∀ p n s size x s1, readyLen s (qpKey p n) = some size → nextPkt s (qpKey p n) = some x →
     partTurn s (qp s (qpKey p n)).port (qp s (qpKey p n)).tc p size 64 = (true, s1) →
     exec (.packetTransmit p n) s = .next (xptDone s (sendNext s1 (qpKey p n) x size))))

/-- An arriving packet of a command's opcode leaves the receive buffer: with its queue pair's
context on the die it is checked and acts, and otherwise it waits in a miss buffer; one of a queue
pair that does not accept it is dropped and counted; one that passes every check reaches its handler
(R189, R195, R232, R240). Firkin starts the fetch of a wanted context while its set has a way, and
installs a fetched one; its queued packets then act in order (R239, R240). -/
def Obligations.arrival_results : Prop :=
  ((∀ row, ArrivalRow row → ∀ p s a h payload tag part,
     s.arrived.find? (fun x => x.toPacket == p) = some a → a.bad = false → s.err.fatal = false →
     parsePth p.bytes = some (h, payload, tag) → targetPart s p = some part → h.op = row.2.1 →
     let s1 := { s with arrived := s.arrived.erase a }
     let k := qpKey part h.qpn
     (isAnswerOp h.op = true → answerAhead s k a = false) → answerWaits s k h = false →
     (fkCached s k = false → exec (row.1 p) s = .next (xptDone s (missPacket s1 k a))) ∧
     (fkCached s k = true → stateAccepts (qp s k) h = false →
       exec (row.1 p) s = .next (xptDone s (bump s1 xptDrop 32 16 1))) ∧
     (fkCached s k = true → stateAccepts (qp s k) h = true → isConnOp h.op = false →
       h.ver ≠ (qp s k).version →
       exec (row.1 p) s = .next (xptDone s (bump s1 xptDrop 16 16 1)))) ∧
   (∀ row, ArrivalRow row → ∀ p s k a h payload s1, Arrives s p row.2.1 k a h payload s1 →
     exec (row.1 p) s = .next (xptDone s (row.2.2 s1 k a h payload))) ∧
   (∀ s k h dup fresh,
     (psnClass (qp s k) h.psn = .outside → request s k h dup fresh = bump s xptSrstat 8 8 1) ∧
     (psnClass (qp s k) h.psn = .new → mirrorFull s (qpPart k) = true →
       request s k h dup fresh = sendRnr (bump s twinStat 16 16 1) k h.psn h.ts) ∧
     (psnClass (qp s k) h.psn = .dup → (qp s k).refusals = [] →
       request s k h dup fresh = dup (bump s xptSrstat 16 16 1)))) ∧
  ((∀ p n s x, s.firkin.wanted.find? (fun x => x.1 == qpKey p n) = some x →
     fkWays s (fkSet (qpKey p n)) < 16 →
     exec (.contextFetchStart p n) s = .next (bump { s with firkin := { s.firkin with
       wanted := s.firkin.wanted.filter fun y => y.1 != qpKey p n
       fetching := s.firkin.fetching ++ [x] } } fkStat 32 32 1)) ∧
   (∀ p n s bs s2, s.firkin.fetching.any (fun x => x.1 == qpKey p n) = true →
     (qp s (qpKey p n)).state ≠ .none →
     (regionOf (qpStore s p + 512 * n) = .hostMem → s.linkUp = true) →
     let s1 := { s with firkin := { s.firkin with
       fetching := s.firkin.fetching.filter fun y => y.1 != qpKey p n } }
     readMem s1 (qpStore s p + 512 * n) 256 = (false, bs, s2) →
     let s3 := settleTaken { s2 with
       firkin := { s2.firkin with cached := qpKey p n :: s2.firkin.cached } } (qpKey p n)
     exec (.contextFetchComplete p n) s = .next (xptDone s
       ((takeMissed s3 (qpKey p n)).1.foldl (playMissed (qpKey p n)) (takeMissed s3 (qpKey p n)).2))))

/-- What a packet that passes the steps of R189 does: a new request that passes its checks takes
effect and is accepted (SEND, WRITE, WRITE_IMM, READ_REQ, the atomics, SIGNAL, ENABLE); a response's
bytes are placed; ACK, NAK and RNR act on what they name (R207, R212 to R216, R218, R230, R232,
R236, R237). What the messages of a connection and of a migration do: a request in LISTEN is
answered with REP, a REP brings RTS and RTU, an RTU brings RTS, a REJ and a DISCONNECT bring ERROR;
a migration changes the peer's address, is answered and sends again what is not acknowledged, and
its answer ends it (R202, R220, R245). What the packets of Bushel and Carder do that come from a
neighbour of the running generation, or from a member of the binding, and that fit: a chunk is
staged, credit is added, a partial result is kept, a taint marks the run, an abort ends it; tokens,
counts and outputs are taken (R263, R264, R267, R268, R282, R285). -/
def Obligations.arrival_effects : Prop :=
  ((∀ p s k a h payload s1 s2, Arrives s p 0x01 k a h payload s1 → NewRequest s1 k h →
     let q := qp s1 k
     q.rbase ≠ 0 → h.off.toNat + payload.length ≤ 2 ^ q.rlog2sz → slotBusy q h.key = false →
     cqBlocked s1 q.rcq = false →
     place s1 (qpPart k) q.ctx
       (q.rbase + h.key.toNat % 2 ^ q.rlog2n * 2 ^ q.rlog2sz + h.off.toNat) payload = (.ok (), s2) →
     exec (.sendArrival p) s = .next (xptDone s (acceptReq (modQp s2 k fun q =>
       if h.last then { q with recvDone := q.recvDone ++ [{ psn := h.psn, kind := 1
                                                            cookie := h.key.toNat
                                                            stop := h.off.toNat + payload.length
                                                            imm := h.aux, ts := a.time }] }
       else q) k h))) ∧
   (∀ p s k a h payload s1 s2 e, keyCheck s1 k h 1 payload.length = .ok e → NewRequest s1 k h →
     place s1 (qpPart k) e.ctx (e.base + h.off.toNat) payload = (.ok (), s2) →
     (Arrives s p 0x02 k a h payload s1 →
       exec (.writeArrival p) s = .next (xptDone s (acceptReq (modQp s2 k fun q => q) k h))) ∧
     (Arrives s p 0x03 k a h payload s1 → cqBlocked s1 (qp s1 k).rcq = false →
       exec (.writeImmArrival p) s = .next (xptDone s (acceptReq (modQp s2 k fun q => { q with
         imms := if h.first then q.imms ++ [(h.psn, h.off.toNat)] else q.imms
         recvDone := if h.last then q.recvDone ++ [{ psn := h.psn, kind := 2, cookie := 0
                                                     stop := h.off.toNat + payload.length
                                                     imm := h.aux, ts := a.time }]
           else q.recvDone }) k h)))) ∧
   (∀ p s k a h payload s1 s2 e cs, Arrives s p 0x04 k a h payload s1 → NewRequest s1 k h →
     keyCheck s1 k h 0 h.aux.toNat = .ok e →
     let n := max 1 ((h.aux.toNat + (qp s1 k).mtu - 1) / (qp s1 k).mtu)
     let r : ReadRec := { first := h.psn, count := n, ctx := e.ctx, va := e.base + h.off.toNat
                          len := h.aux.toNat }
     chunks s1 .fabric fabricUnit (qpPart k) e.ctx r.va r.len false (pageSpan r.va r.len) =
       (.ok cs, s2) →
     exec (.readReq p) s = .next (xptDone s (deliverRecv (modQp
       (sendReadFrom (modQp s2 k fun q => { q with reads := q.reads ++ [r] }) k r 0) k
       fun q => acceptPsns q h.psn n) k))) ∧
   (∀ row ∈ [(Instr.atomicFaddArrival, 0x06, faddValue), (Instr.atomicCasArrival, 0x07, casValue)],
     ∀ p s k a h payload s1 s2 s3 s4 e fr pa bs, Arrives s p row.2.1 k a h payload s1 →
     NewRequest s1 k h → keyCheck s1 k h 2 8 = .ok e →
     frameOf s1 fabricUnit (qpPart k) e.ctx (e.base + h.off.toNat) = (fr, s2) →
     fr.any (fun x => regionOf x == .hostMem) = false →
     access s2 .fabric fabricUnit (qpPart k) e.ctx (e.base + h.off.toNat) true = (.ok pa, s3) →
     readMem s3 pa 8 = (false, bs, s4) →
     let old : Word := BitVec.ofNat 64 (leNat bs)
     let r : AtomicRec := { psn := h.psn, status := 0, prior := old }
     exec (row.1 p) s = .next (xptDone s (acceptReq (sendAtomicResp (modQp
       (mirrorData (writeMem s4 pa (leBytes 8 (row.2.2 payload old).toNat)) pa 8) k
       fun q => logAtomic q r) k r) k h))) ∧
   (∀ p s k a h payload s1 s2 s3 e pa, Arrives s p 0x09 k a h payload s1 → NewRequest s1 k h →
     keyCheck s1 k h 3 8 = .ok e →
     access s1 .sync fabricUnit (qpPart k) e.ctx (e.base + h.off.toNat) true = (.ok pa, s2) →
     regionOf pa = .syncObj →
     signalObj s2 (qpPart k) e.ctx false (syncIndex pa) (BitVec.ofNat 64 (beField payload 0 8)) =
       (.applied, s3) →
     exec (.signalArrival p) s = .next (xptDone s (acceptReq s3 k h))) ∧
   (∀ p s k a h payload s1, Arrives s p 0x0A k a h payload s1 → NewRequest s1 k h →
     (qp s1 k).enable + h.aux.toNat ≤ 65535 →
     exec (.enableArrival p) s = .next (xptDone s (acceptReq
       (modQp s1 k fun q => { q with enable := q.enable + h.aux.toNat }) k h))) ∧
   (∀ p s k a h payload s1 o, ownerOp (qp s1 k) h.psn = some o → o.stalled = false →
     psnDone (qp s1 k) h.psn = false → o.src ≠ .none → h.aux.setWidth 8 = (0 : BitVec 8) →
     let i := (h.psn - o.first.getD h.psn).toNat
     (∀ s2 o2, Arrives s p 0x05 k a h payload s1 → o.op = 0x04 →
       placeResp s1 k o h.off.toNat (payload.take (o.len - h.off.toNat)) = (.ok (), s2, o2) →
       exec (.readResp p) s = .next (xptDone s (sackLoss (afterDone (doneAt
         (putSend s2 k o { o2 with got := insertNat i o.got, result := 0 }) k [h.psn]) k) k h.psn))) ∧
     (∀ s2 o2, Arrives s p 0x08 k a h payload s1 → o.op = 0x06 ∨ o.op = 0x07 →
       let v : Word := BitVec.ofNat 64 (beField payload 0 8)
       placeResp s1 k o 0 (match o.src with | .thread _ _ => [] | _ => leBytes 8 v.toNat) =
         (.ok (), s2, o2) →
       exec (.atomicResp p) s = .next (xptDone s (sackLoss (afterDone (doneAt
         (putSend s2 k o { o2 with got := insertNat i o.got, result := v }) k [h.psn]) k) k h.psn)))) ∧
   (∀ p s k a h payload s1, Arrives s p 0x10 k a h payload s1 →
     let bl := sackBlocks h payload
     let s2 := takeAnswer s1 k h
     answerBad (qp s1 k) h.key bl = false →
     (bl = [] → exec (.ack p) s = .next (xptDone s (afterDone (doneAt s2 k []) k))) ∧
     (∀ b, bl = [b] → exec (.ack p) s = .next (xptDone s (sackLoss (afterDone (doneAt s2 k
       ((psnRun (h.key + BitVec.ofNat 32 b.1) b.2).filter fun x =>
         !needsResponse (qp s2 k) x && decide (0 ≤ psnDiff x (qp s2 k).una))) k) k
       (h.key + BitVec.ofNat 32 (b.1 + b.2 - 1)))))) ∧
   (∀ p s k a h payload s1 o, Arrives s p 0x11 k a h payload s1 → bits h.off 32 16 = 1 →
     let x := h.key + BitVec.ofNat 32 (bits h.off 48 16)
     let s2 := takeAnswer s1 k h
     answerBad (qp s1 k) h.key [(bits h.off 48 16, 1)] = false → psnDone (qp s2 k) x = false →
     ownerOp (qp s2 k) x = some o → o.src ≠ .none →
     exec (.nak p) s = .next (xptDone s (afterDone
       (doneAt (failOp s2 k o (BitVec.ofNat 8 (bits h.off 24 8))) k [x]) k))) ∧
   (∀ p s k a h payload s1, Arrives s p 0x12 k a h payload s1 →
     let x := h.key + BitVec.ofNat 32 (bits h.off 48 16)
     let s2 := takeAnswer s1 k h
     let q := qp s2 k
     let n := ((q.rnrs.find? fun y => y.1 == x).map Prod.snd).getD 0 + 1
     answerBad (qp s1 k) h.key [(bits h.off 48 16, 1)] = false → psnDone q x = false →
     q.rnrUntil = none → bits (reg s2 xptRnr) 16 8 = 0 ∨ n < bits (reg s2 xptRnr) 16 8 →
     exec (.rnr p) s = .next (xptDone s (afterDone (setQp s2 k { q with
       rnrPsn := x, rnrCount := n, rnrs := (x, n) :: q.rnrs.filter fun y => y.1 != x
       rnrUntil := some (max (portTime s2 q.port + usTicks (max 1 (bits h.off 0 16))) 0) }) k)))) ∧
  ((∀ p s k a h payload s1 v, Arrives s p 0x20 k a h payload s1 →
     let c := connOf payload
     (qp s1 k).state = .listen → (qp s1 k).repSent = false → listenMatches (qp s1 k) a c = true →
     answerOf (qp s1 k) c = .ok v →
     exec (.connectReq p) s = .next (xptDone s (startResend (sendRep (modQp (takeFree s1).2 k fun q =>
       { agree q v c with
         passive := true, repSent := true, ipsn := (takeFree s1).1.setWidth 32, rqpn := c.sqpn
         raddr := a.src, laddr := a.dst }) k) k))) ∧
   (∀ p s k a h payload s1, let c := connOf payload
     let q := qp s1 k
     q.connid = c.connid →
     (Arrives s p 0x21 k a h payload s1 → q.state = .connecting → q.passive = false →
       1 ≤ c.version → c.version ≤ 3 → q.vmask.getLsbD c.version = true →
       ((q.tagReq || c.tag) = true → q.ikey ≠ 0xFFFF) →
       exec (.connectRep p) s =
         .next (xptDone s (sendRtu (enterRts (modQp s1 k fun q => agree q c.version c) k) k))) ∧
     (Arrives s p 0x22 k a h payload s1 → repOut q = true →
       exec (.connectRtu p) s = .next (xptDone s (enterRts s1 k))) ∧
     (Arrives s p 0x23 k a h payload s1 → q.state = .connecting →
       exec (.connectRej p) s = .next (xptDone s (enterError s1 k 0x21 c.reason))) ∧
     (Arrives s p 0x24 k a h payload s1 → q.state = .rts ∨ q.state = .drain →
       exec (.disconnect p) s = .next (xptDone s (enterError s1 k 0x22 0x06)))) ∧
   (∀ p s k a h payload s1, let q := qp s1 k
     let m : BitVec 32 := BitVec.ofNat 32 (beField payload 24 4)
     let addr : BitVec 128 := BitVec.ofNat 128 (beField payload 0 16)
     migMatches q payload = true →
     (Arrives s p 0x28 k a h payload s1 → q.mseqIn.toNat < m.toNat →
       let s2 := modQp s1 k fun q =>
         { freshRate s1 q with raddr := addr, sport := sportOf k m.toNat, mseqIn := m }
       exec (.pathMigrate p) s = .next (xptDone s (qpEvent
         (loseAll (sendMig s2 k 0x29 addr m) k (unacked (qp s2 k))) k 0x24 0 m.toNat))) ∧
     (Arrives s p 0x29 k a h payload s1 → q.migrating = true →
       beField payload 24 4 = q.mseq.toNat →
       exec (.pathMigrateAck p) s =
         .next (xptDone s (setQp s1 k { freshRate s1 q with migrating := false, connTimer := none }))))) ∧
  ((∀ p s k a h payload s1 gid d r, NewRequest s1 k h → ForRun s1 k h gid d r →
     let s2 := heard (acceptReq s1 k h) gid
     (∀ used x, Arrives s p 0x30 k a h payload s1 → crc32c payload = bpCrc h →
       bpAttempt h = r.attempt → dataPlace s1 (bshGroup s1 gid) r d h = some x →
       x.2.2 = payload.length →
       exec (.bshData p used) s = .next (xptDone s (bshGo (modRun s2 gid fun r => { r with
         staged := r.staged.filter (fun y => y.1 != x.1) ++ [(x.1, payload)] }) gid))) ∧
     (Arrives s p 0x31 k a h payload s1 →
       exec (.bshCredit p) s = .next (xptDone s (bshGo (heard (modBsh (acceptReq s1 k h) gid fun x =>
         { x with credit := tset 0 x.credit (creditKey r.gen d)
                              (tget 0 x.credit (creditKey r.gen d) + bpChunk h) }) gid) gid))) ∧
     (∀ r2, Arrives s p 0x32 k a h payload s1 → let g := bshGroup s2 gid
       g.run = some r2 → treeBad g r2 d h payload = false →
       (fromBelow g r2 d h = true → exec (.bshTree p) s = .next (xptDone s (bshGo
         (modRun s2 gid fun r => { r with
           ups := r.ups ++ [{ dir := d, covered := treeCovers g r d true
                              value := treeValue payload }] }) gid))) ∧
       (fromBelow g r2 d h = false → exec (.bshTree p) s = .next (xptDone s (bshGo
         (modRun (sendDown s2 gid r2 (treePhase r2 false) (treeValue payload)) gid fun r =>
           treeResult g r (treeValue payload)) gid)))) ∧
     (∀ r2, Arrives s p 0x33 k a h payload s1 → let g := bshGroup s2 gid
       g.run = some r2 → r2.attempt ≠ 1 →
       exec (.bshTaint p) s = .next (xptDone s (bshGo (modRun
         (bshSendAll s2 ((bshTree g 0 g.rank).filter fun x => x != d) gid 0x33 0 (bpPhase h) r2.gen
           payload) gid fun r => { r with
           tainted := true, orank := beField payload 0 2
           taints := r.taints ++ [(spanBytes (bshWire r.entry) (beField payload 4 8),
             spanBytes (bshWire r.entry) (beField payload 12 4))] }) gid))) ∧
     (Arrives s p 0x34 k a h payload s1 →
       exec (.bshAbort p) s = .next (xptDone s (bshGo
         (bshAbort s2 gid 0x0A (beField payload 2 1) (beField payload 0 2) (some d)) gid)))) ∧
   (∀ p s k a h payload s1 b, NewRequest s1 k h → qpBind s1 k = some b →
     crdTagOk b (cpTag h) = true →
     let t := cpTag h
     let r := qpRank b k
     (∀ s2, Arrives s p 0x38 k a h payload s1 → let e := cpExpert h
       (crdExp b e).valid = true → (crdExp b e).erank = b.rank → bufferHeld s1 b t e = false →
       (crdTag s1 t).ranksDone.contains r = false → cpOff h + payload.length ≤ shareLen b e →
       cpShare h ≤ shareLen b e →
       writeVa s1 .fabric fabricUnit b.part b.ctx (shareVa b t e r + cpOff h) payload = (.ok (), s2) →
       exec (.crdTok p) s = .next (xptDone s (acceptReq
         (modTag s2 t fun x => { x with holds := true, sq := b.sq }) k h))) ∧
     (Arrives s p 0x39 k a h payload s1 → (∀ e ∈ hostedAt b b.rank, bufferHeld s1 b t e = false) →
       (crdTag s1 t).ranksDone.contains r = false →
       (∀ c ∈ doneCounts payload, c.1 ∈ hostedAt b b.rank ∧ c.2 ≤ (crdExp b c.1).cap) →
       exec (.crdDone p) s = .next (xptDone s (applyDones (acceptReq (modTag s1 t fun x => { x with
         dones := x.dones ++ [{ qp := k, psn := h.psn, rank := r, last := h.last
                                counts := doneCounts payload }]
         holds := true, sq := b.sq }) k h) b t))) ∧
     (∀ c s2, Arrives s p 0x3A k a h payload s1 → let e := cpExpert h
       let x := crdTag s1 t
       x.inUse = true → x.comb = some c → (crdExp b e).erank = r →
       cpOff h + payload.length ≤ countFor x.choices e * crdRec b →
       writeVa s1 .fabric fabricUnit b.part b.ctx
         (entryField c 0x18 8 + prefixOf x.choices e * crdRec b + cpOff h) payload = (.ok (), s2) →
       exec (.crdRet p) s = .next (xptDone s (acceptReq (modTag s2 t fun x => { x with
         got := x.got ++ [(e, cpOff h, payload.length)] }) k h)))))

/-- Timers of a queue pair: an acknowledgement due is sent; a retransmission timeout loses the first
unacknowledged packet, doubles the timeout and halves the rate; a receiver-not-ready pause ends; a
connection message is sent again with its interval doubled, and after its last try the queue pair is
in ERROR; a migration message, from its new address, likewise until it is given up (R202, R220,
R228, R233, R235, R236, R324). Key slots: a load takes the staged key and clears the stage, the old
receive key is kept as the previous one until its time has passed, and a clear of a slot that is not
bound leaves no key (R323, R326 to R328). -/
def Obligations.queue_pair_timer_results : Prop :=
  ((∀ p n s t, (qp s (qpKey p n)).ackTimer = some t → qpLive (qp s (qpKey p n)) = true →
     t + ns64Ticks (max 1 (bits (reg s xptSr) 0 16)) ≤ portTime s (qp s (qpKey p n)).port →
     (fkCached s (qpKey p n) = true →
       exec (.ackTimer p n) s = .next (xptDone s (sendAck s (qpKey p n) 0))) ∧
     (fkCached s (qpKey p n) = false → exec (.ackTimer p n) s = .next (fkWant s (qpKey p n) 8))) ∧
   (∀ p n s t, let q := qp s (qpKey p n)
     let s1 := loseP s (qpKey p n) q.una
     q.timer = some t → qpLive q = true → q.una ≠ q.nxt → mirrorFull s p = false →
     s.arrived.any (answerFor s (qpKey p n)) = false →
     rtoOf s q ≤ ((evalTick (portTime s q.port) - t : Nat) : Rat) →
     qpLive (qp s1 (qpKey p n)) = true →
     exec (.rtoExpiry p n) s = .next (xptDone s (modQp s1 (qpKey p n) fun y => { y with
       backoff := y.backoff + 1, timer := some (portTime s q.port)
       rate := max (rminOf s) (y.rate / 2), roundEnd := some y.nxt, roundMin := none }))) ∧
   (∀ p n s t, let q := qp s (qpKey p n)
     q.rnrUntil = some t → t ≤ portTime s q.port → qpLive q = true → mirrorFull s p = false →
     ∃ s' q', exec (.rnrPauseEnd p n) s = .next (xptDone s s') ∧ s' = setQp s (qpKey p n) q' ∧
       q'.rnrUntil = none ∧ q'.ops = q.ops ∧ q'.una = q.una ∧ q'.nxt = q.nxt ∧
       ∀ x ∈ q.resend, x ∈ q'.resend) ∧
   (∀ p n s, let q := qp s (qpKey p n)
     qpLive q = true → q.tag = true → txKeyReady s (qpKey p n) = true →
     q.lastTagged + 2 ^ 30 ≤ portTime s q.port + 1 →
     exec (.idleTagAck p n) s = .next (xptDone s (modQp (sendAck s (qpKey p n) 0) (qpKey p n)
       fun y => { y with lastTagged := portTime s y.port + 1 }))) ∧
   (∀ p n s x, let q := qp s (qpKey p n)
     q.connTimer = some x → q.migrating = false → q.state = .connecting ∨ repOut q = true →
     x.1 ≤ fdTime s →
     (cmTries s ≤ x.2.2 →
       exec (.connectResend p n) s = .next (xptDone s (enterError s (qpKey p n) 0x21 0x07))) ∧
     (x.2.2 < cmTries s → q.repSent = false → exec (.connectResend p n) s =
       .next (xptDone s (againLater (sendReq s (qpKey p n)) (qpKey p n) x)))) ∧
   (∀ p n s x, let q := qp s (qpKey p n)
     q.connTimer = some x → q.migrating = true → q.state = .rts ∨ q.state = .drain →
     x.1 ≤ fdTime s → txKeyReady s (qpKey p n) = true →
     (cmTries s ≤ x.2.2 → exec (.pathMigrateResend p n) s = .next (xptDone s
       (setQp s (qpKey p n) { q with migrating := false, connTimer := none }))) ∧
     (x.2.2 < cmTries s → x.2.2 ≠ 0 → exec (.pathMigrateResend p n) s = .next (xptDone s
       (sendMig (againLater s (qpKey p n) x) (qpKey p n) 0x28 (newAddr s (qpKey p n)) q.mseq))))) ∧
  (∀ fn i s, fn ≤ 64 → i < 2048 →
     let x := keySlot s (slotKey fn i)
     (bar0 s = true → ∃ y, exec (.txload fn i) s = .next (setSlot s (slotKey fn i) y) ∧
       y.tx = some (stagedKey x.k256 x.stageTx) ∧ y.stageTx = [0, 0, 0, 0] ∧ y.txUsed = false ∧
       y.rx = x.rx ∧ y.prev = x.prev ∧ y.bound = x.bound) ∧
     (bar0 s = true → ∃ y, exec (.rxload fn i) s = .next (setSlot s (slotKey fn i) y) ∧
       y.rx = some (stagedKey x.k256 x.stageRx) ∧ y.prev = x.rx ∧ y.stageRx = [0, 0, 0, 0] ∧
       y.tx = x.tx ∧ y.bound = x.bound) ∧
     (bar0 s = true → x.bound = none → ∃ y, exec (.ksClr fn i) s = .next (setSlot s (slotKey fn i) y) ∧
       y.tx = none ∧ y.rx = none ∧ y.prev = none ∧ y.stageTx = [0, 0, 0, 0] ∧
       y.stageRx = [0, 0, 0, 0]) ∧
     (x.bound ≠ none → exec (.ksClr fn i) s = .next s) ∧
     (x.prev ≠ none → x.prevAt + 2 ^ 30 ≤ portTime s (slotPort s fn x) →
       exec (.prevKeyExpiry fn i) s = .next (setSlot s (slotKey fn i)
         { x with prev := none, refPrev := none, prevAt := 0 })))

/-- Bushel: a CMQ's entry starts its group's operation, or fails where the CMQ has no group; a group
is created from free parts, its contexts on the die, and destroyed; a tainted generation is run
again once, a finished one completes, and one that stalls or is not paused in time aborts (R249,
R250, R258 to R261, R265, R267 to R269). -/
def Obligations.bushel_results : Prop :=
  (∀ row, CmqRow row → ∀ r s e, AtHead s r e → entryOpcode e = row.2 → (ring s r).typ = 6 →
    (cmqGroup s r = none → exec (row.1 r) s = .next (xptDone s (finishHead s r e 0x04))) ∧
    (∀ gid, cmqGroup s r = some gid → (bshGroup s gid).run = none → bshRunning s < 8 →
      (partition s (ring s r).part).state ≠ .preempted →
      exec (row.1 r) s = .next (xptDone s
        (bshGo (replayEarly (beginRun (consumeHead s r) gid e) gid) gid))) ∧
    (∀ gid bs s1 blocks s2 oper s3, cmqGroup s r = some gid → (bshGroup s gid).run = none →
      bshRunning s < 8 → (partition s (ring s r).part).state ≠ .preempted →
      let s0 := consumeHead s r
      let g := bshGroup s0 gid
      let map := if row.2 = 0x26 then clearTail (bshCount e) bs else bs
      g.broken = false → g.aborted.find? (fun x => x.1 == g.gen) = none → bshBad s0 g e = false →
      bshQpsUp s0 g = true → bshInput s0 g e = (.ok bs, s1) →
      (if row.2 = 0x26 then sparseBlocks s1 g e map else (.ok [], s1)) = (.ok blocks, s2) →
      readOper s2 e = (.ok oper, s3) →
      let run := newRun s0 g e oper map blocks
      exec (row.1 r) s = .next (xptDone s (bshGo (replayEarly (grantCredit
        (setBsh s3 gid { g with run := some run, gen := g.gen + 1, last := lastOf e }) gid run) gid)
        gid)))) ∧
  (∀ s r e, let p := aqPart e
    let g := gcGroup p e
    AqTurn s r 0x58 e → gcBad e g = false → bshGroup s (entryField e 0x10 2) = BshGroup.none → (ring s g.cmq).typ = 6 →
    (ring s g.cmq).state = .run → (ring s g.cmq).part = p → cmqGroup s g.cmq = none →
    (∀ q, some q ∈ g.qps → (qp s (qpKey p q)).state = .rts ∧
      (qp s (qpKey p q)).tc = bits (reg s bshCtl) 8 3 ∧ 3 ≤ (qp s (qpKey p q)).version) →
    fkCanPin s (g.qps.filterMap fun o => o.map (qpKey p)) = true →
    let s1 := setBsh (pinAll s (g.qps.filterMap fun o => o.map (qpKey p))) (entryField e 0x10 2) g
    (s1.firkin.pinned.drop s.firkin.pinned.length).all (fkCached s) = true →
    exec (.groupCreate r) s = .next (aqEnds s s1 r e 0 0)) ∧
  (∀ s r e, let p := aqPart e
    let g := bshGroup s (entryField e 0x10 2)
    AqTurn s r 0x59 e → entryField e 0x10 2 < 4096 → zeroField e 0x12 46 = true →
    g ≠ BshGroup.none → g.part = p →
    let s1 := setBsh (fkUnpin (finishTaken
      (bshAbort s (entryField e 0x10 2) 0x01 7 g.rank none) g.cmq 0x01)
      (g.qps.filterMap fun o => o.map (qpKey p))) (entryField e 0x10 2) BshGroup.none
    (s1.firkin.pinned.drop s.firkin.pinned.length).all (fkCached s) = true →
    exec (.groupDestroy r) s = .next (aqEnds s s1 r e 0 0)) ∧
  (∀ gid s r, (bshGroup s gid).run = some r →
    (r.phase = 8 → r.paused = false → r.tainted = true → r.attempt = 0 →
      exec (.bushelRerun gid) s = .next (xptDone s (rerun s gid))) ∧
    (r.phase = 8 → r.paused = false → r.tainted = false ∨ r.attempt = 1 →
      exec (.bushelComplete gid) s = .next (xptDone s (bshFinish s gid))) ∧
    (r.lastRx + (bshGroup s gid).stall * 1500000 ≤ fdTime s →
      exec (.bushelStallTimeout gid) s =
        .next (xptDone s (bshAbort s gid 0x0A 4 (bshGroup s gid).rank none))) ∧
    (∀ t, r.preAt = some t → r.paused = false → t + 300000 ≤ fdTime s →
      exec (.bushelPreemptTimeout gid) s =
        .next (xptDone s (bshAbort s gid 0x0A 3 (bshGroup s gid).rank none))))

/-- Carder: DISPATCH and COMBINE at the head of a bound SQ begin with their tag free, or held by a
finished DISPATCH; on an SQ without binding they end with BOUNDS; they end once nothing is
outstanding, and missing outputs fail when the stall timeout runs out; BIND makes a binding of its
tables and UNBIND frees its tags (R274 to R276, R283, R284, R287). -/
def Obligations.carder_results : Prop :=
  (∀ r s e, AtHead s r e → (ring s r).typ = 1 →
    (entryOpcode e = 0x30 →
      (sqBind s r = none → exec (.dispatch r) s = .next (xptDone s (finishHead s r e 0x04))) ∧
      (∀ b, sqBind s r = some b → crdInstalled s = true → dispatchBad b e = false →
        crdTagOk b (crdTagOf e) = true → (crdTag s (crdTagOf e)).inUse = false → crdRunning s < 16 →
        (∀ x ∈ hostedAt b b.rank, bufferHeld s b (crdTagOf e) x = false) → crdHeld s b = false →
        exec (.dispatch r) s = .next (xptDone s (beginDispatch s b e)))) ∧
    (entryOpcode e = 0x31 →
      (sqBind s r = none → exec (.combine r) s = .next (xptDone s (finishHead s r e 0x04))) ∧
      (∀ b, sqBind s r = some b → crdInstalled s = true → crdTagOk b (crdTagOf e) = true →
        (crdTag s (crdTagOf e)).inUse = true → (crdTag s (crdTagOf e)).comb = none →
        (crdTag s (crdTagOf e)).disp = none → crdRunning s < 16 → crdHeld s b = false →
        combineBad b e ((crdTag s (crdTagOf e)).ntok, (crdTag s (crdTagOf e)).route) = false →
        exec (.combine r) s = .next (xptDone s (beginCombine s b e))))) ∧
  (∀ r t s b e, sqBind s r = some b → (crdTag s t).disp = some e → crdTagOk b t = true →
    crdOutstanding s b e = false →
    exec (.dispatchComplete r t) s = .next (xptDone s (endDispatch s b t e))) ∧
  (∀ r t s b e, sqBind s r = some b → (crdTag s t).comb = some e → crdTagOk b t = true →
    (crdOutstanding s b e = false → missing b (crdTag s t) = [] →
      exec (.combineComplete r t) s = .next (xptDone s (endCombine s b t e))) ∧
    (missing b (crdTag s t) ≠ [] → (crdTag s t).startedAt + b.stall * 1500000 ≤ fdTime s →
      exec (.carderStallTimeout r t) s = .next (markFailed
        (setTag s t { crdTag s t with timeout := true }) t (missing b (crdTag s t)).contains))) ∧
  (∀ r s e t s1 s2, let p := aqPart e
    let x := ring s (entryField e 0x10 2)
    let b := cbBind p x.ctx e (t.xs.getD []) (t.qs.getD []) (t.hs.getD [])
    AqTurn s r 0x5A e → cbBad e = false → cbUnbind e = false → readTables s p x.ctx e = (t, s1) →
    t.fail = none → t.qs.isSome = true → tablesBad e b t = false → x.typ = 1 → x.state = .run →
    x.part = p → sqBind s (entryField e 0x10 2) = none →
    s.binds.any (tagsOverlap (entryField e 0x16 2) (entryField e 0x18 2)) = false →
    (∀ k ∈ bindQps b, (qp s k).state = .rts ∧ (qp s k).tc = bits (reg s crdCtl) 8 3 ∧
      3 ≤ (qp s k).version ∧ qpBound s k = false) →
    fkCanPin s (bindQps b) = true → s.binds.length < 16 → buffersOk s1 b = (true, s2) →
    let s3 := pinAll s2 (bindQps b)
    (s3.firkin.pinned.drop s.firkin.pinned.length).all (fkCached s) = true →
    exec (.carderBind r) s = .next (aqEnds s { s3 with binds := s3.binds ++ [b] } r e 0 0)) ∧
  (∀ r s e b, let n := entryField e 0x10 2
    AqTurn s r 0x5A e → cbBad e = false → cbUnbind e = true → sqBind s n = some b →
    b.part = aqPart e → (∀ t ∈ bindTags b, (crdTag s t).inUse = false) →
    let s1 := (bindTags b).foldl (fun s t => setTag s t CrdTag.free) (fkUnpin s (bindQps b))
    let s2 := { s1 with binds := s1.binds.filter fun x => x.sq != n }
    (s2.firkin.pinned.drop s.firkin.pinned.length).all (fkCached s) = true →
    exec (.carderUnbind r) s = .next (aqEnds s s2 r e 0 0))

/-- A port's link: a mode written takes the link down, a port with a mode trains and posts its
event, and a link that goes down discards and counts the frames that wait, and a raw frame with them
(R292, R316, R317). A port sends: what fits no gate window is dropped and counted, otherwise the
frame that its rules choose starts, and what waited for room goes on; the raw window's frame goes
into the transmit buffer where there is room; a gate list that is valid waits for its switch time,
and once in force its entries follow each other (R300, R305, R307 to R310). -/
def Obligations.port_link_and_transmit_results : Prop :=
  ((∀ n v s, bar0 s = true → n < 8 → bits v 0 4 ≤ 7 → exec (.portModeWrite n v) s = .next
     (portDown (setReg s (portReg n 8) (setBits (v &&& BitVec.ofNat 64 (fieldMask 31 16 + fieldMask 9 8))
       0 4 (bits v 0 4))) n 1)) ∧
   (∀ n s, (portOf s n).link = false → portMode s n ≠ 0 → portRuns s = true → s.err.fatal = false →
     n < 8 → exec (.portLinkUp n) s = .next (portEvent (modPort s n fun p => { p with
       link := true, actMode := portMode s n, idleSince := portTime s n }) n 0x30 (portMode s n)
         (portTime s n))) ∧
   (∀ n s, (portOf s n).link = true → exec (.portLinkDown n) s = .next (portDown s n 0)) ∧
   (∀ n s reason, ((portOf s n).link = true → portDown s n reason = portEvent (portCount
       (modPort (portDiscard s n) n fun p => { p with
         link := false, actMode := 0, lpiTx := false, lpiRx := false, wakeAt := none }) n 22 1) n 0x31
       reason (portTime s n)) ∧
     ((portOf s n).link = false → portDown s n reason = portDiscard s n)) ∧
   (∀ n s, portDiscard s n = modPort (portCount s n 18
     ((portOf s n).txq.length + (if (portOf s n).rawGo then 1 else 0))) n fun p =>
       refill (tc7On s n) { p with txq := [], deficits := [], rawGo := false })) ∧
  ((∀ n s, mayTransmit s n = true →
     (∀ f, (portOf s n).txq.find? (fun f => fitsNoRun (portOf s n) f) = some f →
       exec (.frameTransmit n) s = .next (portCount (afterRoom (modPort s n fun p =>
         { p with txq := p.txq.erase f, idleSince := portTime s n }) n) n 19 1)) ∧
     ((portOf s n).txq.find? (fun f => fitsNoRun (portOf s n) f) = none →
       (∀ s1, chooseFrame s n = (none, s1) → exec (.frameTransmit n) s = .next s1) ∧
       (∀ f s1, chooseFrame s n = (some f, s1) →
         exec (.frameTransmit n) s = .next (afterRoom (startFrame s1 n f) n)))) ∧
   (∀ n s f, (classHead s n 7).filter (gateAllows (portOf s n) (portTime s n)) = some f →
     chooseFrame s n = (some f, s)) ∧
   (∀ n v s, bar0 s = true → n < 8 → (portOf s n).rawGo = false →
     exec (.rawTransmit n v) s = .next (goRaw (setReg s (txrawReg n)
       (v &&& BitVec.ofNat 64 (fieldMask 22 20 + fieldMask 17 16 + fieldMask 13 0))) n)) ∧
   (∀ n v s, bar0 s = true → n < 8 → (portOf s n).gclSwitch = none →
     let s1 := setReg s (gclCtl n) (v &&& BitVec.ofNat 64 (fieldMask 16 16 + fieldMask 6 0))
     (adminValid s1 n = false → exec (.gclChange n v) s = .next (portEvent (modPort s1 n fun p =>
       { p with gclErr := true }) n 0x33 0 0)) ∧
     (adminValid s1 n = true → v.getLsbD 16 = false → exec (.gclChange n v) s = .next
       (modPort s1 n fun p => { p with gclErr := false, gclSwitch := some (some (switchTime
         (portTime s n) (reg s (gclBase n)).toNat (bits (reg s (gclCycle n)) 0 21))) })) ∧
     (adminValid s1 n = true → v.getLsbD 16 = true → exec (.gclChange n v) s = .next
       (modPort s1 n fun p => { p with
         gclErr := false, gclSwitch := some none, syncArm := true, syncValid := false }))) ∧
   (∀ n v s x, bar0 s = true → n < 8 → (portOf s n).gclSwitch = some x →
     exec (.gclAbort n v) s = .next (modPort s n fun p => { p with gclSwitch := none })) ∧
   (∀ now base cycle, now + 64 ≤ base → switchTime now base cycle = base) ∧
   (∀ now base cycle, 0 < cycle → base < now + 64 → now + 64 ≤ switchTime now base cycle ∧
     switchTime now base cycle < now + 64 + cycle ∧ (switchTime now base cycle - base) % cycle = 0) ∧
   (∀ n s t, (portOf s n).gclSwitch = some (some t) → t ≤ portTime s n → powered s = true →
     exec (.gclSwitch n) s = .next (portEvent (modPort s n fun p => { p with
       gclOper := adminList s n, gclCur := 0
       gclEnd := t + ((adminList s n).head?.map GclEntry.interval).getD 0
       gclSwitch := none, gclSwt := t }) n 0x32 t (adminList s n).length)) ∧
   (∀ n s, (portOf s n).gclOper ≠ [] → (portOf s n).gclEnd ≤ portTime s n → powered s = true →
     let p := portOf s n
     let i := (p.gclCur + 1) % p.gclOper.length
     exec (.gclEntryAdvance n) s = .next (setPort s n { p with
       gclCur := i, gclEnd := p.gclEnd + (p.gclOper[i]?.map GclEntry.interval).getD 0 })) ∧
   (∀ n s, bar0 s = true → n < 8 → exec (.syncArm n) s = .next (setPort s n
     { portOf s n with syncArm := true, syncValid := false })) ∧
   (∀ s, portRuns s = true → exec .syncInEdge s = .next ((List.range 8).foldl captureSync s)) ∧
   (∀ s n, (portOf s n).syncArm = true → ∃ s1 c, captureSync s n = modPort s1 n (fun p => { p with
       syncArm := false, syncValid := true, syncCap := c
       gclSwitch := if p.gclSwitch = some none then
         some (some (c + max 64 (reg s (gclBase n)).toNat)) else p.gclSwitch }) ∧
     s1.ports = s.ports ∧ portTime s n + 2 ≤ c ∧ c ≤ portTime s n + 3))

/-- A port receives: a frame with a bad FCS, of which Bushel may have seen the bytes, one that is
too short or too long, one that finds no room and one that the filters refuse are counted and
dropped, the others are counted and classified; the raw path restarts when it is enabled; a port
enters low-power idle after its idle time, leaves it for a frame or ahead of class 7's gate, and its
LLDP agent announces and forgets wake times (R301, R304, R312 to R315). -/
def Obligations.port_receive_results : Prop :=
  (∀ n bs c u y s, (portOf s n).link = true → s.err.fatal = false → n < 8 →
    let s0 := portCount (portCount (portCount s n 15 c) n 16 u) n 17 y
    exec (.frameReceive n bs true c u y) s = .next
      (if macAccepts s n (ethView bs) = true ∧ vlanAccepts s n (ethView bs) = true then
        cutThrough (portCount s0 n 4 1) n (ethView bs) else portCount s0 n 4 1) ∧
    (bs.length < 60 → exec (.frameReceive n bs false c 0 y) s = .next (portCount (portCount
      (portCount (portCount s n 15 c) n 16 0) n 17 y) n 5 1)) ∧
    (60 ≤ bs.length → bs.length + 4 ≤ maxFrm s n → rxHeld s n + bs.length ≤ 1048576 →
      macAccepts s n (ethView bs) = true → vlanAccepts s n (ethView bs) = true →
      (ethView bs).etype ≠ 0x8808 → exec (.frameReceive n bs false c 0 y) s = .next (classify
        (portCount (portCount (portCount (portCount (portCount s n 15 c) n 16 0) n 17 y) n 0 1) n 1
          (bs.length + 4)) n bs (ethView bs)))) ∧
  (∀ n v s, bar0 s = true → n < 8 → exec (.rxcqEnable n v) s = .next (modPort (setReg s (rxcqReg n)
    (v &&& BitVec.ofNat 64 (fieldMask 32 32 + fieldMask 19 0))) n fun p =>
      { p with delivered := 0, rel := 0 })) ∧
  (∀ n s, (portOf s n).link = true → (portOf s n).lpiTx = false → lpiOn s n = true →
    (portOf s n).txq = [] → portRuns s = true → s.err.fatal = false →
    (portOf s n).idleSince + max 1 (bits (reg s (lpiReg n)) 8 8) * 1000 ≤ portTime s n →
    exec (.lpiEnter n) s = .next (portCount (modPort s n fun p => { p with
      lpiTx := true, idleSince := portTime s n, wakeAt := none }) n 20 1)) ∧
  (∀ n s, (portOf s n).lpiTx = true → portRuns s = true → s.err.fatal = false →
    ((portOf s n).txq ≠ [] → exec (.lpiWake n) s = .next (lpiLeave s n)) ∧
    ((reg s (lpiReg n)).getLsbD 2 = true → (portOf s n).gclOper ≠ [] →
      (∃ x ∈ entryStarts (portOf s n), x.2.open7 = true ∧
        x.1 ≤ portTime s n + usTicks (txtwNow s n)) →
      exec (.prewake n) s = .next (lpiLeave s n))) ∧
  (∀ n s, let f := rawTx s n 0 (lldpFrame (portMac s n) (txtwNow s n) (rxtwOf s n) 0
      (portOf s n).partnerTw)
    (portOf s n).link = true → (reg s (lpiReg n)).getLsbD 3 = true → inService s = true →
    s.err.fatal = false → (portOf s n).lldpDue = true → txRoom s n 0 f.size = true →
    exec (.lldpduTransmit n) s = .next (modPort s n fun p => { p with
      txq := p.txq ++ [f], lldpAt := portTime s n, lldpDue := false })) ∧
  (∀ n s, (portOf s n).neg = true → (portOf s n).tlvAt + usTicks 120000000 ≤ portTime s n →
    exec (.lldpTlvExpiry n) s = .next (setPort s n { portOf s n with neg := false }))

/-- The host link: it comes up in a protocol, goes down and is counted, and its return is told with
what was lost; after DOWNMS, and at PERST, the host-memory rings and queue pairs are lost and the
partitions quiesce; RESUME lets them go on (R336, R359 to R361). DRDY: a pulse ends after 1.8 us,
the hold-off after 48 us, with a new pulse where one is pending; busy ends once nothing holds it and
100 us have passed, and an entry posted meanwhile is told 10 us later (R362, R363). -/
def Obligations.host_link_and_attention_results : Prop :=
  ((∀ proto width s, s.linkUp = false → s.host.perst = false → powered s = true → 1 ≤ proto →
     proto ≤ 3 → 2 ≤ width → width ≤ 4 →
     exec (.cxlLinkUp proto width) s = .next (drdyDone { s with
       linkUp := true
       host := { s.host with
         proto := proto, width := width, speed := if proto = 1 then 64 else 32, timedOut := false
         downAt := s.host.downAt.map fun t => fdTime s - t } } .perst)) ∧
   (∀ s, s.linkUp = true → exec .cxlLinkDown s = .next (bump { s with
       linkUp := false
       host := { s.host with downAt := some (fdTime s), timedOut := false, lost := 0 } }
     0x0008000 32 16 1)) ∧
   (∀ s d, s.host.downAt = some d → s.linkUp = true → s.err.fatal = false →
     exec .hostPathRestored s = .next (post { s with host := { s.host with downAt := none } } (eqOf 0)
       0x52 0 (BitVec.ofNat 64 s.host.lost) (BitVec.ofNat 64 (d / 1500)))) ∧
   (∀ s t, s.host.downAt = some t → s.linkUp = false → s.host.perst = false → s.host.timedOut = false →
     s.err.fatal = false → powered s = true →
     t + max 1 (bits (reg s haPolicy) 16 16) * 1500000 ≤ fdTime s →
     exec .linkDownTimeout s =
       .next (losePathSteps { s with host := { s.host with timedOut := true } } 3)) ∧
   (∀ s, s.host.perst = false → powered s = true → s.linkUp = false → s.err.fatal = true →
     exec .perstAssert s = .next (drdyBusy { s with
       linkUp := false
       host := { s.host with perst := true, proto := 0, width := 0, speed := 0, downAt := none
                             timedOut := true } } .perst)) ∧
   (∀ s, s.host.perst = false → powered s = true → s.linkUp = true → s.err.fatal = false →
     let s1 := bump s 0x0008000 32 16 1
     exec .perstAssert s = .next ((List.range 65).foldl
       (fun s n => setReg s (if n = 0 then haB2 else regKey n 8) 0)
       (losePathSteps (drdyBusy { s1 with
         linkUp := false
         host := { s1.host with perst := true, proto := 0, width := 0, speed := 0, downAt := none
                                timedOut := true, lost := 0 } } .perst) 1))) ∧
   (∀ s, s.host.perst = true → powered s = true → exec .perstDeassert s = .next
     { s with host := { s.host with perst := false, vfs := 0 } }) ∧
   (∀ v s, bar0 s = true → (∀ p, p ≤ 64 → (partition s p).quiesced = false) →
     exec (.policyResume v) s =
       .next (setReg s haPolicy (v &&& BitVec.ofNat 64 (fieldMask 31 16 + 1))))) ∧
  ((∀ s, s.drdy.state = .pulse → s.drdy.since + 90 ≤ glTime s → exec .attentionPulseEnd s =
     .next { s with drdy := { s.drdy with state := .holdoff, since := glTime s } }) ∧
   (∀ s, s.drdy.state = .holdoff → s.drdy.since + 2400 ≤ glTime s → exec .attentionHoldoffEnd s =
     .next { s with drdy := { s.drdy with
       state := if s.drdy.pending then .pulse else .ready, since := glTime s, pending := false } }) ∧
   (∀ s, s.drdy.state = .busy → s.drdy.causes = [] → s.drdy.since + 5000 ≤ glTime s →
     exec .drdyBusyMinimumEnd s = .next { s with drdy := { s.drdy with
       state := if s.drdy.pending then .after else .ready, since := glTime s } }) ∧
   (∀ s, s.drdy.state = .after → s.drdy.since + 500 ≤ glTime s → exec .postBusyAttention s =
     .next { s with drdy := { s.drdy with state := .pulse, since := glTime s, pending := false } }) ∧
   (∀ s, s.drdy.state ≠ .pulse → exec .attentionPulseEnd s = .next s) ∧
   (∀ s, s.drdy.state = .ready →
     (attention s).drdy.state = .pulse ∧ (attention s).drdy.since = glTime s))

/-- Host accesses: a BAR2 or HDM read of a good word answers its bytes and a write stores them, and
one that is not allowed is answered, counted and recorded for the partition (R343 to R345).
Registers: an 8 B read answers the register's value and clears its read-clear fields; in the debug
window's local store it answers the checked bytes; a read that is not aligned answers zeros; a
register that only stores keeps what its writable fields allow; and the mailbox's GO runs the
command it names (R4, R6, R89, R434). -/
def Obligations.host_access_results : Prop :=
  ((∀ fn off n s pa s1, bar2Served s fn off n = true → bar2Target s fn off false = (.pa pa, s1) →
     (∀ bs s2, readMem s1 pa n = (false, bs, s2) →
       exec (.bar2Read fn off n) s = .next { s2 with readData := 0 :: bs }) ∧
     (∀ bs s2, readMem s1 pa n = (true, bs, s2) → exec (.bar2Read fn off n) s = .next
       { pathFail s2 fn 0x0D pa false ((bar2Reg s fn).extractLsb' 0 20) with readData := [3] })) ∧
   (∀ fn off n s s1, bar2Served s fn off n = true → bar2Target s fn off false = (.off, s1) →
     exec (.bar2Read fn off n) s = .next
       { pathFail s1 fn 0 off false ((bar2Reg s fn).extractLsb' 0 20) with readData := [1] }) ∧
   (∀ fn off bs s pa s1, bar2Served s fn off bs.length = true →
     bar2Target s fn off true = (.pa pa, s1) →
     exec (.bar2Write fn off bs) s = .next (writeMem s1 pa bs)) ∧
   (∀ pa n s s1, hdmServed s pa n = true → hdmCheck s pa false = (true, s1) →
     ∀ bs s2, readMem s1 pa n = (false, bs, s2) →
       exec (.hdmRead pa n) s = .next { s2 with readData := 0 :: bs }) ∧
   (∀ pa n s s1, hdmServed s pa n = true → hdmCheck s pa false = (false, s1) →
     exec (.hdmRead pa n) s = .next
       { pathFail s1 (bits (reg s haHdmId) 32 7) 0x05 pa false 0 with readData := [3] }) ∧
   (∀ pa bs s s1, hdmServed s pa bs.length = true → hdmCheck s pa true = (true, s1) →
     exec (.hdmWrite pa bs) s = .next (writeMem s1 pa bs))) ∧
  ((∀ fn off s, powered s = true → fnReached s fn = true →
     (off % 8 = 0 → (fn ≠ 0 ∨ off < 0x2000000 ∨ dbgLocal s (off - 0x2000000) = none) →
       exec (.readClearRegister fn off) s = .next
         { clearRead s fn off with readData := leBytes 8 (regView s fn off) }) ∧
     (∀ r, off % 8 = 0 → fn = 0 → 0x2000000 ≤ off → dbgLocal s (off - 0x2000000) = some r →
       exec (.readClearRegister fn off) s = .next { r.2 with readData := r.1 }) ∧
     (off % 8 ≠ 0 → exec (.readClearRegister fn off) s = .next { s with readData := leBytes 8 0 })) ∧
   (∀ s r off, off = 0x50 → ring s r ≠ Ring.idle → tableWf Ring.idle s.rings = true →
     (ring (clearRing s r off) r).malf = 0 ∧ (ring (clearRing s r off) r).ovfev = 0 ∧
       (ring (clearRing s r off) r).prod = (ring s r).prod) ∧
   (∀ fn off v s, fn ≠ 0 ∨ off ≠ 0x0010000 →
     exec (.registerWrite fn off v) s = .next (regWrite s fn off v)) ∧
   (∀ v s, v.getLsbD 63 = true → bar0 s = true → s.boot.start = none →
     exec (.registerWrite 0 0x0010000 v) s =
       .next (mailboxRow (bits v 0 8) (regWrite s 0 0x0010000 v))) ∧
   (∀ row, MailboxRow row → ∀ s, exec row.1 s = .next (mailboxRow row.2.1 s)))

/-- Mailbox commands run while no START waits; their status and detail stand in MB_STAT. DISCARD
empties the staged slot, SETTINGS_READ copies the settings, a manifest that its checks accept is
staged, a settings blob is stored with the next generation, ATTEST writes its report, and what a
command finds out of place ends it with WRONG STATE and no effect (R434, R435, R437, R438, R446).
Starting an image: it waits for the zero-fill, and then takes service with the floor raised where
its manifest says so; a component that is not ready fails it. ACTIVATE does the same in service. The
security floor never falls by either; a staged image below the floor is refused (R439, R440, R442,
R447, R448). -/
def Obligations.mailbox_and_start_results : Prop :=
  ((∀ row, MailboxRow row → ∀ s, bar0 s = true → s.boot.start = none →
     exec row.1 s = .next (row.2.2 (setReg s 0x0010000 (BitVec.ofNat 64 row.2.1)))) ∧
   (∀ ready eeprom s, bar0 s = true → s.boot.start = none → exec (.start ready eeprom) s =
     .next (bootStart ready eeprom (setReg s 0x0010000 3))) ∧
   (∀ s s1, MailboxRuns s 4 s1 → romOrService s1 = true →
     exec .discard s = .next (mbDone (emptySlot s1) 0 0)) ∧
   (∀ s s1, MailboxRuns s 6 s1 → mbArg s1 0 + 8192 ≤ 2 ^ 26 → exec .settingsRead s =
     .next (mbDone (writeMem s1 (stageBase + mbArg s1 0) (settingsBlob s1)) 0 8192)) ∧
   (∀ s s1 m s2, MailboxRuns s 1 s1 → romOrService s1 = true → mbArg s1 0 % 64 = 0 →
     mbArg s1 0 + mbArg s1 1 ≤ 2 ^ 26 →
     readFirmware (emptySlot s1) (stageBase + mbArg s1 0) (mbArg s1 1) = (some m, s2) →
     (checkManifest m (mbArg s1 1) s2.boot.floor = 0 → exec .manifest s = .next
       (mbDone { s2 with boot := { s2.boot with staged := some m } } 0 (mfBlocks m))) ∧
     (checkManifest m (mbArg s1 1) s2.boot.floor ≠ 0 → exec .manifest s = .next
       (mbDone s2 (checkManifest m (mbArg s1 1) s2.boot.floor) 0))) ∧
   (∀ s s1 m, MailboxRuns s 2 s1 → 1 ≤ mbArg s1 1 → mbArg s1 1 ≤ 1024 → mbArg s1 2 % 65536 = 0 →
     romOrService s1 = true → s1.boot.staged = some m → mbArg s1 0 + mbArg s1 1 ≤ mfBlocks m →
     inStage (mbArg s1 2) (blocksLen m (mbArg s1 0) (mbArg s1 1)) = true → exec .blocks s =
       .next (takeBlocks s1 m (mbArg s1 0) (mbArg s1 2) (mbArg s1 1))) ∧
   (∀ s m b s1 n, readFirmware s (stageBase + b) (blockLen m n) = (none, s1) →
     ∀ k, takeBlocks s m n b (k + 1) = mbDone s1 0x0D n) ∧
   (∀ s m b bs s1 n, readFirmware s (stageBase + b) (blockLen m n) = (some bs, s1) → ∀ k,
     (Config.shake256 32 bs ≠ mfDigest m n → takeBlocks s m n b (k + 1) = mbDone s1 0x0C n) ∧
     (Config.shake256 32 bs = mfDigest m n →
       let s2 := writeMem s1 (slotBase s1.boot.slotA + 65536 * n) bs
       takeBlocks s m n b (k + 1) = takeBlocks { s2 with boot := { s2.boot with
         present := addBlock s2.boot.present n } } m (n + 1) (b + 65536) k)) ∧
   (∀ s s1 b s2, MailboxRuns s 7 s1 → romOrService s1 = true → mbArg s1 0 + 8192 ≤ 2 ^ 26 →
     readFirmware s1 (stageBase + mbArg s1 0) 8192 = (some b, s2) → blobGood b = true →
     mfField b 6 2 ≤ 510 → setfmtNow s2 = some (mfField b 4 2) →
     let gen := mfField (settingsBlob s2) 8 8 + 1
     exec .settingsWrite s =
       .next (mbDone { s2 with boot := { s2.boot with settings := sealBlob b gen } } 0 gen)) ∧
   (∀ s s1 key nonce n carder c ops o, MailboxRuns s 5 s1 → mbArg s1 0 % 64 = 0 →
     s1.boot.st = .service → mbArg s1 0 + 50272 ≤ 2 ^ 26 →
     Config.identity s1.boot.boots = some key →
     readFirmware s1 (stageBase + mbArg s1 0) 32 = (some nonce, n) →
     carderDigest n = (some carder, c) → operatorDigest c = (some ops, o) →
     let body := reportBody o key nonce carder ops
     exec .attest s = .next (mbDone (writeMem (takeFree o).2 (stageBase + mbArg s1 0)
       (body ++ fitBytes 49856 (Config.slhSign (takeFree o).1 body))) 0 50272)) ∧
   (∀ s s1, romOrService s1 = false →
     (MailboxRuns s 4 s1 → exec .discard s = .next (mbDone s1 0x04 0)) ∧
     (MailboxRuns s 1 s1 → exec .manifest s = .next (mbDone s1 0x04 0)))) ∧
  ((∀ s, powered s = true → s.boot.zeroFill = true → exec .zerofillComplete s =
     .next (finishStart { s with boot := { s.boot with zeroFill := false } })) ∧
   (∀ ready eeprom s s1 m, MailboxRuns s 3 s1 → mbArg s1 0 = 0 → s1.boot.st = .rom →
     s1.boot.staged = some m → mfBlocks m ≤ s1.boot.present.length →
     exec (.start ready eeprom) s = .next (beginStart s1 false ready eeprom m)) ∧
   (∀ s ret eeprom m s1, checkComps s (slotBase (s.boot.slotA != ret)) m = (true, s1) →
     beginStart s ret false eeprom m = startFails s1 ∧
     beginStart s ret true eeprom m = finishStart { s1 with boot := { s1.boot with
       st := .starting, gill := true, start := some (ret, eeprom) } }) ∧
   (∀ s ret eeprom m i s1, s.boot.start = some (ret, eeprom) → s.boot.zeroFill = false →
     s.err.fatal = false → startImage s ret = some m → applySettings s (mfSetfmt m) = (i, s1) →
     bar0 s1 = true → (raisesFloor s1 m = true → eeprom = true) →
     finishStart s = takeService (raiseFloor s1 m) ret m i) ∧
   (∀ s ret m i, (takeService s ret m i).boot.st = .service ∧
     (takeService s ret m i).boot.active = some m ∧
     (takeService s ret m i).boot.floor = s.boot.floor) ∧
   (∀ s m, s.boot.floor ≤ (raiseFloor s m).boot.floor ∧
     (mfRaise m = true → manifestSvn m ≤ (raiseFloor s m).boot.floor)) ∧
   (∀ ready eeprom s r e m, AqTurn s r 0x68 e → zeroField e 0x12 46 = true →
     s.boot.staged = some m → s.boot.st = .service → s.boot.start = none →
     mfBlocks m ≤ s.boot.present.length → entryField e 0x10 2 = manifestSvn m →
     (manifestSvn m < s.boot.floor →
       exec (.activate r ready eeprom) s = .next (aqEnds s s r e 0x0F 0)) ∧
     (s.boot.floor ≤ manifestSvn m → ∀ s1 s2, ready = true →
       recheckBlocks s (slotBase s.boot.slotA) m = (true, s1) →
       checkComps s1 (slotBase s.boot.slotA) m = (true, s2) →
       (raisesFloor (drdyBusy s2 .activate) m = true → eeprom = true) →
       exec (.activate r ready eeprom) s = .next (aqEnds s
         (drdyDone (activatePause (drdyBusy s2 .activate) m) .activate) r e 0 0))))

/-- Gill: a sample passes its channel's filter and its rules are evaluated; a rule fires, and
releases, once what it waits for has held for DUR, with its event and its action (R404, R406, R409).
Gill's inputs: a change of level is accepted, or only noted in CHATTER; an input active for HOLD is
STUCK; both end after 1 ms of quiet, each with its event. Gill's silence is recorded and told, and
so is its return (R26, R405, R409). The LOCK protects a TRIP rule from every later write; SMBus
reads and writes the same registers, and its wake with A5H boots a module that is in Standby (R408,
R482 to R484). -/
def Obligations.gill_results : Prop :=
  ((∀ c x s v s1, c < 8 → gillRuns s = true →
     let h := x.toInt :: (gillChannel s c).history.take 62
     filterSample s (bits (reg s (glCh c)) 30 2) (bits (reg s (glCh c)) 24 6)
       (gillChannel s c).value h = (v, s1) →
     exec (.gillSample c x) s = .next (evalRules (modGill s1 fun g => { g with
       channels := tset GillChannel.reset g.channels c
         { value := (BitVec.ofInt 16 v).toInt, raw := x.toInt, history := h } }) false c)) ∧
   (∀ s param last h, filterSample s 0 param last h = (h.headD 0, s)) ∧
   (∀ s (n : Nat) h last, 0 < n → n ≤ h.length → ((h.take n).foldl (· + ·) 0) % (n : Int) = 0 →
     filterSample s 1 n last h = (((h.take n).foldl (· + ·) 0) / (n : Int), s)) ∧
   (∀ i s, i < 32 → gillRuns s = true → ruleOn s i = true → ruleFired s i = false →
     ruleDue s i = true →
     let s1 := ruleEvent (setFired s i true) i true
     (ruleAction s i = 1 → exec (.gillRuleFire i) s = .next (gillWake s1)) ∧
     (ruleAction s i = 3 → s.sched.power ≠ .standby →
       exec (.gillRuleFire i) s = .next (tripStandby s1 i)) ∧
     (ruleAction s i ≠ 1 → ruleAction s i ≠ 3 → exec (.gillRuleFire i) s = .next s1)) ∧
   (∀ i s, i < 32 → gillRuns s = true → ruleOn s i = true → ruleFired s i = true →
     ruleDue s i = true → (ruleEvent (setFired s i false) i false).gill.wake = false →
     exec (.gillRuleRelease i) s = .next (ruleEvent (setFired s i false) i false)) ∧
   (∀ i s, ruleDue s i = true → ruleWaits s i = true)) ∧
  ((∀ d level s, d < 7 → gillRuns s = true → (gillInput s d).pin ≠ level →
     ((gillInput s d).chatter = false → exec (.gillInputChange d level) s =
       .next (acceptChange (setInput s d { gillInput s d with pin := level }) d)) ∧
     ((gillInput s d).chatter = true → exec (.gillInputChange d level) s =
       .next (setInput s d { gillInput s d with
         pin := level, pinTimes := glTime s :: (gillInput s d).pinTimes }))) ∧
   (∀ d s, (gillInput s d).level = true → (gillInput s d).stuck = false → gillRuns s = true →
     bits (reg s (glDin d)) 32 16 ≠ 0 →
     (gillInput s d).since + bits (reg s (glDin d)) 32 16 * 50000 ≤ glTime s →
     exec (.gillInputStuck d) s =
       .next (evalRules (inputEvent (setInput s d { gillInput s d with stuck := true }) d 3) true d)) ∧
   (∀ d s, (gillInput s d).stuck = true → (gillInput s d).level = false → gillRuns s = true →
     (gillInput s d).since + 50000 ≤ glTime s → exec (.gillStuckEnd d) s =
       .next (evalRules (inputEvent (setInput s d { gillInput s d with stuck := false }) d 4) true d)) ∧
   (∀ d s, (gillInput s d).chatter = true → gillRuns s = true →
     (gillInput s d).chatAt + 50000 ≤ glTime s → (gillInput s d).pinTimes = [] →
     (gillInput s d).pin = (gillInput s d).level → exec (.gillChatterEnd d) s =
       .next (inputEvent (setInput s d { gillInput s d with chatter := false, pinTimes := [] }) d 2)) ∧
   (∀ s, s.sched.silent = false → powered s = true →
     exec .gillSilent s = .next (post (recordError (bump (modGill (modSched s
       fun z => { z with silent := true }) fun g => { g with condAt := [] }) pwrStat 0 16 1)
       { code := 0x0D, unit := 0x12, inst := 0, part := none, status := 0, addr := 0, isVa := false
         ctx := 0, data0 := 0 }) (eqOf 0) 0x64 0 1 (BitVec.ofNat 64 s.sched.window))) ∧
   (∀ s, s.sched.silent = true → powered s = true → (∀ i < 32, ruleDig s i = false) →
     exec .gillReportsResume s = .next (post (modSched s fun z => { z with silent := false }) (eqOf 0)
       0x64 0 2 (BitVec.ofNat 64 s.sched.window)))) ∧
  ((∀ s, bar0 s = true → exec .gillLock s = .next (modGill s fun g => { g with lock := true })) ∧
   (∀ s i isA v, s.gill.lock = true → ruleAction s i = 3 → writeRule s i isA v = s) ∧
   (∀ s i v, s.gill.lock = true → bits v 60 3 = 3 → writeRule s i true v = s) ∧
   (∀ s, gillRuns s = true → exec .smbusStatus s = .next { s with readData :=
     [BitVec.ofNat 8 (smbusPower s + flagBit s.gill.tripped 3 + flagBit s.boot.gill 4)] }) ∧
   (∀ off s, gillRuns s = true → 0x8000 ≤ off → off < 0x9000 → off % 8 = 0 →
     exec (.smbusRead off) s = .next { s with readData := leBytes 8 (readGl s off) }) ∧
   (∀ off v s, gillRuns s = true → s.boot.gill = true → 0x8000 ≤ off → off < 0x9000 → off % 8 = 0 →
     exec (.smbusWrite off v) s = .next (writeGl s off v)) ∧
   (∀ s, s.sched.power = .standby → exec (.smbusWake 0xA5) s = .next (bootFromStandby s)) ∧
   (∀ v s, v ≠ 0xA5 → exec (.smbusWake v) s = .next s))

/-- Pairing: with a key that no pairing has used, and both PAIR frames, it moves to SYNCING, and to
PAIRED once the copy is acknowledged; a refused, unanswered or ended pairing completes its command
with the status, and the key loads and clears (R419, R420, R422, R430). Frames of the partner: one
that is not good is counted and says nothing; an acknowledgement moves the window on; a DELTA or
DATA frame in turn is applied while the pair mirrors (R412 to R415). What the twin unit does by
time: a heartbeat 10 us after the last, an acknowledgement that is due, unacknowledged frames again
after 4 us, TWIN_HB low after 25 us of its own silence; a pair whose partner is silent ends ALONE,
or takes over where it may, and announces the taken addresses again (R414, R423, R425, R426). -/
def Obligations.twin_results : Prop :=
  ((∀ s r e, AqTurn s r 0x69 e → entryField e 0x10 2 ≠ 0 → zeroField e 0x12 46 = true →
     s.twin.state = .unpaired → s.twin.pairAq = none → (ring s tmrRing).state = .run →
     pmapBoth s = false →
     (s.twin.used = true → exec (.twinPair r) s = .next (aqEnds s s r e 0x0C 0)) ∧
     (s.twin.used = false → s.twin.key ≠ none →
       let rnd : BitVec 32 := (takeFree s).1.setWidth 32
       let s1 := modTwin (takeFree s).2 fun t => { t with
         rnd := rnd, pairAq := some (r, e, fdTime s) }
       exec (.twinPair r) s = .next (aqHolds s
         (tryPair (flushItems (queueItem s1 0x05 (pairPayload s rnd) 0 0 0 0))) r e))) ∧
   (∀ s m aq, s.twin.pairAq = some aq → s.twin.mate = some m → s.twin.state = .unpaired →
     (pairStatus s m ≠ 0 → tryPair s = failPair s (pairStatus s m)) ∧
     (pairStatus s m = 0 → tryPair s = queueCopy (postTwin (modTwin s fun t => { t with
       state := .syncing, used := true, peer := mateWord m 0
       epoch := t.rnd ^^^ BitVec.ofNat 32 (beField m 0x0C 4) }) .syncing .unpaired))) ∧
   (∀ s, s.twin.state = .syncing → s.twin.copyEnd ≤ s.twin.ackIn → s.err.fatal = false →
     exec .twinSyncComplete s = .next (xptDone s (finishPair (postTwin
       (modTwin s fun t => { t with state := .paired }) .paired .syncing) 0))) ∧
   (∀ s r e t0, s.twin.pairAq = some (r, e, t0) → s.twin.state = .unpaired → s.err.fatal = false →
     t0 + entryField e 0x10 2 * 1500000 ≤ fdTime s →
     exec .twinPairTimeout s = .next (xptDone s (failPair s 0x0E))) ∧
   (∀ s r e, AqTurn s r 0x6A e → zeroField e 0x10 48 = true →
     (s.twin.state = .unpaired →
       exec (.twinUnpair r) s = .next (xptDone s (settleUnpair (aqEnds s s r e 0 0)))) ∧
     (s.twin.state = .syncing →
       exec (.twinUnpair r) s = .next (xptDone s (settleUnpair (aqEnds s s r e 0x04 0)))) ∧
     (s.twin.state = .alone → exec (.twinUnpair r) s =
       .next (xptDone s (settleUnpair (aqEnds s (endPair s .unpaired) r e 0 0)))) ∧
     (s.twin.state = .paired → s.twin.unpairAq = none →
       let s1 := modTwin s fun t => { t with unpairAq := some (r, e, fdTime s) }
       exec (.twinUnpair r) s = .next (xptDone s (settleUnpair (aqHolds s
         (flushItems (queueItem s1 0x06 (beBytes 8 Config.serial.toNat) 0 0 0 0)) r e))))) ∧
   (∀ s r e t0, s.twin.unpairAq = some (r, e, t0) →
     (t0 + 1500000 ≤ fdTime s → settleUnpair s = finishUnpair s) ∧
     (fdTime s < t0 + 1500000 → (∃ x, s.twin.items.head? = some x ∧ x.kind ≠ 0x06) →
       settleUnpair s = s)) ∧
   (∀ s, bar0 s = true → ∃ s', exec .twinKeyLoad s = .next s' ∧
     s'.twin.key = some (stagedKey s.twin.k256 s.twin.stage) ∧ s'.twin.stage = [0, 0, 0, 0] ∧
     s'.twin.used = false ∧ s'.twin.tx = 0 ∧ s'.twin.state = s.twin.state ∧ s'.rings = s.rings ∧
     s'.mem = s.mem) ∧
   (∀ s, bar0 s = true → s.twin.state = .unpaired → exec .twinKeyClr s =
     .next (modTwin s fun t => { t with key := none, stage := [0, 0, 0, 0] })) ∧
   (∀ s, s.twin.state ≠ .unpaired → exec .twinKeyClr s = .next s)) ∧
  ((∀ row, FrameRow row → row.2 ≠ 5 → ∀ bs badFec s, s.twin.link = true → powered s = true →
     s.err.fatal = false → (bs.getD 0 0).toNat = row.2 → twinGood s bs badFec = false →
     exec (row.1 bs badFec) s = .next (xptDone s (bump s twinStat 32 16 1))) ∧
   (∀ bs badFec s, exec (.twinHbFrame bs badFec) s = .next (xptDone s (recvTwin s 1 bs badFec).2) ∧
     exec (.twinAck bs badFec) s = .next (xptDone s (recvTwin s 4 bs badFec).2)) ∧
   (∀ s a, a ≤ s.twin.ackIn ∨ s.twin.txNext < a → takeTwinAck s a = s) ∧
   (∀ bs badFec s d s1, recvTwin s 2 bs badFec = (some d, s1) → mirroring s1 = true →
     exec (.twinDelta bs badFec) s =
       .next (xptDone s ((deltaEntries d 64).foldl applyEntry s1))) ∧
   (∀ bs badFec s d s1, recvTwin s 3 bs badFec = (some d, s1) → mirroring s1 = true →
     regionOf (beField d 0 8) = .lpddr ∨ regionOf (beField d 0 8) = .sram →
     exec (.twinData bs badFec) s = .next (xptDone s (writeMem s1 (beField d 0 8) (d.drop 8)))) ∧
   (∀ bs badFec s d s1, recvTwin s 5 bs badFec = (some d, s1) → s1.twin.state = .unpaired →
     exec (.twinPairFrame bs badFec) s =
       .next (xptDone s (tryPair (modTwin s1 fun t => { t with mate := some d })))) ∧
   (∀ bs badFec s d s1, recvTwin s 6 bs badFec = (some d, s1) → s1.twin.state = .paired →
     s1.twin.unpairAq = none → exec (.twinUnpairFrame bs badFec) s =
       .next (xptDone s (endPair ((standbyParts s1).foldl discardMirror s1) .unpaired)))) ∧
  ((∀ s, s.twin.link = false → portRuns s = true → exec .twinLinkTrained s =
     .next (modTwin s fun t => { t with
       link := true, hbAt := fdTime s, hbGill := glTime s, rxAt := fdTime s })) ∧
   (∀ s, twinSpeaks s = true → s.err.fatal = false → s.twin.hbAt + 15000 ≤ fdTime s →
     exec .twinHbSend s = .next (modTwin
       (sendTwin s 1 0 (List.replicate 7 0 ++ [BitVec.ofNat 8 (twinCode s.twin.state)]))
       fun t => { t with hbAt := fdTime s, hbGill := glTime s })) ∧
   (∀ s, twinSends s = true → s.err.fatal = false → s.twin.reported < s.twin.rxNext →
     s.twin.reportAt + 1500 ≤ fdTime s → exec .twinAckTimer s = .next (sendTwin s 4 0 [])) ∧
   (∀ s, twinSends s = true → s.err.fatal = false → s.twin.ackAt + 6000 ≤ fdTime s →
     s.twin.items.filter TwinItem.sent ≠ [] → exec .twinResend s = .next (modTwin
       (bump ((s.twin.items.filter TwinItem.sent).foldl sendItem s) twinStat 48 16
         (s.twin.items.filter TwinItem.sent).length) fun t => { t with ackAt := fdTime s })) ∧
   (∀ s, s.twin.hbLow = false → s.twin.hbGill + 1250 ≤ glTime s →
     ∃ s', exec .twinHbSilent s = .next s' ∧ s'.twin.hbLow = true ∧
       (s.twin.state = .paired → s'.twin.fenced = true) ∧ s'.mem = s.mem ∧ s'.rings = s.rings) ∧
   (∀ s, mirroring s = true → s.twin.hbLow = false → s.err.fatal = false →
     (hbGone s = true → twinQuiet s 20 = true →
       exec .twinFailureDetect s = .next (xptDone s (pairFails s true))) ∧
     (hbGone s = true → twinQuiet s 20 = false →
       exec .twinFailureDetect s = .next (post s (eqOf 0) 0x72 0 0 0)) ∧
     (hbGone s = false → twinQuiet s 50 = true →
       exec .twinFailureDetect s = .next (xptDone s (pairFails s false)))) ∧
   (∀ s, s.twin.state = .paired → s.twin.unpairAq = none →
     ((reg s twinCtl).getLsbD 0 = true → pairFails s true = takeover s) ∧
     pairFails s false = endPair s .alone) ∧
   (∀ s, s.twin.announces ≠ 0 → s.twin.state = .survivor → s.err.fatal = false →
     s.twin.annAt + (3 - s.twin.announces) * 1500000 ≤ fdTime s →
     exec .takeoverAnnounce s =
       .next (modTwin (announceAll s) fun t => { t with announces := t.announces - 1 })))
end

