-- ==== Sys2Proof/Laws/Dispatch.lean ====
section
/-! SUPPORT. What each command runs, and which instruction each command of an engine issues. -/

namespace Sys2Proof.Machine

@[simp] theorem engineInsn_add (t : Nat) (f) :
    engineInsn (.add t f) = some (t, insnR 0x01 0x00 true true true false false f) := rfl
@[simp] theorem engineInsn_sub (t : Nat) (f) :
    engineInsn (.sub t f) = some (t, insnR 0x01 0x01 true true true false false f) := rfl
@[simp] theorem engineInsn_and (t : Nat) (f) :
    engineInsn (.and t f) = some (t, insnR 0x01 0x02 true true true false false f) := rfl
@[simp] theorem engineInsn_or (t : Nat) (f) :
    engineInsn (.or t f) = some (t, insnR 0x01 0x03 true true true false false f) := rfl
@[simp] theorem engineInsn_xor (t : Nat) (f) :
    engineInsn (.xor t f) = some (t, insnR 0x01 0x04 true true true false false f) := rfl
@[simp] theorem engineInsn_shl (t : Nat) (f) :
    engineInsn (.shl t f) = some (t, insnR 0x01 0x05 true true true false false f) := rfl
@[simp] theorem engineInsn_shr (t : Nat) (f) :
    engineInsn (.shr t f) = some (t, insnR 0x01 0x06 true true true false false f) := rfl
@[simp] theorem engineInsn_sar (t : Nat) (f) :
    engineInsn (.sar t f) = some (t, insnR 0x01 0x07 true true true false false f) := rfl
@[simp] theorem engineInsn_min (t : Nat) (f) :
    engineInsn (.min t f) = some (t, insnR 0x01 0x08 true true true false false f) := rfl
@[simp] theorem engineInsn_max (t : Nat) (f) :
    engineInsn (.max t f) = some (t, insnR 0x01 0x09 true true true false false f) := rfl
@[simp] theorem engineInsn_minu (t : Nat) (f) :
    engineInsn (.minu t f) = some (t, insnR 0x01 0x0A true true true false false f) := rfl
@[simp] theorem engineInsn_maxu (t : Nat) (f) :
    engineInsn (.maxu t f) = some (t, insnR 0x01 0x0B true true true false false f) := rfl
@[simp] theorem engineInsn_slt (t : Nat) (f) :
    engineInsn (.slt t f) = some (t, insnR 0x01 0x0C true true true false false f) := rfl
@[simp] theorem engineInsn_sltu (t : Nat) (f) :
    engineInsn (.sltu t f) = some (t, insnR 0x01 0x0D true true true false false f) := rfl
@[simp] theorem engineInsn_popc (t : Nat) (f) :
    engineInsn (.popc t f) = some (t, insnR 0x01 0x0E true true false false false f) := rfl
@[simp] theorem engineInsn_clz (t : Nat) (f) :
    engineInsn (.clz t f) = some (t, insnR 0x01 0x0F true true false false false f) := rfl
@[simp] theorem engineInsn_ctz (t : Nat) (f) :
    engineInsn (.ctz t f) = some (t, insnR 0x01 0x10 true true false false false f) := rfl
@[simp] theorem engineInsn_addi (t : Nat) (f) :
    engineInsn (.addi t f) = some (t, insnI 0x02 0x00 .scalar true f) := rfl
@[simp] theorem engineInsn_subi (t : Nat) (f) :
    engineInsn (.subi t f) = some (t, insnI 0x02 0x01 .scalar true f) := rfl
@[simp] theorem engineInsn_andi (t : Nat) (f) :
    engineInsn (.andi t f) = some (t, insnI 0x02 0x02 .scalar true f) := rfl
@[simp] theorem engineInsn_ori (t : Nat) (f) :
    engineInsn (.ori t f) = some (t, insnI 0x02 0x03 .scalar true f) := rfl
@[simp] theorem engineInsn_xori (t : Nat) (f) :
    engineInsn (.xori t f) = some (t, insnI 0x02 0x04 .scalar true f) := rfl
@[simp] theorem engineInsn_shli (t : Nat) (f) :
    engineInsn (.shli t f) = some (t, orIllegal (insnI 0x02 0x05 .scalar true f) (decide (63 < f.imm.toNat))) := rfl
@[simp] theorem engineInsn_shri (t : Nat) (f) :
    engineInsn (.shri t f) = some (t, orIllegal (insnI 0x02 0x06 .scalar true f) (decide (63 < f.imm.toNat))) := rfl
@[simp] theorem engineInsn_sari (t : Nat) (f) :
    engineInsn (.sari t f) = some (t, orIllegal (insnI 0x02 0x07 .scalar true f) (decide (63 < f.imm.toNat))) := rfl
@[simp] theorem engineInsn_mini (t : Nat) (f) :
    engineInsn (.mini t f) = some (t, insnI 0x02 0x08 .scalar true f) := rfl
@[simp] theorem engineInsn_maxi (t : Nat) (f) :
    engineInsn (.maxi t f) = some (t, insnI 0x02 0x09 .scalar true f) := rfl
@[simp] theorem engineInsn_minui (t : Nat) (f) :
    engineInsn (.minui t f) = some (t, insnI 0x02 0x0A .scalar true f) := rfl
@[simp] theorem engineInsn_maxui (t : Nat) (f) :
    engineInsn (.maxui t f) = some (t, insnI 0x02 0x0B .scalar true f) := rfl
@[simp] theorem engineInsn_slti (t : Nat) (f) :
    engineInsn (.slti t f) = some (t, insnI 0x02 0x0C .scalar true f) := rfl
@[simp] theorem engineInsn_sltui (t : Nat) (f) :
    engineInsn (.sltui t f) = some (t, insnI 0x02 0x0D .scalar true f) := rfl
@[simp] theorem engineInsn_mul (t : Nat) (f) :
    engineInsn (.mul t f) = some (t, insnR 0x03 0x00 true true true false false f) := rfl
@[simp] theorem engineInsn_mulh (t : Nat) (f) :
    engineInsn (.mulh t f) = some (t, insnR 0x03 0x01 true true true false false f) := rfl
@[simp] theorem engineInsn_mulhu (t : Nat) (f) :
    engineInsn (.mulhu t f) = some (t, insnR 0x03 0x02 true true true false false f) := rfl
@[simp] theorem engineInsn_madd (t : Nat) (f) :
    engineInsn (.madd t f) = some (t, insnR 0x03 0x03 true true true true false f) := rfl
@[simp] theorem engineInsn_div (t : Nat) (f) :
    engineInsn (.div t f) = some (t, insnR 0x03 0x04 true true true false false f) := rfl
@[simp] theorem engineInsn_divu (t : Nat) (f) :
    engineInsn (.divu t f) = some (t, insnR 0x03 0x05 true true true false false f) := rfl
@[simp] theorem engineInsn_rem (t : Nat) (f) :
    engineInsn (.rem t f) = some (t, insnR 0x03 0x06 true true true false false f) := rfl
@[simp] theorem engineInsn_remu (t : Nat) (f) :
    engineInsn (.remu t f) = some (t, insnR 0x03 0x07 true true true false false f) := rfl
@[simp] theorem engineInsn_movi (t : Nat) (f) :
    engineInsn (.movi t f) = some (t, insnW 0x04 0x00 f) := rfl
@[simp] theorem engineInsn_movh (t : Nat) (f) :
    engineInsn (.movh t f) = some (t, orIllegal (insnW 0x04 0x01 f) (f.imm.extractLsb' 21 22 != 0)) := rfl
@[simp] theorem engineInsn_cmpEq (t : Nat) (f) :
    engineInsn (.cmpEq t f) = some (t, insnR 0x05 0x00 true true true false true f) := rfl
@[simp] theorem engineInsn_cmpNe (t : Nat) (f) :
    engineInsn (.cmpNe t f) = some (t, insnR 0x05 0x01 true true true false true f) := rfl
@[simp] theorem engineInsn_cmpLt (t : Nat) (f) :
    engineInsn (.cmpLt t f) = some (t, insnR 0x05 0x02 true true true false true f) := rfl
@[simp] theorem engineInsn_cmpGe (t : Nat) (f) :
    engineInsn (.cmpGe t f) = some (t, insnR 0x05 0x03 true true true false true f) := rfl
@[simp] theorem engineInsn_cmpLtu (t : Nat) (f) :
    engineInsn (.cmpLtu t f) = some (t, insnR 0x05 0x04 true true true false true f) := rfl
@[simp] theorem engineInsn_cmpGeu (t : Nat) (f) :
    engineInsn (.cmpGeu t f) = some (t, insnR 0x05 0x05 true true true false true f) := rfl
@[simp] theorem engineInsn_cmpiEq (t : Nat) (f) :
    engineInsn (.cmpiEq t f) = some (t, insnI 0x05 0x10 .predicate true f) := rfl
@[simp] theorem engineInsn_cmpiNe (t : Nat) (f) :
    engineInsn (.cmpiNe t f) = some (t, insnI 0x05 0x11 .predicate true f) := rfl
@[simp] theorem engineInsn_cmpiLt (t : Nat) (f) :
    engineInsn (.cmpiLt t f) = some (t, insnI 0x05 0x12 .predicate true f) := rfl
@[simp] theorem engineInsn_cmpiGe (t : Nat) (f) :
    engineInsn (.cmpiGe t f) = some (t, insnI 0x05 0x13 .predicate true f) := rfl
@[simp] theorem engineInsn_cmpiLtu (t : Nat) (f) :
    engineInsn (.cmpiLtu t f) = some (t, insnI 0x05 0x14 .predicate true f) := rfl
@[simp] theorem engineInsn_cmpiGeu (t : Nat) (f) :
    engineInsn (.cmpiGeu t f) = some (t, insnI 0x05 0x15 .predicate true f) := rfl
@[simp] theorem engineInsn_beq (t : Nat) (f) :
    engineInsn (.beq t f) = some (t, insnB 0x08 0x00 true true f) := rfl
@[simp] theorem engineInsn_bne (t : Nat) (f) :
    engineInsn (.bne t f) = some (t, insnB 0x08 0x01 true true f) := rfl
@[simp] theorem engineInsn_blt (t : Nat) (f) :
    engineInsn (.blt t f) = some (t, insnB 0x08 0x02 true true f) := rfl
@[simp] theorem engineInsn_bge (t : Nat) (f) :
    engineInsn (.bge t f) = some (t, insnB 0x08 0x03 true true f) := rfl
@[simp] theorem engineInsn_bltu (t : Nat) (f) :
    engineInsn (.bltu t f) = some (t, insnB 0x08 0x04 true true f) := rfl
@[simp] theorem engineInsn_bgeu (t : Nat) (f) :
    engineInsn (.bgeu t f) = some (t, insnB 0x08 0x05 true true f) := rfl
@[simp] theorem engineInsn_br (t : Nat) (f) :
    engineInsn (.br t f) = some (t, insnB 0x09 0x00 false false f) := rfl
@[simp] theorem engineInsn_jal (t : Nat) (f) :
    engineInsn (.jal t f) = some (t, insnB 0x09 0x01 true false f) := rfl
@[simp] theorem engineInsn_jr (t : Nat) (f) :
    engineInsn (.jr t f) = some (t, insnB 0x09 0x02 true false f) := rfl
@[simp] theorem engineInsn_jalr (t : Nat) (f) :
    engineInsn (.jalr t f) = some (t, insnB 0x09 0x03 true true f) := rfl
@[simp] theorem engineInsn_ldB (t : Nat) (f) :
    engineInsn (.ldB t f) = some (t, insnI 0x0C 0x00 .scalar true f) := rfl
@[simp] theorem engineInsn_ldH (t : Nat) (f) :
    engineInsn (.ldH t f) = some (t, insnI 0x0C 0x01 .scalar true f) := rfl
@[simp] theorem engineInsn_ldW (t : Nat) (f) :
    engineInsn (.ldW t f) = some (t, insnI 0x0C 0x02 .scalar true f) := rfl
@[simp] theorem engineInsn_ldD (t : Nat) (f) :
    engineInsn (.ldD t f) = some (t, insnI 0x0C 0x03 .scalar true f) := rfl
@[simp] theorem engineInsn_ldBu (t : Nat) (f) :
    engineInsn (.ldBu t f) = some (t, insnI 0x0C 0x04 .scalar true f) := rfl
@[simp] theorem engineInsn_ldHu (t : Nat) (f) :
    engineInsn (.ldHu t f) = some (t, insnI 0x0C 0x05 .scalar true f) := rfl
@[simp] theorem engineInsn_ldWu (t : Nat) (f) :
    engineInsn (.ldWu t f) = some (t, insnI 0x0C 0x06 .scalar true f) := rfl
@[simp] theorem engineInsn_ldV (t : Nat) (f) :
    engineInsn (.ldV t f) = some (t, insnI 0x0C 0x07 .vector true f) := rfl
@[simp] theorem engineInsn_stB (t : Nat) (f) :
    engineInsn (.stB t f) = some (t, insnI 0x0D 0x00 .scalar true f) := rfl
@[simp] theorem engineInsn_stH (t : Nat) (f) :
    engineInsn (.stH t f) = some (t, insnI 0x0D 0x01 .scalar true f) := rfl
@[simp] theorem engineInsn_stW (t : Nat) (f) :
    engineInsn (.stW t f) = some (t, insnI 0x0D 0x02 .scalar true f) := rfl
@[simp] theorem engineInsn_stD (t : Nat) (f) :
    engineInsn (.stD t f) = some (t, insnI 0x0D 0x03 .scalar true f) := rfl
@[simp] theorem engineInsn_stV (t : Nat) (f) :
    engineInsn (.stV t f) = some (t, insnI 0x0D 0x07 .vector true f) := rfl
@[simp] theorem engineInsn_ldgB (t : Nat) (f) :
    engineInsn (.ldgB t f) = some (t, insnI 0x0E 0x00 .scalar true f) := rfl
@[simp] theorem engineInsn_ldgH (t : Nat) (f) :
    engineInsn (.ldgH t f) = some (t, insnI 0x0E 0x01 .scalar true f) := rfl
@[simp] theorem engineInsn_ldgW (t : Nat) (f) :
    engineInsn (.ldgW t f) = some (t, insnI 0x0E 0x02 .scalar true f) := rfl
@[simp] theorem engineInsn_ldgD (t : Nat) (f) :
    engineInsn (.ldgD t f) = some (t, insnI 0x0E 0x03 .scalar true f) := rfl
@[simp] theorem engineInsn_ldgBu (t : Nat) (f) :
    engineInsn (.ldgBu t f) = some (t, insnI 0x0E 0x04 .scalar true f) := rfl
@[simp] theorem engineInsn_ldgHu (t : Nat) (f) :
    engineInsn (.ldgHu t f) = some (t, insnI 0x0E 0x05 .scalar true f) := rfl
@[simp] theorem engineInsn_ldgWu (t : Nat) (f) :
    engineInsn (.ldgWu t f) = some (t, insnI 0x0E 0x06 .scalar true f) := rfl
@[simp] theorem engineInsn_ldgV (t : Nat) (f) :
    engineInsn (.ldgV t f) = some (t, insnI 0x0E 0x07 .vector true f) := rfl
@[simp] theorem engineInsn_stgB (t : Nat) (f) :
    engineInsn (.stgB t f) = some (t, insnI 0x0F 0x00 .scalar true f) := rfl
@[simp] theorem engineInsn_stgH (t : Nat) (f) :
    engineInsn (.stgH t f) = some (t, insnI 0x0F 0x01 .scalar true f) := rfl
@[simp] theorem engineInsn_stgW (t : Nat) (f) :
    engineInsn (.stgW t f) = some (t, insnI 0x0F 0x02 .scalar true f) := rfl
@[simp] theorem engineInsn_stgD (t : Nat) (f) :
    engineInsn (.stgD t f) = some (t, insnI 0x0F 0x03 .scalar true f) := rfl
@[simp] theorem engineInsn_stgV (t : Nat) (f) :
    engineInsn (.stgV t f) = some (t, insnI 0x0F 0x07 .vector true f) := rfl
@[simp] theorem engineInsn_mvpost (t : Nat) (f) :
    engineInsn (.mvpost t f) = some (t, insnR 0x10 0x00 true true false false false f) := rfl
@[simp] theorem engineInsn_mvslots (t : Nat) (f) :
    engineInsn (.mvslots t f) = some (t, insnR 0x10 0x01 true false false false false f) := rfl
@[simp] theorem engineInsn_vaddInt (t : Nat) (f) :
    engineInsn (.vaddInt t f) = some (t, insnV 0x14 0x00 { vd := true, va := true, vb := true } fmtsAdd [] .lanes false false
      false f) := rfl
@[simp] theorem engineInsn_vsubInt (t : Nat) (f) :
    engineInsn (.vsubInt t f) = some (t, insnV 0x14 0x01 { vd := true, va := true, vb := true } fmtsAdd [] .lanes false false
      false f) := rfl
@[simp] theorem engineInsn_vmulInt (t : Nat) (f) :
    engineInsn (.vmulInt t f) = some (t, insnV 0x14 0x02 { vd := true, va := true, vb := true } fmtsInt [] .lanes false false
      false f) := rfl
@[simp] theorem engineInsn_vadds (t : Nat) (f) :
    engineInsn (.vadds t f) = some (t, insnV 0x14 0x03 { vd := true, va := true, vb := true } fmtsInt [] .lanes false false
      false f) := rfl
@[simp] theorem engineInsn_vsubs (t : Nat) (f) :
    engineInsn (.vsubs t f) = some (t, insnV 0x14 0x04 { vd := true, va := true, vb := true } fmtsInt [] .lanes false false
      false f) := rfl
@[simp] theorem engineInsn_vminInt (t : Nat) (f) :
    engineInsn (.vminInt t f) = some (t, insnV 0x14 0x05 { vd := true, va := true, vb := true } fmtsInt [] .lanes false false
      false f) := rfl
@[simp] theorem engineInsn_vmaxInt (t : Nat) (f) :
    engineInsn (.vmaxInt t f) = some (t, insnV 0x14 0x06 { vd := true, va := true, vb := true } fmtsInt [] .lanes false false
      false f) := rfl
@[simp] theorem engineInsn_vand (t : Nat) (f) :
    engineInsn (.vand t f) = some (t, insnV 0x14 0x07 { vd := true, va := true, vb := true } fmtsInt [] .lanes false false
      false f) := rfl
@[simp] theorem engineInsn_vor (t : Nat) (f) :
    engineInsn (.vor t f) = some (t, insnV 0x14 0x08 { vd := true, va := true, vb := true } fmtsInt [] .lanes false false
      false f) := rfl
@[simp] theorem engineInsn_vxor (t : Nat) (f) :
    engineInsn (.vxor t f) = some (t, insnV 0x14 0x09 { vd := true, va := true, vb := true } fmtsInt [] .lanes false false
      false f) := rfl
@[simp] theorem engineInsn_vshl (t : Nat) (f) :
    engineInsn (.vshl t f) = some (t, insnV 0x14 0x0A { vd := true, va := true, vb := true } fmtsInt [] .lanes false false
      false f) := rfl
@[simp] theorem engineInsn_vshr (t : Nat) (f) :
    engineInsn (.vshr t f) = some (t, insnV 0x14 0x0B { vd := true, va := true, vb := true } fmtsInt [] .lanes false false
      false f) := rfl
@[simp] theorem engineInsn_vsar (t : Nat) (f) :
    engineInsn (.vsar t f) = some (t, insnV 0x14 0x0C { vd := true, va := true, vb := true } fmtsInt [] .lanes false false
      false f) := rfl
@[simp] theorem engineInsn_vmov (t : Nat) (f) :
    engineInsn (.vmov t f) = some (t, insnV 0x14 0x0D { vd := true, va := true } fmtsInt [] .lanes false false false f) := rfl
@[simp] theorem engineInsn_vsel (t : Nat) (f) :
    engineInsn (.vsel t f) = some (t, insnV 0x14 0x0E { vd := true, va := true, vb := true, pd := true } fmtsInt [] .lanes
      false false false f) := rfl
@[simp] theorem engineInsn_vaddFp (t : Nat) (f) :
    engineInsn (.vaddFp t f) = some (t, insnV 0x15 0x00 { vd := true, va := true, vb := true } fmtsFp [] .lanes false false
      false f) := rfl
@[simp] theorem engineInsn_vsubFp (t : Nat) (f) :
    engineInsn (.vsubFp t f) = some (t, insnV 0x15 0x01 { vd := true, va := true, vb := true } fmtsFp [] .lanes false false
      false f) := rfl
@[simp] theorem engineInsn_vmulFp (t : Nat) (f) :
    engineInsn (.vmulFp t f) = some (t, insnV 0x15 0x02 { vd := true, va := true, vb := true } fmtsFp [] .lanes false false
      false f) := rfl
@[simp] theorem engineInsn_vfma (t : Nat) (f) :
    engineInsn (.vfma t f) = some (t, insnV 0x15 0x03 { vd := true, va := true, vb := true, vc := true } fmtsFp [] .lanes
      false false false f) := rfl
@[simp] theorem engineInsn_vfms (t : Nat) (f) :
    engineInsn (.vfms t f) = some (t, insnV 0x15 0x04 { vd := true, va := true, vb := true, vc := true } fmtsFp [] .lanes
      false false false f) := rfl
@[simp] theorem engineInsn_vminFp (t : Nat) (f) :
    engineInsn (.vminFp t f) = some (t, insnV 0x15 0x05 { vd := true, va := true, vb := true } fmtsFp [] .lanes false false
      false f) := rfl
@[simp] theorem engineInsn_vmaxFp (t : Nat) (f) :
    engineInsn (.vmaxFp t f) = some (t, insnV 0x15 0x06 { vd := true, va := true, vb := true } fmtsFp [] .lanes false false
      false f) := rfl
@[simp] theorem engineInsn_vabs (t : Nat) (f) :
    engineInsn (.vabs t f) = some (t, insnV 0x15 0x07 { vd := true, va := true } fmtsFp [] .lanes false false false f) := rfl
@[simp] theorem engineInsn_vneg (t : Nat) (f) :
    engineInsn (.vneg t f) = some (t, insnV 0x15 0x08 { vd := true, va := true } fmtsFp [] .lanes false false false f) := rfl
@[simp] theorem engineInsn_vdiv (t : Nat) (f) :
    engineInsn (.vdiv t f) = some (t, insnV 0x15 0x09 { vd := true, va := true, vb := true } fmtsFp [] .lanes false false
      false f) := rfl
@[simp] theorem engineInsn_vsqrt (t : Nat) (f) :
    engineInsn (.vsqrt t f) = some (t, insnV 0x15 0x0A { vd := true, va := true } fmtsFp [] .lanes false false false f) := rfl
@[simp] theorem engineInsn_vrsqrt (t : Nat) (f) :
    engineInsn (.vrsqrt t f) = some (t, insnV 0x15 0x0B { vd := true, va := true } fmtsFp [] .lanes false false false f) := rfl
@[simp] theorem engineInsn_vexp2 (t : Nat) (f) :
    engineInsn (.vexp2 t f) = some (t, insnV 0x15 0x0C { vd := true, va := true } fmtsFp [] .lanes false false false f) := rfl
@[simp] theorem engineInsn_vcvt (t : Nat) (f) :
    engineInsn (.vcvt t f) = some (t, insnV 0x16 0x00 { vd := true, va := true } fmtsAll fmtsAll .lanes (decide
      (laneGroups (vFmt f) (vFmt2 f) ≤ f.imm.toNat)) false false f) := rfl
@[simp] theorem engineInsn_vqmx (t : Nat) (f) :
    engineInsn (.vqmx t f) = some (t, insnV 0x16 0x01 { vd := true, va := true } fmtsFp fmtsMx (.bit 0) ((f.fmt == 0) &&
      f.va.getLsbD 0) (f.fmt == 0) false f) := rfl
@[simp] theorem engineInsn_vdqmx (t : Nat) (f) :
    engineInsn (.vdqmx t f) = some (t, insnV 0x16 0x02 { vd := true, va := true } fmtsMx [.fp32] (.bit 0) (f.vd.getLsbD 0)
      false true f) := rfl
@[simp] theorem engineInsn_vfoir (t : Nat) (f) :
    engineInsn (.vfoir t f) = some (t, insnV 0x16 0x03 { vd := true, va := true, rs := true } fmtsFp fmtsFoir .lanes
      (decide (laneGroups (vFmt f) (vFmt2 f) ≤ f.imm.toNat)) false false f) := rfl
@[simp] theorem engineInsn_vufoir (t : Nat) (f) :
    engineInsn (.vufoir t f) = some (t, insnV 0x16 0x04 { vd := true, va := true, rs := true } fmtsFoir fmtsFp .lanes
      (decide (laneGroups (vFmt f) (vFmt2 f) ≤ f.imm.toNat)) false false f) := rfl
@[simp] theorem engineInsn_vemax (t : Nat) (f) :
    engineInsn (.vemax t f) = some (t, insnV 0x16 0x05 { va := true, rs := true } fmtsFp [] .lanes false false false f) := rfl
@[simp] theorem engineInsn_vbcast (t : Nat) (f) :
    engineInsn (.vbcast t f) = some (t, insnV 0x17 0x00 { vd := true, rs := true } fmtsAll [] .lanes false false false f) := rfl
@[simp] theorem engineInsn_vext (t : Nat) (f) :
    engineInsn (.vext t f) = some (t, insnV 0x17 0x01 { va := true, rs := true } fmtsAll [] (.bit f.imm.toNat)
        (decide (fmtLanes (vFmt f) ≤ f.imm.toNat)) false false f) := rfl
@[simp] theorem engineInsn_vins (t : Nat) (f) :
    engineInsn (.vins t f) = some (t, insnV 0x17 0x02 { vd := true, rs := true } fmtsAll [] (.bit f.imm.toNat)
        (decide (fmtLanes (vFmt f) ≤ f.imm.toNat)) false false f) := rfl
@[simp] theorem engineInsn_vperm (t : Nat) (f) :
    engineInsn (.vperm t f) = some (t, insnV 0x17 0x03 { vd := true, va := true, vb := true } fmtsAll [] .lanes false false
      false f) := rfl
@[simp] theorem engineInsn_vrot (t : Nat) (f) :
    engineInsn (.vrot t f) = some (t, insnV 0x17 0x04 { vd := true, va := true } fmtsAll [] .lanes false false false f) := rfl
@[simp] theorem engineInsn_vredsum (t : Nat) (f) :
    engineInsn (.vredsum t f) = some (t, insnV 0x17 0x05 { vd := true, va := true } fmtsAll [] .lanes false false false f) := rfl
@[simp] theorem engineInsn_vredmax (t : Nat) (f) :
    engineInsn (.vredmax t f) = some (t, insnV 0x17 0x06 { vd := true, va := true } fmtsAll [] .lanes false false false f) := rfl
@[simp] theorem engineInsn_vredmin (t : Nat) (f) :
    engineInsn (.vredmin t f) = some (t, insnV 0x17 0x07 { vd := true, va := true } fmtsAll [] .lanes false false false f) := rfl
@[simp] theorem engineInsn_vcmpEq (t : Nat) (f) :
    engineInsn (.vcmpEq t f) = some (t, insnV 0x18 0x00 { va := true, vb := true, pd := true } fmtsAll [] .lanes false false
      false f) := rfl
@[simp] theorem engineInsn_vcmpNe (t : Nat) (f) :
    engineInsn (.vcmpNe t f) = some (t, insnV 0x18 0x01 { va := true, vb := true, pd := true } fmtsAll [] .lanes false false
      false f) := rfl
@[simp] theorem engineInsn_vcmpLt (t : Nat) (f) :
    engineInsn (.vcmpLt t f) = some (t, insnV 0x18 0x02 { va := true, vb := true, pd := true } fmtsAll [] .lanes false false
      false f) := rfl
@[simp] theorem engineInsn_vcmpLe (t : Nat) (f) :
    engineInsn (.vcmpLe t f) = some (t, insnV 0x18 0x03 { va := true, vb := true, pd := true } fmtsAll [] .lanes false false
      false f) := rfl
@[simp] theorem engineInsn_vcmpGt (t : Nat) (f) :
    engineInsn (.vcmpGt t f) = some (t, insnV 0x18 0x04 { va := true, vb := true, pd := true } fmtsAll [] .lanes false false
      false f) := rfl
@[simp] theorem engineInsn_vcmpGe (t : Nat) (f) :
    engineInsn (.vcmpGe t f) = some (t, insnV 0x18 0x05 { va := true, vb := true, pd := true } fmtsAll [] .lanes false false
      false f) := rfl
@[simp] theorem engineInsn_pand (t : Nat) (f) :
    engineInsn (.pand t f) = some (t, insnP 0x00 true true true false false f) := rfl
@[simp] theorem engineInsn_por (t : Nat) (f) :
    engineInsn (.por t f) = some (t, insnP 0x01 true true true false false f) := rfl
@[simp] theorem engineInsn_pxor (t : Nat) (f) :
    engineInsn (.pxor t f) = some (t, insnP 0x02 true true true false false f) := rfl
@[simp] theorem engineInsn_pandn (t : Nat) (f) :
    engineInsn (.pandn t f) = some (t, insnP 0x03 true true true false false f) := rfl
@[simp] theorem engineInsn_pnot (t : Nat) (f) :
    engineInsn (.pnot t f) = some (t, insnP 0x04 true true false false false f) := rfl
@[simp] theorem engineInsn_pmov (t : Nat) (f) :
    engineInsn (.pmov t f) = some (t, insnP 0x05 true false false false true f) := rfl
@[simp] theorem engineInsn_pget (t : Nat) (f) :
    engineInsn (.pget t f) = some (t, insnP 0x06 false true false true false f) := rfl
@[simp] theorem engineInsn_ppopc (t : Nat) (f) :
    engineInsn (.ppopc t f) = some (t, insnP 0x07 false true false true false f) := rfl
@[simp] theorem engineInsn_pfirst (t : Nat) (f) :
    engineInsn (.pfirst t f) = some (t, insnP 0x08 false true false true false f) := rfl
@[simp] theorem engineInsn_vcmpr (t : Nat) (f) :
    engineInsn (.vcmpr t f) = some (t, insnV 0x1D 0x00 { vd := true, va := true, pd := true } fmtsAll [] .lanes false false
      false f) := rfl
@[simp] theorem engineInsn_vexpd (t : Nat) (f) :
    engineInsn (.vexpd t f) = some (t, insnV 0x1D 0x01 { vd := true, va := true, pd := true } fmtsAll [] .lanes false false
      false f) := rfl
@[simp] theorem engineInsn_vbspk (t : Nat) (f) :
    engineInsn (.vbspk t f) = some (t, insnV 0x1D 0x02 { vd := true, rs := true } fmtsMx [] (.bit 0) false false false f) := rfl
@[simp] theorem engineInsn_vbsup (t : Nat) (f) :
    engineInsn (.vbsup t f) = some (t, insnV 0x1D 0x03 { vd := true, rs := true } fmtsMx [] (.bit 0) false false false f) := rfl
@[simp] theorem engineInsn_tmma (t : Nat) (f) :
    engineInsn (.tmma t f) = some (t, insnT 0x20 0x00 (pairOk (fmtOfCode f.fmtA) (fmtOfCode f.fmtB) && f.rnd == 0) true
      true false f) := rfl
@[simp] theorem engineInsn_tmmaS24 (t : Nat) (f) :
    engineInsn (.tmmaS24 t f) = some (t, insnT 0x20 0x01 (pairOk (fmtOfCode f.fmtA) (fmtOfCode f.fmtB) && f.rnd == 0) true
      true true f) := rfl
@[simp] theorem engineInsn_tmmaS48 (t : Nat) (f) :
    engineInsn (.tmmaS48 t f) = some (t, insnT 0x20 0x02 (pairOk (fmtOfCode f.fmtA) (fmtOfCode f.fmtB) && f.rnd == 0) true
      true true f) := rfl
@[simp] theorem engineInsn_tmmak (t : Nat) (f) :
    engineInsn (.tmmak t f) = some (t, insnT 0x20 0x03 (pairOk (fmtOfCode f.fmtA) (fmtOfCode f.fmtB) && f.rnd == 0) true
      true true f) := rfl
@[simp] theorem engineInsn_talloc (t : Nat) (f) :
    engineInsn (.talloc t f) = some (t, insnT 0x21 0x00 (accFieldsZero f) true false false f) := rfl
@[simp] theorem engineInsn_tfree (t : Nat) (f) :
    engineInsn (.tfree t f) = some (t, insnT 0x21 0x01 (accFieldsZero f) false false false f) := rfl
@[simp] theorem engineInsn_tzero (t : Nat) (f) :
    engineInsn (.tzero t f) = some (t, insnT 0x21 0x02 (accFieldsZero f) false false false f) := rfl
@[simp] theorem engineInsn_tld (t : Nat) (f) :
    engineInsn (.tld t f) = some (t, insnT 0x21 0x03 (tileOk .tileLoad fmtsFp f) true false false f) := rfl
@[simp] theorem engineInsn_tst (t : Nat) (f) :
    engineInsn (.tst t f) = some (t, insnT 0x21 0x04 (tileOk .tileStore (fmtsFp ++ fmtsMx) f) true false false f) := rfl
@[simp] theorem engineInsn_sig (t : Nat) (f) :
    engineInsn (.sig t f) = some (t, insnS 0x28 0x00 false true true false f) := rfl
@[simp] theorem engineInsn_waitGe (t : Nat) (f) :
    engineInsn (.waitGe t f) = some (t, insnS 0x28 0x01 true true true true f) := rfl
@[simp] theorem engineInsn_take (t : Nat) (f) :
    engineInsn (.take t f) = some (t, insnS 0x28 0x02 true true false true f) := rfl
@[simp] theorem engineInsn_sread (t : Nat) (f) :
    engineInsn (.sread t f) = some (t, insnS 0x28 0x03 true true false false f) := rfl
@[simp] theorem engineInsn_fenceC (t : Nat) (f) :
    engineInsn (.fenceC t f) = some (t, insnS 0x29 0x00 false false false false f) := rfl
@[simp] theorem engineInsn_fenceD (t : Nat) (f) :
    engineInsn (.fenceD t f) = some (t, insnS 0x29 0x01 false false false false f) := rfl
@[simp] theorem engineInsn_fenceP (t : Nat) (f) :
    engineInsn (.fenceP t f) = some (t, insnS 0x29 0x02 false false false false f) := rfl
@[simp] theorem engineInsn_fenceN (t : Nat) (f) :
    engineInsn (.fenceN t f) = some (t, insnS 0x29 0x03 true false false false f) := rfl
@[simp] theorem engineInsn_nopInsn (t : Nat) (f) :
    engineInsn (.nopInsn t f) = some (t, insnI 0x30 0x00 .none false f) := rfl
@[simp] theorem engineInsn_end_ (t : Nat) (f) :
    engineInsn (.end_ t f) = some (t, insnI 0x30 0x01 .none false f) := rfl
@[simp] theorem engineInsn_trap (t : Nat) (f) :
    engineInsn (.trap t f) = some (t, insnI 0x30 0x02 .none false f) := rfl
@[simp] theorem engineInsn_brk (t : Nat) (f) :
    engineInsn (.brk t f) = some (t, insnI 0x30 0x03 .none false f) := rfl
@[simp] theorem engineInsn_mfs (t : Nat) (f) :
    engineInsn (.mfs t f) = some (t, orIllegal (insnI 0x30 0x04 .scalar false f) (decide (7 < f.imm.toNat))) := rfl

@[simp] theorem exec_add (t : Nat) (f : RForm) (s : State) :
    exec (.add t f) s = execAdd t f s := rfl
@[simp] theorem exec_sub (t : Nat) (f : RForm) (s : State) :
    exec (.sub t f) s = execSub t f s := rfl
@[simp] theorem exec_and (t : Nat) (f : RForm) (s : State) :
    exec (.and t f) s = execAnd t f s := rfl
@[simp] theorem exec_or (t : Nat) (f : RForm) (s : State) :
    exec (.or t f) s = execOr t f s := rfl
@[simp] theorem exec_xor (t : Nat) (f : RForm) (s : State) :
    exec (.xor t f) s = execXor t f s := rfl
@[simp] theorem exec_shl (t : Nat) (f : RForm) (s : State) :
    exec (.shl t f) s = execShl t f s := rfl
@[simp] theorem exec_shr (t : Nat) (f : RForm) (s : State) :
    exec (.shr t f) s = execShr t f s := rfl
@[simp] theorem exec_sar (t : Nat) (f : RForm) (s : State) :
    exec (.sar t f) s = execSar t f s := rfl
@[simp] theorem exec_min (t : Nat) (f : RForm) (s : State) :
    exec (.min t f) s = execMin t f s := rfl
@[simp] theorem exec_max (t : Nat) (f : RForm) (s : State) :
    exec (.max t f) s = execMax t f s := rfl
@[simp] theorem exec_minu (t : Nat) (f : RForm) (s : State) :
    exec (.minu t f) s = execMinu t f s := rfl
@[simp] theorem exec_maxu (t : Nat) (f : RForm) (s : State) :
    exec (.maxu t f) s = execMaxu t f s := rfl
@[simp] theorem exec_slt (t : Nat) (f : RForm) (s : State) :
    exec (.slt t f) s = execSlt t f s := rfl
@[simp] theorem exec_sltu (t : Nat) (f : RForm) (s : State) :
    exec (.sltu t f) s = execSltu t f s := rfl
@[simp] theorem exec_popc (t : Nat) (f : RForm) (s : State) :
    exec (.popc t f) s = execPopc t f s := rfl
@[simp] theorem exec_clz (t : Nat) (f : RForm) (s : State) :
    exec (.clz t f) s = execClz t f s := rfl
@[simp] theorem exec_ctz (t : Nat) (f : RForm) (s : State) :
    exec (.ctz t f) s = execCtz t f s := rfl
@[simp] theorem exec_addi (t : Nat) (f : IForm) (s : State) :
    exec (.addi t f) s = execAddi t f s := rfl
@[simp] theorem exec_subi (t : Nat) (f : IForm) (s : State) :
    exec (.subi t f) s = execSubi t f s := rfl
@[simp] theorem exec_andi (t : Nat) (f : IForm) (s : State) :
    exec (.andi t f) s = execAndi t f s := rfl
@[simp] theorem exec_ori (t : Nat) (f : IForm) (s : State) :
    exec (.ori t f) s = execOri t f s := rfl
@[simp] theorem exec_xori (t : Nat) (f : IForm) (s : State) :
    exec (.xori t f) s = execXori t f s := rfl
@[simp] theorem exec_shli (t : Nat) (f : IForm) (s : State) :
    exec (.shli t f) s = execShli t f s := rfl
@[simp] theorem exec_shri (t : Nat) (f : IForm) (s : State) :
    exec (.shri t f) s = execShri t f s := rfl
@[simp] theorem exec_sari (t : Nat) (f : IForm) (s : State) :
    exec (.sari t f) s = execSari t f s := rfl
@[simp] theorem exec_mini (t : Nat) (f : IForm) (s : State) :
    exec (.mini t f) s = execMini t f s := rfl
@[simp] theorem exec_maxi (t : Nat) (f : IForm) (s : State) :
    exec (.maxi t f) s = execMaxi t f s := rfl
@[simp] theorem exec_minui (t : Nat) (f : IForm) (s : State) :
    exec (.minui t f) s = execMinui t f s := rfl
@[simp] theorem exec_maxui (t : Nat) (f : IForm) (s : State) :
    exec (.maxui t f) s = execMaxui t f s := rfl
@[simp] theorem exec_slti (t : Nat) (f : IForm) (s : State) :
    exec (.slti t f) s = execSlti t f s := rfl
@[simp] theorem exec_sltui (t : Nat) (f : IForm) (s : State) :
    exec (.sltui t f) s = execSltui t f s := rfl
@[simp] theorem exec_mul (t : Nat) (f : RForm) (s : State) :
    exec (.mul t f) s = execMul t f s := rfl
@[simp] theorem exec_mulh (t : Nat) (f : RForm) (s : State) :
    exec (.mulh t f) s = execMulh t f s := rfl
@[simp] theorem exec_mulhu (t : Nat) (f : RForm) (s : State) :
    exec (.mulhu t f) s = execMulhu t f s := rfl
@[simp] theorem exec_madd (t : Nat) (f : RForm) (s : State) :
    exec (.madd t f) s = execMadd t f s := rfl
@[simp] theorem exec_div (t : Nat) (f : RForm) (s : State) :
    exec (.div t f) s = execDiv t f s := rfl
@[simp] theorem exec_divu (t : Nat) (f : RForm) (s : State) :
    exec (.divu t f) s = execDivu t f s := rfl
@[simp] theorem exec_rem (t : Nat) (f : RForm) (s : State) :
    exec (.rem t f) s = execRem t f s := rfl
@[simp] theorem exec_remu (t : Nat) (f : RForm) (s : State) :
    exec (.remu t f) s = execRemu t f s := rfl
@[simp] theorem exec_movi (t : Nat) (f : WForm) (s : State) :
    exec (.movi t f) s = execMovi t f s := rfl
@[simp] theorem exec_movh (t : Nat) (f : WForm) (s : State) :
    exec (.movh t f) s = execMovh t f s := rfl
@[simp] theorem exec_cmpEq (t : Nat) (f : RForm) (s : State) :
    exec (.cmpEq t f) s = execCmpEq t f s := rfl
@[simp] theorem exec_cmpNe (t : Nat) (f : RForm) (s : State) :
    exec (.cmpNe t f) s = execCmpNe t f s := rfl
@[simp] theorem exec_cmpLt (t : Nat) (f : RForm) (s : State) :
    exec (.cmpLt t f) s = execCmpLt t f s := rfl
@[simp] theorem exec_cmpGe (t : Nat) (f : RForm) (s : State) :
    exec (.cmpGe t f) s = execCmpGe t f s := rfl
@[simp] theorem exec_cmpLtu (t : Nat) (f : RForm) (s : State) :
    exec (.cmpLtu t f) s = execCmpLtu t f s := rfl
@[simp] theorem exec_cmpGeu (t : Nat) (f : RForm) (s : State) :
    exec (.cmpGeu t f) s = execCmpGeu t f s := rfl
@[simp] theorem exec_cmpiEq (t : Nat) (f : IForm) (s : State) :
    exec (.cmpiEq t f) s = execCmpiEq t f s := rfl
@[simp] theorem exec_cmpiNe (t : Nat) (f : IForm) (s : State) :
    exec (.cmpiNe t f) s = execCmpiNe t f s := rfl
@[simp] theorem exec_cmpiLt (t : Nat) (f : IForm) (s : State) :
    exec (.cmpiLt t f) s = execCmpiLt t f s := rfl
@[simp] theorem exec_cmpiGe (t : Nat) (f : IForm) (s : State) :
    exec (.cmpiGe t f) s = execCmpiGe t f s := rfl
@[simp] theorem exec_cmpiLtu (t : Nat) (f : IForm) (s : State) :
    exec (.cmpiLtu t f) s = execCmpiLtu t f s := rfl
@[simp] theorem exec_cmpiGeu (t : Nat) (f : IForm) (s : State) :
    exec (.cmpiGeu t f) s = execCmpiGeu t f s := rfl
@[simp] theorem exec_beq (t : Nat) (f : BForm) (s : State) :
    exec (.beq t f) s = execBeq t f s := rfl
@[simp] theorem exec_bne (t : Nat) (f : BForm) (s : State) :
    exec (.bne t f) s = execBne t f s := rfl
@[simp] theorem exec_blt (t : Nat) (f : BForm) (s : State) :
    exec (.blt t f) s = execBlt t f s := rfl
@[simp] theorem exec_bge (t : Nat) (f : BForm) (s : State) :
    exec (.bge t f) s = execBge t f s := rfl
@[simp] theorem exec_bltu (t : Nat) (f : BForm) (s : State) :
    exec (.bltu t f) s = execBltu t f s := rfl
@[simp] theorem exec_bgeu (t : Nat) (f : BForm) (s : State) :
    exec (.bgeu t f) s = execBgeu t f s := rfl
@[simp] theorem exec_br (t : Nat) (f : BForm) (s : State) :
    exec (.br t f) s = execBr t f s := rfl
@[simp] theorem exec_jal (t : Nat) (f : BForm) (s : State) :
    exec (.jal t f) s = execJal t f s := rfl
@[simp] theorem exec_jr (t : Nat) (f : BForm) (s : State) :
    exec (.jr t f) s = execJr t f s := rfl
@[simp] theorem exec_jalr (t : Nat) (f : BForm) (s : State) :
    exec (.jalr t f) s = execJalr t f s := rfl
@[simp] theorem exec_ldB (t : Nat) (f : IForm) (s : State) :
    exec (.ldB t f) s = execLdB t f s := rfl
@[simp] theorem exec_ldH (t : Nat) (f : IForm) (s : State) :
    exec (.ldH t f) s = execLdH t f s := rfl
@[simp] theorem exec_ldW (t : Nat) (f : IForm) (s : State) :
    exec (.ldW t f) s = execLdW t f s := rfl
@[simp] theorem exec_ldD (t : Nat) (f : IForm) (s : State) :
    exec (.ldD t f) s = execLdD t f s := rfl
@[simp] theorem exec_ldBu (t : Nat) (f : IForm) (s : State) :
    exec (.ldBu t f) s = execLdBu t f s := rfl
@[simp] theorem exec_ldHu (t : Nat) (f : IForm) (s : State) :
    exec (.ldHu t f) s = execLdHu t f s := rfl
@[simp] theorem exec_ldWu (t : Nat) (f : IForm) (s : State) :
    exec (.ldWu t f) s = execLdWu t f s := rfl
@[simp] theorem exec_ldV (t : Nat) (f : IForm) (s : State) :
    exec (.ldV t f) s = execLdV t f s := rfl
@[simp] theorem exec_stB (t : Nat) (f : IForm) (s : State) :
    exec (.stB t f) s = execStB t f s := rfl
@[simp] theorem exec_stH (t : Nat) (f : IForm) (s : State) :
    exec (.stH t f) s = execStH t f s := rfl
@[simp] theorem exec_stW (t : Nat) (f : IForm) (s : State) :
    exec (.stW t f) s = execStW t f s := rfl
@[simp] theorem exec_stD (t : Nat) (f : IForm) (s : State) :
    exec (.stD t f) s = execStD t f s := rfl
@[simp] theorem exec_stV (t : Nat) (f : IForm) (s : State) :
    exec (.stV t f) s = execStV t f s := rfl
@[simp] theorem exec_ldgB (t : Nat) (f : IForm) (s : State) :
    exec (.ldgB t f) s = execLdgB t f s := rfl
@[simp] theorem exec_ldgH (t : Nat) (f : IForm) (s : State) :
    exec (.ldgH t f) s = execLdgH t f s := rfl
@[simp] theorem exec_ldgW (t : Nat) (f : IForm) (s : State) :
    exec (.ldgW t f) s = execLdgW t f s := rfl
@[simp] theorem exec_ldgD (t : Nat) (f : IForm) (s : State) :
    exec (.ldgD t f) s = execLdgD t f s := rfl
@[simp] theorem exec_ldgBu (t : Nat) (f : IForm) (s : State) :
    exec (.ldgBu t f) s = execLdgBu t f s := rfl
@[simp] theorem exec_ldgHu (t : Nat) (f : IForm) (s : State) :
    exec (.ldgHu t f) s = execLdgHu t f s := rfl
@[simp] theorem exec_ldgWu (t : Nat) (f : IForm) (s : State) :
    exec (.ldgWu t f) s = execLdgWu t f s := rfl
@[simp] theorem exec_ldgV (t : Nat) (f : IForm) (s : State) :
    exec (.ldgV t f) s = execLdgV t f s := rfl
@[simp] theorem exec_stgB (t : Nat) (f : IForm) (s : State) :
    exec (.stgB t f) s = execStgB t f s := rfl
@[simp] theorem exec_stgH (t : Nat) (f : IForm) (s : State) :
    exec (.stgH t f) s = execStgH t f s := rfl
@[simp] theorem exec_stgW (t : Nat) (f : IForm) (s : State) :
    exec (.stgW t f) s = execStgW t f s := rfl
@[simp] theorem exec_stgD (t : Nat) (f : IForm) (s : State) :
    exec (.stgD t f) s = execStgD t f s := rfl
@[simp] theorem exec_stgV (t : Nat) (f : IForm) (s : State) :
    exec (.stgV t f) s = execStgV t f s := rfl
@[simp] theorem exec_globalLoadResponse (t : Nat) (id : Nat) (s : State) :
    exec (.globalLoadResponse t id) s = execGlobalLoadResponse t id s := rfl
@[simp] theorem exec_mvpost (t : Nat) (f : RForm) (s : State) :
    exec (.mvpost t f) s = execMvpost t f s := rfl
@[simp] theorem exec_mvslots (t : Nat) (f : RForm) (s : State) :
    exec (.mvslots t f) s = execMvslots t f s := rfl
@[simp] theorem exec_vaddInt (t : Nat) (f : VForm) (s : State) :
    exec (.vaddInt t f) s = execVaddInt t f s := rfl
@[simp] theorem exec_vsubInt (t : Nat) (f : VForm) (s : State) :
    exec (.vsubInt t f) s = execVsubInt t f s := rfl
@[simp] theorem exec_vmulInt (t : Nat) (f : VForm) (s : State) :
    exec (.vmulInt t f) s = execVmulInt t f s := rfl
@[simp] theorem exec_vadds (t : Nat) (f : VForm) (s : State) :
    exec (.vadds t f) s = execVadds t f s := rfl
@[simp] theorem exec_vsubs (t : Nat) (f : VForm) (s : State) :
    exec (.vsubs t f) s = execVsubs t f s := rfl
@[simp] theorem exec_vminInt (t : Nat) (f : VForm) (s : State) :
    exec (.vminInt t f) s = execVminInt t f s := rfl
@[simp] theorem exec_vmaxInt (t : Nat) (f : VForm) (s : State) :
    exec (.vmaxInt t f) s = execVmaxInt t f s := rfl
@[simp] theorem exec_vand (t : Nat) (f : VForm) (s : State) :
    exec (.vand t f) s = execVand t f s := rfl
@[simp] theorem exec_vor (t : Nat) (f : VForm) (s : State) :
    exec (.vor t f) s = execVor t f s := rfl
@[simp] theorem exec_vxor (t : Nat) (f : VForm) (s : State) :
    exec (.vxor t f) s = execVxor t f s := rfl
@[simp] theorem exec_vshl (t : Nat) (f : VForm) (s : State) :
    exec (.vshl t f) s = execVshl t f s := rfl
@[simp] theorem exec_vshr (t : Nat) (f : VForm) (s : State) :
    exec (.vshr t f) s = execVshr t f s := rfl
@[simp] theorem exec_vsar (t : Nat) (f : VForm) (s : State) :
    exec (.vsar t f) s = execVsar t f s := rfl
@[simp] theorem exec_vmov (t : Nat) (f : VForm) (s : State) :
    exec (.vmov t f) s = execVmov t f s := rfl
@[simp] theorem exec_vsel (t : Nat) (f : VForm) (s : State) :
    exec (.vsel t f) s = execVsel t f s := rfl
@[simp] theorem exec_vaddFp (t : Nat) (f : VForm) (s : State) :
    exec (.vaddFp t f) s = execVaddFp t f s := rfl
@[simp] theorem exec_vsubFp (t : Nat) (f : VForm) (s : State) :
    exec (.vsubFp t f) s = execVsubFp t f s := rfl
@[simp] theorem exec_vmulFp (t : Nat) (f : VForm) (s : State) :
    exec (.vmulFp t f) s = execVmulFp t f s := rfl
@[simp] theorem exec_vfma (t : Nat) (f : VForm) (s : State) :
    exec (.vfma t f) s = execVfma t f s := rfl
@[simp] theorem exec_vfms (t : Nat) (f : VForm) (s : State) :
    exec (.vfms t f) s = execVfms t f s := rfl
@[simp] theorem exec_vminFp (t : Nat) (f : VForm) (s : State) :
    exec (.vminFp t f) s = execVminFp t f s := rfl
@[simp] theorem exec_vmaxFp (t : Nat) (f : VForm) (s : State) :
    exec (.vmaxFp t f) s = execVmaxFp t f s := rfl
@[simp] theorem exec_vabs (t : Nat) (f : VForm) (s : State) :
    exec (.vabs t f) s = execVabs t f s := rfl
@[simp] theorem exec_vneg (t : Nat) (f : VForm) (s : State) :
    exec (.vneg t f) s = execVneg t f s := rfl
@[simp] theorem exec_vdiv (t : Nat) (f : VForm) (s : State) :
    exec (.vdiv t f) s = execVdiv t f s := rfl
@[simp] theorem exec_vsqrt (t : Nat) (f : VForm) (s : State) :
    exec (.vsqrt t f) s = execVsqrt t f s := rfl
@[simp] theorem exec_vrsqrt (t : Nat) (f : VForm) (s : State) :
    exec (.vrsqrt t f) s = execVrsqrt t f s := rfl
@[simp] theorem exec_vexp2 (t : Nat) (f : VForm) (s : State) :
    exec (.vexp2 t f) s = execVexp2 t f s := rfl
@[simp] theorem exec_vcvt (t : Nat) (f : VForm) (s : State) :
    exec (.vcvt t f) s = execVcvt t f s := rfl
@[simp] theorem exec_vqmx (t : Nat) (f : VForm) (s : State) :
    exec (.vqmx t f) s = execVqmx t f s := rfl
@[simp] theorem exec_vdqmx (t : Nat) (f : VForm) (s : State) :
    exec (.vdqmx t f) s = execVdqmx t f s := rfl
@[simp] theorem exec_vfoir (t : Nat) (f : VForm) (s : State) :
    exec (.vfoir t f) s = execVfoir t f s := rfl
@[simp] theorem exec_vufoir (t : Nat) (f : VForm) (s : State) :
    exec (.vufoir t f) s = execVufoir t f s := rfl
@[simp] theorem exec_vemax (t : Nat) (f : VForm) (s : State) :
    exec (.vemax t f) s = execVemax t f s := rfl
@[simp] theorem exec_vbcast (t : Nat) (f : VForm) (s : State) :
    exec (.vbcast t f) s = execVbcast t f s := rfl
@[simp] theorem exec_vext (t : Nat) (f : VForm) (s : State) :
    exec (.vext t f) s = execVext t f s := rfl
@[simp] theorem exec_vins (t : Nat) (f : VForm) (s : State) :
    exec (.vins t f) s = execVins t f s := rfl
@[simp] theorem exec_vperm (t : Nat) (f : VForm) (s : State) :
    exec (.vperm t f) s = execVperm t f s := rfl
@[simp] theorem exec_vrot (t : Nat) (f : VForm) (s : State) :
    exec (.vrot t f) s = execVrot t f s := rfl
@[simp] theorem exec_vredsum (t : Nat) (f : VForm) (s : State) :
    exec (.vredsum t f) s = execVredsum t f s := rfl
@[simp] theorem exec_vredmax (t : Nat) (f : VForm) (s : State) :
    exec (.vredmax t f) s = execVredmax t f s := rfl
@[simp] theorem exec_vredmin (t : Nat) (f : VForm) (s : State) :
    exec (.vredmin t f) s = execVredmin t f s := rfl
@[simp] theorem exec_vcmpEq (t : Nat) (f : VForm) (s : State) :
    exec (.vcmpEq t f) s = execVcmpEq t f s := rfl
@[simp] theorem exec_vcmpNe (t : Nat) (f : VForm) (s : State) :
    exec (.vcmpNe t f) s = execVcmpNe t f s := rfl
@[simp] theorem exec_vcmpLt (t : Nat) (f : VForm) (s : State) :
    exec (.vcmpLt t f) s = execVcmpLt t f s := rfl
@[simp] theorem exec_vcmpLe (t : Nat) (f : VForm) (s : State) :
    exec (.vcmpLe t f) s = execVcmpLe t f s := rfl
@[simp] theorem exec_vcmpGt (t : Nat) (f : VForm) (s : State) :
    exec (.vcmpGt t f) s = execVcmpGt t f s := rfl
@[simp] theorem exec_vcmpGe (t : Nat) (f : VForm) (s : State) :
    exec (.vcmpGe t f) s = execVcmpGe t f s := rfl
@[simp] theorem exec_pand (t : Nat) (f : PForm) (s : State) :
    exec (.pand t f) s = execPand t f s := rfl
@[simp] theorem exec_por (t : Nat) (f : PForm) (s : State) :
    exec (.por t f) s = execPor t f s := rfl
@[simp] theorem exec_pxor (t : Nat) (f : PForm) (s : State) :
    exec (.pxor t f) s = execPxor t f s := rfl
@[simp] theorem exec_pandn (t : Nat) (f : PForm) (s : State) :
    exec (.pandn t f) s = execPandn t f s := rfl
@[simp] theorem exec_pnot (t : Nat) (f : PForm) (s : State) :
    exec (.pnot t f) s = execPnot t f s := rfl
@[simp] theorem exec_pmov (t : Nat) (f : PForm) (s : State) :
    exec (.pmov t f) s = execPmov t f s := rfl
@[simp] theorem exec_pget (t : Nat) (f : PForm) (s : State) :
    exec (.pget t f) s = execPget t f s := rfl
@[simp] theorem exec_ppopc (t : Nat) (f : PForm) (s : State) :
    exec (.ppopc t f) s = execPpopc t f s := rfl
@[simp] theorem exec_pfirst (t : Nat) (f : PForm) (s : State) :
    exec (.pfirst t f) s = execPfirst t f s := rfl
@[simp] theorem exec_vcmpr (t : Nat) (f : VForm) (s : State) :
    exec (.vcmpr t f) s = execVcmpr t f s := rfl
@[simp] theorem exec_vexpd (t : Nat) (f : VForm) (s : State) :
    exec (.vexpd t f) s = execVexpd t f s := rfl
@[simp] theorem exec_vbspk (t : Nat) (f : VForm) (s : State) :
    exec (.vbspk t f) s = execVbspk t f s := rfl
@[simp] theorem exec_vbsup (t : Nat) (f : VForm) (s : State) :
    exec (.vbsup t f) s = execVbsup t f s := rfl
@[simp] theorem exec_tmma (t : Nat) (f : TForm) (s : State) :
    exec (.tmma t f) s = execTmma t f s := rfl
@[simp] theorem exec_tmmaS24 (t : Nat) (f : TForm) (s : State) :
    exec (.tmmaS24 t f) s = execTmmaS24 t f s := rfl
@[simp] theorem exec_tmmaS48 (t : Nat) (f : TForm) (s : State) :
    exec (.tmmaS48 t f) s = execTmmaS48 t f s := rfl
@[simp] theorem exec_tmmak (t : Nat) (f : TForm) (s : State) :
    exec (.tmmak t f) s = execTmmak t f s := rfl
@[simp] theorem exec_tensorComplete (t : Nat) (id : Nat) (s : State) :
    exec (.tensorComplete t id) s = execTensorComplete t id s := rfl
@[simp] theorem exec_talloc (t : Nat) (f : TForm) (s : State) :
    exec (.talloc t f) s = execTalloc t f s := rfl
@[simp] theorem exec_tfree (t : Nat) (f : TForm) (s : State) :
    exec (.tfree t f) s = execTfree t f s := rfl
@[simp] theorem exec_tzero (t : Nat) (f : TForm) (s : State) :
    exec (.tzero t f) s = execTzero t f s := rfl
@[simp] theorem exec_tld (t : Nat) (f : TForm) (s : State) :
    exec (.tld t f) s = execTld t f s := rfl
@[simp] theorem exec_tst (t : Nat) (f : TForm) (s : State) :
    exec (.tst t f) s = execTst t f s := rfl
@[simp] theorem exec_tileMoveComplete (t : Nat) (id : Nat) (s : State) :
    exec (.tileMoveComplete t id) s = execTileMoveComplete t id s := rfl
@[simp] theorem exec_sig (t : Nat) (f : SForm) (s : State) :
    exec (.sig t f) s = execSig t f s := rfl
@[simp] theorem exec_waitGe (t : Nat) (f : SForm) (s : State) :
    exec (.waitGe t f) s = execWaitGe t f s := rfl
@[simp] theorem exec_take (t : Nat) (f : SForm) (s : State) :
    exec (.take t f) s = execTake t f s := rfl
@[simp] theorem exec_sread (t : Nat) (f : SForm) (s : State) :
    exec (.sread t f) s = execSread t f s := rfl
@[simp] theorem exec_signalAtHome (t : Nat) (id : Nat) (s : State) :
    exec (.signalAtHome t id) s = execSignalAtHome t id s := rfl
@[simp] theorem exec_waitRetryResponse (t : Nat) (s : State) :
    exec (.waitRetryResponse t) s = execWaitRetryResponse t s := rfl
@[simp] theorem exec_takeRetryResponse (t : Nat) (s : State) :
    exec (.takeRetryResponse t) s = execTakeRetryResponse t s := rfl
@[simp] theorem exec_spinLimitExpiry (t : Nat) (s : State) :
    exec (.spinLimitExpiry t) s = execSpinLimitExpiry t s := rfl
@[simp] theorem exec_fenceC (t : Nat) (f : SForm) (s : State) :
    exec (.fenceC t f) s = execFenceC t f s := rfl
@[simp] theorem exec_fenceD (t : Nat) (f : SForm) (s : State) :
    exec (.fenceD t f) s = execFenceD t f s := rfl
@[simp] theorem exec_fenceP (t : Nat) (f : SForm) (s : State) :
    exec (.fenceP t f) s = execFenceP t f s := rfl
@[simp] theorem exec_fenceN (t : Nat) (f : SForm) (s : State) :
    exec (.fenceN t f) s = execFenceN t f s := rfl
@[simp] theorem exec_fenceRetire (t : Nat) (s : State) :
    exec (.fenceRetire t) s = execFenceRetire t s := rfl
@[simp] theorem exec_put (t : Nat) (f : NForm) (s : State) :
    exec (.put t f) s = execPut t f s := rfl
@[simp] theorem exec_get (t : Nat) (f : NForm) (s : State) :
    exec (.get t f) s = execGet t f s := rfl
@[simp] theorem exec_atomAdd (t : Nat) (f : NForm) (s : State) :
    exec (.atomAdd t f) s = execAtomAdd t f s := rfl
@[simp] theorem exec_atomCas (t : Nat) (f : NForm) (s : State) :
    exec (.atomCas t f) s = execAtomCas t f s := rfl
@[simp] theorem exec_sigR (t : Nat) (f : NForm) (s : State) :
    exec (.sigR t f) s = execSigR t f s := rfl
@[simp] theorem exec_netResponse (t : Nat) (id : Nat) (s : State) :
    exec (.netResponse t id) s = execNetResponse t id s := rfl
@[simp] theorem exec_nopInsn (t : Nat) (f : IForm) (s : State) :
    exec (.nopInsn t f) s = execNopInsn t f s := rfl
@[simp] theorem exec_end_ (t : Nat) (f : IForm) (s : State) :
    exec (.end_ t f) s = execEnd t f s := rfl
@[simp] theorem exec_threadEnd (t : Nat) (s : State) :
    exec (.threadEnd t) s = execThreadEnd t s := rfl
@[simp] theorem exec_trap (t : Nat) (f : IForm) (s : State) :
    exec (.trap t f) s = execTrap t f s := rfl
@[simp] theorem exec_brk (t : Nat) (f : IForm) (s : State) :
    exec (.brk t f) s = execBrk t f s := rfl
@[simp] theorem exec_mfs (t : Nat) (f : IForm) (s : State) :
    exec (.mfs t f) s = execMfs t f s := rfl
@[simp] theorem exec_deferredException (t : Nat) (s : State) :
    exec (.deferredException t) s = execDeferredException t s := rfl
@[simp] theorem exec_groupStart (gn : Nat) (e : Nat) (s : State) :
    exec (.groupStart gn e) s = execGroupStart gn e s := rfl
@[simp] theorem exec_launch (r : Nat) (s : State) :
    exec (.launch r) s = execLaunch r s := rfl
@[simp] theorem exec_admission (s : State) :
    exec (.admission) s = execAdmission s := rfl
@[simp] theorem exec_ledgerWindowBoundary (s : State) :
    exec (.ledgerWindowBoundary) s = execLedgerWindowBoundary s := rfl
@[simp] theorem exec_gridPace (isPart : Bool) (n : Nat) (s : State) :
    exec (.gridPace isPart n) s = execGridPace isPart n s := rfl
@[simp] theorem exec_calFactorUpdate (s : State) :
    exec (.calFactorUpdate) s = execCalFactorUpdate s := rfl
@[simp] theorem exec_dbgHaltCmd (s : State) :
    exec (.dbgHaltCmd) s = execDbgHaltCmd s := rfl
@[simp] theorem exec_dbgResume (s : State) :
    exec (.dbgResume) s = execDbgResume s := rfl
@[simp] theorem exec_dbgStep (s : State) :
    exec (.dbgStep) s = execDbgStep s := rfl
@[simp] theorem exec_dbgWindowWrite (off : Nat) (v : Word) (s : State) :
    exec (.dbgWindowWrite off v) s = execDbgWindowWrite off v s := rfl
@[simp] theorem exec_pageWalk (t : Nat) (s : State) :
    exec (.pageWalk t) s = execPageWalk t s := rfl
@[simp] theorem exec_faultPostedHoldoffEnd (p : Nat) (s : State) :
    exec (.faultPostedHoldoffEnd p) s = execFaultPostedHoldoffEnd p s := rfl
@[simp] theorem exec_faultIdAssign (p : Nat) (s : State) :
    exec (.faultIdAssign p) s = execFaultIdAssign p s := rfl
@[simp] theorem exec_faultTimeout (p : Nat) (s : State) :
    exec (.faultTimeout p) s = execFaultTimeout p s := rfl
@[simp] theorem exec_fqRetry (p : Nat) (fid : Nat) (s : State) :
    exec (.fqRetry p fid) s = execFqRetry p fid s := rfl
@[simp] theorem exec_fqFail (p : Nat) (fid : Nat) (s : State) :
    exec (.fqFail p fid) s = execFqFail p fid s := rfl
@[simp] theorem exec_invPage (fn : Nat) (s : State) :
    exec (.invPage fn) s = execInvPage fn s := rfl
@[simp] theorem exec_invCtx (fn : Nat) (s : State) :
    exec (.invCtx fn) s = execInvCtx fn s := rfl
@[simp] theorem exec_invPart (fn : Nat) (s : State) :
    exec (.invPart fn) s = execInvPart fn s := rfl
@[simp] theorem exec_invOwner (fn : Nat) (s : State) :
    exec (.invOwner fn) s = execInvOwner fn s := rfl
@[simp] theorem exec_invalidationComplete (who : Nat) (s : State) :
    exec (.invalidationComplete who) s = execInvalidationComplete who s := rfl
@[simp] theorem exec_atsInvalidate (p : Nat) (va : Word) (s : State) :
    exec (.atsInvalidate p va) s = execAtsInvalidate p va s := rfl
@[simp] theorem exec_scrubLine (pa : Nat) (s : State) :
    exec (.scrubLine pa) s = execScrubLine pa s := rfl
@[simp] theorem exec_moverDescriptorStart (c : Nat) (id : Nat) (s : State) :
    exec (.moverDescriptorStart c id) s = execMoverDescriptorStart c id s := rfl
@[simp] theorem exec_moverComplete (c : Nat) (id : Nat) (s : State) :
    exec (.moverComplete c id) s = execMoverComplete c id s := rfl
@[simp] theorem exec_ringPoll (r : Nat) (s : State) :
    exec (.ringPoll r) s = execRingPoll r s := rfl
@[simp] theorem exec_pollResponse (r : Nat) (s : State) :
    exec (.pollResponse r) s = execPollResponse r s := rfl
@[simp] theorem exec_entryConsume (r : Nat) (s : State) :
    exec (.entryConsume r) s = execEntryConsume r s := rfl
@[simp] theorem exec_consumerReportRead (r : Nat) (s : State) :
    exec (.consumerReportRead r) s = execConsumerReportRead r s := rfl
@[simp] theorem exec_overflowDrain (r : Nat) (s : State) :
    exec (.overflowDrain r) s = execOverflowDrain r s := rfl
@[simp] theorem exec_ringStartPriv (r : Nat) (s : State) :
    exec (.ringStartPriv r) s = execRingStartPriv r s := rfl
@[simp] theorem exec_ringFenceRead (r : Nat) (s : State) :
    exec (.ringFenceRead r) s = execRingFenceRead r s := rfl
@[simp] theorem exec_readClearRegister (fn : Nat) (off : Nat) (s : State) :
    exec (.readClearRegister fn off) s = execReadClearRegister fn off s := rfl
@[simp] theorem exec_registerWrite (fn : Nat) (off : Nat) (v : Word) (s : State) :
    exec (.registerWrite fn off v) s = execRegisterWrite fn off v s := rfl
@[simp] theorem exec_nop (r : Nat) (s : State) :
    exec (.nop r) s = execNop r s := rfl
@[simp] theorem exec_ringCreate (r : Nat) (s : State) :
    exec (.ringCreate r) s = execRingCreate r s := rfl
@[simp] theorem exec_ringDestroy (r : Nat) (s : State) :
    exec (.ringDestroy r) s = execRingDestroy r s := rfl
@[simp] theorem exec_ringResize (r : Nat) (s : State) :
    exec (.ringResize r) s = execRingResize r s := rfl
@[simp] theorem exec_ringResizeSwitch (r : Nat) (s : State) :
    exec (.ringResizeSwitch r) s = execRingResizeSwitch r s := rfl
@[simp] theorem exec_ringStop (r : Nat) (s : State) :
    exec (.ringStop r) s = execRingStop r s := rfl
@[simp] theorem exec_ringStopComplete (r : Nat) (s : State) :
    exec (.ringStopComplete r) s = execRingStopComplete r s := rfl
@[simp] theorem exec_ringStart (r : Nat) (s : State) :
    exec (.ringStart r) s = execRingStart r s := rfl
@[simp] theorem exec_ringBind (r : Nat) (s : State) :
    exec (.ringBind r) s = execRingBind r s := rfl
@[simp] theorem exec_syncGrant (r : Nat) (s : State) :
    exec (.syncGrant r) s = execSyncGrant r s := rfl
@[simp] theorem exec_syncRevoke (r : Nat) (s : State) :
    exec (.syncRevoke r) s = execSyncRevoke r s := rfl
@[simp] theorem exec_syncRelease (r : Nat) (s : State) :
    exec (.syncRelease r) s = execSyncRelease r s := rfl
@[simp] theorem exec_syncWindowWrite (n : Nat) (i : Nat) (v : Word) (s : State) :
    exec (.syncWindowWrite n i v) s = execSyncWindowWrite n i v s := rfl
@[simp] theorem exec_syncWindowRead (n : Nat) (i : Nat) (s : State) :
    exec (.syncWindowRead n i) s = execSyncWindowRead n i s := rfl
@[simp] theorem exec_send (r : Nat) (s : State) :
    exec (.send r) s = execSend r s := rfl
@[simp] theorem exec_write (r : Nat) (s : State) :
    exec (.write r) s = execWrite r s := rfl
@[simp] theorem exec_writeImm (r : Nat) (s : State) :
    exec (.writeImm r) s = execWriteImm r s := rfl
@[simp] theorem exec_read (r : Nat) (s : State) :
    exec (.read r) s = execRead r s := rfl
@[simp] theorem exec_atomicFadd (r : Nat) (s : State) :
    exec (.atomicFadd r) s = execAtomicFadd r s := rfl
@[simp] theorem exec_atomicCas (r : Nat) (s : State) :
    exec (.atomicCas r) s = execAtomicCas r s := rfl
@[simp] theorem exec_signal (r : Nat) (s : State) :
    exec (.signal r) s = execSignal r s := rfl
@[simp] theorem exec_enable (r : Nat) (s : State) :
    exec (.enable r) s = execEnable r s := rfl
@[simp] theorem exec_enableGateStart (r : Nat) (s : State) :
    exec (.enableGateStart r) s = execEnableGateStart r s := rfl
@[simp] theorem exec_countGateStart (r : Nat) (s : State) :
    exec (.countGateStart r) s = execCountGateStart r s := rfl
@[simp] theorem exec_gateTimeout (r : Nat) (s : State) :
    exec (.gateTimeout r) s = execGateTimeout r s := rfl
@[simp] theorem exec_packetTransmit (p : Nat) (n : Nat) (s : State) :
    exec (.packetTransmit p n) s = execPacketTransmit p n s := rfl
@[simp] theorem exec_sendArrival (p : Packet) (s : State) :
    exec (.sendArrival p) s = execSendArrival p s := rfl
@[simp] theorem exec_writeArrival (p : Packet) (s : State) :
    exec (.writeArrival p) s = execWriteArrival p s := rfl
@[simp] theorem exec_writeImmArrival (p : Packet) (s : State) :
    exec (.writeImmArrival p) s = execWriteImmArrival p s := rfl
@[simp] theorem exec_readReq (p : Packet) (s : State) :
    exec (.readReq p) s = execReadReq p s := rfl
@[simp] theorem exec_readResp (p : Packet) (s : State) :
    exec (.readResp p) s = execReadResp p s := rfl
@[simp] theorem exec_atomicFaddArrival (p : Packet) (s : State) :
    exec (.atomicFaddArrival p) s = execAtomicFaddArrival p s := rfl
@[simp] theorem exec_atomicCasArrival (p : Packet) (s : State) :
    exec (.atomicCasArrival p) s = execAtomicCasArrival p s := rfl
@[simp] theorem exec_atomicResp (p : Packet) (s : State) :
    exec (.atomicResp p) s = execAtomicResp p s := rfl
@[simp] theorem exec_signalArrival (p : Packet) (s : State) :
    exec (.signalArrival p) s = execSignalArrival p s := rfl
@[simp] theorem exec_enableArrival (p : Packet) (s : State) :
    exec (.enableArrival p) s = execEnableArrival p s := rfl
@[simp] theorem exec_ack (p : Packet) (s : State) :
    exec (.ack p) s = execAck p s := rfl
@[simp] theorem exec_nak (p : Packet) (s : State) :
    exec (.nak p) s = execNak p s := rfl
@[simp] theorem exec_rnr (p : Packet) (s : State) :
    exec (.rnr p) s = execRnr p s := rfl
@[simp] theorem exec_ackTimer (p : Nat) (n : Nat) (s : State) :
    exec (.ackTimer p n) s = execAckTimer p n s := rfl
@[simp] theorem exec_rtoExpiry (p : Nat) (n : Nat) (s : State) :
    exec (.rtoExpiry p n) s = execRtoExpiry p n s := rfl
@[simp] theorem exec_rnrPauseEnd (p : Nat) (n : Nat) (s : State) :
    exec (.rnrPauseEnd p n) s = execRnrPauseEnd p n s := rfl
@[simp] theorem exec_contextFetchStart (p : Nat) (n : Nat) (s : State) :
    exec (.contextFetchStart p n) s = execContextFetchStart p n s := rfl
@[simp] theorem exec_contextFetchComplete (p : Nat) (n : Nat) (s : State) :
    exec (.contextFetchComplete p n) s = execContextFetchComplete p n s := rfl
@[simp] theorem exec_qpCreate (r : Nat) (s : State) :
    exec (.qpCreate r) s = execQpCreate r s := rfl
@[simp] theorem exec_qpModify (r : Nat) (s : State) :
    exec (.qpModify r) s = execQpModify r s := rfl
@[simp] theorem exec_qpDestroy (r : Nat) (s : State) :
    exec (.qpDestroy r) s = execQpDestroy r s := rfl
@[simp] theorem exec_keyRegister (r : Nat) (s : State) :
    exec (.keyRegister r) s = execKeyRegister r s := rfl
@[simp] theorem exec_keyDeregister (r : Nat) (s : State) :
    exec (.keyDeregister r) s = execKeyDeregister r s := rfl
@[simp] theorem exec_connectReq (p : Packet) (s : State) :
    exec (.connectReq p) s = execConnectReq p s := rfl
@[simp] theorem exec_connectRep (p : Packet) (s : State) :
    exec (.connectRep p) s = execConnectRep p s := rfl
@[simp] theorem exec_connectRtu (p : Packet) (s : State) :
    exec (.connectRtu p) s = execConnectRtu p s := rfl
@[simp] theorem exec_connectRej (p : Packet) (s : State) :
    exec (.connectRej p) s = execConnectRej p s := rfl
@[simp] theorem exec_disconnect (p : Packet) (s : State) :
    exec (.disconnect p) s = execDisconnect p s := rfl
@[simp] theorem exec_connectResend (p : Nat) (n : Nat) (s : State) :
    exec (.connectResend p n) s = execConnectResend p n s := rfl
@[simp] theorem exec_pathMigrate (p : Packet) (s : State) :
    exec (.pathMigrate p) s = execPathMigrate p s := rfl
@[simp] theorem exec_pathMigrateAck (p : Packet) (s : State) :
    exec (.pathMigrateAck p) s = execPathMigrateAck p s := rfl
@[simp] theorem exec_pathMigrateResend (p : Nat) (n : Nat) (s : State) :
    exec (.pathMigrateResend p n) s = execPathMigrateResend p n s := rfl
@[simp] theorem exec_idleTagAck (p : Nat) (n : Nat) (s : State) :
    exec (.idleTagAck p n) s = execIdleTagAck p n s := rfl
@[simp] theorem exec_prevKeyExpiry (fn : Nat) (i : Nat) (s : State) :
    exec (.prevKeyExpiry fn i) s = execPrevKeyExpiry fn i s := rfl
@[simp] theorem exec_txload (fn : Nat) (i : Nat) (s : State) :
    exec (.txload fn i) s = execTxload fn i s := rfl
@[simp] theorem exec_rxload (fn : Nat) (i : Nat) (s : State) :
    exec (.rxload fn i) s = execRxload fn i s := rfl
@[simp] theorem exec_ksClr (fn : Nat) (i : Nat) (s : State) :
    exec (.ksClr fn i) s = execKsClr fn i s := rfl
@[simp] theorem exec_groupCreate (r : Nat) (s : State) :
    exec (.groupCreate r) s = execGroupCreate r s := rfl
@[simp] theorem exec_groupDestroy (r : Nat) (s : State) :
    exec (.groupDestroy r) s = execGroupDestroy r s := rfl
@[simp] theorem exec_reduceScatter (r : Nat) (s : State) :
    exec (.reduceScatter r) s = execReduceScatter r s := rfl
@[simp] theorem exec_allGather (r : Nat) (s : State) :
    exec (.allGather r) s = execAllGather r s := rfl
@[simp] theorem exec_broadcast (r : Nat) (s : State) :
    exec (.broadcast r) s = execBroadcast r s := rfl
@[simp] theorem exec_barrier (r : Nat) (s : State) :
    exec (.barrier r) s = execBarrier r s := rfl
@[simp] theorem exec_scalarReduce (r : Nat) (s : State) :
    exec (.scalarReduce r) s = execScalarReduce r s := rfl
@[simp] theorem exec_quiesce (r : Nat) (s : State) :
    exec (.quiesce r) s = execQuiesce r s := rfl
@[simp] theorem exec_sparseAllGather (r : Nat) (s : State) :
    exec (.sparseAllGather r) s = execSparseAllGather r s := rfl
@[simp] theorem exec_bshData (p : Packet) (used : Bool) (s : State) :
    exec (.bshData p used) s = execBshData p used s := rfl
@[simp] theorem exec_bshCredit (p : Packet) (s : State) :
    exec (.bshCredit p) s = execBshCredit p s := rfl
@[simp] theorem exec_bshTree (p : Packet) (s : State) :
    exec (.bshTree p) s = execBshTree p s := rfl
@[simp] theorem exec_bshTaint (p : Packet) (s : State) :
    exec (.bshTaint p) s = execBshTaint p s := rfl
@[simp] theorem exec_bshAbort (p : Packet) (s : State) :
    exec (.bshAbort p) s = execBshAbort p s := rfl
@[simp] theorem exec_bushelRerun (gid : Nat) (s : State) :
    exec (.bushelRerun gid) s = execBushelRerun gid s := rfl
@[simp] theorem exec_bushelComplete (gid : Nat) (s : State) :
    exec (.bushelComplete gid) s = execBushelComplete gid s := rfl
@[simp] theorem exec_bushelStallTimeout (gid : Nat) (s : State) :
    exec (.bushelStallTimeout gid) s = execBushelStallTimeout gid s := rfl
@[simp] theorem exec_bushelPreemptTimeout (gid : Nat) (s : State) :
    exec (.bushelPreemptTimeout gid) s = execBushelPreemptTimeout gid s := rfl
@[simp] theorem exec_carderBind (r : Nat) (s : State) :
    exec (.carderBind r) s = execCarderBind r s := rfl
@[simp] theorem exec_carderUnbind (r : Nat) (s : State) :
    exec (.carderUnbind r) s = execCarderUnbind r s := rfl
@[simp] theorem exec_dispatch (r : Nat) (s : State) :
    exec (.dispatch r) s = execDispatch r s := rfl
@[simp] theorem exec_dispatchComplete (r : Nat) (t : Nat) (s : State) :
    exec (.dispatchComplete r t) s = execDispatchComplete r t s := rfl
@[simp] theorem exec_combine (r : Nat) (s : State) :
    exec (.combine r) s = execCombine r s := rfl
@[simp] theorem exec_combineComplete (r : Nat) (t : Nat) (s : State) :
    exec (.combineComplete r t) s = execCombineComplete r t s := rfl
@[simp] theorem exec_carderStallTimeout (r : Nat) (t : Nat) (s : State) :
    exec (.carderStallTimeout r t) s = execCarderStallTimeout r t s := rfl
@[simp] theorem exec_crdTok (p : Packet) (s : State) :
    exec (.crdTok p) s = execCrdTok p s := rfl
@[simp] theorem exec_crdDone (p : Packet) (s : State) :
    exec (.crdDone p) s = execCrdDone p s := rfl
@[simp] theorem exec_crdRet (p : Packet) (s : State) :
    exec (.crdRet p) s = execCrdRet p s := rfl
@[simp] theorem exec_portModeWrite (n : Nat) (v : Word) (s : State) :
    exec (.portModeWrite n v) s = execPortModeWrite n v s := rfl
@[simp] theorem exec_portLinkUp (n : Nat) (s : State) :
    exec (.portLinkUp n) s = execPortLinkUp n s := rfl
@[simp] theorem exec_portLinkDown (n : Nat) (s : State) :
    exec (.portLinkDown n) s = execPortLinkDown n s := rfl
@[simp] theorem exec_frameReceive (n : Nat) (bs : List Byte) (badFcs : Bool) (corr : Nat) (uncorr : Nat) (syms : Nat) (s : State) :
    exec (.frameReceive n bs badFcs corr uncorr syms) s = execFrameReceive n bs badFcs corr uncorr syms s := rfl
@[simp] theorem exec_frameTransmit (n : Nat) (s : State) :
    exec (.frameTransmit n) s = execFrameTransmit n s := rfl
@[simp] theorem exec_rawTransmit (n : Nat) (v : Word) (s : State) :
    exec (.rawTransmit n v) s = execRawTransmit n v s := rfl
@[simp] theorem exec_rxcqEnable (n : Nat) (v : Word) (s : State) :
    exec (.rxcqEnable n v) s = execRxcqEnable n v s := rfl
@[simp] theorem exec_gclChange (n : Nat) (v : Word) (s : State) :
    exec (.gclChange n v) s = execGclChange n v s := rfl
@[simp] theorem exec_gclAbort (n : Nat) (v : Word) (s : State) :
    exec (.gclAbort n v) s = execGclAbort n v s := rfl
@[simp] theorem exec_gclSwitch (n : Nat) (s : State) :
    exec (.gclSwitch n) s = execGclSwitch n s := rfl
@[simp] theorem exec_gclEntryAdvance (n : Nat) (s : State) :
    exec (.gclEntryAdvance n) s = execGclEntryAdvance n s := rfl
@[simp] theorem exec_syncArm (n : Nat) (s : State) :
    exec (.syncArm n) s = execSyncArm n s := rfl
@[simp] theorem exec_syncInEdge (s : State) :
    exec (.syncInEdge) s = execSyncInEdge s := rfl
@[simp] theorem exec_lpiEnter (n : Nat) (s : State) :
    exec (.lpiEnter n) s = execLpiEnter n s := rfl
@[simp] theorem exec_lpiWake (n : Nat) (s : State) :
    exec (.lpiWake n) s = execLpiWake n s := rfl
@[simp] theorem exec_prewake (n : Nat) (s : State) :
    exec (.prewake n) s = execPrewake n s := rfl
@[simp] theorem exec_lldpduTransmit (n : Nat) (s : State) :
    exec (.lldpduTransmit n) s = execLldpduTransmit n s := rfl
@[simp] theorem exec_lldpTlvExpiry (n : Nat) (s : State) :
    exec (.lldpTlvExpiry n) s = execLldpTlvExpiry n s := rfl
@[simp] theorem exec_cxlLinkUp (proto : Nat) (width : Nat) (s : State) :
    exec (.cxlLinkUp proto width) s = execCxlLinkUp proto width s := rfl
@[simp] theorem exec_cxlLinkDown (s : State) :
    exec (.cxlLinkDown) s = execCxlLinkDown s := rfl
@[simp] theorem exec_hostPathRestored (s : State) :
    exec (.hostPathRestored) s = execHostPathRestored s := rfl
@[simp] theorem exec_linkDownTimeout (s : State) :
    exec (.linkDownTimeout) s = execLinkDownTimeout s := rfl
@[simp] theorem exec_bar2Read (fn : Nat) (off : Nat) (n : Nat) (s : State) :
    exec (.bar2Read fn off n) s = execBar2Read fn off n s := rfl
@[simp] theorem exec_bar2Write (fn : Nat) (off : Nat) (bs : List Byte) (s : State) :
    exec (.bar2Write fn off bs) s = execBar2Write fn off bs s := rfl
@[simp] theorem exec_hdmRead (pa : Nat) (n : Nat) (s : State) :
    exec (.hdmRead pa n) s = execHdmRead pa n s := rfl
@[simp] theorem exec_hdmWrite (pa : Nat) (bs : List Byte) (s : State) :
    exec (.hdmWrite pa bs) s = execHdmWrite pa bs s := rfl
@[simp] theorem exec_perstAssert (s : State) :
    exec (.perstAssert) s = execPerstAssert s := rfl
@[simp] theorem exec_perstDeassert (s : State) :
    exec (.perstDeassert) s = execPerstDeassert s := rfl
@[simp] theorem exec_policyResume (v : Word) (s : State) :
    exec (.policyResume v) s = execPolicyResume v s := rfl
@[simp] theorem exec_attentionPulseEnd (s : State) :
    exec (.attentionPulseEnd) s = execAttentionPulseEnd s := rfl
@[simp] theorem exec_attentionHoldoffEnd (s : State) :
    exec (.attentionHoldoffEnd) s = execAttentionHoldoffEnd s := rfl
@[simp] theorem exec_vfEnable (n : Nat) (s : State) :
    exec (.vfEnable n) s = execVfEnable n s := rfl
@[simp] theorem exec_functionLevelReset (n : Nat) (s : State) :
    exec (.functionLevelReset n) s = execFunctionLevelReset n s := rfl
@[simp] theorem exec_pf0Flr (s : State) :
    exec (.pf0Flr) s = execPf0Flr s := rfl
@[simp] theorem exec_partResize (r : Nat) (s : State) :
    exec (.partResize r) s = execPartResize r s := rfl
@[simp] theorem exec_partReset (r : Nat) (s : State) :
    exec (.partReset r) s = execPartReset r s := rfl
@[simp] theorem exec_partFreeze (r : Nat) (s : State) :
    exec (.partFreeze r) s = execPartFreeze r s := rfl
@[simp] theorem exec_partThaw (r : Nat) (s : State) :
    exec (.partThaw r) s = execPartThaw r s := rfl
@[simp] theorem exec_partSave (r : Nat) (s : State) :
    exec (.partSave r) s = execPartSave r s := rfl
@[simp] theorem exec_partRestore (r : Nat) (s : State) :
    exec (.partRestore r) s = execPartRestore r s := rfl
@[simp] theorem exec_reqFull (s : State) :
    exec (.reqFull) s = execReqFull s := rfl
@[simp] theorem exec_reqTrim (s : State) :
    exec (.reqTrim) s = execReqTrim s := rfl
@[simp] theorem exec_reqDoze (s : State) :
    exec (.reqDoze) s = execReqDoze s := rfl
@[simp] theorem exec_reqStandby (s : State) :
    exec (.reqStandby) s = execReqStandby s := rfl
@[simp] theorem exec_dozeGate (s : State) :
    exec (.dozeGate) s = execDozeGate s := rfl
@[simp] theorem exec_gillSample (c : Nat) (x : BitVec 16) (s : State) :
    exec (.gillSample c x) s = execGillSample c x s := rfl
@[simp] theorem exec_gillInputChange (d : Nat) (level : Bool) (s : State) :
    exec (.gillInputChange d level) s = execGillInputChange d level s := rfl
@[simp] theorem exec_gillInputStuck (d : Nat) (s : State) :
    exec (.gillInputStuck d) s = execGillInputStuck d s := rfl
@[simp] theorem exec_gillChatterEnd (d : Nat) (s : State) :
    exec (.gillChatterEnd d) s = execGillChatterEnd d s := rfl
@[simp] theorem exec_gillRuleFire (i : Nat) (s : State) :
    exec (.gillRuleFire i) s = execGillRuleFire i s := rfl
@[simp] theorem exec_gillRuleRelease (i : Nat) (s : State) :
    exec (.gillRuleRelease i) s = execGillRuleRelease i s := rfl
@[simp] theorem exec_gillSilent (s : State) :
    exec (.gillSilent) s = execGillSilent s := rfl
@[simp] theorem exec_gillLock (s : State) :
    exec (.gillLock) s = execGillLock s := rfl
@[simp] theorem exec_twinPair (r : Nat) (s : State) :
    exec (.twinPair r) s = execTwinPair r s := rfl
@[simp] theorem exec_twinSyncComplete (s : State) :
    exec (.twinSyncComplete) s = execTwinSyncComplete s := rfl
@[simp] theorem exec_twinPairTimeout (s : State) :
    exec (.twinPairTimeout) s = execTwinPairTimeout s := rfl
@[simp] theorem exec_twinUnpair (r : Nat) (s : State) :
    exec (.twinUnpair r) s = execTwinUnpair r s := rfl
@[simp] theorem exec_twinHbFrame (bs : List Byte) (badFec : Bool) (s : State) :
    exec (.twinHbFrame bs badFec) s = execTwinHbFrame bs badFec s := rfl
@[simp] theorem exec_twinDelta (bs : List Byte) (badFec : Bool) (s : State) :
    exec (.twinDelta bs badFec) s = execTwinDelta bs badFec s := rfl
@[simp] theorem exec_twinData (bs : List Byte) (badFec : Bool) (s : State) :
    exec (.twinData bs badFec) s = execTwinData bs badFec s := rfl
@[simp] theorem exec_twinAck (bs : List Byte) (badFec : Bool) (s : State) :
    exec (.twinAck bs badFec) s = execTwinAck bs badFec s := rfl
@[simp] theorem exec_twinPairFrame (bs : List Byte) (badFec : Bool) (s : State) :
    exec (.twinPairFrame bs badFec) s = execTwinPairFrame bs badFec s := rfl
@[simp] theorem exec_twinUnpairFrame (bs : List Byte) (badFec : Bool) (s : State) :
    exec (.twinUnpairFrame bs badFec) s = execTwinUnpairFrame bs badFec s := rfl
@[simp] theorem exec_twinHbSend (s : State) :
    exec (.twinHbSend) s = execTwinHbSend s := rfl
@[simp] theorem exec_twinAckTimer (s : State) :
    exec (.twinAckTimer) s = execTwinAckTimer s := rfl
@[simp] theorem exec_twinResend (s : State) :
    exec (.twinResend) s = execTwinResend s := rfl
@[simp] theorem exec_twinHbSilent (s : State) :
    exec (.twinHbSilent) s = execTwinHbSilent s := rfl
@[simp] theorem exec_twinFailureDetect (s : State) :
    exec (.twinFailureDetect) s = execTwinFailureDetect s := rfl
@[simp] theorem exec_takeoverAnnounce (s : State) :
    exec (.takeoverAnnounce) s = execTakeoverAnnounce s := rfl
@[simp] theorem exec_twinKeyLoad (s : State) :
    exec (.twinKeyLoad) s = execTwinKeyLoad s := rfl
@[simp] theorem exec_twinKeyClr (s : State) :
    exec (.twinKeyClr) s = execTwinKeyClr s := rfl
@[simp] theorem exec_manifest (s : State) :
    exec (.manifest) s = execManifest s := rfl
@[simp] theorem exec_blocks (s : State) :
    exec (.blocks) s = execBlocks s := rfl
@[simp] theorem exec_start (ready : Bool) (eeprom : Bool) (s : State) :
    exec (.start ready eeprom) s = execStart ready eeprom s := rfl
@[simp] theorem exec_discard (s : State) :
    exec (.discard) s = execDiscard s := rfl
@[simp] theorem exec_attest (s : State) :
    exec (.attest) s = execAttest s := rfl
@[simp] theorem exec_settingsRead (s : State) :
    exec (.settingsRead) s = execSettingsRead s := rfl
@[simp] theorem exec_settingsWrite (s : State) :
    exec (.settingsWrite) s = execSettingsWrite s := rfl
@[simp] theorem exec_activate (r : Nat) (ready : Bool) (eeprom : Bool) (s : State) :
    exec (.activate r ready eeprom) s = execActivate r ready eeprom s := rfl
@[simp] theorem exec_powerOn (s : State) :
    exec (.powerOn) s = execPowerOn s := rfl
@[simp] theorem exec_zerofillComplete (s : State) :
    exec (.zerofillComplete) s = execZerofillComplete s := rfl
@[simp] theorem exec_powerLoss (s : State) :
    exec (.powerLoss) s = execPowerLoss s := rfl
@[simp] theorem exec_overvoltageDisconnect (s : State) :
    exec (.overvoltageDisconnect) s = execOvervoltageDisconnect s := rfl
@[simp] theorem exec_refclk156Loss (s : State) :
    exec (.refclk156Loss) s = execRefclk156Loss s := rfl
@[simp] theorem exec_refclk156Restore (s : State) :
    exec (.refclk156Restore) s = execRefclk156Restore s := rfl
@[simp] theorem exec_errorDetect (code : Nat) (unit : Nat) (inst : Nat) (part : Option Nat) (addr : Nat) (flag : Bool) (data0 : Word) (s : State) :
    exec (.errorDetect code unit inst part addr flag data0) s = execErrorDetect code unit inst part addr flag data0 s := rfl
@[simp] theorem exec_fenceTimeout (p : Nat) (s : State) :
    exec (.fenceTimeout p) s = execFenceTimeout p s := rfl
@[simp] theorem exec_mpHang (h : Nat) (s : State) :
    exec (.mpHang h) s = execMpHang h s := rfl
@[simp] theorem exec_errHeadWrite (v : Word) (s : State) :
    exec (.errHeadWrite v) s = execErrHeadWrite v s := rfl
@[simp] theorem exec_smbusStatus (s : State) :
    exec (.smbusStatus) s = execSmbusStatus s := rfl
@[simp] theorem exec_smbusRead (off : Nat) (s : State) :
    exec (.smbusRead off) s = execSmbusRead off s := rfl
@[simp] theorem exec_smbusWrite (off : Nat) (v : Word) (s : State) :
    exec (.smbusWrite off v) s = execSmbusWrite off v s := rfl
@[simp] theorem exec_smbusWake (v : Byte) (s : State) :
    exec (.smbusWake v) s = execSmbusWake v s := rfl
@[simp] theorem exec_sreadResponse (t : Nat) (id : Nat) (s : State) :
    exec (.sreadResponse t id) s = execSreadResponse t id s := rfl
@[simp] theorem exec_gillReportsResume (s : State) :
    exec (.gillReportsResume) s = execGillReportsResume s := rfl
@[simp] theorem exec_gillStuckEnd (d : Nat) (s : State) :
    exec (.gillStuckEnd d) s = execGillStuckEnd d s := rfl
@[simp] theorem exec_twinLinkTrained (s : State) :
    exec (.twinLinkTrained) s = execTwinLinkTrained s := rfl
@[simp] theorem exec_drdyBusyMinimumEnd (s : State) :
    exec (.drdyBusyMinimumEnd) s = execDrdyBusyMinimumEnd s := rfl
@[simp] theorem exec_postBusyAttention (s : State) :
    exec (.postBusyAttention) s = execPostBusyAttention s := rfl
@[simp] theorem exec_dozeExitComplete (s : State) :
    exec (.dozeExitComplete) s = execDozeExitComplete s := rfl
@[simp] theorem exec_selfRefreshEntry (s : State) :
    exec (.selfRefreshEntry) s = execSelfRefreshEntry s := rfl

end Sys2Proof.Machine
end

