-- ==== Sys2Proof/Laws/State.lean ====
section
/-! SUPPORT. What each update of the state leaves as it was, one lemma a field. -/

namespace Sys2Proof.Machine

/-! `setThread`. -/

@[simp] theorem setThread_pending (s : State) (t : Nat) (x : Thread) :
    (setThread s t x).pending = s.pending := rfl
@[simp] theorem setThread_mem (s : State) (t : Nat) (x : Thread) :
    (setThread s t x).mem = s.mem := rfl
@[simp] theorem setThread_checks (s : State) (t : Nat) (x : Thread) :
    (setThread s t x).checks = s.checks := rfl
@[simp] theorem setThread_regs (s : State) (t : Nat) (x : Thread) :
    (setThread s t x).regs = s.regs := rfl
@[simp] theorem setThread_readData (s : State) (t : Nat) (x : Thread) :
    (setThread s t x).readData = s.readData := rfl
@[simp] theorem setThread_clocks (s : State) (t : Nat) (x : Thread) :
    (setThread s t x).clocks = s.clocks := rfl
@[simp] theorem setThread_freeCtr (s : State) (t : Nat) (x : Thread) :
    (setThread s t x).freeCtr = s.freeCtr := rfl
@[simp] theorem setThread_groups (s : State) (t : Nat) (x : Thread) :
    (setThread s t x).groups = s.groups := rfl
@[simp] theorem setThread_grids (s : State) (t : Nat) (x : Thread) :
    (setThread s t x).grids = s.grids := rfl
@[simp] theorem setThread_nextGrid (s : State) (t : Nat) (x : Thread) :
    (setThread s t x).nextGrid = s.nextGrid := rfl
@[simp] theorem setThread_images (s : State) (t : Nat) (x : Thread) :
    (setThread s t x).images = s.images := rfl
@[simp] theorem setThread_movers (s : State) (t : Nat) (x : Thread) :
    (setThread s t x).movers = s.movers := rfl
@[simp] theorem setThread_accs (s : State) (t : Nat) (x : Thread) :
    (setThread s t x).accs = s.accs := rfl
@[simp] theorem setThread_macBusy (s : State) (t : Nat) (x : Thread) :
    (setThread s t x).macBusy = s.macBusy := rfl
@[simp] theorem setThread_dbgHalt (s : State) (t : Nat) (x : Thread) :
    (setThread s t x).dbgHalt = s.dbgHalt := rfl
@[simp] theorem setThread_tlb (s : State) (t : Nat) (x : Thread) :
    (setThread s t x).tlb = s.tlb := rfl
@[simp] theorem setThread_owners (s : State) (t : Nat) (x : Thread) :
    (setThread s t x).owners = s.owners := rfl
@[simp] theorem setThread_invs (s : State) (t : Nat) (x : Thread) :
    (setThread s t x).invs = s.invs := rfl
@[simp] theorem setThread_faults (s : State) (t : Nat) (x : Thread) :
    (setThread s t x).faults = s.faults := rfl
@[simp] theorem setThread_syncs (s : State) (t : Nat) (x : Thread) :
    (setThread s t x).syncs = s.syncs := rfl
@[simp] theorem setThread_rings (s : State) (t : Nat) (x : Thread) :
    (setThread s t x).rings = s.rings := rfl
@[simp] theorem setThread_err (s : State) (t : Nat) (x : Thread) :
    (setThread s t x).err = s.err := rfl
@[simp] theorem setThread_mpEvents (s : State) (t : Nat) (x : Thread) :
    (setThread s t x).mpEvents = s.mpEvents := rfl
@[simp] theorem setThread_parts (s : State) (t : Nat) (x : Thread) :
    (setThread s t x).parts = s.parts := rfl
@[simp] theorem setThread_qps (s : State) (t : Nat) (x : Thread) :
    (setThread s t x).qps = s.qps := rfl
@[simp] theorem setThread_keys (s : State) (t : Nat) (x : Thread) :
    (setThread s t x).keys = s.keys := rfl
@[simp] theorem setThread_firkin (s : State) (t : Nat) (x : Thread) :
    (setThread s t x).firkin = s.firkin := rfl
@[simp] theorem setThread_arrived (s : State) (t : Nat) (x : Thread) :
    (setThread s t x).arrived = s.arrived := rfl
@[simp] theorem setThread_aqLast (s : State) (t : Nat) (x : Thread) :
    (setThread s t x).aqLast = s.aqLast := rfl
@[simp] theorem setThread_netEvents (s : State) (t : Nat) (x : Thread) :
    (setThread s t x).netEvents = s.netEvents := rfl
@[simp] theorem setThread_twin (s : State) (t : Nat) (x : Thread) :
    (setThread s t x).twin = s.twin := rfl
@[simp] theorem setThread_bushel (s : State) (t : Nat) (x : Thread) :
    (setThread s t x).bushel = s.bushel := rfl
@[simp] theorem setThread_binds (s : State) (t : Nat) (x : Thread) :
    (setThread s t x).binds = s.binds := rfl
@[simp] theorem setThread_tags (s : State) (t : Nat) (x : Thread) :
    (setThread s t x).tags = s.tags := rfl
@[simp] theorem setThread_slots (s : State) (t : Nat) (x : Thread) :
    (setThread s t x).slots = s.slots := rfl
@[simp] theorem setThread_tagged (s : State) (t : Nat) (x : Thread) :
    (setThread s t x).tagged = s.tagged := rfl
@[simp] theorem setThread_ports (s : State) (t : Nat) (x : Thread) :
    (setThread s t x).ports = s.ports := rfl
@[simp] theorem setThread_coreOwner (s : State) (t : Nat) (x : Thread) :
    (setThread s t x).coreOwner = s.coreOwner := rfl
@[simp] theorem setThread_sched (s : State) (t : Nat) (x : Thread) :
    (setThread s t x).sched = s.sched := rfl
@[simp] theorem setThread_gill (s : State) (t : Nat) (x : Thread) :
    (setThread s t x).gill = s.gill := rfl
@[simp] theorem setThread_linkUp (s : State) (t : Nat) (x : Thread) :
    (setThread s t x).linkUp = s.linkUp := rfl
@[simp] theorem setThread_host (s : State) (t : Nat) (x : Thread) :
    (setThread s t x).host = s.host := rfl
@[simp] theorem setThread_drdy (s : State) (t : Nat) (x : Thread) :
    (setThread s t x).drdy = s.drdy := rfl
@[simp] theorem setThread_boot (s : State) (t : Nat) (x : Thread) :
    (setThread s t x).boot = s.boot := rfl
@[simp] theorem setThread_supply (s : State) (t : Nat) (x : Thread) :
    (setThread s t x).supply = s.supply := rfl

/-! `modThread`. -/

@[simp] theorem modThread_pending (s : State) (t : Nat) (f : Thread → Thread) :
    (modThread s t f).pending = s.pending := rfl
@[simp] theorem modThread_mem (s : State) (t : Nat) (f : Thread → Thread) :
    (modThread s t f).mem = s.mem := rfl
@[simp] theorem modThread_checks (s : State) (t : Nat) (f : Thread → Thread) :
    (modThread s t f).checks = s.checks := rfl
@[simp] theorem modThread_regs (s : State) (t : Nat) (f : Thread → Thread) :
    (modThread s t f).regs = s.regs := rfl
@[simp] theorem modThread_readData (s : State) (t : Nat) (f : Thread → Thread) :
    (modThread s t f).readData = s.readData := rfl
@[simp] theorem modThread_clocks (s : State) (t : Nat) (f : Thread → Thread) :
    (modThread s t f).clocks = s.clocks := rfl
@[simp] theorem modThread_freeCtr (s : State) (t : Nat) (f : Thread → Thread) :
    (modThread s t f).freeCtr = s.freeCtr := rfl
@[simp] theorem modThread_groups (s : State) (t : Nat) (f : Thread → Thread) :
    (modThread s t f).groups = s.groups := rfl
@[simp] theorem modThread_grids (s : State) (t : Nat) (f : Thread → Thread) :
    (modThread s t f).grids = s.grids := rfl
@[simp] theorem modThread_nextGrid (s : State) (t : Nat) (f : Thread → Thread) :
    (modThread s t f).nextGrid = s.nextGrid := rfl
@[simp] theorem modThread_images (s : State) (t : Nat) (f : Thread → Thread) :
    (modThread s t f).images = s.images := rfl
@[simp] theorem modThread_movers (s : State) (t : Nat) (f : Thread → Thread) :
    (modThread s t f).movers = s.movers := rfl
@[simp] theorem modThread_accs (s : State) (t : Nat) (f : Thread → Thread) :
    (modThread s t f).accs = s.accs := rfl
@[simp] theorem modThread_macBusy (s : State) (t : Nat) (f : Thread → Thread) :
    (modThread s t f).macBusy = s.macBusy := rfl
@[simp] theorem modThread_dbgHalt (s : State) (t : Nat) (f : Thread → Thread) :
    (modThread s t f).dbgHalt = s.dbgHalt := rfl
@[simp] theorem modThread_tlb (s : State) (t : Nat) (f : Thread → Thread) :
    (modThread s t f).tlb = s.tlb := rfl
@[simp] theorem modThread_owners (s : State) (t : Nat) (f : Thread → Thread) :
    (modThread s t f).owners = s.owners := rfl
@[simp] theorem modThread_invs (s : State) (t : Nat) (f : Thread → Thread) :
    (modThread s t f).invs = s.invs := rfl
@[simp] theorem modThread_faults (s : State) (t : Nat) (f : Thread → Thread) :
    (modThread s t f).faults = s.faults := rfl
@[simp] theorem modThread_syncs (s : State) (t : Nat) (f : Thread → Thread) :
    (modThread s t f).syncs = s.syncs := rfl
@[simp] theorem modThread_rings (s : State) (t : Nat) (f : Thread → Thread) :
    (modThread s t f).rings = s.rings := rfl
@[simp] theorem modThread_err (s : State) (t : Nat) (f : Thread → Thread) :
    (modThread s t f).err = s.err := rfl
@[simp] theorem modThread_mpEvents (s : State) (t : Nat) (f : Thread → Thread) :
    (modThread s t f).mpEvents = s.mpEvents := rfl
@[simp] theorem modThread_parts (s : State) (t : Nat) (f : Thread → Thread) :
    (modThread s t f).parts = s.parts := rfl
@[simp] theorem modThread_qps (s : State) (t : Nat) (f : Thread → Thread) :
    (modThread s t f).qps = s.qps := rfl
@[simp] theorem modThread_keys (s : State) (t : Nat) (f : Thread → Thread) :
    (modThread s t f).keys = s.keys := rfl
@[simp] theorem modThread_firkin (s : State) (t : Nat) (f : Thread → Thread) :
    (modThread s t f).firkin = s.firkin := rfl
@[simp] theorem modThread_arrived (s : State) (t : Nat) (f : Thread → Thread) :
    (modThread s t f).arrived = s.arrived := rfl
@[simp] theorem modThread_aqLast (s : State) (t : Nat) (f : Thread → Thread) :
    (modThread s t f).aqLast = s.aqLast := rfl
@[simp] theorem modThread_netEvents (s : State) (t : Nat) (f : Thread → Thread) :
    (modThread s t f).netEvents = s.netEvents := rfl
@[simp] theorem modThread_twin (s : State) (t : Nat) (f : Thread → Thread) :
    (modThread s t f).twin = s.twin := rfl
@[simp] theorem modThread_bushel (s : State) (t : Nat) (f : Thread → Thread) :
    (modThread s t f).bushel = s.bushel := rfl
@[simp] theorem modThread_binds (s : State) (t : Nat) (f : Thread → Thread) :
    (modThread s t f).binds = s.binds := rfl
@[simp] theorem modThread_tags (s : State) (t : Nat) (f : Thread → Thread) :
    (modThread s t f).tags = s.tags := rfl
@[simp] theorem modThread_slots (s : State) (t : Nat) (f : Thread → Thread) :
    (modThread s t f).slots = s.slots := rfl
@[simp] theorem modThread_tagged (s : State) (t : Nat) (f : Thread → Thread) :
    (modThread s t f).tagged = s.tagged := rfl
@[simp] theorem modThread_ports (s : State) (t : Nat) (f : Thread → Thread) :
    (modThread s t f).ports = s.ports := rfl
@[simp] theorem modThread_coreOwner (s : State) (t : Nat) (f : Thread → Thread) :
    (modThread s t f).coreOwner = s.coreOwner := rfl
@[simp] theorem modThread_sched (s : State) (t : Nat) (f : Thread → Thread) :
    (modThread s t f).sched = s.sched := rfl
@[simp] theorem modThread_gill (s : State) (t : Nat) (f : Thread → Thread) :
    (modThread s t f).gill = s.gill := rfl
@[simp] theorem modThread_linkUp (s : State) (t : Nat) (f : Thread → Thread) :
    (modThread s t f).linkUp = s.linkUp := rfl
@[simp] theorem modThread_host (s : State) (t : Nat) (f : Thread → Thread) :
    (modThread s t f).host = s.host := rfl
@[simp] theorem modThread_drdy (s : State) (t : Nat) (f : Thread → Thread) :
    (modThread s t f).drdy = s.drdy := rfl
@[simp] theorem modThread_boot (s : State) (t : Nat) (f : Thread → Thread) :
    (modThread s t f).boot = s.boot := rfl
@[simp] theorem modThread_supply (s : State) (t : Nat) (f : Thread → Thread) :
    (modThread s t f).supply = s.supply := rfl

/-! `setGrid`. -/

@[simp] theorem setGrid_pending (s : State) (g : Nat) (x : Grid) :
    (setGrid s g x).pending = s.pending := rfl
@[simp] theorem setGrid_mem (s : State) (g : Nat) (x : Grid) : (setGrid s g x).mem = s.mem := rfl
@[simp] theorem setGrid_checks (s : State) (g : Nat) (x : Grid) :
    (setGrid s g x).checks = s.checks := rfl
@[simp] theorem setGrid_regs (s : State) (g : Nat) (x : Grid) : (setGrid s g x).regs = s.regs := rfl
@[simp] theorem setGrid_readData (s : State) (g : Nat) (x : Grid) :
    (setGrid s g x).readData = s.readData := rfl
@[simp] theorem setGrid_clocks (s : State) (g : Nat) (x : Grid) :
    (setGrid s g x).clocks = s.clocks := rfl
@[simp] theorem setGrid_freeCtr (s : State) (g : Nat) (x : Grid) :
    (setGrid s g x).freeCtr = s.freeCtr := rfl
@[simp] theorem setGrid_threads (s : State) (g : Nat) (x : Grid) :
    (setGrid s g x).threads = s.threads := rfl
@[simp] theorem setGrid_groups (s : State) (g : Nat) (x : Grid) :
    (setGrid s g x).groups = s.groups := rfl
@[simp] theorem setGrid_nextGrid (s : State) (g : Nat) (x : Grid) :
    (setGrid s g x).nextGrid = s.nextGrid := rfl
@[simp] theorem setGrid_images (s : State) (g : Nat) (x : Grid) :
    (setGrid s g x).images = s.images := rfl
@[simp] theorem setGrid_movers (s : State) (g : Nat) (x : Grid) :
    (setGrid s g x).movers = s.movers := rfl
@[simp] theorem setGrid_accs (s : State) (g : Nat) (x : Grid) : (setGrid s g x).accs = s.accs := rfl
@[simp] theorem setGrid_macBusy (s : State) (g : Nat) (x : Grid) :
    (setGrid s g x).macBusy = s.macBusy := rfl
@[simp] theorem setGrid_dbgHalt (s : State) (g : Nat) (x : Grid) :
    (setGrid s g x).dbgHalt = s.dbgHalt := rfl
@[simp] theorem setGrid_tlb (s : State) (g : Nat) (x : Grid) : (setGrid s g x).tlb = s.tlb := rfl
@[simp] theorem setGrid_owners (s : State) (g : Nat) (x : Grid) :
    (setGrid s g x).owners = s.owners := rfl
@[simp] theorem setGrid_invs (s : State) (g : Nat) (x : Grid) : (setGrid s g x).invs = s.invs := rfl
@[simp] theorem setGrid_faults (s : State) (g : Nat) (x : Grid) :
    (setGrid s g x).faults = s.faults := rfl
@[simp] theorem setGrid_syncs (s : State) (g : Nat) (x : Grid) :
    (setGrid s g x).syncs = s.syncs := rfl
@[simp] theorem setGrid_rings (s : State) (g : Nat) (x : Grid) :
    (setGrid s g x).rings = s.rings := rfl
@[simp] theorem setGrid_err (s : State) (g : Nat) (x : Grid) : (setGrid s g x).err = s.err := rfl
@[simp] theorem setGrid_mpEvents (s : State) (g : Nat) (x : Grid) :
    (setGrid s g x).mpEvents = s.mpEvents := rfl
@[simp] theorem setGrid_parts (s : State) (g : Nat) (x : Grid) :
    (setGrid s g x).parts = s.parts := rfl
@[simp] theorem setGrid_qps (s : State) (g : Nat) (x : Grid) : (setGrid s g x).qps = s.qps := rfl
@[simp] theorem setGrid_keys (s : State) (g : Nat) (x : Grid) : (setGrid s g x).keys = s.keys := rfl
@[simp] theorem setGrid_firkin (s : State) (g : Nat) (x : Grid) :
    (setGrid s g x).firkin = s.firkin := rfl
@[simp] theorem setGrid_arrived (s : State) (g : Nat) (x : Grid) :
    (setGrid s g x).arrived = s.arrived := rfl
@[simp] theorem setGrid_aqLast (s : State) (g : Nat) (x : Grid) :
    (setGrid s g x).aqLast = s.aqLast := rfl
@[simp] theorem setGrid_netEvents (s : State) (g : Nat) (x : Grid) :
    (setGrid s g x).netEvents = s.netEvents := rfl
@[simp] theorem setGrid_twin (s : State) (g : Nat) (x : Grid) : (setGrid s g x).twin = s.twin := rfl
@[simp] theorem setGrid_bushel (s : State) (g : Nat) (x : Grid) :
    (setGrid s g x).bushel = s.bushel := rfl
@[simp] theorem setGrid_binds (s : State) (g : Nat) (x : Grid) :
    (setGrid s g x).binds = s.binds := rfl
@[simp] theorem setGrid_tags (s : State) (g : Nat) (x : Grid) : (setGrid s g x).tags = s.tags := rfl
@[simp] theorem setGrid_slots (s : State) (g : Nat) (x : Grid) :
    (setGrid s g x).slots = s.slots := rfl
@[simp] theorem setGrid_tagged (s : State) (g : Nat) (x : Grid) :
    (setGrid s g x).tagged = s.tagged := rfl
@[simp] theorem setGrid_ports (s : State) (g : Nat) (x : Grid) :
    (setGrid s g x).ports = s.ports := rfl
@[simp] theorem setGrid_coreOwner (s : State) (g : Nat) (x : Grid) :
    (setGrid s g x).coreOwner = s.coreOwner := rfl
@[simp] theorem setGrid_sched (s : State) (g : Nat) (x : Grid) :
    (setGrid s g x).sched = s.sched := rfl
@[simp] theorem setGrid_gill (s : State) (g : Nat) (x : Grid) : (setGrid s g x).gill = s.gill := rfl
@[simp] theorem setGrid_linkUp (s : State) (g : Nat) (x : Grid) :
    (setGrid s g x).linkUp = s.linkUp := rfl
@[simp] theorem setGrid_host (s : State) (g : Nat) (x : Grid) : (setGrid s g x).host = s.host := rfl
@[simp] theorem setGrid_drdy (s : State) (g : Nat) (x : Grid) : (setGrid s g x).drdy = s.drdy := rfl
@[simp] theorem setGrid_boot (s : State) (g : Nat) (x : Grid) : (setGrid s g x).boot = s.boot := rfl
@[simp] theorem setGrid_supply (s : State) (g : Nat) (x : Grid) :
    (setGrid s g x).supply = s.supply := rfl

/-! `modGrid`. -/

@[simp] theorem modGrid_pending (s : State) (g : Nat) (f : Grid → Grid) :
    (modGrid s g f).pending = s.pending := rfl
@[simp] theorem modGrid_mem (s : State) (g : Nat) (f : Grid → Grid) :
    (modGrid s g f).mem = s.mem := rfl
@[simp] theorem modGrid_checks (s : State) (g : Nat) (f : Grid → Grid) :
    (modGrid s g f).checks = s.checks := rfl
@[simp] theorem modGrid_regs (s : State) (g : Nat) (f : Grid → Grid) :
    (modGrid s g f).regs = s.regs := rfl
@[simp] theorem modGrid_readData (s : State) (g : Nat) (f : Grid → Grid) :
    (modGrid s g f).readData = s.readData := rfl
@[simp] theorem modGrid_clocks (s : State) (g : Nat) (f : Grid → Grid) :
    (modGrid s g f).clocks = s.clocks := rfl
@[simp] theorem modGrid_freeCtr (s : State) (g : Nat) (f : Grid → Grid) :
    (modGrid s g f).freeCtr = s.freeCtr := rfl
@[simp] theorem modGrid_threads (s : State) (g : Nat) (f : Grid → Grid) :
    (modGrid s g f).threads = s.threads := rfl
@[simp] theorem modGrid_groups (s : State) (g : Nat) (f : Grid → Grid) :
    (modGrid s g f).groups = s.groups := rfl
@[simp] theorem modGrid_nextGrid (s : State) (g : Nat) (f : Grid → Grid) :
    (modGrid s g f).nextGrid = s.nextGrid := rfl
@[simp] theorem modGrid_images (s : State) (g : Nat) (f : Grid → Grid) :
    (modGrid s g f).images = s.images := rfl
@[simp] theorem modGrid_movers (s : State) (g : Nat) (f : Grid → Grid) :
    (modGrid s g f).movers = s.movers := rfl
@[simp] theorem modGrid_accs (s : State) (g : Nat) (f : Grid → Grid) :
    (modGrid s g f).accs = s.accs := rfl
@[simp] theorem modGrid_macBusy (s : State) (g : Nat) (f : Grid → Grid) :
    (modGrid s g f).macBusy = s.macBusy := rfl
@[simp] theorem modGrid_dbgHalt (s : State) (g : Nat) (f : Grid → Grid) :
    (modGrid s g f).dbgHalt = s.dbgHalt := rfl
@[simp] theorem modGrid_tlb (s : State) (g : Nat) (f : Grid → Grid) :
    (modGrid s g f).tlb = s.tlb := rfl
@[simp] theorem modGrid_owners (s : State) (g : Nat) (f : Grid → Grid) :
    (modGrid s g f).owners = s.owners := rfl
@[simp] theorem modGrid_invs (s : State) (g : Nat) (f : Grid → Grid) :
    (modGrid s g f).invs = s.invs := rfl
@[simp] theorem modGrid_faults (s : State) (g : Nat) (f : Grid → Grid) :
    (modGrid s g f).faults = s.faults := rfl
@[simp] theorem modGrid_syncs (s : State) (g : Nat) (f : Grid → Grid) :
    (modGrid s g f).syncs = s.syncs := rfl
@[simp] theorem modGrid_rings (s : State) (g : Nat) (f : Grid → Grid) :
    (modGrid s g f).rings = s.rings := rfl
@[simp] theorem modGrid_err (s : State) (g : Nat) (f : Grid → Grid) :
    (modGrid s g f).err = s.err := rfl
@[simp] theorem modGrid_mpEvents (s : State) (g : Nat) (f : Grid → Grid) :
    (modGrid s g f).mpEvents = s.mpEvents := rfl
@[simp] theorem modGrid_parts (s : State) (g : Nat) (f : Grid → Grid) :
    (modGrid s g f).parts = s.parts := rfl
@[simp] theorem modGrid_qps (s : State) (g : Nat) (f : Grid → Grid) :
    (modGrid s g f).qps = s.qps := rfl
@[simp] theorem modGrid_keys (s : State) (g : Nat) (f : Grid → Grid) :
    (modGrid s g f).keys = s.keys := rfl
@[simp] theorem modGrid_firkin (s : State) (g : Nat) (f : Grid → Grid) :
    (modGrid s g f).firkin = s.firkin := rfl
@[simp] theorem modGrid_arrived (s : State) (g : Nat) (f : Grid → Grid) :
    (modGrid s g f).arrived = s.arrived := rfl
@[simp] theorem modGrid_aqLast (s : State) (g : Nat) (f : Grid → Grid) :
    (modGrid s g f).aqLast = s.aqLast := rfl
@[simp] theorem modGrid_netEvents (s : State) (g : Nat) (f : Grid → Grid) :
    (modGrid s g f).netEvents = s.netEvents := rfl
@[simp] theorem modGrid_twin (s : State) (g : Nat) (f : Grid → Grid) :
    (modGrid s g f).twin = s.twin := rfl
@[simp] theorem modGrid_bushel (s : State) (g : Nat) (f : Grid → Grid) :
    (modGrid s g f).bushel = s.bushel := rfl
@[simp] theorem modGrid_binds (s : State) (g : Nat) (f : Grid → Grid) :
    (modGrid s g f).binds = s.binds := rfl
@[simp] theorem modGrid_tags (s : State) (g : Nat) (f : Grid → Grid) :
    (modGrid s g f).tags = s.tags := rfl
@[simp] theorem modGrid_slots (s : State) (g : Nat) (f : Grid → Grid) :
    (modGrid s g f).slots = s.slots := rfl
@[simp] theorem modGrid_tagged (s : State) (g : Nat) (f : Grid → Grid) :
    (modGrid s g f).tagged = s.tagged := rfl
@[simp] theorem modGrid_ports (s : State) (g : Nat) (f : Grid → Grid) :
    (modGrid s g f).ports = s.ports := rfl
@[simp] theorem modGrid_coreOwner (s : State) (g : Nat) (f : Grid → Grid) :
    (modGrid s g f).coreOwner = s.coreOwner := rfl
@[simp] theorem modGrid_sched (s : State) (g : Nat) (f : Grid → Grid) :
    (modGrid s g f).sched = s.sched := rfl
@[simp] theorem modGrid_gill (s : State) (g : Nat) (f : Grid → Grid) :
    (modGrid s g f).gill = s.gill := rfl
@[simp] theorem modGrid_linkUp (s : State) (g : Nat) (f : Grid → Grid) :
    (modGrid s g f).linkUp = s.linkUp := rfl
@[simp] theorem modGrid_host (s : State) (g : Nat) (f : Grid → Grid) :
    (modGrid s g f).host = s.host := rfl
@[simp] theorem modGrid_drdy (s : State) (g : Nat) (f : Grid → Grid) :
    (modGrid s g f).drdy = s.drdy := rfl
@[simp] theorem modGrid_boot (s : State) (g : Nat) (f : Grid → Grid) :
    (modGrid s g f).boot = s.boot := rfl
@[simp] theorem modGrid_supply (s : State) (g : Nat) (f : Grid → Grid) :
    (modGrid s g f).supply = s.supply := rfl

/-! `modSched`. -/

@[simp] theorem modSched_pending (s : State) (f : Sched → Sched) :
    (modSched s f).pending = s.pending := rfl
@[simp] theorem modSched_mem (s : State) (f : Sched → Sched) : (modSched s f).mem = s.mem := rfl
@[simp] theorem modSched_checks (s : State) (f : Sched → Sched) :
    (modSched s f).checks = s.checks := rfl
@[simp] theorem modSched_regs (s : State) (f : Sched → Sched) : (modSched s f).regs = s.regs := rfl
@[simp] theorem modSched_readData (s : State) (f : Sched → Sched) :
    (modSched s f).readData = s.readData := rfl
@[simp] theorem modSched_clocks (s : State) (f : Sched → Sched) :
    (modSched s f).clocks = s.clocks := rfl
@[simp] theorem modSched_freeCtr (s : State) (f : Sched → Sched) :
    (modSched s f).freeCtr = s.freeCtr := rfl
@[simp] theorem modSched_threads (s : State) (f : Sched → Sched) :
    (modSched s f).threads = s.threads := rfl
@[simp] theorem modSched_groups (s : State) (f : Sched → Sched) :
    (modSched s f).groups = s.groups := rfl
@[simp] theorem modSched_grids (s : State) (f : Sched → Sched) :
    (modSched s f).grids = s.grids := rfl
@[simp] theorem modSched_nextGrid (s : State) (f : Sched → Sched) :
    (modSched s f).nextGrid = s.nextGrid := rfl
@[simp] theorem modSched_images (s : State) (f : Sched → Sched) :
    (modSched s f).images = s.images := rfl
@[simp] theorem modSched_movers (s : State) (f : Sched → Sched) :
    (modSched s f).movers = s.movers := rfl
@[simp] theorem modSched_accs (s : State) (f : Sched → Sched) : (modSched s f).accs = s.accs := rfl
@[simp] theorem modSched_macBusy (s : State) (f : Sched → Sched) :
    (modSched s f).macBusy = s.macBusy := rfl
@[simp] theorem modSched_dbgHalt (s : State) (f : Sched → Sched) :
    (modSched s f).dbgHalt = s.dbgHalt := rfl
@[simp] theorem modSched_tlb (s : State) (f : Sched → Sched) : (modSched s f).tlb = s.tlb := rfl
@[simp] theorem modSched_owners (s : State) (f : Sched → Sched) :
    (modSched s f).owners = s.owners := rfl
@[simp] theorem modSched_invs (s : State) (f : Sched → Sched) : (modSched s f).invs = s.invs := rfl
@[simp] theorem modSched_faults (s : State) (f : Sched → Sched) :
    (modSched s f).faults = s.faults := rfl
@[simp] theorem modSched_syncs (s : State) (f : Sched → Sched) :
    (modSched s f).syncs = s.syncs := rfl
@[simp] theorem modSched_rings (s : State) (f : Sched → Sched) :
    (modSched s f).rings = s.rings := rfl
@[simp] theorem modSched_err (s : State) (f : Sched → Sched) : (modSched s f).err = s.err := rfl
@[simp] theorem modSched_mpEvents (s : State) (f : Sched → Sched) :
    (modSched s f).mpEvents = s.mpEvents := rfl
@[simp] theorem modSched_parts (s : State) (f : Sched → Sched) :
    (modSched s f).parts = s.parts := rfl
@[simp] theorem modSched_qps (s : State) (f : Sched → Sched) : (modSched s f).qps = s.qps := rfl
@[simp] theorem modSched_keys (s : State) (f : Sched → Sched) : (modSched s f).keys = s.keys := rfl
@[simp] theorem modSched_firkin (s : State) (f : Sched → Sched) :
    (modSched s f).firkin = s.firkin := rfl
@[simp] theorem modSched_arrived (s : State) (f : Sched → Sched) :
    (modSched s f).arrived = s.arrived := rfl
@[simp] theorem modSched_aqLast (s : State) (f : Sched → Sched) :
    (modSched s f).aqLast = s.aqLast := rfl
@[simp] theorem modSched_netEvents (s : State) (f : Sched → Sched) :
    (modSched s f).netEvents = s.netEvents := rfl
@[simp] theorem modSched_twin (s : State) (f : Sched → Sched) : (modSched s f).twin = s.twin := rfl
@[simp] theorem modSched_bushel (s : State) (f : Sched → Sched) :
    (modSched s f).bushel = s.bushel := rfl
@[simp] theorem modSched_binds (s : State) (f : Sched → Sched) :
    (modSched s f).binds = s.binds := rfl
@[simp] theorem modSched_tags (s : State) (f : Sched → Sched) : (modSched s f).tags = s.tags := rfl
@[simp] theorem modSched_slots (s : State) (f : Sched → Sched) :
    (modSched s f).slots = s.slots := rfl
@[simp] theorem modSched_tagged (s : State) (f : Sched → Sched) :
    (modSched s f).tagged = s.tagged := rfl
@[simp] theorem modSched_ports (s : State) (f : Sched → Sched) :
    (modSched s f).ports = s.ports := rfl
@[simp] theorem modSched_coreOwner (s : State) (f : Sched → Sched) :
    (modSched s f).coreOwner = s.coreOwner := rfl
@[simp] theorem modSched_gill (s : State) (f : Sched → Sched) : (modSched s f).gill = s.gill := rfl
@[simp] theorem modSched_linkUp (s : State) (f : Sched → Sched) :
    (modSched s f).linkUp = s.linkUp := rfl
@[simp] theorem modSched_host (s : State) (f : Sched → Sched) : (modSched s f).host = s.host := rfl
@[simp] theorem modSched_drdy (s : State) (f : Sched → Sched) : (modSched s f).drdy = s.drdy := rfl
@[simp] theorem modSched_boot (s : State) (f : Sched → Sched) : (modSched s f).boot = s.boot := rfl
@[simp] theorem modSched_supply (s : State) (f : Sched → Sched) :
    (modSched s f).supply = s.supply := rfl

/-! `setPart`. -/

@[simp] theorem setPart_pending (s : State) (p : Nat) (x : Partition) :
    (setPart s p x).pending = s.pending := rfl
@[simp] theorem setPart_mem (s : State) (p : Nat) (x : Partition) :
    (setPart s p x).mem = s.mem := rfl
@[simp] theorem setPart_checks (s : State) (p : Nat) (x : Partition) :
    (setPart s p x).checks = s.checks := rfl
@[simp] theorem setPart_regs (s : State) (p : Nat) (x : Partition) :
    (setPart s p x).regs = s.regs := rfl
@[simp] theorem setPart_readData (s : State) (p : Nat) (x : Partition) :
    (setPart s p x).readData = s.readData := rfl
@[simp] theorem setPart_clocks (s : State) (p : Nat) (x : Partition) :
    (setPart s p x).clocks = s.clocks := rfl
@[simp] theorem setPart_freeCtr (s : State) (p : Nat) (x : Partition) :
    (setPart s p x).freeCtr = s.freeCtr := rfl
@[simp] theorem setPart_threads (s : State) (p : Nat) (x : Partition) :
    (setPart s p x).threads = s.threads := rfl
@[simp] theorem setPart_groups (s : State) (p : Nat) (x : Partition) :
    (setPart s p x).groups = s.groups := rfl
@[simp] theorem setPart_grids (s : State) (p : Nat) (x : Partition) :
    (setPart s p x).grids = s.grids := rfl
@[simp] theorem setPart_nextGrid (s : State) (p : Nat) (x : Partition) :
    (setPart s p x).nextGrid = s.nextGrid := rfl
@[simp] theorem setPart_images (s : State) (p : Nat) (x : Partition) :
    (setPart s p x).images = s.images := rfl
@[simp] theorem setPart_movers (s : State) (p : Nat) (x : Partition) :
    (setPart s p x).movers = s.movers := rfl
@[simp] theorem setPart_accs (s : State) (p : Nat) (x : Partition) :
    (setPart s p x).accs = s.accs := rfl
@[simp] theorem setPart_macBusy (s : State) (p : Nat) (x : Partition) :
    (setPart s p x).macBusy = s.macBusy := rfl
@[simp] theorem setPart_dbgHalt (s : State) (p : Nat) (x : Partition) :
    (setPart s p x).dbgHalt = s.dbgHalt := rfl
@[simp] theorem setPart_tlb (s : State) (p : Nat) (x : Partition) :
    (setPart s p x).tlb = s.tlb := rfl
@[simp] theorem setPart_owners (s : State) (p : Nat) (x : Partition) :
    (setPart s p x).owners = s.owners := rfl
@[simp] theorem setPart_invs (s : State) (p : Nat) (x : Partition) :
    (setPart s p x).invs = s.invs := rfl
@[simp] theorem setPart_faults (s : State) (p : Nat) (x : Partition) :
    (setPart s p x).faults = s.faults := rfl
@[simp] theorem setPart_syncs (s : State) (p : Nat) (x : Partition) :
    (setPart s p x).syncs = s.syncs := rfl
@[simp] theorem setPart_rings (s : State) (p : Nat) (x : Partition) :
    (setPart s p x).rings = s.rings := rfl
@[simp] theorem setPart_err (s : State) (p : Nat) (x : Partition) :
    (setPart s p x).err = s.err := rfl
@[simp] theorem setPart_mpEvents (s : State) (p : Nat) (x : Partition) :
    (setPart s p x).mpEvents = s.mpEvents := rfl
@[simp] theorem setPart_qps (s : State) (p : Nat) (x : Partition) :
    (setPart s p x).qps = s.qps := rfl
@[simp] theorem setPart_keys (s : State) (p : Nat) (x : Partition) :
    (setPart s p x).keys = s.keys := rfl
@[simp] theorem setPart_firkin (s : State) (p : Nat) (x : Partition) :
    (setPart s p x).firkin = s.firkin := rfl
@[simp] theorem setPart_arrived (s : State) (p : Nat) (x : Partition) :
    (setPart s p x).arrived = s.arrived := rfl
@[simp] theorem setPart_aqLast (s : State) (p : Nat) (x : Partition) :
    (setPart s p x).aqLast = s.aqLast := rfl
@[simp] theorem setPart_netEvents (s : State) (p : Nat) (x : Partition) :
    (setPart s p x).netEvents = s.netEvents := rfl
@[simp] theorem setPart_twin (s : State) (p : Nat) (x : Partition) :
    (setPart s p x).twin = s.twin := rfl
@[simp] theorem setPart_bushel (s : State) (p : Nat) (x : Partition) :
    (setPart s p x).bushel = s.bushel := rfl
@[simp] theorem setPart_binds (s : State) (p : Nat) (x : Partition) :
    (setPart s p x).binds = s.binds := rfl
@[simp] theorem setPart_tags (s : State) (p : Nat) (x : Partition) :
    (setPart s p x).tags = s.tags := rfl
@[simp] theorem setPart_slots (s : State) (p : Nat) (x : Partition) :
    (setPart s p x).slots = s.slots := rfl
@[simp] theorem setPart_tagged (s : State) (p : Nat) (x : Partition) :
    (setPart s p x).tagged = s.tagged := rfl
@[simp] theorem setPart_ports (s : State) (p : Nat) (x : Partition) :
    (setPart s p x).ports = s.ports := rfl
@[simp] theorem setPart_coreOwner (s : State) (p : Nat) (x : Partition) :
    (setPart s p x).coreOwner = s.coreOwner := rfl
@[simp] theorem setPart_sched (s : State) (p : Nat) (x : Partition) :
    (setPart s p x).sched = s.sched := rfl
@[simp] theorem setPart_gill (s : State) (p : Nat) (x : Partition) :
    (setPart s p x).gill = s.gill := rfl
@[simp] theorem setPart_linkUp (s : State) (p : Nat) (x : Partition) :
    (setPart s p x).linkUp = s.linkUp := rfl
@[simp] theorem setPart_host (s : State) (p : Nat) (x : Partition) :
    (setPart s p x).host = s.host := rfl
@[simp] theorem setPart_drdy (s : State) (p : Nat) (x : Partition) :
    (setPart s p x).drdy = s.drdy := rfl
@[simp] theorem setPart_boot (s : State) (p : Nat) (x : Partition) :
    (setPart s p x).boot = s.boot := rfl
@[simp] theorem setPart_supply (s : State) (p : Nat) (x : Partition) :
    (setPart s p x).supply = s.supply := rfl

/-! `setReg`. -/

@[simp] theorem setReg_pending (s : State) (k : Nat) (v : Word) :
    (setReg s k v).pending = s.pending := rfl
@[simp] theorem setReg_mem (s : State) (k : Nat) (v : Word) : (setReg s k v).mem = s.mem := rfl
@[simp] theorem setReg_checks (s : State) (k : Nat) (v : Word) :
    (setReg s k v).checks = s.checks := rfl
@[simp] theorem setReg_readData (s : State) (k : Nat) (v : Word) :
    (setReg s k v).readData = s.readData := rfl
@[simp] theorem setReg_clocks (s : State) (k : Nat) (v : Word) :
    (setReg s k v).clocks = s.clocks := rfl
@[simp] theorem setReg_freeCtr (s : State) (k : Nat) (v : Word) :
    (setReg s k v).freeCtr = s.freeCtr := rfl
@[simp] theorem setReg_threads (s : State) (k : Nat) (v : Word) :
    (setReg s k v).threads = s.threads := rfl
@[simp] theorem setReg_groups (s : State) (k : Nat) (v : Word) :
    (setReg s k v).groups = s.groups := rfl
@[simp] theorem setReg_grids (s : State) (k : Nat) (v : Word) :
    (setReg s k v).grids = s.grids := rfl
@[simp] theorem setReg_nextGrid (s : State) (k : Nat) (v : Word) :
    (setReg s k v).nextGrid = s.nextGrid := rfl
@[simp] theorem setReg_images (s : State) (k : Nat) (v : Word) :
    (setReg s k v).images = s.images := rfl
@[simp] theorem setReg_movers (s : State) (k : Nat) (v : Word) :
    (setReg s k v).movers = s.movers := rfl
@[simp] theorem setReg_accs (s : State) (k : Nat) (v : Word) : (setReg s k v).accs = s.accs := rfl
@[simp] theorem setReg_macBusy (s : State) (k : Nat) (v : Word) :
    (setReg s k v).macBusy = s.macBusy := rfl
@[simp] theorem setReg_dbgHalt (s : State) (k : Nat) (v : Word) :
    (setReg s k v).dbgHalt = s.dbgHalt := rfl
@[simp] theorem setReg_tlb (s : State) (k : Nat) (v : Word) : (setReg s k v).tlb = s.tlb := rfl
@[simp] theorem setReg_owners (s : State) (k : Nat) (v : Word) :
    (setReg s k v).owners = s.owners := rfl
@[simp] theorem setReg_invs (s : State) (k : Nat) (v : Word) : (setReg s k v).invs = s.invs := rfl
@[simp] theorem setReg_faults (s : State) (k : Nat) (v : Word) :
    (setReg s k v).faults = s.faults := rfl
@[simp] theorem setReg_syncs (s : State) (k : Nat) (v : Word) :
    (setReg s k v).syncs = s.syncs := rfl
@[simp] theorem setReg_rings (s : State) (k : Nat) (v : Word) :
    (setReg s k v).rings = s.rings := rfl
@[simp] theorem setReg_err (s : State) (k : Nat) (v : Word) : (setReg s k v).err = s.err := rfl
@[simp] theorem setReg_mpEvents (s : State) (k : Nat) (v : Word) :
    (setReg s k v).mpEvents = s.mpEvents := rfl
@[simp] theorem setReg_parts (s : State) (k : Nat) (v : Word) :
    (setReg s k v).parts = s.parts := rfl
@[simp] theorem setReg_qps (s : State) (k : Nat) (v : Word) : (setReg s k v).qps = s.qps := rfl
@[simp] theorem setReg_keys (s : State) (k : Nat) (v : Word) : (setReg s k v).keys = s.keys := rfl
@[simp] theorem setReg_firkin (s : State) (k : Nat) (v : Word) :
    (setReg s k v).firkin = s.firkin := rfl
@[simp] theorem setReg_arrived (s : State) (k : Nat) (v : Word) :
    (setReg s k v).arrived = s.arrived := rfl
@[simp] theorem setReg_aqLast (s : State) (k : Nat) (v : Word) :
    (setReg s k v).aqLast = s.aqLast := rfl
@[simp] theorem setReg_netEvents (s : State) (k : Nat) (v : Word) :
    (setReg s k v).netEvents = s.netEvents := rfl
@[simp] theorem setReg_twin (s : State) (k : Nat) (v : Word) : (setReg s k v).twin = s.twin := rfl
@[simp] theorem setReg_bushel (s : State) (k : Nat) (v : Word) :
    (setReg s k v).bushel = s.bushel := rfl
@[simp] theorem setReg_binds (s : State) (k : Nat) (v : Word) :
    (setReg s k v).binds = s.binds := rfl
@[simp] theorem setReg_tags (s : State) (k : Nat) (v : Word) : (setReg s k v).tags = s.tags := rfl
@[simp] theorem setReg_slots (s : State) (k : Nat) (v : Word) :
    (setReg s k v).slots = s.slots := rfl
@[simp] theorem setReg_tagged (s : State) (k : Nat) (v : Word) :
    (setReg s k v).tagged = s.tagged := rfl
@[simp] theorem setReg_ports (s : State) (k : Nat) (v : Word) :
    (setReg s k v).ports = s.ports := rfl
@[simp] theorem setReg_coreOwner (s : State) (k : Nat) (v : Word) :
    (setReg s k v).coreOwner = s.coreOwner := rfl
@[simp] theorem setReg_sched (s : State) (k : Nat) (v : Word) :
    (setReg s k v).sched = s.sched := rfl
@[simp] theorem setReg_gill (s : State) (k : Nat) (v : Word) : (setReg s k v).gill = s.gill := rfl
@[simp] theorem setReg_linkUp (s : State) (k : Nat) (v : Word) :
    (setReg s k v).linkUp = s.linkUp := rfl
@[simp] theorem setReg_host (s : State) (k : Nat) (v : Word) : (setReg s k v).host = s.host := rfl
@[simp] theorem setReg_drdy (s : State) (k : Nat) (v : Word) : (setReg s k v).drdy = s.drdy := rfl
@[simp] theorem setReg_boot (s : State) (k : Nat) (v : Word) : (setReg s k v).boot = s.boot := rfl
@[simp] theorem setReg_supply (s : State) (k : Nat) (v : Word) :
    (setReg s k v).supply = s.supply := rfl

/-! `bump`. -/

@[simp] theorem bump_pending (s : State) (k lo n c : Nat) :
    (bump s k lo n c).pending = s.pending := rfl
@[simp] theorem bump_mem (s : State) (k lo n c : Nat) : (bump s k lo n c).mem = s.mem := rfl
@[simp] theorem bump_checks (s : State) (k lo n c : Nat) :
    (bump s k lo n c).checks = s.checks := rfl
@[simp] theorem bump_readData (s : State) (k lo n c : Nat) :
    (bump s k lo n c).readData = s.readData := rfl
@[simp] theorem bump_clocks (s : State) (k lo n c : Nat) :
    (bump s k lo n c).clocks = s.clocks := rfl
@[simp] theorem bump_freeCtr (s : State) (k lo n c : Nat) :
    (bump s k lo n c).freeCtr = s.freeCtr := rfl
@[simp] theorem bump_threads (s : State) (k lo n c : Nat) :
    (bump s k lo n c).threads = s.threads := rfl
@[simp] theorem bump_groups (s : State) (k lo n c : Nat) :
    (bump s k lo n c).groups = s.groups := rfl
@[simp] theorem bump_grids (s : State) (k lo n c : Nat) : (bump s k lo n c).grids = s.grids := rfl
@[simp] theorem bump_nextGrid (s : State) (k lo n c : Nat) :
    (bump s k lo n c).nextGrid = s.nextGrid := rfl
@[simp] theorem bump_images (s : State) (k lo n c : Nat) :
    (bump s k lo n c).images = s.images := rfl
@[simp] theorem bump_movers (s : State) (k lo n c : Nat) :
    (bump s k lo n c).movers = s.movers := rfl
@[simp] theorem bump_accs (s : State) (k lo n c : Nat) : (bump s k lo n c).accs = s.accs := rfl
@[simp] theorem bump_macBusy (s : State) (k lo n c : Nat) :
    (bump s k lo n c).macBusy = s.macBusy := rfl
@[simp] theorem bump_dbgHalt (s : State) (k lo n c : Nat) :
    (bump s k lo n c).dbgHalt = s.dbgHalt := rfl
@[simp] theorem bump_tlb (s : State) (k lo n c : Nat) : (bump s k lo n c).tlb = s.tlb := rfl
@[simp] theorem bump_owners (s : State) (k lo n c : Nat) :
    (bump s k lo n c).owners = s.owners := rfl
@[simp] theorem bump_invs (s : State) (k lo n c : Nat) : (bump s k lo n c).invs = s.invs := rfl
@[simp] theorem bump_faults (s : State) (k lo n c : Nat) :
    (bump s k lo n c).faults = s.faults := rfl
@[simp] theorem bump_syncs (s : State) (k lo n c : Nat) : (bump s k lo n c).syncs = s.syncs := rfl
@[simp] theorem bump_rings (s : State) (k lo n c : Nat) : (bump s k lo n c).rings = s.rings := rfl
@[simp] theorem bump_err (s : State) (k lo n c : Nat) : (bump s k lo n c).err = s.err := rfl
@[simp] theorem bump_mpEvents (s : State) (k lo n c : Nat) :
    (bump s k lo n c).mpEvents = s.mpEvents := rfl
@[simp] theorem bump_parts (s : State) (k lo n c : Nat) : (bump s k lo n c).parts = s.parts := rfl
@[simp] theorem bump_qps (s : State) (k lo n c : Nat) : (bump s k lo n c).qps = s.qps := rfl
@[simp] theorem bump_keys (s : State) (k lo n c : Nat) : (bump s k lo n c).keys = s.keys := rfl
@[simp] theorem bump_firkin (s : State) (k lo n c : Nat) :
    (bump s k lo n c).firkin = s.firkin := rfl
@[simp] theorem bump_arrived (s : State) (k lo n c : Nat) :
    (bump s k lo n c).arrived = s.arrived := rfl
@[simp] theorem bump_aqLast (s : State) (k lo n c : Nat) :
    (bump s k lo n c).aqLast = s.aqLast := rfl
@[simp] theorem bump_netEvents (s : State) (k lo n c : Nat) :
    (bump s k lo n c).netEvents = s.netEvents := rfl
@[simp] theorem bump_twin (s : State) (k lo n c : Nat) : (bump s k lo n c).twin = s.twin := rfl
@[simp] theorem bump_bushel (s : State) (k lo n c : Nat) :
    (bump s k lo n c).bushel = s.bushel := rfl
@[simp] theorem bump_binds (s : State) (k lo n c : Nat) : (bump s k lo n c).binds = s.binds := rfl
@[simp] theorem bump_tags (s : State) (k lo n c : Nat) : (bump s k lo n c).tags = s.tags := rfl
@[simp] theorem bump_slots (s : State) (k lo n c : Nat) : (bump s k lo n c).slots = s.slots := rfl
@[simp] theorem bump_tagged (s : State) (k lo n c : Nat) :
    (bump s k lo n c).tagged = s.tagged := rfl
@[simp] theorem bump_ports (s : State) (k lo n c : Nat) : (bump s k lo n c).ports = s.ports := rfl
@[simp] theorem bump_coreOwner (s : State) (k lo n c : Nat) :
    (bump s k lo n c).coreOwner = s.coreOwner := rfl
@[simp] theorem bump_sched (s : State) (k lo n c : Nat) : (bump s k lo n c).sched = s.sched := rfl
@[simp] theorem bump_gill (s : State) (k lo n c : Nat) : (bump s k lo n c).gill = s.gill := rfl
@[simp] theorem bump_linkUp (s : State) (k lo n c : Nat) :
    (bump s k lo n c).linkUp = s.linkUp := rfl
@[simp] theorem bump_host (s : State) (k lo n c : Nat) : (bump s k lo n c).host = s.host := rfl
@[simp] theorem bump_drdy (s : State) (k lo n c : Nat) : (bump s k lo n c).drdy = s.drdy := rfl
@[simp] theorem bump_boot (s : State) (k lo n c : Nat) : (bump s k lo n c).boot = s.boot := rfl
@[simp] theorem bump_supply (s : State) (k lo n c : Nat) :
    (bump s k lo n c).supply = s.supply := rfl

/-! `poke`. -/

@[simp] theorem poke_pending (s : State) (pa : Nat) (bs : List Byte) :
    (poke s pa bs).pending = s.pending := rfl
@[simp] theorem poke_checks (s : State) (pa : Nat) (bs : List Byte) :
    (poke s pa bs).checks = s.checks := rfl
@[simp] theorem poke_regs (s : State) (pa : Nat) (bs : List Byte) :
    (poke s pa bs).regs = s.regs := rfl
@[simp] theorem poke_readData (s : State) (pa : Nat) (bs : List Byte) :
    (poke s pa bs).readData = s.readData := rfl
@[simp] theorem poke_clocks (s : State) (pa : Nat) (bs : List Byte) :
    (poke s pa bs).clocks = s.clocks := rfl
@[simp] theorem poke_freeCtr (s : State) (pa : Nat) (bs : List Byte) :
    (poke s pa bs).freeCtr = s.freeCtr := rfl
@[simp] theorem poke_threads (s : State) (pa : Nat) (bs : List Byte) :
    (poke s pa bs).threads = s.threads := rfl
@[simp] theorem poke_groups (s : State) (pa : Nat) (bs : List Byte) :
    (poke s pa bs).groups = s.groups := rfl
@[simp] theorem poke_grids (s : State) (pa : Nat) (bs : List Byte) :
    (poke s pa bs).grids = s.grids := rfl
@[simp] theorem poke_nextGrid (s : State) (pa : Nat) (bs : List Byte) :
    (poke s pa bs).nextGrid = s.nextGrid := rfl
@[simp] theorem poke_images (s : State) (pa : Nat) (bs : List Byte) :
    (poke s pa bs).images = s.images := rfl
@[simp] theorem poke_movers (s : State) (pa : Nat) (bs : List Byte) :
    (poke s pa bs).movers = s.movers := rfl
@[simp] theorem poke_accs (s : State) (pa : Nat) (bs : List Byte) :
    (poke s pa bs).accs = s.accs := rfl
@[simp] theorem poke_macBusy (s : State) (pa : Nat) (bs : List Byte) :
    (poke s pa bs).macBusy = s.macBusy := rfl
@[simp] theorem poke_dbgHalt (s : State) (pa : Nat) (bs : List Byte) :
    (poke s pa bs).dbgHalt = s.dbgHalt := rfl
@[simp] theorem poke_tlb (s : State) (pa : Nat) (bs : List Byte) : (poke s pa bs).tlb = s.tlb := rfl
@[simp] theorem poke_owners (s : State) (pa : Nat) (bs : List Byte) :
    (poke s pa bs).owners = s.owners := rfl
@[simp] theorem poke_invs (s : State) (pa : Nat) (bs : List Byte) :
    (poke s pa bs).invs = s.invs := rfl
@[simp] theorem poke_faults (s : State) (pa : Nat) (bs : List Byte) :
    (poke s pa bs).faults = s.faults := rfl
@[simp] theorem poke_syncs (s : State) (pa : Nat) (bs : List Byte) :
    (poke s pa bs).syncs = s.syncs := rfl
@[simp] theorem poke_rings (s : State) (pa : Nat) (bs : List Byte) :
    (poke s pa bs).rings = s.rings := rfl
@[simp] theorem poke_err (s : State) (pa : Nat) (bs : List Byte) : (poke s pa bs).err = s.err := rfl
@[simp] theorem poke_mpEvents (s : State) (pa : Nat) (bs : List Byte) :
    (poke s pa bs).mpEvents = s.mpEvents := rfl
@[simp] theorem poke_parts (s : State) (pa : Nat) (bs : List Byte) :
    (poke s pa bs).parts = s.parts := rfl
@[simp] theorem poke_qps (s : State) (pa : Nat) (bs : List Byte) : (poke s pa bs).qps = s.qps := rfl
@[simp] theorem poke_keys (s : State) (pa : Nat) (bs : List Byte) :
    (poke s pa bs).keys = s.keys := rfl
@[simp] theorem poke_firkin (s : State) (pa : Nat) (bs : List Byte) :
    (poke s pa bs).firkin = s.firkin := rfl
@[simp] theorem poke_arrived (s : State) (pa : Nat) (bs : List Byte) :
    (poke s pa bs).arrived = s.arrived := rfl
@[simp] theorem poke_aqLast (s : State) (pa : Nat) (bs : List Byte) :
    (poke s pa bs).aqLast = s.aqLast := rfl
@[simp] theorem poke_netEvents (s : State) (pa : Nat) (bs : List Byte) :
    (poke s pa bs).netEvents = s.netEvents := rfl
@[simp] theorem poke_twin (s : State) (pa : Nat) (bs : List Byte) :
    (poke s pa bs).twin = s.twin := rfl
@[simp] theorem poke_bushel (s : State) (pa : Nat) (bs : List Byte) :
    (poke s pa bs).bushel = s.bushel := rfl
@[simp] theorem poke_binds (s : State) (pa : Nat) (bs : List Byte) :
    (poke s pa bs).binds = s.binds := rfl
@[simp] theorem poke_tags (s : State) (pa : Nat) (bs : List Byte) :
    (poke s pa bs).tags = s.tags := rfl
@[simp] theorem poke_slots (s : State) (pa : Nat) (bs : List Byte) :
    (poke s pa bs).slots = s.slots := rfl
@[simp] theorem poke_tagged (s : State) (pa : Nat) (bs : List Byte) :
    (poke s pa bs).tagged = s.tagged := rfl
@[simp] theorem poke_ports (s : State) (pa : Nat) (bs : List Byte) :
    (poke s pa bs).ports = s.ports := rfl
@[simp] theorem poke_coreOwner (s : State) (pa : Nat) (bs : List Byte) :
    (poke s pa bs).coreOwner = s.coreOwner := rfl
@[simp] theorem poke_sched (s : State) (pa : Nat) (bs : List Byte) :
    (poke s pa bs).sched = s.sched := rfl
@[simp] theorem poke_gill (s : State) (pa : Nat) (bs : List Byte) :
    (poke s pa bs).gill = s.gill := rfl
@[simp] theorem poke_linkUp (s : State) (pa : Nat) (bs : List Byte) :
    (poke s pa bs).linkUp = s.linkUp := rfl
@[simp] theorem poke_host (s : State) (pa : Nat) (bs : List Byte) :
    (poke s pa bs).host = s.host := rfl
@[simp] theorem poke_drdy (s : State) (pa : Nat) (bs : List Byte) :
    (poke s pa bs).drdy = s.drdy := rfl
@[simp] theorem poke_boot (s : State) (pa : Nat) (bs : List Byte) :
    (poke s pa bs).boot = s.boot := rfl
@[simp] theorem poke_supply (s : State) (pa : Nat) (bs : List Byte) :
    (poke s pa bs).supply = s.supply := rfl

/-! `mpPost`. -/

@[simp] theorem mpPost_pending (s : State) (e : Event) : (mpPost s e).pending = s.pending := rfl
@[simp] theorem mpPost_mem (s : State) (e : Event) : (mpPost s e).mem = s.mem := rfl
@[simp] theorem mpPost_checks (s : State) (e : Event) : (mpPost s e).checks = s.checks := rfl
@[simp] theorem mpPost_regs (s : State) (e : Event) : (mpPost s e).regs = s.regs := rfl
@[simp] theorem mpPost_readData (s : State) (e : Event) : (mpPost s e).readData = s.readData := rfl
@[simp] theorem mpPost_clocks (s : State) (e : Event) : (mpPost s e).clocks = s.clocks := rfl
@[simp] theorem mpPost_freeCtr (s : State) (e : Event) : (mpPost s e).freeCtr = s.freeCtr := rfl
@[simp] theorem mpPost_threads (s : State) (e : Event) : (mpPost s e).threads = s.threads := rfl
@[simp] theorem mpPost_groups (s : State) (e : Event) : (mpPost s e).groups = s.groups := rfl
@[simp] theorem mpPost_grids (s : State) (e : Event) : (mpPost s e).grids = s.grids := rfl
@[simp] theorem mpPost_nextGrid (s : State) (e : Event) : (mpPost s e).nextGrid = s.nextGrid := rfl
@[simp] theorem mpPost_images (s : State) (e : Event) : (mpPost s e).images = s.images := rfl
@[simp] theorem mpPost_movers (s : State) (e : Event) : (mpPost s e).movers = s.movers := rfl
@[simp] theorem mpPost_accs (s : State) (e : Event) : (mpPost s e).accs = s.accs := rfl
@[simp] theorem mpPost_macBusy (s : State) (e : Event) : (mpPost s e).macBusy = s.macBusy := rfl
@[simp] theorem mpPost_dbgHalt (s : State) (e : Event) : (mpPost s e).dbgHalt = s.dbgHalt := rfl
@[simp] theorem mpPost_tlb (s : State) (e : Event) : (mpPost s e).tlb = s.tlb := rfl
@[simp] theorem mpPost_owners (s : State) (e : Event) : (mpPost s e).owners = s.owners := rfl
@[simp] theorem mpPost_invs (s : State) (e : Event) : (mpPost s e).invs = s.invs := rfl
@[simp] theorem mpPost_faults (s : State) (e : Event) : (mpPost s e).faults = s.faults := rfl
@[simp] theorem mpPost_syncs (s : State) (e : Event) : (mpPost s e).syncs = s.syncs := rfl
@[simp] theorem mpPost_rings (s : State) (e : Event) : (mpPost s e).rings = s.rings := rfl
@[simp] theorem mpPost_err (s : State) (e : Event) : (mpPost s e).err = s.err := rfl
@[simp] theorem mpPost_parts (s : State) (e : Event) : (mpPost s e).parts = s.parts := rfl
@[simp] theorem mpPost_qps (s : State) (e : Event) : (mpPost s e).qps = s.qps := rfl
@[simp] theorem mpPost_keys (s : State) (e : Event) : (mpPost s e).keys = s.keys := rfl
@[simp] theorem mpPost_firkin (s : State) (e : Event) : (mpPost s e).firkin = s.firkin := rfl
@[simp] theorem mpPost_arrived (s : State) (e : Event) : (mpPost s e).arrived = s.arrived := rfl
@[simp] theorem mpPost_aqLast (s : State) (e : Event) : (mpPost s e).aqLast = s.aqLast := rfl
@[simp] theorem mpPost_netEvents (s : State) (e : Event) :
    (mpPost s e).netEvents = s.netEvents := rfl
@[simp] theorem mpPost_twin (s : State) (e : Event) : (mpPost s e).twin = s.twin := rfl
@[simp] theorem mpPost_bushel (s : State) (e : Event) : (mpPost s e).bushel = s.bushel := rfl
@[simp] theorem mpPost_binds (s : State) (e : Event) : (mpPost s e).binds = s.binds := rfl
@[simp] theorem mpPost_tags (s : State) (e : Event) : (mpPost s e).tags = s.tags := rfl
@[simp] theorem mpPost_slots (s : State) (e : Event) : (mpPost s e).slots = s.slots := rfl
@[simp] theorem mpPost_tagged (s : State) (e : Event) : (mpPost s e).tagged = s.tagged := rfl
@[simp] theorem mpPost_ports (s : State) (e : Event) : (mpPost s e).ports = s.ports := rfl
@[simp] theorem mpPost_coreOwner (s : State) (e : Event) :
    (mpPost s e).coreOwner = s.coreOwner := rfl
@[simp] theorem mpPost_sched (s : State) (e : Event) : (mpPost s e).sched = s.sched := rfl
@[simp] theorem mpPost_gill (s : State) (e : Event) : (mpPost s e).gill = s.gill := rfl
@[simp] theorem mpPost_linkUp (s : State) (e : Event) : (mpPost s e).linkUp = s.linkUp := rfl
@[simp] theorem mpPost_host (s : State) (e : Event) : (mpPost s e).host = s.host := rfl
@[simp] theorem mpPost_drdy (s : State) (e : Event) : (mpPost s e).drdy = s.drdy := rfl
@[simp] theorem mpPost_boot (s : State) (e : Event) : (mpPost s e).boot = s.boot := rfl
@[simp] theorem mpPost_supply (s : State) (e : Event) : (mpPost s e).supply = s.supply := rfl

/-! `setMover`. -/

@[simp] theorem setMover_pending (s : State) (c : Nat) (m : Mover) :
    (setMover s c m).pending = s.pending := rfl
@[simp] theorem setMover_mem (s : State) (c : Nat) (m : Mover) : (setMover s c m).mem = s.mem := rfl
@[simp] theorem setMover_checks (s : State) (c : Nat) (m : Mover) :
    (setMover s c m).checks = s.checks := rfl
@[simp] theorem setMover_regs (s : State) (c : Nat) (m : Mover) :
    (setMover s c m).regs = s.regs := rfl
@[simp] theorem setMover_readData (s : State) (c : Nat) (m : Mover) :
    (setMover s c m).readData = s.readData := rfl
@[simp] theorem setMover_clocks (s : State) (c : Nat) (m : Mover) :
    (setMover s c m).clocks = s.clocks := rfl
@[simp] theorem setMover_freeCtr (s : State) (c : Nat) (m : Mover) :
    (setMover s c m).freeCtr = s.freeCtr := rfl
@[simp] theorem setMover_threads (s : State) (c : Nat) (m : Mover) :
    (setMover s c m).threads = s.threads := rfl
@[simp] theorem setMover_groups (s : State) (c : Nat) (m : Mover) :
    (setMover s c m).groups = s.groups := rfl
@[simp] theorem setMover_grids (s : State) (c : Nat) (m : Mover) :
    (setMover s c m).grids = s.grids := rfl
@[simp] theorem setMover_nextGrid (s : State) (c : Nat) (m : Mover) :
    (setMover s c m).nextGrid = s.nextGrid := rfl
@[simp] theorem setMover_images (s : State) (c : Nat) (m : Mover) :
    (setMover s c m).images = s.images := rfl
@[simp] theorem setMover_accs (s : State) (c : Nat) (m : Mover) :
    (setMover s c m).accs = s.accs := rfl
@[simp] theorem setMover_macBusy (s : State) (c : Nat) (m : Mover) :
    (setMover s c m).macBusy = s.macBusy := rfl
@[simp] theorem setMover_dbgHalt (s : State) (c : Nat) (m : Mover) :
    (setMover s c m).dbgHalt = s.dbgHalt := rfl
@[simp] theorem setMover_tlb (s : State) (c : Nat) (m : Mover) : (setMover s c m).tlb = s.tlb := rfl
@[simp] theorem setMover_owners (s : State) (c : Nat) (m : Mover) :
    (setMover s c m).owners = s.owners := rfl
@[simp] theorem setMover_invs (s : State) (c : Nat) (m : Mover) :
    (setMover s c m).invs = s.invs := rfl
@[simp] theorem setMover_faults (s : State) (c : Nat) (m : Mover) :
    (setMover s c m).faults = s.faults := rfl
@[simp] theorem setMover_syncs (s : State) (c : Nat) (m : Mover) :
    (setMover s c m).syncs = s.syncs := rfl
@[simp] theorem setMover_rings (s : State) (c : Nat) (m : Mover) :
    (setMover s c m).rings = s.rings := rfl
@[simp] theorem setMover_err (s : State) (c : Nat) (m : Mover) : (setMover s c m).err = s.err := rfl
@[simp] theorem setMover_mpEvents (s : State) (c : Nat) (m : Mover) :
    (setMover s c m).mpEvents = s.mpEvents := rfl
@[simp] theorem setMover_parts (s : State) (c : Nat) (m : Mover) :
    (setMover s c m).parts = s.parts := rfl
@[simp] theorem setMover_qps (s : State) (c : Nat) (m : Mover) : (setMover s c m).qps = s.qps := rfl
@[simp] theorem setMover_keys (s : State) (c : Nat) (m : Mover) :
    (setMover s c m).keys = s.keys := rfl
@[simp] theorem setMover_firkin (s : State) (c : Nat) (m : Mover) :
    (setMover s c m).firkin = s.firkin := rfl
@[simp] theorem setMover_arrived (s : State) (c : Nat) (m : Mover) :
    (setMover s c m).arrived = s.arrived := rfl
@[simp] theorem setMover_aqLast (s : State) (c : Nat) (m : Mover) :
    (setMover s c m).aqLast = s.aqLast := rfl
@[simp] theorem setMover_netEvents (s : State) (c : Nat) (m : Mover) :
    (setMover s c m).netEvents = s.netEvents := rfl
@[simp] theorem setMover_twin (s : State) (c : Nat) (m : Mover) :
    (setMover s c m).twin = s.twin := rfl
@[simp] theorem setMover_bushel (s : State) (c : Nat) (m : Mover) :
    (setMover s c m).bushel = s.bushel := rfl
@[simp] theorem setMover_binds (s : State) (c : Nat) (m : Mover) :
    (setMover s c m).binds = s.binds := rfl
@[simp] theorem setMover_tags (s : State) (c : Nat) (m : Mover) :
    (setMover s c m).tags = s.tags := rfl
@[simp] theorem setMover_slots (s : State) (c : Nat) (m : Mover) :
    (setMover s c m).slots = s.slots := rfl
@[simp] theorem setMover_tagged (s : State) (c : Nat) (m : Mover) :
    (setMover s c m).tagged = s.tagged := rfl
@[simp] theorem setMover_ports (s : State) (c : Nat) (m : Mover) :
    (setMover s c m).ports = s.ports := rfl
@[simp] theorem setMover_coreOwner (s : State) (c : Nat) (m : Mover) :
    (setMover s c m).coreOwner = s.coreOwner := rfl
@[simp] theorem setMover_sched (s : State) (c : Nat) (m : Mover) :
    (setMover s c m).sched = s.sched := rfl
@[simp] theorem setMover_gill (s : State) (c : Nat) (m : Mover) :
    (setMover s c m).gill = s.gill := rfl
@[simp] theorem setMover_linkUp (s : State) (c : Nat) (m : Mover) :
    (setMover s c m).linkUp = s.linkUp := rfl
@[simp] theorem setMover_host (s : State) (c : Nat) (m : Mover) :
    (setMover s c m).host = s.host := rfl
@[simp] theorem setMover_drdy (s : State) (c : Nat) (m : Mover) :
    (setMover s c m).drdy = s.drdy := rfl
@[simp] theorem setMover_boot (s : State) (c : Nat) (m : Mover) :
    (setMover s c m).boot = s.boot := rfl
@[simp] theorem setMover_supply (s : State) (c : Nat) (m : Mover) :
    (setMover s c m).supply = s.supply := rfl

/-! `setFaults`. -/

@[simp] theorem setFaults_pending (s : State) (p : Nat) (x : FaultTable) :
    (setFaults s p x).pending = s.pending := rfl
@[simp] theorem setFaults_mem (s : State) (p : Nat) (x : FaultTable) :
    (setFaults s p x).mem = s.mem := rfl
@[simp] theorem setFaults_checks (s : State) (p : Nat) (x : FaultTable) :
    (setFaults s p x).checks = s.checks := rfl
@[simp] theorem setFaults_regs (s : State) (p : Nat) (x : FaultTable) :
    (setFaults s p x).regs = s.regs := rfl
@[simp] theorem setFaults_readData (s : State) (p : Nat) (x : FaultTable) :
    (setFaults s p x).readData = s.readData := rfl
@[simp] theorem setFaults_clocks (s : State) (p : Nat) (x : FaultTable) :
    (setFaults s p x).clocks = s.clocks := rfl
@[simp] theorem setFaults_freeCtr (s : State) (p : Nat) (x : FaultTable) :
    (setFaults s p x).freeCtr = s.freeCtr := rfl
@[simp] theorem setFaults_threads (s : State) (p : Nat) (x : FaultTable) :
    (setFaults s p x).threads = s.threads := rfl
@[simp] theorem setFaults_groups (s : State) (p : Nat) (x : FaultTable) :
    (setFaults s p x).groups = s.groups := rfl
@[simp] theorem setFaults_grids (s : State) (p : Nat) (x : FaultTable) :
    (setFaults s p x).grids = s.grids := rfl
@[simp] theorem setFaults_nextGrid (s : State) (p : Nat) (x : FaultTable) :
    (setFaults s p x).nextGrid = s.nextGrid := rfl
@[simp] theorem setFaults_images (s : State) (p : Nat) (x : FaultTable) :
    (setFaults s p x).images = s.images := rfl
@[simp] theorem setFaults_movers (s : State) (p : Nat) (x : FaultTable) :
    (setFaults s p x).movers = s.movers := rfl
@[simp] theorem setFaults_accs (s : State) (p : Nat) (x : FaultTable) :
    (setFaults s p x).accs = s.accs := rfl
@[simp] theorem setFaults_macBusy (s : State) (p : Nat) (x : FaultTable) :
    (setFaults s p x).macBusy = s.macBusy := rfl
@[simp] theorem setFaults_dbgHalt (s : State) (p : Nat) (x : FaultTable) :
    (setFaults s p x).dbgHalt = s.dbgHalt := rfl
@[simp] theorem setFaults_tlb (s : State) (p : Nat) (x : FaultTable) :
    (setFaults s p x).tlb = s.tlb := rfl
@[simp] theorem setFaults_owners (s : State) (p : Nat) (x : FaultTable) :
    (setFaults s p x).owners = s.owners := rfl
@[simp] theorem setFaults_invs (s : State) (p : Nat) (x : FaultTable) :
    (setFaults s p x).invs = s.invs := rfl
@[simp] theorem setFaults_syncs (s : State) (p : Nat) (x : FaultTable) :
    (setFaults s p x).syncs = s.syncs := rfl
@[simp] theorem setFaults_rings (s : State) (p : Nat) (x : FaultTable) :
    (setFaults s p x).rings = s.rings := rfl
@[simp] theorem setFaults_err (s : State) (p : Nat) (x : FaultTable) :
    (setFaults s p x).err = s.err := rfl
@[simp] theorem setFaults_mpEvents (s : State) (p : Nat) (x : FaultTable) :
    (setFaults s p x).mpEvents = s.mpEvents := rfl
@[simp] theorem setFaults_parts (s : State) (p : Nat) (x : FaultTable) :
    (setFaults s p x).parts = s.parts := rfl
@[simp] theorem setFaults_qps (s : State) (p : Nat) (x : FaultTable) :
    (setFaults s p x).qps = s.qps := rfl
@[simp] theorem setFaults_keys (s : State) (p : Nat) (x : FaultTable) :
    (setFaults s p x).keys = s.keys := rfl
@[simp] theorem setFaults_firkin (s : State) (p : Nat) (x : FaultTable) :
    (setFaults s p x).firkin = s.firkin := rfl
@[simp] theorem setFaults_arrived (s : State) (p : Nat) (x : FaultTable) :
    (setFaults s p x).arrived = s.arrived := rfl
@[simp] theorem setFaults_aqLast (s : State) (p : Nat) (x : FaultTable) :
    (setFaults s p x).aqLast = s.aqLast := rfl
@[simp] theorem setFaults_netEvents (s : State) (p : Nat) (x : FaultTable) :
    (setFaults s p x).netEvents = s.netEvents := rfl
@[simp] theorem setFaults_twin (s : State) (p : Nat) (x : FaultTable) :
    (setFaults s p x).twin = s.twin := rfl
@[simp] theorem setFaults_bushel (s : State) (p : Nat) (x : FaultTable) :
    (setFaults s p x).bushel = s.bushel := rfl
@[simp] theorem setFaults_binds (s : State) (p : Nat) (x : FaultTable) :
    (setFaults s p x).binds = s.binds := rfl
@[simp] theorem setFaults_tags (s : State) (p : Nat) (x : FaultTable) :
    (setFaults s p x).tags = s.tags := rfl
@[simp] theorem setFaults_slots (s : State) (p : Nat) (x : FaultTable) :
    (setFaults s p x).slots = s.slots := rfl
@[simp] theorem setFaults_tagged (s : State) (p : Nat) (x : FaultTable) :
    (setFaults s p x).tagged = s.tagged := rfl
@[simp] theorem setFaults_ports (s : State) (p : Nat) (x : FaultTable) :
    (setFaults s p x).ports = s.ports := rfl
@[simp] theorem setFaults_coreOwner (s : State) (p : Nat) (x : FaultTable) :
    (setFaults s p x).coreOwner = s.coreOwner := rfl
@[simp] theorem setFaults_sched (s : State) (p : Nat) (x : FaultTable) :
    (setFaults s p x).sched = s.sched := rfl
@[simp] theorem setFaults_gill (s : State) (p : Nat) (x : FaultTable) :
    (setFaults s p x).gill = s.gill := rfl
@[simp] theorem setFaults_linkUp (s : State) (p : Nat) (x : FaultTable) :
    (setFaults s p x).linkUp = s.linkUp := rfl
@[simp] theorem setFaults_host (s : State) (p : Nat) (x : FaultTable) :
    (setFaults s p x).host = s.host := rfl
@[simp] theorem setFaults_drdy (s : State) (p : Nat) (x : FaultTable) :
    (setFaults s p x).drdy = s.drdy := rfl
@[simp] theorem setFaults_boot (s : State) (p : Nat) (x : FaultTable) :
    (setFaults s p x).boot = s.boot := rfl
@[simp] theorem setFaults_supply (s : State) (p : Nat) (x : FaultTable) :
    (setFaults s p x).supply = s.supply := rfl

/-! `setSync`. -/

@[simp] theorem setSync_pending (s : State) (i : Nat) (o : SyncObj) :
    (setSync s i o).pending = s.pending := rfl
@[simp] theorem setSync_mem (s : State) (i : Nat) (o : SyncObj) : (setSync s i o).mem = s.mem := rfl
@[simp] theorem setSync_checks (s : State) (i : Nat) (o : SyncObj) :
    (setSync s i o).checks = s.checks := rfl
@[simp] theorem setSync_regs (s : State) (i : Nat) (o : SyncObj) :
    (setSync s i o).regs = s.regs := rfl
@[simp] theorem setSync_readData (s : State) (i : Nat) (o : SyncObj) :
    (setSync s i o).readData = s.readData := rfl
@[simp] theorem setSync_clocks (s : State) (i : Nat) (o : SyncObj) :
    (setSync s i o).clocks = s.clocks := rfl
@[simp] theorem setSync_freeCtr (s : State) (i : Nat) (o : SyncObj) :
    (setSync s i o).freeCtr = s.freeCtr := rfl
@[simp] theorem setSync_threads (s : State) (i : Nat) (o : SyncObj) :
    (setSync s i o).threads = s.threads := rfl
@[simp] theorem setSync_groups (s : State) (i : Nat) (o : SyncObj) :
    (setSync s i o).groups = s.groups := rfl
@[simp] theorem setSync_grids (s : State) (i : Nat) (o : SyncObj) :
    (setSync s i o).grids = s.grids := rfl
@[simp] theorem setSync_nextGrid (s : State) (i : Nat) (o : SyncObj) :
    (setSync s i o).nextGrid = s.nextGrid := rfl
@[simp] theorem setSync_images (s : State) (i : Nat) (o : SyncObj) :
    (setSync s i o).images = s.images := rfl
@[simp] theorem setSync_movers (s : State) (i : Nat) (o : SyncObj) :
    (setSync s i o).movers = s.movers := rfl
@[simp] theorem setSync_accs (s : State) (i : Nat) (o : SyncObj) :
    (setSync s i o).accs = s.accs := rfl
@[simp] theorem setSync_macBusy (s : State) (i : Nat) (o : SyncObj) :
    (setSync s i o).macBusy = s.macBusy := rfl
@[simp] theorem setSync_dbgHalt (s : State) (i : Nat) (o : SyncObj) :
    (setSync s i o).dbgHalt = s.dbgHalt := rfl
@[simp] theorem setSync_tlb (s : State) (i : Nat) (o : SyncObj) : (setSync s i o).tlb = s.tlb := rfl
@[simp] theorem setSync_owners (s : State) (i : Nat) (o : SyncObj) :
    (setSync s i o).owners = s.owners := rfl
@[simp] theorem setSync_invs (s : State) (i : Nat) (o : SyncObj) :
    (setSync s i o).invs = s.invs := rfl
@[simp] theorem setSync_faults (s : State) (i : Nat) (o : SyncObj) :
    (setSync s i o).faults = s.faults := rfl
@[simp] theorem setSync_rings (s : State) (i : Nat) (o : SyncObj) :
    (setSync s i o).rings = s.rings := rfl
@[simp] theorem setSync_err (s : State) (i : Nat) (o : SyncObj) : (setSync s i o).err = s.err := rfl
@[simp] theorem setSync_mpEvents (s : State) (i : Nat) (o : SyncObj) :
    (setSync s i o).mpEvents = s.mpEvents := rfl
@[simp] theorem setSync_parts (s : State) (i : Nat) (o : SyncObj) :
    (setSync s i o).parts = s.parts := rfl
@[simp] theorem setSync_qps (s : State) (i : Nat) (o : SyncObj) : (setSync s i o).qps = s.qps := rfl
@[simp] theorem setSync_keys (s : State) (i : Nat) (o : SyncObj) :
    (setSync s i o).keys = s.keys := rfl
@[simp] theorem setSync_firkin (s : State) (i : Nat) (o : SyncObj) :
    (setSync s i o).firkin = s.firkin := rfl
@[simp] theorem setSync_arrived (s : State) (i : Nat) (o : SyncObj) :
    (setSync s i o).arrived = s.arrived := rfl
@[simp] theorem setSync_aqLast (s : State) (i : Nat) (o : SyncObj) :
    (setSync s i o).aqLast = s.aqLast := rfl
@[simp] theorem setSync_netEvents (s : State) (i : Nat) (o : SyncObj) :
    (setSync s i o).netEvents = s.netEvents := rfl
@[simp] theorem setSync_twin (s : State) (i : Nat) (o : SyncObj) :
    (setSync s i o).twin = s.twin := rfl
@[simp] theorem setSync_bushel (s : State) (i : Nat) (o : SyncObj) :
    (setSync s i o).bushel = s.bushel := rfl
@[simp] theorem setSync_binds (s : State) (i : Nat) (o : SyncObj) :
    (setSync s i o).binds = s.binds := rfl
@[simp] theorem setSync_tags (s : State) (i : Nat) (o : SyncObj) :
    (setSync s i o).tags = s.tags := rfl
@[simp] theorem setSync_slots (s : State) (i : Nat) (o : SyncObj) :
    (setSync s i o).slots = s.slots := rfl
@[simp] theorem setSync_tagged (s : State) (i : Nat) (o : SyncObj) :
    (setSync s i o).tagged = s.tagged := rfl
@[simp] theorem setSync_ports (s : State) (i : Nat) (o : SyncObj) :
    (setSync s i o).ports = s.ports := rfl
@[simp] theorem setSync_coreOwner (s : State) (i : Nat) (o : SyncObj) :
    (setSync s i o).coreOwner = s.coreOwner := rfl
@[simp] theorem setSync_sched (s : State) (i : Nat) (o : SyncObj) :
    (setSync s i o).sched = s.sched := rfl
@[simp] theorem setSync_gill (s : State) (i : Nat) (o : SyncObj) :
    (setSync s i o).gill = s.gill := rfl
@[simp] theorem setSync_linkUp (s : State) (i : Nat) (o : SyncObj) :
    (setSync s i o).linkUp = s.linkUp := rfl
@[simp] theorem setSync_host (s : State) (i : Nat) (o : SyncObj) :
    (setSync s i o).host = s.host := rfl
@[simp] theorem setSync_drdy (s : State) (i : Nat) (o : SyncObj) :
    (setSync s i o).drdy = s.drdy := rfl
@[simp] theorem setSync_boot (s : State) (i : Nat) (o : SyncObj) :
    (setSync s i o).boot = s.boot := rfl
@[simp] theorem setSync_supply (s : State) (i : Nat) (o : SyncObj) :
    (setSync s i o).supply = s.supply := rfl

/-! `setRing`. -/

@[simp] theorem setRing_pending (s : State) (r : Nat) (x : Ring) :
    (setRing s r x).pending = s.pending := rfl
@[simp] theorem setRing_mem (s : State) (r : Nat) (x : Ring) : (setRing s r x).mem = s.mem := rfl
@[simp] theorem setRing_checks (s : State) (r : Nat) (x : Ring) :
    (setRing s r x).checks = s.checks := rfl
@[simp] theorem setRing_regs (s : State) (r : Nat) (x : Ring) : (setRing s r x).regs = s.regs := rfl
@[simp] theorem setRing_readData (s : State) (r : Nat) (x : Ring) :
    (setRing s r x).readData = s.readData := rfl
@[simp] theorem setRing_clocks (s : State) (r : Nat) (x : Ring) :
    (setRing s r x).clocks = s.clocks := rfl
@[simp] theorem setRing_freeCtr (s : State) (r : Nat) (x : Ring) :
    (setRing s r x).freeCtr = s.freeCtr := rfl
@[simp] theorem setRing_threads (s : State) (r : Nat) (x : Ring) :
    (setRing s r x).threads = s.threads := rfl
@[simp] theorem setRing_groups (s : State) (r : Nat) (x : Ring) :
    (setRing s r x).groups = s.groups := rfl
@[simp] theorem setRing_grids (s : State) (r : Nat) (x : Ring) :
    (setRing s r x).grids = s.grids := rfl
@[simp] theorem setRing_nextGrid (s : State) (r : Nat) (x : Ring) :
    (setRing s r x).nextGrid = s.nextGrid := rfl
@[simp] theorem setRing_images (s : State) (r : Nat) (x : Ring) :
    (setRing s r x).images = s.images := rfl
@[simp] theorem setRing_movers (s : State) (r : Nat) (x : Ring) :
    (setRing s r x).movers = s.movers := rfl
@[simp] theorem setRing_accs (s : State) (r : Nat) (x : Ring) : (setRing s r x).accs = s.accs := rfl
@[simp] theorem setRing_macBusy (s : State) (r : Nat) (x : Ring) :
    (setRing s r x).macBusy = s.macBusy := rfl
@[simp] theorem setRing_dbgHalt (s : State) (r : Nat) (x : Ring) :
    (setRing s r x).dbgHalt = s.dbgHalt := rfl
@[simp] theorem setRing_tlb (s : State) (r : Nat) (x : Ring) : (setRing s r x).tlb = s.tlb := rfl
@[simp] theorem setRing_owners (s : State) (r : Nat) (x : Ring) :
    (setRing s r x).owners = s.owners := rfl
@[simp] theorem setRing_invs (s : State) (r : Nat) (x : Ring) : (setRing s r x).invs = s.invs := rfl
@[simp] theorem setRing_faults (s : State) (r : Nat) (x : Ring) :
    (setRing s r x).faults = s.faults := rfl
@[simp] theorem setRing_syncs (s : State) (r : Nat) (x : Ring) :
    (setRing s r x).syncs = s.syncs := rfl
@[simp] theorem setRing_err (s : State) (r : Nat) (x : Ring) : (setRing s r x).err = s.err := rfl
@[simp] theorem setRing_mpEvents (s : State) (r : Nat) (x : Ring) :
    (setRing s r x).mpEvents = s.mpEvents := rfl
@[simp] theorem setRing_parts (s : State) (r : Nat) (x : Ring) :
    (setRing s r x).parts = s.parts := rfl
@[simp] theorem setRing_qps (s : State) (r : Nat) (x : Ring) : (setRing s r x).qps = s.qps := rfl
@[simp] theorem setRing_keys (s : State) (r : Nat) (x : Ring) : (setRing s r x).keys = s.keys := rfl
@[simp] theorem setRing_firkin (s : State) (r : Nat) (x : Ring) :
    (setRing s r x).firkin = s.firkin := rfl
@[simp] theorem setRing_arrived (s : State) (r : Nat) (x : Ring) :
    (setRing s r x).arrived = s.arrived := rfl
@[simp] theorem setRing_aqLast (s : State) (r : Nat) (x : Ring) :
    (setRing s r x).aqLast = s.aqLast := rfl
@[simp] theorem setRing_netEvents (s : State) (r : Nat) (x : Ring) :
    (setRing s r x).netEvents = s.netEvents := rfl
@[simp] theorem setRing_twin (s : State) (r : Nat) (x : Ring) : (setRing s r x).twin = s.twin := rfl
@[simp] theorem setRing_bushel (s : State) (r : Nat) (x : Ring) :
    (setRing s r x).bushel = s.bushel := rfl
@[simp] theorem setRing_binds (s : State) (r : Nat) (x : Ring) :
    (setRing s r x).binds = s.binds := rfl
@[simp] theorem setRing_tags (s : State) (r : Nat) (x : Ring) : (setRing s r x).tags = s.tags := rfl
@[simp] theorem setRing_slots (s : State) (r : Nat) (x : Ring) :
    (setRing s r x).slots = s.slots := rfl
@[simp] theorem setRing_tagged (s : State) (r : Nat) (x : Ring) :
    (setRing s r x).tagged = s.tagged := rfl
@[simp] theorem setRing_ports (s : State) (r : Nat) (x : Ring) :
    (setRing s r x).ports = s.ports := rfl
@[simp] theorem setRing_coreOwner (s : State) (r : Nat) (x : Ring) :
    (setRing s r x).coreOwner = s.coreOwner := rfl
@[simp] theorem setRing_sched (s : State) (r : Nat) (x : Ring) :
    (setRing s r x).sched = s.sched := rfl
@[simp] theorem setRing_gill (s : State) (r : Nat) (x : Ring) : (setRing s r x).gill = s.gill := rfl
@[simp] theorem setRing_linkUp (s : State) (r : Nat) (x : Ring) :
    (setRing s r x).linkUp = s.linkUp := rfl
@[simp] theorem setRing_host (s : State) (r : Nat) (x : Ring) : (setRing s r x).host = s.host := rfl
@[simp] theorem setRing_drdy (s : State) (r : Nat) (x : Ring) : (setRing s r x).drdy = s.drdy := rfl
@[simp] theorem setRing_boot (s : State) (r : Nat) (x : Ring) : (setRing s r x).boot = s.boot := rfl
@[simp] theorem setRing_supply (s : State) (r : Nat) (x : Ring) :
    (setRing s r x).supply = s.supply := rfl

/-! `modRing`. -/

@[simp] theorem modRing_pending (s : State) (r : Nat) (f : Ring → Ring) :
    (modRing s r f).pending = s.pending := rfl
@[simp] theorem modRing_mem (s : State) (r : Nat) (f : Ring → Ring) :
    (modRing s r f).mem = s.mem := rfl
@[simp] theorem modRing_checks (s : State) (r : Nat) (f : Ring → Ring) :
    (modRing s r f).checks = s.checks := rfl
@[simp] theorem modRing_regs (s : State) (r : Nat) (f : Ring → Ring) :
    (modRing s r f).regs = s.regs := rfl
@[simp] theorem modRing_readData (s : State) (r : Nat) (f : Ring → Ring) :
    (modRing s r f).readData = s.readData := rfl
@[simp] theorem modRing_clocks (s : State) (r : Nat) (f : Ring → Ring) :
    (modRing s r f).clocks = s.clocks := rfl
@[simp] theorem modRing_freeCtr (s : State) (r : Nat) (f : Ring → Ring) :
    (modRing s r f).freeCtr = s.freeCtr := rfl
@[simp] theorem modRing_threads (s : State) (r : Nat) (f : Ring → Ring) :
    (modRing s r f).threads = s.threads := rfl
@[simp] theorem modRing_groups (s : State) (r : Nat) (f : Ring → Ring) :
    (modRing s r f).groups = s.groups := rfl
@[simp] theorem modRing_grids (s : State) (r : Nat) (f : Ring → Ring) :
    (modRing s r f).grids = s.grids := rfl
@[simp] theorem modRing_nextGrid (s : State) (r : Nat) (f : Ring → Ring) :
    (modRing s r f).nextGrid = s.nextGrid := rfl
@[simp] theorem modRing_images (s : State) (r : Nat) (f : Ring → Ring) :
    (modRing s r f).images = s.images := rfl
@[simp] theorem modRing_movers (s : State) (r : Nat) (f : Ring → Ring) :
    (modRing s r f).movers = s.movers := rfl
@[simp] theorem modRing_accs (s : State) (r : Nat) (f : Ring → Ring) :
    (modRing s r f).accs = s.accs := rfl
@[simp] theorem modRing_macBusy (s : State) (r : Nat) (f : Ring → Ring) :
    (modRing s r f).macBusy = s.macBusy := rfl
@[simp] theorem modRing_dbgHalt (s : State) (r : Nat) (f : Ring → Ring) :
    (modRing s r f).dbgHalt = s.dbgHalt := rfl
@[simp] theorem modRing_tlb (s : State) (r : Nat) (f : Ring → Ring) :
    (modRing s r f).tlb = s.tlb := rfl
@[simp] theorem modRing_owners (s : State) (r : Nat) (f : Ring → Ring) :
    (modRing s r f).owners = s.owners := rfl
@[simp] theorem modRing_invs (s : State) (r : Nat) (f : Ring → Ring) :
    (modRing s r f).invs = s.invs := rfl
@[simp] theorem modRing_faults (s : State) (r : Nat) (f : Ring → Ring) :
    (modRing s r f).faults = s.faults := rfl
@[simp] theorem modRing_syncs (s : State) (r : Nat) (f : Ring → Ring) :
    (modRing s r f).syncs = s.syncs := rfl
@[simp] theorem modRing_err (s : State) (r : Nat) (f : Ring → Ring) :
    (modRing s r f).err = s.err := rfl
@[simp] theorem modRing_mpEvents (s : State) (r : Nat) (f : Ring → Ring) :
    (modRing s r f).mpEvents = s.mpEvents := rfl
@[simp] theorem modRing_parts (s : State) (r : Nat) (f : Ring → Ring) :
    (modRing s r f).parts = s.parts := rfl
@[simp] theorem modRing_qps (s : State) (r : Nat) (f : Ring → Ring) :
    (modRing s r f).qps = s.qps := rfl
@[simp] theorem modRing_keys (s : State) (r : Nat) (f : Ring → Ring) :
    (modRing s r f).keys = s.keys := rfl
@[simp] theorem modRing_firkin (s : State) (r : Nat) (f : Ring → Ring) :
    (modRing s r f).firkin = s.firkin := rfl
@[simp] theorem modRing_arrived (s : State) (r : Nat) (f : Ring → Ring) :
    (modRing s r f).arrived = s.arrived := rfl
@[simp] theorem modRing_aqLast (s : State) (r : Nat) (f : Ring → Ring) :
    (modRing s r f).aqLast = s.aqLast := rfl
@[simp] theorem modRing_netEvents (s : State) (r : Nat) (f : Ring → Ring) :
    (modRing s r f).netEvents = s.netEvents := rfl
@[simp] theorem modRing_twin (s : State) (r : Nat) (f : Ring → Ring) :
    (modRing s r f).twin = s.twin := rfl
@[simp] theorem modRing_bushel (s : State) (r : Nat) (f : Ring → Ring) :
    (modRing s r f).bushel = s.bushel := rfl
@[simp] theorem modRing_binds (s : State) (r : Nat) (f : Ring → Ring) :
    (modRing s r f).binds = s.binds := rfl
@[simp] theorem modRing_tags (s : State) (r : Nat) (f : Ring → Ring) :
    (modRing s r f).tags = s.tags := rfl
@[simp] theorem modRing_slots (s : State) (r : Nat) (f : Ring → Ring) :
    (modRing s r f).slots = s.slots := rfl
@[simp] theorem modRing_tagged (s : State) (r : Nat) (f : Ring → Ring) :
    (modRing s r f).tagged = s.tagged := rfl
@[simp] theorem modRing_ports (s : State) (r : Nat) (f : Ring → Ring) :
    (modRing s r f).ports = s.ports := rfl
@[simp] theorem modRing_coreOwner (s : State) (r : Nat) (f : Ring → Ring) :
    (modRing s r f).coreOwner = s.coreOwner := rfl
@[simp] theorem modRing_sched (s : State) (r : Nat) (f : Ring → Ring) :
    (modRing s r f).sched = s.sched := rfl
@[simp] theorem modRing_gill (s : State) (r : Nat) (f : Ring → Ring) :
    (modRing s r f).gill = s.gill := rfl
@[simp] theorem modRing_linkUp (s : State) (r : Nat) (f : Ring → Ring) :
    (modRing s r f).linkUp = s.linkUp := rfl
@[simp] theorem modRing_host (s : State) (r : Nat) (f : Ring → Ring) :
    (modRing s r f).host = s.host := rfl
@[simp] theorem modRing_drdy (s : State) (r : Nat) (f : Ring → Ring) :
    (modRing s r f).drdy = s.drdy := rfl
@[simp] theorem modRing_boot (s : State) (r : Nat) (f : Ring → Ring) :
    (modRing s r f).boot = s.boot := rfl
@[simp] theorem modRing_supply (s : State) (r : Nat) (f : Ring → Ring) :
    (modRing s r f).supply = s.supply := rfl

/-! `setQp`. -/

@[simp] theorem setQp_pending (s : State) (k : Nat) (q : Qp) :
    (setQp s k q).pending = s.pending := rfl
@[simp] theorem setQp_mem (s : State) (k : Nat) (q : Qp) : (setQp s k q).mem = s.mem := rfl
@[simp] theorem setQp_checks (s : State) (k : Nat) (q : Qp) : (setQp s k q).checks = s.checks := rfl
@[simp] theorem setQp_regs (s : State) (k : Nat) (q : Qp) : (setQp s k q).regs = s.regs := rfl
@[simp] theorem setQp_readData (s : State) (k : Nat) (q : Qp) :
    (setQp s k q).readData = s.readData := rfl
@[simp] theorem setQp_clocks (s : State) (k : Nat) (q : Qp) : (setQp s k q).clocks = s.clocks := rfl
@[simp] theorem setQp_freeCtr (s : State) (k : Nat) (q : Qp) :
    (setQp s k q).freeCtr = s.freeCtr := rfl
@[simp] theorem setQp_threads (s : State) (k : Nat) (q : Qp) :
    (setQp s k q).threads = s.threads := rfl
@[simp] theorem setQp_groups (s : State) (k : Nat) (q : Qp) : (setQp s k q).groups = s.groups := rfl
@[simp] theorem setQp_grids (s : State) (k : Nat) (q : Qp) : (setQp s k q).grids = s.grids := rfl
@[simp] theorem setQp_nextGrid (s : State) (k : Nat) (q : Qp) :
    (setQp s k q).nextGrid = s.nextGrid := rfl
@[simp] theorem setQp_images (s : State) (k : Nat) (q : Qp) : (setQp s k q).images = s.images := rfl
@[simp] theorem setQp_movers (s : State) (k : Nat) (q : Qp) : (setQp s k q).movers = s.movers := rfl
@[simp] theorem setQp_accs (s : State) (k : Nat) (q : Qp) : (setQp s k q).accs = s.accs := rfl
@[simp] theorem setQp_macBusy (s : State) (k : Nat) (q : Qp) :
    (setQp s k q).macBusy = s.macBusy := rfl
@[simp] theorem setQp_dbgHalt (s : State) (k : Nat) (q : Qp) :
    (setQp s k q).dbgHalt = s.dbgHalt := rfl
@[simp] theorem setQp_tlb (s : State) (k : Nat) (q : Qp) : (setQp s k q).tlb = s.tlb := rfl
@[simp] theorem setQp_owners (s : State) (k : Nat) (q : Qp) : (setQp s k q).owners = s.owners := rfl
@[simp] theorem setQp_invs (s : State) (k : Nat) (q : Qp) : (setQp s k q).invs = s.invs := rfl
@[simp] theorem setQp_faults (s : State) (k : Nat) (q : Qp) : (setQp s k q).faults = s.faults := rfl
@[simp] theorem setQp_syncs (s : State) (k : Nat) (q : Qp) : (setQp s k q).syncs = s.syncs := rfl
@[simp] theorem setQp_rings (s : State) (k : Nat) (q : Qp) : (setQp s k q).rings = s.rings := rfl
@[simp] theorem setQp_err (s : State) (k : Nat) (q : Qp) : (setQp s k q).err = s.err := rfl
@[simp] theorem setQp_mpEvents (s : State) (k : Nat) (q : Qp) :
    (setQp s k q).mpEvents = s.mpEvents := rfl
@[simp] theorem setQp_parts (s : State) (k : Nat) (q : Qp) : (setQp s k q).parts = s.parts := rfl
@[simp] theorem setQp_keys (s : State) (k : Nat) (q : Qp) : (setQp s k q).keys = s.keys := rfl
@[simp] theorem setQp_firkin (s : State) (k : Nat) (q : Qp) : (setQp s k q).firkin = s.firkin := rfl
@[simp] theorem setQp_arrived (s : State) (k : Nat) (q : Qp) :
    (setQp s k q).arrived = s.arrived := rfl
@[simp] theorem setQp_aqLast (s : State) (k : Nat) (q : Qp) : (setQp s k q).aqLast = s.aqLast := rfl
@[simp] theorem setQp_netEvents (s : State) (k : Nat) (q : Qp) :
    (setQp s k q).netEvents = s.netEvents := rfl
@[simp] theorem setQp_twin (s : State) (k : Nat) (q : Qp) : (setQp s k q).twin = s.twin := rfl
@[simp] theorem setQp_bushel (s : State) (k : Nat) (q : Qp) : (setQp s k q).bushel = s.bushel := rfl
@[simp] theorem setQp_binds (s : State) (k : Nat) (q : Qp) : (setQp s k q).binds = s.binds := rfl
@[simp] theorem setQp_tags (s : State) (k : Nat) (q : Qp) : (setQp s k q).tags = s.tags := rfl
@[simp] theorem setQp_slots (s : State) (k : Nat) (q : Qp) : (setQp s k q).slots = s.slots := rfl
@[simp] theorem setQp_tagged (s : State) (k : Nat) (q : Qp) : (setQp s k q).tagged = s.tagged := rfl
@[simp] theorem setQp_ports (s : State) (k : Nat) (q : Qp) : (setQp s k q).ports = s.ports := rfl
@[simp] theorem setQp_coreOwner (s : State) (k : Nat) (q : Qp) :
    (setQp s k q).coreOwner = s.coreOwner := rfl
@[simp] theorem setQp_sched (s : State) (k : Nat) (q : Qp) : (setQp s k q).sched = s.sched := rfl
@[simp] theorem setQp_gill (s : State) (k : Nat) (q : Qp) : (setQp s k q).gill = s.gill := rfl
@[simp] theorem setQp_linkUp (s : State) (k : Nat) (q : Qp) : (setQp s k q).linkUp = s.linkUp := rfl
@[simp] theorem setQp_host (s : State) (k : Nat) (q : Qp) : (setQp s k q).host = s.host := rfl
@[simp] theorem setQp_drdy (s : State) (k : Nat) (q : Qp) : (setQp s k q).drdy = s.drdy := rfl
@[simp] theorem setQp_boot (s : State) (k : Nat) (q : Qp) : (setQp s k q).boot = s.boot := rfl
@[simp] theorem setQp_supply (s : State) (k : Nat) (q : Qp) : (setQp s k q).supply = s.supply := rfl

/-! `modQp`. -/

@[simp] theorem modQp_pending (s : State) (k : Nat) (f : Qp → Qp) :
    (modQp s k f).pending = s.pending := rfl
@[simp] theorem modQp_mem (s : State) (k : Nat) (f : Qp → Qp) : (modQp s k f).mem = s.mem := rfl
@[simp] theorem modQp_checks (s : State) (k : Nat) (f : Qp → Qp) :
    (modQp s k f).checks = s.checks := rfl
@[simp] theorem modQp_regs (s : State) (k : Nat) (f : Qp → Qp) : (modQp s k f).regs = s.regs := rfl
@[simp] theorem modQp_readData (s : State) (k : Nat) (f : Qp → Qp) :
    (modQp s k f).readData = s.readData := rfl
@[simp] theorem modQp_clocks (s : State) (k : Nat) (f : Qp → Qp) :
    (modQp s k f).clocks = s.clocks := rfl
@[simp] theorem modQp_freeCtr (s : State) (k : Nat) (f : Qp → Qp) :
    (modQp s k f).freeCtr = s.freeCtr := rfl
@[simp] theorem modQp_threads (s : State) (k : Nat) (f : Qp → Qp) :
    (modQp s k f).threads = s.threads := rfl
@[simp] theorem modQp_groups (s : State) (k : Nat) (f : Qp → Qp) :
    (modQp s k f).groups = s.groups := rfl
@[simp] theorem modQp_grids (s : State) (k : Nat) (f : Qp → Qp) :
    (modQp s k f).grids = s.grids := rfl
@[simp] theorem modQp_nextGrid (s : State) (k : Nat) (f : Qp → Qp) :
    (modQp s k f).nextGrid = s.nextGrid := rfl
@[simp] theorem modQp_images (s : State) (k : Nat) (f : Qp → Qp) :
    (modQp s k f).images = s.images := rfl
@[simp] theorem modQp_movers (s : State) (k : Nat) (f : Qp → Qp) :
    (modQp s k f).movers = s.movers := rfl
@[simp] theorem modQp_accs (s : State) (k : Nat) (f : Qp → Qp) : (modQp s k f).accs = s.accs := rfl
@[simp] theorem modQp_macBusy (s : State) (k : Nat) (f : Qp → Qp) :
    (modQp s k f).macBusy = s.macBusy := rfl
@[simp] theorem modQp_dbgHalt (s : State) (k : Nat) (f : Qp → Qp) :
    (modQp s k f).dbgHalt = s.dbgHalt := rfl
@[simp] theorem modQp_tlb (s : State) (k : Nat) (f : Qp → Qp) : (modQp s k f).tlb = s.tlb := rfl
@[simp] theorem modQp_owners (s : State) (k : Nat) (f : Qp → Qp) :
    (modQp s k f).owners = s.owners := rfl
@[simp] theorem modQp_invs (s : State) (k : Nat) (f : Qp → Qp) : (modQp s k f).invs = s.invs := rfl
@[simp] theorem modQp_faults (s : State) (k : Nat) (f : Qp → Qp) :
    (modQp s k f).faults = s.faults := rfl
@[simp] theorem modQp_syncs (s : State) (k : Nat) (f : Qp → Qp) :
    (modQp s k f).syncs = s.syncs := rfl
@[simp] theorem modQp_rings (s : State) (k : Nat) (f : Qp → Qp) :
    (modQp s k f).rings = s.rings := rfl
@[simp] theorem modQp_err (s : State) (k : Nat) (f : Qp → Qp) : (modQp s k f).err = s.err := rfl
@[simp] theorem modQp_mpEvents (s : State) (k : Nat) (f : Qp → Qp) :
    (modQp s k f).mpEvents = s.mpEvents := rfl
@[simp] theorem modQp_parts (s : State) (k : Nat) (f : Qp → Qp) :
    (modQp s k f).parts = s.parts := rfl
@[simp] theorem modQp_keys (s : State) (k : Nat) (f : Qp → Qp) : (modQp s k f).keys = s.keys := rfl
@[simp] theorem modQp_firkin (s : State) (k : Nat) (f : Qp → Qp) :
    (modQp s k f).firkin = s.firkin := rfl
@[simp] theorem modQp_arrived (s : State) (k : Nat) (f : Qp → Qp) :
    (modQp s k f).arrived = s.arrived := rfl
@[simp] theorem modQp_aqLast (s : State) (k : Nat) (f : Qp → Qp) :
    (modQp s k f).aqLast = s.aqLast := rfl
@[simp] theorem modQp_netEvents (s : State) (k : Nat) (f : Qp → Qp) :
    (modQp s k f).netEvents = s.netEvents := rfl
@[simp] theorem modQp_twin (s : State) (k : Nat) (f : Qp → Qp) : (modQp s k f).twin = s.twin := rfl
@[simp] theorem modQp_bushel (s : State) (k : Nat) (f : Qp → Qp) :
    (modQp s k f).bushel = s.bushel := rfl
@[simp] theorem modQp_binds (s : State) (k : Nat) (f : Qp → Qp) :
    (modQp s k f).binds = s.binds := rfl
@[simp] theorem modQp_tags (s : State) (k : Nat) (f : Qp → Qp) : (modQp s k f).tags = s.tags := rfl
@[simp] theorem modQp_slots (s : State) (k : Nat) (f : Qp → Qp) :
    (modQp s k f).slots = s.slots := rfl
@[simp] theorem modQp_tagged (s : State) (k : Nat) (f : Qp → Qp) :
    (modQp s k f).tagged = s.tagged := rfl
@[simp] theorem modQp_ports (s : State) (k : Nat) (f : Qp → Qp) :
    (modQp s k f).ports = s.ports := rfl
@[simp] theorem modQp_coreOwner (s : State) (k : Nat) (f : Qp → Qp) :
    (modQp s k f).coreOwner = s.coreOwner := rfl
@[simp] theorem modQp_sched (s : State) (k : Nat) (f : Qp → Qp) :
    (modQp s k f).sched = s.sched := rfl
@[simp] theorem modQp_gill (s : State) (k : Nat) (f : Qp → Qp) : (modQp s k f).gill = s.gill := rfl
@[simp] theorem modQp_linkUp (s : State) (k : Nat) (f : Qp → Qp) :
    (modQp s k f).linkUp = s.linkUp := rfl
@[simp] theorem modQp_host (s : State) (k : Nat) (f : Qp → Qp) : (modQp s k f).host = s.host := rfl
@[simp] theorem modQp_drdy (s : State) (k : Nat) (f : Qp → Qp) : (modQp s k f).drdy = s.drdy := rfl
@[simp] theorem modQp_boot (s : State) (k : Nat) (f : Qp → Qp) : (modQp s k f).boot = s.boot := rfl
@[simp] theorem modQp_supply (s : State) (k : Nat) (f : Qp → Qp) :
    (modQp s k f).supply = s.supply := rfl

/-! `setPort`. -/

@[simp] theorem setPort_pending (s : State) (n : Nat) (p : Port) :
    (setPort s n p).pending = s.pending := rfl
@[simp] theorem setPort_mem (s : State) (n : Nat) (p : Port) : (setPort s n p).mem = s.mem := rfl
@[simp] theorem setPort_checks (s : State) (n : Nat) (p : Port) :
    (setPort s n p).checks = s.checks := rfl
@[simp] theorem setPort_regs (s : State) (n : Nat) (p : Port) : (setPort s n p).regs = s.regs := rfl
@[simp] theorem setPort_readData (s : State) (n : Nat) (p : Port) :
    (setPort s n p).readData = s.readData := rfl
@[simp] theorem setPort_clocks (s : State) (n : Nat) (p : Port) :
    (setPort s n p).clocks = s.clocks := rfl
@[simp] theorem setPort_freeCtr (s : State) (n : Nat) (p : Port) :
    (setPort s n p).freeCtr = s.freeCtr := rfl
@[simp] theorem setPort_threads (s : State) (n : Nat) (p : Port) :
    (setPort s n p).threads = s.threads := rfl
@[simp] theorem setPort_groups (s : State) (n : Nat) (p : Port) :
    (setPort s n p).groups = s.groups := rfl
@[simp] theorem setPort_grids (s : State) (n : Nat) (p : Port) :
    (setPort s n p).grids = s.grids := rfl
@[simp] theorem setPort_nextGrid (s : State) (n : Nat) (p : Port) :
    (setPort s n p).nextGrid = s.nextGrid := rfl
@[simp] theorem setPort_images (s : State) (n : Nat) (p : Port) :
    (setPort s n p).images = s.images := rfl
@[simp] theorem setPort_movers (s : State) (n : Nat) (p : Port) :
    (setPort s n p).movers = s.movers := rfl
@[simp] theorem setPort_accs (s : State) (n : Nat) (p : Port) : (setPort s n p).accs = s.accs := rfl
@[simp] theorem setPort_macBusy (s : State) (n : Nat) (p : Port) :
    (setPort s n p).macBusy = s.macBusy := rfl
@[simp] theorem setPort_dbgHalt (s : State) (n : Nat) (p : Port) :
    (setPort s n p).dbgHalt = s.dbgHalt := rfl
@[simp] theorem setPort_tlb (s : State) (n : Nat) (p : Port) : (setPort s n p).tlb = s.tlb := rfl
@[simp] theorem setPort_owners (s : State) (n : Nat) (p : Port) :
    (setPort s n p).owners = s.owners := rfl
@[simp] theorem setPort_invs (s : State) (n : Nat) (p : Port) : (setPort s n p).invs = s.invs := rfl
@[simp] theorem setPort_faults (s : State) (n : Nat) (p : Port) :
    (setPort s n p).faults = s.faults := rfl
@[simp] theorem setPort_syncs (s : State) (n : Nat) (p : Port) :
    (setPort s n p).syncs = s.syncs := rfl
@[simp] theorem setPort_rings (s : State) (n : Nat) (p : Port) :
    (setPort s n p).rings = s.rings := rfl
@[simp] theorem setPort_err (s : State) (n : Nat) (p : Port) : (setPort s n p).err = s.err := rfl
@[simp] theorem setPort_mpEvents (s : State) (n : Nat) (p : Port) :
    (setPort s n p).mpEvents = s.mpEvents := rfl
@[simp] theorem setPort_parts (s : State) (n : Nat) (p : Port) :
    (setPort s n p).parts = s.parts := rfl
@[simp] theorem setPort_qps (s : State) (n : Nat) (p : Port) : (setPort s n p).qps = s.qps := rfl
@[simp] theorem setPort_keys (s : State) (n : Nat) (p : Port) : (setPort s n p).keys = s.keys := rfl
@[simp] theorem setPort_firkin (s : State) (n : Nat) (p : Port) :
    (setPort s n p).firkin = s.firkin := rfl
@[simp] theorem setPort_arrived (s : State) (n : Nat) (p : Port) :
    (setPort s n p).arrived = s.arrived := rfl
@[simp] theorem setPort_aqLast (s : State) (n : Nat) (p : Port) :
    (setPort s n p).aqLast = s.aqLast := rfl
@[simp] theorem setPort_netEvents (s : State) (n : Nat) (p : Port) :
    (setPort s n p).netEvents = s.netEvents := rfl
@[simp] theorem setPort_twin (s : State) (n : Nat) (p : Port) : (setPort s n p).twin = s.twin := rfl
@[simp] theorem setPort_bushel (s : State) (n : Nat) (p : Port) :
    (setPort s n p).bushel = s.bushel := rfl
@[simp] theorem setPort_binds (s : State) (n : Nat) (p : Port) :
    (setPort s n p).binds = s.binds := rfl
@[simp] theorem setPort_tags (s : State) (n : Nat) (p : Port) : (setPort s n p).tags = s.tags := rfl
@[simp] theorem setPort_slots (s : State) (n : Nat) (p : Port) :
    (setPort s n p).slots = s.slots := rfl
@[simp] theorem setPort_tagged (s : State) (n : Nat) (p : Port) :
    (setPort s n p).tagged = s.tagged := rfl
@[simp] theorem setPort_coreOwner (s : State) (n : Nat) (p : Port) :
    (setPort s n p).coreOwner = s.coreOwner := rfl
@[simp] theorem setPort_sched (s : State) (n : Nat) (p : Port) :
    (setPort s n p).sched = s.sched := rfl
@[simp] theorem setPort_gill (s : State) (n : Nat) (p : Port) : (setPort s n p).gill = s.gill := rfl
@[simp] theorem setPort_linkUp (s : State) (n : Nat) (p : Port) :
    (setPort s n p).linkUp = s.linkUp := rfl
@[simp] theorem setPort_host (s : State) (n : Nat) (p : Port) : (setPort s n p).host = s.host := rfl
@[simp] theorem setPort_drdy (s : State) (n : Nat) (p : Port) : (setPort s n p).drdy = s.drdy := rfl
@[simp] theorem setPort_boot (s : State) (n : Nat) (p : Port) : (setPort s n p).boot = s.boot := rfl
@[simp] theorem setPort_supply (s : State) (n : Nat) (p : Port) :
    (setPort s n p).supply = s.supply := rfl

/-! `modPort`. -/

@[simp] theorem modPort_pending (s : State) (n : Nat) (f : Port → Port) :
    (modPort s n f).pending = s.pending := rfl
@[simp] theorem modPort_mem (s : State) (n : Nat) (f : Port → Port) :
    (modPort s n f).mem = s.mem := rfl
@[simp] theorem modPort_checks (s : State) (n : Nat) (f : Port → Port) :
    (modPort s n f).checks = s.checks := rfl
@[simp] theorem modPort_regs (s : State) (n : Nat) (f : Port → Port) :
    (modPort s n f).regs = s.regs := rfl
@[simp] theorem modPort_readData (s : State) (n : Nat) (f : Port → Port) :
    (modPort s n f).readData = s.readData := rfl
@[simp] theorem modPort_clocks (s : State) (n : Nat) (f : Port → Port) :
    (modPort s n f).clocks = s.clocks := rfl
@[simp] theorem modPort_freeCtr (s : State) (n : Nat) (f : Port → Port) :
    (modPort s n f).freeCtr = s.freeCtr := rfl
@[simp] theorem modPort_threads (s : State) (n : Nat) (f : Port → Port) :
    (modPort s n f).threads = s.threads := rfl
@[simp] theorem modPort_groups (s : State) (n : Nat) (f : Port → Port) :
    (modPort s n f).groups = s.groups := rfl
@[simp] theorem modPort_grids (s : State) (n : Nat) (f : Port → Port) :
    (modPort s n f).grids = s.grids := rfl
@[simp] theorem modPort_nextGrid (s : State) (n : Nat) (f : Port → Port) :
    (modPort s n f).nextGrid = s.nextGrid := rfl
@[simp] theorem modPort_images (s : State) (n : Nat) (f : Port → Port) :
    (modPort s n f).images = s.images := rfl
@[simp] theorem modPort_movers (s : State) (n : Nat) (f : Port → Port) :
    (modPort s n f).movers = s.movers := rfl
@[simp] theorem modPort_accs (s : State) (n : Nat) (f : Port → Port) :
    (modPort s n f).accs = s.accs := rfl
@[simp] theorem modPort_macBusy (s : State) (n : Nat) (f : Port → Port) :
    (modPort s n f).macBusy = s.macBusy := rfl
@[simp] theorem modPort_dbgHalt (s : State) (n : Nat) (f : Port → Port) :
    (modPort s n f).dbgHalt = s.dbgHalt := rfl
@[simp] theorem modPort_tlb (s : State) (n : Nat) (f : Port → Port) :
    (modPort s n f).tlb = s.tlb := rfl
@[simp] theorem modPort_owners (s : State) (n : Nat) (f : Port → Port) :
    (modPort s n f).owners = s.owners := rfl
@[simp] theorem modPort_invs (s : State) (n : Nat) (f : Port → Port) :
    (modPort s n f).invs = s.invs := rfl
@[simp] theorem modPort_faults (s : State) (n : Nat) (f : Port → Port) :
    (modPort s n f).faults = s.faults := rfl
@[simp] theorem modPort_syncs (s : State) (n : Nat) (f : Port → Port) :
    (modPort s n f).syncs = s.syncs := rfl
@[simp] theorem modPort_rings (s : State) (n : Nat) (f : Port → Port) :
    (modPort s n f).rings = s.rings := rfl
@[simp] theorem modPort_err (s : State) (n : Nat) (f : Port → Port) :
    (modPort s n f).err = s.err := rfl
@[simp] theorem modPort_mpEvents (s : State) (n : Nat) (f : Port → Port) :
    (modPort s n f).mpEvents = s.mpEvents := rfl
@[simp] theorem modPort_parts (s : State) (n : Nat) (f : Port → Port) :
    (modPort s n f).parts = s.parts := rfl
@[simp] theorem modPort_qps (s : State) (n : Nat) (f : Port → Port) :
    (modPort s n f).qps = s.qps := rfl
@[simp] theorem modPort_keys (s : State) (n : Nat) (f : Port → Port) :
    (modPort s n f).keys = s.keys := rfl
@[simp] theorem modPort_firkin (s : State) (n : Nat) (f : Port → Port) :
    (modPort s n f).firkin = s.firkin := rfl
@[simp] theorem modPort_arrived (s : State) (n : Nat) (f : Port → Port) :
    (modPort s n f).arrived = s.arrived := rfl
@[simp] theorem modPort_aqLast (s : State) (n : Nat) (f : Port → Port) :
    (modPort s n f).aqLast = s.aqLast := rfl
@[simp] theorem modPort_netEvents (s : State) (n : Nat) (f : Port → Port) :
    (modPort s n f).netEvents = s.netEvents := rfl
@[simp] theorem modPort_twin (s : State) (n : Nat) (f : Port → Port) :
    (modPort s n f).twin = s.twin := rfl
@[simp] theorem modPort_bushel (s : State) (n : Nat) (f : Port → Port) :
    (modPort s n f).bushel = s.bushel := rfl
@[simp] theorem modPort_binds (s : State) (n : Nat) (f : Port → Port) :
    (modPort s n f).binds = s.binds := rfl
@[simp] theorem modPort_tags (s : State) (n : Nat) (f : Port → Port) :
    (modPort s n f).tags = s.tags := rfl
@[simp] theorem modPort_slots (s : State) (n : Nat) (f : Port → Port) :
    (modPort s n f).slots = s.slots := rfl
@[simp] theorem modPort_tagged (s : State) (n : Nat) (f : Port → Port) :
    (modPort s n f).tagged = s.tagged := rfl
@[simp] theorem modPort_coreOwner (s : State) (n : Nat) (f : Port → Port) :
    (modPort s n f).coreOwner = s.coreOwner := rfl
@[simp] theorem modPort_sched (s : State) (n : Nat) (f : Port → Port) :
    (modPort s n f).sched = s.sched := rfl
@[simp] theorem modPort_gill (s : State) (n : Nat) (f : Port → Port) :
    (modPort s n f).gill = s.gill := rfl
@[simp] theorem modPort_linkUp (s : State) (n : Nat) (f : Port → Port) :
    (modPort s n f).linkUp = s.linkUp := rfl
@[simp] theorem modPort_host (s : State) (n : Nat) (f : Port → Port) :
    (modPort s n f).host = s.host := rfl
@[simp] theorem modPort_drdy (s : State) (n : Nat) (f : Port → Port) :
    (modPort s n f).drdy = s.drdy := rfl
@[simp] theorem modPort_boot (s : State) (n : Nat) (f : Port → Port) :
    (modPort s n f).boot = s.boot := rfl
@[simp] theorem modPort_supply (s : State) (n : Nat) (f : Port → Port) :
    (modPort s n f).supply = s.supply := rfl

/-! `setSlot`. -/

@[simp] theorem setSlot_pending (s : State) (k : Nat) (x : KeySlot) :
    (setSlot s k x).pending = s.pending := rfl
@[simp] theorem setSlot_mem (s : State) (k : Nat) (x : KeySlot) : (setSlot s k x).mem = s.mem := rfl
@[simp] theorem setSlot_checks (s : State) (k : Nat) (x : KeySlot) :
    (setSlot s k x).checks = s.checks := rfl
@[simp] theorem setSlot_regs (s : State) (k : Nat) (x : KeySlot) :
    (setSlot s k x).regs = s.regs := rfl
@[simp] theorem setSlot_readData (s : State) (k : Nat) (x : KeySlot) :
    (setSlot s k x).readData = s.readData := rfl
@[simp] theorem setSlot_clocks (s : State) (k : Nat) (x : KeySlot) :
    (setSlot s k x).clocks = s.clocks := rfl
@[simp] theorem setSlot_freeCtr (s : State) (k : Nat) (x : KeySlot) :
    (setSlot s k x).freeCtr = s.freeCtr := rfl
@[simp] theorem setSlot_threads (s : State) (k : Nat) (x : KeySlot) :
    (setSlot s k x).threads = s.threads := rfl
@[simp] theorem setSlot_groups (s : State) (k : Nat) (x : KeySlot) :
    (setSlot s k x).groups = s.groups := rfl
@[simp] theorem setSlot_grids (s : State) (k : Nat) (x : KeySlot) :
    (setSlot s k x).grids = s.grids := rfl
@[simp] theorem setSlot_nextGrid (s : State) (k : Nat) (x : KeySlot) :
    (setSlot s k x).nextGrid = s.nextGrid := rfl
@[simp] theorem setSlot_images (s : State) (k : Nat) (x : KeySlot) :
    (setSlot s k x).images = s.images := rfl
@[simp] theorem setSlot_movers (s : State) (k : Nat) (x : KeySlot) :
    (setSlot s k x).movers = s.movers := rfl
@[simp] theorem setSlot_accs (s : State) (k : Nat) (x : KeySlot) :
    (setSlot s k x).accs = s.accs := rfl
@[simp] theorem setSlot_macBusy (s : State) (k : Nat) (x : KeySlot) :
    (setSlot s k x).macBusy = s.macBusy := rfl
@[simp] theorem setSlot_dbgHalt (s : State) (k : Nat) (x : KeySlot) :
    (setSlot s k x).dbgHalt = s.dbgHalt := rfl
@[simp] theorem setSlot_tlb (s : State) (k : Nat) (x : KeySlot) : (setSlot s k x).tlb = s.tlb := rfl
@[simp] theorem setSlot_owners (s : State) (k : Nat) (x : KeySlot) :
    (setSlot s k x).owners = s.owners := rfl
@[simp] theorem setSlot_invs (s : State) (k : Nat) (x : KeySlot) :
    (setSlot s k x).invs = s.invs := rfl
@[simp] theorem setSlot_faults (s : State) (k : Nat) (x : KeySlot) :
    (setSlot s k x).faults = s.faults := rfl
@[simp] theorem setSlot_syncs (s : State) (k : Nat) (x : KeySlot) :
    (setSlot s k x).syncs = s.syncs := rfl
@[simp] theorem setSlot_rings (s : State) (k : Nat) (x : KeySlot) :
    (setSlot s k x).rings = s.rings := rfl
@[simp] theorem setSlot_err (s : State) (k : Nat) (x : KeySlot) : (setSlot s k x).err = s.err := rfl
@[simp] theorem setSlot_mpEvents (s : State) (k : Nat) (x : KeySlot) :
    (setSlot s k x).mpEvents = s.mpEvents := rfl
@[simp] theorem setSlot_parts (s : State) (k : Nat) (x : KeySlot) :
    (setSlot s k x).parts = s.parts := rfl
@[simp] theorem setSlot_qps (s : State) (k : Nat) (x : KeySlot) : (setSlot s k x).qps = s.qps := rfl
@[simp] theorem setSlot_keys (s : State) (k : Nat) (x : KeySlot) :
    (setSlot s k x).keys = s.keys := rfl
@[simp] theorem setSlot_firkin (s : State) (k : Nat) (x : KeySlot) :
    (setSlot s k x).firkin = s.firkin := rfl
@[simp] theorem setSlot_arrived (s : State) (k : Nat) (x : KeySlot) :
    (setSlot s k x).arrived = s.arrived := rfl
@[simp] theorem setSlot_aqLast (s : State) (k : Nat) (x : KeySlot) :
    (setSlot s k x).aqLast = s.aqLast := rfl
@[simp] theorem setSlot_netEvents (s : State) (k : Nat) (x : KeySlot) :
    (setSlot s k x).netEvents = s.netEvents := rfl
@[simp] theorem setSlot_twin (s : State) (k : Nat) (x : KeySlot) :
    (setSlot s k x).twin = s.twin := rfl
@[simp] theorem setSlot_bushel (s : State) (k : Nat) (x : KeySlot) :
    (setSlot s k x).bushel = s.bushel := rfl
@[simp] theorem setSlot_binds (s : State) (k : Nat) (x : KeySlot) :
    (setSlot s k x).binds = s.binds := rfl
@[simp] theorem setSlot_tags (s : State) (k : Nat) (x : KeySlot) :
    (setSlot s k x).tags = s.tags := rfl
@[simp] theorem setSlot_tagged (s : State) (k : Nat) (x : KeySlot) :
    (setSlot s k x).tagged = s.tagged := rfl
@[simp] theorem setSlot_ports (s : State) (k : Nat) (x : KeySlot) :
    (setSlot s k x).ports = s.ports := rfl
@[simp] theorem setSlot_coreOwner (s : State) (k : Nat) (x : KeySlot) :
    (setSlot s k x).coreOwner = s.coreOwner := rfl
@[simp] theorem setSlot_sched (s : State) (k : Nat) (x : KeySlot) :
    (setSlot s k x).sched = s.sched := rfl
@[simp] theorem setSlot_gill (s : State) (k : Nat) (x : KeySlot) :
    (setSlot s k x).gill = s.gill := rfl
@[simp] theorem setSlot_linkUp (s : State) (k : Nat) (x : KeySlot) :
    (setSlot s k x).linkUp = s.linkUp := rfl
@[simp] theorem setSlot_host (s : State) (k : Nat) (x : KeySlot) :
    (setSlot s k x).host = s.host := rfl
@[simp] theorem setSlot_drdy (s : State) (k : Nat) (x : KeySlot) :
    (setSlot s k x).drdy = s.drdy := rfl
@[simp] theorem setSlot_boot (s : State) (k : Nat) (x : KeySlot) :
    (setSlot s k x).boot = s.boot := rfl
@[simp] theorem setSlot_supply (s : State) (k : Nat) (x : KeySlot) :
    (setSlot s k x).supply = s.supply := rfl

/-! `modTwin`. -/

@[simp] theorem modTwin_pending (s : State) (f : Twin → Twin) :
    (modTwin s f).pending = s.pending := rfl
@[simp] theorem modTwin_mem (s : State) (f : Twin → Twin) : (modTwin s f).mem = s.mem := rfl
@[simp] theorem modTwin_checks (s : State) (f : Twin → Twin) :
    (modTwin s f).checks = s.checks := rfl
@[simp] theorem modTwin_regs (s : State) (f : Twin → Twin) : (modTwin s f).regs = s.regs := rfl
@[simp] theorem modTwin_readData (s : State) (f : Twin → Twin) :
    (modTwin s f).readData = s.readData := rfl
@[simp] theorem modTwin_clocks (s : State) (f : Twin → Twin) :
    (modTwin s f).clocks = s.clocks := rfl
@[simp] theorem modTwin_freeCtr (s : State) (f : Twin → Twin) :
    (modTwin s f).freeCtr = s.freeCtr := rfl
@[simp] theorem modTwin_threads (s : State) (f : Twin → Twin) :
    (modTwin s f).threads = s.threads := rfl
@[simp] theorem modTwin_groups (s : State) (f : Twin → Twin) :
    (modTwin s f).groups = s.groups := rfl
@[simp] theorem modTwin_grids (s : State) (f : Twin → Twin) : (modTwin s f).grids = s.grids := rfl
@[simp] theorem modTwin_nextGrid (s : State) (f : Twin → Twin) :
    (modTwin s f).nextGrid = s.nextGrid := rfl
@[simp] theorem modTwin_images (s : State) (f : Twin → Twin) :
    (modTwin s f).images = s.images := rfl
@[simp] theorem modTwin_movers (s : State) (f : Twin → Twin) :
    (modTwin s f).movers = s.movers := rfl
@[simp] theorem modTwin_accs (s : State) (f : Twin → Twin) : (modTwin s f).accs = s.accs := rfl
@[simp] theorem modTwin_macBusy (s : State) (f : Twin → Twin) :
    (modTwin s f).macBusy = s.macBusy := rfl
@[simp] theorem modTwin_dbgHalt (s : State) (f : Twin → Twin) :
    (modTwin s f).dbgHalt = s.dbgHalt := rfl
@[simp] theorem modTwin_tlb (s : State) (f : Twin → Twin) : (modTwin s f).tlb = s.tlb := rfl
@[simp] theorem modTwin_owners (s : State) (f : Twin → Twin) :
    (modTwin s f).owners = s.owners := rfl
@[simp] theorem modTwin_invs (s : State) (f : Twin → Twin) : (modTwin s f).invs = s.invs := rfl
@[simp] theorem modTwin_faults (s : State) (f : Twin → Twin) :
    (modTwin s f).faults = s.faults := rfl
@[simp] theorem modTwin_syncs (s : State) (f : Twin → Twin) : (modTwin s f).syncs = s.syncs := rfl
@[simp] theorem modTwin_rings (s : State) (f : Twin → Twin) : (modTwin s f).rings = s.rings := rfl
@[simp] theorem modTwin_err (s : State) (f : Twin → Twin) : (modTwin s f).err = s.err := rfl
@[simp] theorem modTwin_mpEvents (s : State) (f : Twin → Twin) :
    (modTwin s f).mpEvents = s.mpEvents := rfl
@[simp] theorem modTwin_parts (s : State) (f : Twin → Twin) : (modTwin s f).parts = s.parts := rfl
@[simp] theorem modTwin_qps (s : State) (f : Twin → Twin) : (modTwin s f).qps = s.qps := rfl
@[simp] theorem modTwin_keys (s : State) (f : Twin → Twin) : (modTwin s f).keys = s.keys := rfl
@[simp] theorem modTwin_firkin (s : State) (f : Twin → Twin) :
    (modTwin s f).firkin = s.firkin := rfl
@[simp] theorem modTwin_arrived (s : State) (f : Twin → Twin) :
    (modTwin s f).arrived = s.arrived := rfl
@[simp] theorem modTwin_aqLast (s : State) (f : Twin → Twin) :
    (modTwin s f).aqLast = s.aqLast := rfl
@[simp] theorem modTwin_netEvents (s : State) (f : Twin → Twin) :
    (modTwin s f).netEvents = s.netEvents := rfl
@[simp] theorem modTwin_bushel (s : State) (f : Twin → Twin) :
    (modTwin s f).bushel = s.bushel := rfl
@[simp] theorem modTwin_binds (s : State) (f : Twin → Twin) : (modTwin s f).binds = s.binds := rfl
@[simp] theorem modTwin_tags (s : State) (f : Twin → Twin) : (modTwin s f).tags = s.tags := rfl
@[simp] theorem modTwin_slots (s : State) (f : Twin → Twin) : (modTwin s f).slots = s.slots := rfl
@[simp] theorem modTwin_tagged (s : State) (f : Twin → Twin) :
    (modTwin s f).tagged = s.tagged := rfl
@[simp] theorem modTwin_ports (s : State) (f : Twin → Twin) : (modTwin s f).ports = s.ports := rfl
@[simp] theorem modTwin_coreOwner (s : State) (f : Twin → Twin) :
    (modTwin s f).coreOwner = s.coreOwner := rfl
@[simp] theorem modTwin_sched (s : State) (f : Twin → Twin) : (modTwin s f).sched = s.sched := rfl
@[simp] theorem modTwin_gill (s : State) (f : Twin → Twin) : (modTwin s f).gill = s.gill := rfl
@[simp] theorem modTwin_linkUp (s : State) (f : Twin → Twin) :
    (modTwin s f).linkUp = s.linkUp := rfl
@[simp] theorem modTwin_host (s : State) (f : Twin → Twin) : (modTwin s f).host = s.host := rfl
@[simp] theorem modTwin_drdy (s : State) (f : Twin → Twin) : (modTwin s f).drdy = s.drdy := rfl
@[simp] theorem modTwin_boot (s : State) (f : Twin → Twin) : (modTwin s f).boot = s.boot := rfl
@[simp] theorem modTwin_supply (s : State) (f : Twin → Twin) :
    (modTwin s f).supply = s.supply := rfl

/-! `modGill`. -/

@[simp] theorem modGill_pending (s : State) (f : Gill → Gill) :
    (modGill s f).pending = s.pending := rfl
@[simp] theorem modGill_mem (s : State) (f : Gill → Gill) : (modGill s f).mem = s.mem := rfl
@[simp] theorem modGill_checks (s : State) (f : Gill → Gill) :
    (modGill s f).checks = s.checks := rfl
@[simp] theorem modGill_regs (s : State) (f : Gill → Gill) : (modGill s f).regs = s.regs := rfl
@[simp] theorem modGill_readData (s : State) (f : Gill → Gill) :
    (modGill s f).readData = s.readData := rfl
@[simp] theorem modGill_clocks (s : State) (f : Gill → Gill) :
    (modGill s f).clocks = s.clocks := rfl
@[simp] theorem modGill_freeCtr (s : State) (f : Gill → Gill) :
    (modGill s f).freeCtr = s.freeCtr := rfl
@[simp] theorem modGill_threads (s : State) (f : Gill → Gill) :
    (modGill s f).threads = s.threads := rfl
@[simp] theorem modGill_groups (s : State) (f : Gill → Gill) :
    (modGill s f).groups = s.groups := rfl
@[simp] theorem modGill_grids (s : State) (f : Gill → Gill) : (modGill s f).grids = s.grids := rfl
@[simp] theorem modGill_nextGrid (s : State) (f : Gill → Gill) :
    (modGill s f).nextGrid = s.nextGrid := rfl
@[simp] theorem modGill_images (s : State) (f : Gill → Gill) :
    (modGill s f).images = s.images := rfl
@[simp] theorem modGill_movers (s : State) (f : Gill → Gill) :
    (modGill s f).movers = s.movers := rfl
@[simp] theorem modGill_accs (s : State) (f : Gill → Gill) : (modGill s f).accs = s.accs := rfl
@[simp] theorem modGill_macBusy (s : State) (f : Gill → Gill) :
    (modGill s f).macBusy = s.macBusy := rfl
@[simp] theorem modGill_dbgHalt (s : State) (f : Gill → Gill) :
    (modGill s f).dbgHalt = s.dbgHalt := rfl
@[simp] theorem modGill_tlb (s : State) (f : Gill → Gill) : (modGill s f).tlb = s.tlb := rfl
@[simp] theorem modGill_owners (s : State) (f : Gill → Gill) :
    (modGill s f).owners = s.owners := rfl
@[simp] theorem modGill_invs (s : State) (f : Gill → Gill) : (modGill s f).invs = s.invs := rfl
@[simp] theorem modGill_faults (s : State) (f : Gill → Gill) :
    (modGill s f).faults = s.faults := rfl
@[simp] theorem modGill_syncs (s : State) (f : Gill → Gill) : (modGill s f).syncs = s.syncs := rfl
@[simp] theorem modGill_rings (s : State) (f : Gill → Gill) : (modGill s f).rings = s.rings := rfl
@[simp] theorem modGill_err (s : State) (f : Gill → Gill) : (modGill s f).err = s.err := rfl
@[simp] theorem modGill_mpEvents (s : State) (f : Gill → Gill) :
    (modGill s f).mpEvents = s.mpEvents := rfl
@[simp] theorem modGill_parts (s : State) (f : Gill → Gill) : (modGill s f).parts = s.parts := rfl
@[simp] theorem modGill_qps (s : State) (f : Gill → Gill) : (modGill s f).qps = s.qps := rfl
@[simp] theorem modGill_keys (s : State) (f : Gill → Gill) : (modGill s f).keys = s.keys := rfl
@[simp] theorem modGill_firkin (s : State) (f : Gill → Gill) :
    (modGill s f).firkin = s.firkin := rfl
@[simp] theorem modGill_arrived (s : State) (f : Gill → Gill) :
    (modGill s f).arrived = s.arrived := rfl
@[simp] theorem modGill_aqLast (s : State) (f : Gill → Gill) :
    (modGill s f).aqLast = s.aqLast := rfl
@[simp] theorem modGill_netEvents (s : State) (f : Gill → Gill) :
    (modGill s f).netEvents = s.netEvents := rfl
@[simp] theorem modGill_twin (s : State) (f : Gill → Gill) : (modGill s f).twin = s.twin := rfl
@[simp] theorem modGill_bushel (s : State) (f : Gill → Gill) :
    (modGill s f).bushel = s.bushel := rfl
@[simp] theorem modGill_binds (s : State) (f : Gill → Gill) : (modGill s f).binds = s.binds := rfl
@[simp] theorem modGill_tags (s : State) (f : Gill → Gill) : (modGill s f).tags = s.tags := rfl
@[simp] theorem modGill_slots (s : State) (f : Gill → Gill) : (modGill s f).slots = s.slots := rfl
@[simp] theorem modGill_tagged (s : State) (f : Gill → Gill) :
    (modGill s f).tagged = s.tagged := rfl
@[simp] theorem modGill_ports (s : State) (f : Gill → Gill) : (modGill s f).ports = s.ports := rfl
@[simp] theorem modGill_coreOwner (s : State) (f : Gill → Gill) :
    (modGill s f).coreOwner = s.coreOwner := rfl
@[simp] theorem modGill_sched (s : State) (f : Gill → Gill) : (modGill s f).sched = s.sched := rfl
@[simp] theorem modGill_linkUp (s : State) (f : Gill → Gill) :
    (modGill s f).linkUp = s.linkUp := rfl
@[simp] theorem modGill_host (s : State) (f : Gill → Gill) : (modGill s f).host = s.host := rfl
@[simp] theorem modGill_drdy (s : State) (f : Gill → Gill) : (modGill s f).drdy = s.drdy := rfl
@[simp] theorem modGill_boot (s : State) (f : Gill → Gill) : (modGill s f).boot = s.boot := rfl
@[simp] theorem modGill_supply (s : State) (f : Gill → Gill) :
    (modGill s f).supply = s.supply := rfl

/-! `setBsh`. -/

@[simp] theorem setBsh_pending (s : State) (g : Nat) (x : BshGroup) :
    (setBsh s g x).pending = s.pending := rfl
@[simp] theorem setBsh_mem (s : State) (g : Nat) (x : BshGroup) : (setBsh s g x).mem = s.mem := rfl
@[simp] theorem setBsh_checks (s : State) (g : Nat) (x : BshGroup) :
    (setBsh s g x).checks = s.checks := rfl
@[simp] theorem setBsh_regs (s : State) (g : Nat) (x : BshGroup) :
    (setBsh s g x).regs = s.regs := rfl
@[simp] theorem setBsh_readData (s : State) (g : Nat) (x : BshGroup) :
    (setBsh s g x).readData = s.readData := rfl
@[simp] theorem setBsh_clocks (s : State) (g : Nat) (x : BshGroup) :
    (setBsh s g x).clocks = s.clocks := rfl
@[simp] theorem setBsh_freeCtr (s : State) (g : Nat) (x : BshGroup) :
    (setBsh s g x).freeCtr = s.freeCtr := rfl
@[simp] theorem setBsh_threads (s : State) (g : Nat) (x : BshGroup) :
    (setBsh s g x).threads = s.threads := rfl
@[simp] theorem setBsh_groups (s : State) (g : Nat) (x : BshGroup) :
    (setBsh s g x).groups = s.groups := rfl
@[simp] theorem setBsh_grids (s : State) (g : Nat) (x : BshGroup) :
    (setBsh s g x).grids = s.grids := rfl
@[simp] theorem setBsh_nextGrid (s : State) (g : Nat) (x : BshGroup) :
    (setBsh s g x).nextGrid = s.nextGrid := rfl
@[simp] theorem setBsh_images (s : State) (g : Nat) (x : BshGroup) :
    (setBsh s g x).images = s.images := rfl
@[simp] theorem setBsh_movers (s : State) (g : Nat) (x : BshGroup) :
    (setBsh s g x).movers = s.movers := rfl
@[simp] theorem setBsh_accs (s : State) (g : Nat) (x : BshGroup) :
    (setBsh s g x).accs = s.accs := rfl
@[simp] theorem setBsh_macBusy (s : State) (g : Nat) (x : BshGroup) :
    (setBsh s g x).macBusy = s.macBusy := rfl
@[simp] theorem setBsh_dbgHalt (s : State) (g : Nat) (x : BshGroup) :
    (setBsh s g x).dbgHalt = s.dbgHalt := rfl
@[simp] theorem setBsh_tlb (s : State) (g : Nat) (x : BshGroup) : (setBsh s g x).tlb = s.tlb := rfl
@[simp] theorem setBsh_owners (s : State) (g : Nat) (x : BshGroup) :
    (setBsh s g x).owners = s.owners := rfl
@[simp] theorem setBsh_invs (s : State) (g : Nat) (x : BshGroup) :
    (setBsh s g x).invs = s.invs := rfl
@[simp] theorem setBsh_faults (s : State) (g : Nat) (x : BshGroup) :
    (setBsh s g x).faults = s.faults := rfl
@[simp] theorem setBsh_syncs (s : State) (g : Nat) (x : BshGroup) :
    (setBsh s g x).syncs = s.syncs := rfl
@[simp] theorem setBsh_rings (s : State) (g : Nat) (x : BshGroup) :
    (setBsh s g x).rings = s.rings := rfl
@[simp] theorem setBsh_err (s : State) (g : Nat) (x : BshGroup) : (setBsh s g x).err = s.err := rfl
@[simp] theorem setBsh_mpEvents (s : State) (g : Nat) (x : BshGroup) :
    (setBsh s g x).mpEvents = s.mpEvents := rfl
@[simp] theorem setBsh_parts (s : State) (g : Nat) (x : BshGroup) :
    (setBsh s g x).parts = s.parts := rfl
@[simp] theorem setBsh_qps (s : State) (g : Nat) (x : BshGroup) : (setBsh s g x).qps = s.qps := rfl
@[simp] theorem setBsh_keys (s : State) (g : Nat) (x : BshGroup) :
    (setBsh s g x).keys = s.keys := rfl
@[simp] theorem setBsh_firkin (s : State) (g : Nat) (x : BshGroup) :
    (setBsh s g x).firkin = s.firkin := rfl
@[simp] theorem setBsh_arrived (s : State) (g : Nat) (x : BshGroup) :
    (setBsh s g x).arrived = s.arrived := rfl
@[simp] theorem setBsh_aqLast (s : State) (g : Nat) (x : BshGroup) :
    (setBsh s g x).aqLast = s.aqLast := rfl
@[simp] theorem setBsh_netEvents (s : State) (g : Nat) (x : BshGroup) :
    (setBsh s g x).netEvents = s.netEvents := rfl
@[simp] theorem setBsh_twin (s : State) (g : Nat) (x : BshGroup) :
    (setBsh s g x).twin = s.twin := rfl
@[simp] theorem setBsh_binds (s : State) (g : Nat) (x : BshGroup) :
    (setBsh s g x).binds = s.binds := rfl
@[simp] theorem setBsh_tags (s : State) (g : Nat) (x : BshGroup) :
    (setBsh s g x).tags = s.tags := rfl
@[simp] theorem setBsh_slots (s : State) (g : Nat) (x : BshGroup) :
    (setBsh s g x).slots = s.slots := rfl
@[simp] theorem setBsh_tagged (s : State) (g : Nat) (x : BshGroup) :
    (setBsh s g x).tagged = s.tagged := rfl
@[simp] theorem setBsh_ports (s : State) (g : Nat) (x : BshGroup) :
    (setBsh s g x).ports = s.ports := rfl
@[simp] theorem setBsh_coreOwner (s : State) (g : Nat) (x : BshGroup) :
    (setBsh s g x).coreOwner = s.coreOwner := rfl
@[simp] theorem setBsh_sched (s : State) (g : Nat) (x : BshGroup) :
    (setBsh s g x).sched = s.sched := rfl
@[simp] theorem setBsh_gill (s : State) (g : Nat) (x : BshGroup) :
    (setBsh s g x).gill = s.gill := rfl
@[simp] theorem setBsh_linkUp (s : State) (g : Nat) (x : BshGroup) :
    (setBsh s g x).linkUp = s.linkUp := rfl
@[simp] theorem setBsh_host (s : State) (g : Nat) (x : BshGroup) :
    (setBsh s g x).host = s.host := rfl
@[simp] theorem setBsh_drdy (s : State) (g : Nat) (x : BshGroup) :
    (setBsh s g x).drdy = s.drdy := rfl
@[simp] theorem setBsh_boot (s : State) (g : Nat) (x : BshGroup) :
    (setBsh s g x).boot = s.boot := rfl
@[simp] theorem setBsh_supply (s : State) (g : Nat) (x : BshGroup) :
    (setBsh s g x).supply = s.supply := rfl

/-! `setTag`. -/

@[simp] theorem setTag_pending (s : State) (t : Nat) (x : CrdTag) :
    (setTag s t x).pending = s.pending := rfl
@[simp] theorem setTag_mem (s : State) (t : Nat) (x : CrdTag) : (setTag s t x).mem = s.mem := rfl
@[simp] theorem setTag_checks (s : State) (t : Nat) (x : CrdTag) :
    (setTag s t x).checks = s.checks := rfl
@[simp] theorem setTag_regs (s : State) (t : Nat) (x : CrdTag) : (setTag s t x).regs = s.regs := rfl
@[simp] theorem setTag_readData (s : State) (t : Nat) (x : CrdTag) :
    (setTag s t x).readData = s.readData := rfl
@[simp] theorem setTag_clocks (s : State) (t : Nat) (x : CrdTag) :
    (setTag s t x).clocks = s.clocks := rfl
@[simp] theorem setTag_freeCtr (s : State) (t : Nat) (x : CrdTag) :
    (setTag s t x).freeCtr = s.freeCtr := rfl
@[simp] theorem setTag_threads (s : State) (t : Nat) (x : CrdTag) :
    (setTag s t x).threads = s.threads := rfl
@[simp] theorem setTag_groups (s : State) (t : Nat) (x : CrdTag) :
    (setTag s t x).groups = s.groups := rfl
@[simp] theorem setTag_grids (s : State) (t : Nat) (x : CrdTag) :
    (setTag s t x).grids = s.grids := rfl
@[simp] theorem setTag_nextGrid (s : State) (t : Nat) (x : CrdTag) :
    (setTag s t x).nextGrid = s.nextGrid := rfl
@[simp] theorem setTag_images (s : State) (t : Nat) (x : CrdTag) :
    (setTag s t x).images = s.images := rfl
@[simp] theorem setTag_movers (s : State) (t : Nat) (x : CrdTag) :
    (setTag s t x).movers = s.movers := rfl
@[simp] theorem setTag_accs (s : State) (t : Nat) (x : CrdTag) : (setTag s t x).accs = s.accs := rfl
@[simp] theorem setTag_macBusy (s : State) (t : Nat) (x : CrdTag) :
    (setTag s t x).macBusy = s.macBusy := rfl
@[simp] theorem setTag_dbgHalt (s : State) (t : Nat) (x : CrdTag) :
    (setTag s t x).dbgHalt = s.dbgHalt := rfl
@[simp] theorem setTag_tlb (s : State) (t : Nat) (x : CrdTag) : (setTag s t x).tlb = s.tlb := rfl
@[simp] theorem setTag_owners (s : State) (t : Nat) (x : CrdTag) :
    (setTag s t x).owners = s.owners := rfl
@[simp] theorem setTag_invs (s : State) (t : Nat) (x : CrdTag) : (setTag s t x).invs = s.invs := rfl
@[simp] theorem setTag_faults (s : State) (t : Nat) (x : CrdTag) :
    (setTag s t x).faults = s.faults := rfl
@[simp] theorem setTag_syncs (s : State) (t : Nat) (x : CrdTag) :
    (setTag s t x).syncs = s.syncs := rfl
@[simp] theorem setTag_rings (s : State) (t : Nat) (x : CrdTag) :
    (setTag s t x).rings = s.rings := rfl
@[simp] theorem setTag_err (s : State) (t : Nat) (x : CrdTag) : (setTag s t x).err = s.err := rfl
@[simp] theorem setTag_mpEvents (s : State) (t : Nat) (x : CrdTag) :
    (setTag s t x).mpEvents = s.mpEvents := rfl
@[simp] theorem setTag_parts (s : State) (t : Nat) (x : CrdTag) :
    (setTag s t x).parts = s.parts := rfl
@[simp] theorem setTag_qps (s : State) (t : Nat) (x : CrdTag) : (setTag s t x).qps = s.qps := rfl
@[simp] theorem setTag_keys (s : State) (t : Nat) (x : CrdTag) : (setTag s t x).keys = s.keys := rfl
@[simp] theorem setTag_firkin (s : State) (t : Nat) (x : CrdTag) :
    (setTag s t x).firkin = s.firkin := rfl
@[simp] theorem setTag_arrived (s : State) (t : Nat) (x : CrdTag) :
    (setTag s t x).arrived = s.arrived := rfl
@[simp] theorem setTag_aqLast (s : State) (t : Nat) (x : CrdTag) :
    (setTag s t x).aqLast = s.aqLast := rfl
@[simp] theorem setTag_netEvents (s : State) (t : Nat) (x : CrdTag) :
    (setTag s t x).netEvents = s.netEvents := rfl
@[simp] theorem setTag_twin (s : State) (t : Nat) (x : CrdTag) : (setTag s t x).twin = s.twin := rfl
@[simp] theorem setTag_bushel (s : State) (t : Nat) (x : CrdTag) :
    (setTag s t x).bushel = s.bushel := rfl
@[simp] theorem setTag_binds (s : State) (t : Nat) (x : CrdTag) :
    (setTag s t x).binds = s.binds := rfl
@[simp] theorem setTag_slots (s : State) (t : Nat) (x : CrdTag) :
    (setTag s t x).slots = s.slots := rfl
@[simp] theorem setTag_tagged (s : State) (t : Nat) (x : CrdTag) :
    (setTag s t x).tagged = s.tagged := rfl
@[simp] theorem setTag_ports (s : State) (t : Nat) (x : CrdTag) :
    (setTag s t x).ports = s.ports := rfl
@[simp] theorem setTag_coreOwner (s : State) (t : Nat) (x : CrdTag) :
    (setTag s t x).coreOwner = s.coreOwner := rfl
@[simp] theorem setTag_sched (s : State) (t : Nat) (x : CrdTag) :
    (setTag s t x).sched = s.sched := rfl
@[simp] theorem setTag_gill (s : State) (t : Nat) (x : CrdTag) : (setTag s t x).gill = s.gill := rfl
@[simp] theorem setTag_linkUp (s : State) (t : Nat) (x : CrdTag) :
    (setTag s t x).linkUp = s.linkUp := rfl
@[simp] theorem setTag_host (s : State) (t : Nat) (x : CrdTag) : (setTag s t x).host = s.host := rfl
@[simp] theorem setTag_drdy (s : State) (t : Nat) (x : CrdTag) : (setTag s t x).drdy = s.drdy := rfl
@[simp] theorem setTag_boot (s : State) (t : Nat) (x : CrdTag) : (setTag s t x).boot = s.boot := rfl
@[simp] theorem setTag_supply (s : State) (t : Nat) (x : CrdTag) :
    (setTag s t x).supply = s.supply := rfl

/-! A free value. -/

@[simp] theorem takeFree_pending (s : State) : (takeFree s).2.pending = s.pending := rfl
@[simp] theorem takeFree_mem (s : State) : (takeFree s).2.mem = s.mem := rfl
@[simp] theorem takeFree_checks (s : State) : (takeFree s).2.checks = s.checks := rfl
@[simp] theorem takeFree_regs (s : State) : (takeFree s).2.regs = s.regs := rfl
@[simp] theorem takeFree_readData (s : State) : (takeFree s).2.readData = s.readData := rfl
@[simp] theorem takeFree_clocks (s : State) : (takeFree s).2.clocks = s.clocks := rfl
@[simp] theorem takeFree_threads (s : State) : (takeFree s).2.threads = s.threads := rfl
@[simp] theorem takeFree_groups (s : State) : (takeFree s).2.groups = s.groups := rfl
@[simp] theorem takeFree_grids (s : State) : (takeFree s).2.grids = s.grids := rfl
@[simp] theorem takeFree_nextGrid (s : State) : (takeFree s).2.nextGrid = s.nextGrid := rfl
@[simp] theorem takeFree_images (s : State) : (takeFree s).2.images = s.images := rfl
@[simp] theorem takeFree_movers (s : State) : (takeFree s).2.movers = s.movers := rfl
@[simp] theorem takeFree_accs (s : State) : (takeFree s).2.accs = s.accs := rfl
@[simp] theorem takeFree_macBusy (s : State) : (takeFree s).2.macBusy = s.macBusy := rfl
@[simp] theorem takeFree_dbgHalt (s : State) : (takeFree s).2.dbgHalt = s.dbgHalt := rfl
@[simp] theorem takeFree_tlb (s : State) : (takeFree s).2.tlb = s.tlb := rfl
@[simp] theorem takeFree_owners (s : State) : (takeFree s).2.owners = s.owners := rfl
@[simp] theorem takeFree_invs (s : State) : (takeFree s).2.invs = s.invs := rfl
@[simp] theorem takeFree_faults (s : State) : (takeFree s).2.faults = s.faults := rfl
@[simp] theorem takeFree_syncs (s : State) : (takeFree s).2.syncs = s.syncs := rfl
@[simp] theorem takeFree_rings (s : State) : (takeFree s).2.rings = s.rings := rfl
@[simp] theorem takeFree_err (s : State) : (takeFree s).2.err = s.err := rfl
@[simp] theorem takeFree_mpEvents (s : State) : (takeFree s).2.mpEvents = s.mpEvents := rfl
@[simp] theorem takeFree_parts (s : State) : (takeFree s).2.parts = s.parts := rfl
@[simp] theorem takeFree_qps (s : State) : (takeFree s).2.qps = s.qps := rfl
@[simp] theorem takeFree_keys (s : State) : (takeFree s).2.keys = s.keys := rfl
@[simp] theorem takeFree_firkin (s : State) : (takeFree s).2.firkin = s.firkin := rfl
@[simp] theorem takeFree_arrived (s : State) : (takeFree s).2.arrived = s.arrived := rfl
@[simp] theorem takeFree_aqLast (s : State) : (takeFree s).2.aqLast = s.aqLast := rfl
@[simp] theorem takeFree_netEvents (s : State) : (takeFree s).2.netEvents = s.netEvents := rfl
@[simp] theorem takeFree_twin (s : State) : (takeFree s).2.twin = s.twin := rfl
@[simp] theorem takeFree_bushel (s : State) : (takeFree s).2.bushel = s.bushel := rfl
@[simp] theorem takeFree_binds (s : State) : (takeFree s).2.binds = s.binds := rfl
@[simp] theorem takeFree_tags (s : State) : (takeFree s).2.tags = s.tags := rfl
@[simp] theorem takeFree_slots (s : State) : (takeFree s).2.slots = s.slots := rfl
@[simp] theorem takeFree_tagged (s : State) : (takeFree s).2.tagged = s.tagged := rfl
@[simp] theorem takeFree_ports (s : State) : (takeFree s).2.ports = s.ports := rfl
@[simp] theorem takeFree_coreOwner (s : State) : (takeFree s).2.coreOwner = s.coreOwner := rfl
@[simp] theorem takeFree_sched (s : State) : (takeFree s).2.sched = s.sched := rfl
@[simp] theorem takeFree_gill (s : State) : (takeFree s).2.gill = s.gill := rfl
@[simp] theorem takeFree_linkUp (s : State) : (takeFree s).2.linkUp = s.linkUp := rfl
@[simp] theorem takeFree_host (s : State) : (takeFree s).2.host = s.host := rfl
@[simp] theorem takeFree_drdy (s : State) : (takeFree s).2.drdy = s.drdy := rfl
@[simp] theorem takeFree_boot (s : State) : (takeFree s).2.boot = s.boot := rfl
@[simp] theorem takeFree_supply (s : State) : (takeFree s).2.supply = s.supply := rfl

end Sys2Proof.Machine
end

