-- ==== Sys2Proof/Laws/Table.lean ====
section
/-! SUPPORT. Laws of the finite maps, of memory as one of them, and of registers read after they are
written. -/

namespace Sys2Proof.Machine

theorem tget_tput {α : Type} (d : α) (m : Table α) (k : Nat) (v : α) (q : Nat) :
    tget d (tput k v m) q = if q = k then v else tget d m q := by
  induction m with
  | nil => simp [tput, tget]
  | cons e m ih =>
    obtain ⟨p, w⟩ := e
    simp only [tput]
    split
    · simp [tget]
    · split
      · subst_vars
        by_cases h : q = p <;> simp [tget, h]
      · by_cases h : q = p
        · subst h; simp_all [tget, eq_comm]
        · simp [tget, h, ih]

theorem tget_tdel_ne {α : Type} (d : α) (m : Table α) (k q : Nat) (h : q ≠ k) :
    tget d (tdel k m) q = tget d m q := by
  induction m with
  | nil => rfl
  | cons e m ih =>
    obtain ⟨p, w⟩ := e
    simp only [tdel]
    split
    · subst_vars; simp [tget, h]
    · simp only [tget, ih]

/-- Reading another key than the one set. -/
theorem tget_tset_ne {α : Type} [DecidableEq α] (d : α) (m : Table α) (k : Nat) (v : α) (q : Nat)
    (h : q ≠ k) : tget d (tset d m k v) q = tget d m q := by
  unfold tset
  split
  · exact tget_tdel_ne d m k q h
  · simp [tget_tput, h]

/-- Reading a key set to something else than the default. -/
theorem tget_tset_same {α : Type} [DecidableEq α] (d : α) (m : Table α) (k : Nat) (v : α)
    (h : v ≠ d) : tget d (tset d m k v) k = v := by
  simp [tset, h, tget_tput]

theorem tget_of_rising {α : Type} (d : α) (m : Table α) (lo : Nat)
    (h : risingFrom (some lo) m = true) (q : Nat) (hq : q ≤ lo) : tget d m q = d := by
  induction m generalizing lo with
  | nil => rfl
  | cons e m ih =>
    obtain ⟨p, w⟩ := e
    simp only [risingFrom, Bool.and_eq_true, decide_eq_true_eq] at h
    have hne : q ≠ p := by omega
    simp only [tget, hne, if_false]
    exact ih p h.2 (by omega)

theorem risingFrom_mono {α : Type} (m : Table α) (a b : Nat) (hab : b ≤ a)
    (h : risingFrom (some a) m = true) : risingFrom (some b) m = true := by
  cases m with
  | nil => rfl
  | cons e m =>
    obtain ⟨p, w⟩ := e
    simp only [risingFrom, Bool.and_eq_true, decide_eq_true_eq] at h ⊢
    exact ⟨by omega, h.2⟩

theorem rising_none {α : Type} (m : Table α) (a : Nat) (h : risingFrom (some a) m = true) :
    risingFrom none m = true := by
  cases m with
  | nil => rfl
  | cons e m =>
    obtain ⟨p, w⟩ := e
    simp only [risingFrom, Bool.and_eq_true, decide_eq_true_eq] at h ⊢
    exact ⟨trivial, h.2⟩

/-- Keys stay rising when one is listed. -/
theorem rising_tput {α : Type} (k : Nat) (v : α) (m : Table α) (lo : Option Nat)
    (hk : ∀ l, lo = some l → l < k) (h : risingFrom lo m = true) :
    risingFrom lo (tput k v m) = true := by
  induction m generalizing lo with
  | nil => cases lo <;> simp_all [tput, risingFrom]
  | cons e m ih =>
    obtain ⟨p, w⟩ := e
    simp only [risingFrom, Bool.and_eq_true] at h
    simp only [tput]
    split
    · rename_i hlt
      simp only [risingFrom, Bool.and_eq_true, decide_eq_true_eq]
      refine ⟨?_, hlt, h.2⟩
      cases lo with
      | none => rfl
      | some l => simpa using hk l rfl
    · split
      · subst_vars
        simp only [risingFrom, Bool.and_eq_true]
        exact ⟨h.1, h.2⟩
      · simp only [risingFrom, Bool.and_eq_true]
        refine ⟨h.1, ih (some p) (fun l hl => ?_) h.2⟩
        cases hl
        omega

/-- Keys stay rising when one is unlisted. -/
theorem rising_tdel {α : Type} (k : Nat) (m : Table α) (lo : Option Nat)
    (h : risingFrom lo m = true) : risingFrom lo (tdel k m) = true := by
  induction m generalizing lo with
  | nil => exact h
  | cons e m ih =>
    obtain ⟨p, w⟩ := e
    simp only [risingFrom, Bool.and_eq_true] at h
    simp only [tdel]
    split
    · cases lo with
      | none => exact rising_none m p h.2
      | some l =>
        have hl : l < p := by simpa using h.1
        exact risingFrom_mono m p l (by omega) h.2
    · simp only [risingFrom, Bool.and_eq_true]
      exact ⟨h.1, ih (some p) h.2⟩

theorem all_tput {α : Type} (P : Nat × α → Bool) (k : Nat) (v : α) (m : Table α)
    (hv : P (k, v) = true) (h : m.all P = true) : (tput k v m).all P = true := by
  induction m with
  | nil => simpa [tput] using hv
  | cons e m ih =>
    obtain ⟨p, w⟩ := e
    simp only [List.all_cons, Bool.and_eq_true] at h
    simp only [tput]
    split
    · simp [hv, h.1, h.2]
    · split
      · simp [hv, h.2]
      · simp [h.1, ih h.2]

theorem all_tdel {α : Type} (P : Nat × α → Bool) (k : Nat) (m : Table α)
    (h : m.all P = true) : (tdel k m).all P = true := by
  induction m with
  | nil => exact h
  | cons e m ih =>
    obtain ⟨p, w⟩ := e
    simp only [List.all_cons, Bool.and_eq_true] at h
    simp only [tdel]
    split
    · exact h.2
    · simp [h.1, ih h.2]

/-- Setting a key keeps the canonical form. -/
theorem tableWf_tset {α : Type} [DecidableEq α] (d : α) (m : Table α) (k : Nat) (v : α)
    (h : tableWf d m = true) : tableWf d (tset d m k v) = true := by
  simp only [tableWf, Bool.and_eq_true] at h ⊢
  unfold tset
  split
  · exact ⟨rising_tdel k m none h.1, all_tdel _ k m h.2⟩
  · rename_i hv
    exact ⟨rising_tput k v m none (by simp) h.1, all_tput _ k v m (by simpa using hv) h.2⟩

/-- Keeping some entries keeps the canonical form. -/
theorem rising_filter {α : Type} (f : Nat × α → Bool) (m : Table α) (lo : Option Nat)
    (h : risingFrom lo m = true) : risingFrom lo (m.filter f) = true := by
  induction m generalizing lo with
  | nil => exact h
  | cons e m ih =>
    obtain ⟨p, w⟩ := e
    simp only [risingFrom, Bool.and_eq_true] at h
    simp only [List.filter_cons]
    split
    · simp only [risingFrom, Bool.and_eq_true]
      exact ⟨h.1, ih (some p) h.2⟩
    · refine ih lo ?_
      cases lo with
      | none => exact rising_none m p h.2
      | some l =>
        have hl : l < p := by simpa using h.1
        exact risingFrom_mono m p l (by omega) h.2

theorem tableWf_filter {α : Type} [DecidableEq α] (d : α) (m : Table α) (f : Nat × α → Bool)
    (h : tableWf d m = true) : tableWf d (m.filter f) = true := by
  simp only [tableWf, Bool.and_eq_true] at h ⊢
  refine ⟨rising_filter f m none h.1, ?_⟩
  rw [List.all_eq_true] at h ⊢
  intro e he
  exact h.2 e (List.mem_filter.mp he).1

theorem tget_tdel_same {α : Type} (d : α) (m : Table α) (k : Nat) (lo : Option Nat)
    (h : risingFrom lo m = true) : tget d (tdel k m) k = d := by
  induction m generalizing lo with
  | nil => rfl
  | cons e m ih =>
    obtain ⟨p, w⟩ := e
    simp only [risingFrom, Bool.and_eq_true] at h
    simp only [tdel]
    split
    · subst_vars
      exact tget_of_rising d m _ h.2 _ (le_refl _)
    · rename_i hne
      simp only [tget, hne, if_false]
      exact ih (some p) h.2

/-- Reading after setting, in a map in canonical form. -/
theorem tget_tset {α : Type} [DecidableEq α] (d : α) (m : Table α) (k : Nat) (v : α) (q : Nat)
    (h : tableWf d m = true) : tget d (tset d m k v) q = if q = k then v else tget d m q := by
  by_cases hq : q = k
  · subst hq
    simp only [if_true]
    unfold tset
    split
    · subst_vars
      simp only [tableWf, Bool.and_eq_true] at h
      exact tget_tdel_same _ m q none h.1
    · simp [tget_tput]
  · simp [hq, tget_tset_ne d m k v q hq]

/-! Memory. -/

/-- Storing bytes keeps memory's canonical form. -/
theorem pokeMem_wf (m : Table Byte) (pa : Nat) (bs : List Byte) (h : Memory.wf m = true) :
    Memory.wf (pokeMem m pa bs) = true := by
  induction bs generalizing m pa with
  | nil => exact h
  | cons b bs ih => exact ih _ _ (tableWf_tset 0 m pa b h)

/-- A byte of memory after bytes are stored. -/
theorem tget_pokeMem (m : Table Byte) (pa : Nat) (bs : List Byte) (q : Nat)
    (h : Memory.wf m = true) :
    tget 0 (pokeMem m pa bs) q =
      if pa ≤ q ∧ q < pa + bs.length then bs.getD (q - pa) 0 else tget 0 m q := by
  induction bs generalizing m pa with
  | nil => simp [pokeMem]
  | cons b bs ih =>
    simp only [pokeMem]
    rw [ih _ _ (tableWf_tset 0 m pa b h), tget_tset 0 m pa b q h]
    by_cases h1 : q = pa
    · subst h1; simp
    · by_cases h2 : pa + 1 ≤ q ∧ q < pa + 1 + bs.length
      · obtain ⟨k, hk⟩ : ∃ k, q = pa + 1 + k := ⟨q - (pa + 1), by omega⟩
        subst hk
        have h3 : pa + 1 + k - pa = k + 1 := by omega
        have h4 : k < bs.length := by omega
        simp [h3, show pa + 1 ≤ pa + 1 + k by omega, show pa + 1 + k < pa + 1 + bs.length by omega,
          show pa ≤ pa + 1 + k by omega, show pa + 1 + k < pa + (bs.length + 1) by omega]
      · rw [if_neg h2, if_neg h1, if_neg]
        simp only [List.length_cons]
        omega

theorem poke_wf (s : State) (pa : Nat) (bs : List Byte) (h : Memory.wf s.mem = true) :
    Memory.wf (poke s pa bs).mem = true := pokeMem_wf s.mem pa bs h

theorem memByte_poke (s : State) (pa : Nat) (bs : List Byte) (q : Nat)
    (h : Memory.wf s.mem = true) :
    memByte (poke s pa bs) q =
      if pa ≤ q ∧ q < pa + bs.length then bs.getD (q - pa) 0 else memByte s q :=
  tget_pokeMem s.mem pa bs q h

/-- Reading `n` bytes gives `n` bytes. -/
@[simp] theorem peek_length (s : State) (pa n : Nat) : (peek s pa n).length = n := by
  induction n generalizing pa with
  | zero => rfl
  | succ n ih => simp [peek, ih]

/-! Registers. -/

/-- A register reads as stored. -/
theorem reg_setReg_same (s : State) (k : Nat) (v : Word) (h : risingFrom none s.regs = true) :
    reg (setReg s k v) k = v := by
  unfold reg setReg tset
  simp only
  split
  · subst_vars
    exact tget_tdel_same _ _ k none h
  · simp [tget_tput]

/-- The other registers keep their values. -/
theorem reg_setReg_ne (s : State) (k q : Nat) (v : Word) (h : q ≠ k) :
    reg (setReg s k v) q = reg s q := by
  unfold reg setReg tset
  simp only
  split
  · exact tget_tdel_ne _ _ k q h
  · simp [tget_tput, h]

end Sys2Proof.Machine
end

