-- ==== Sys2Proof/Laws/Issue.lean ====
section
/-! SUPPORT. Laws of threads and of issuing an instruction: what a charge changes, what each outcome of
an issue is, and how registers read after a write. -/

namespace Sys2Proof.Machine

/-! Threads. -/

theorem thread_setThread_same (s : State) (t : Nat) (x : Thread) (h : x ≠ Thread.free) :
    thread (setThread s t x) t = x := tget_tset_same _ _ _ _ h

theorem thread_setThread_ne (s : State) (t u : Nat) (x : Thread) (h : u ≠ t) :
    thread (setThread s t x) u = thread s u := tget_tset_ne _ _ _ _ _ h

theorem ne_free_of_state (x : Thread) (h : x.state ≠ .free) : x ≠ Thread.free := by
  intro e
  subst e
  exact h rfl

/-! Charges (R391). -/

/-- A charge changes the ledger and the charge of one grid. -/
structure ChargedFrom (s s' : State) : Prop where
  rest : { s' with sched := s.sched, grids := s.grids } = s
  ledger : { s'.sched with
    dieCharge := s.sched.dieCharge, partCharge := s.sched.partCharge
    coreCharge := s.sched.coreCharge } = s.sched
  grids : ∀ g, { grid s' g with charge := (grid s g).charge } = grid s g

theorem ChargedFrom.refl (s : State) : ChargedFrom s s := ⟨rfl, rfl, fun _ => rfl⟩

theorem addCharge_from (s : State) (e p g u : Nat) : ChargedFrom s (addCharge s e p g u) := by
  unfold addCharge
  simp only
  split
  · exact ⟨rfl, rfl, fun _ => rfl⟩
  · rename_i hg
    refine ⟨rfl, rfl, fun q => ?_⟩
    unfold modGrid setGrid
    simp only [grid, modSched] at hg ⊢
    by_cases hq : q = g
    · subst hq
      rw [tget_tset_same]
      intro h
      apply hg
      have := congrArg Grid.state h
      simpa [Grid.none] using this
    · rw [tget_tset_ne _ _ _ _ _ hq]

theorem chargeThread_from (s : State) (t u : Nat) : ChargedFrom s (chargeThread s t u) := by
  unfold chargeThread
  simp only
  split
  · exact ChargedFrom.refl s
  · exact addCharge_from _ _ _ _ _

theorem chargeIssue_from (s : State) (t : Nat) (w : Word) : ChargedFrom s (chargeIssue s t w) := by
  unfold chargeIssue
  split
  · exact chargeThread_from _ _ _
  · exact ChargedFrom.refl s

section
variable {s s' : State} (h : ChargedFrom s s')
include h

theorem ChargedFrom.threads : s'.threads = s.threads := by
  have e := congrArg State.threads h.rest
  exact e
theorem ChargedFrom.groups : s'.groups = s.groups := by
  have e := congrArg State.groups h.rest
  exact e
theorem ChargedFrom.mem : s'.mem = s.mem := by
  have e := congrArg State.mem h.rest
  exact e
theorem ChargedFrom.checks : s'.checks = s.checks := by
  have e := congrArg State.checks h.rest
  exact e
theorem ChargedFrom.err : s'.err = s.err := by
  have e := congrArg State.err h.rest
  exact e
theorem ChargedFrom.movers : s'.movers = s.movers := by
  have e := congrArg State.movers h.rest
  exact e
theorem ChargedFrom.clocks : s'.clocks = s.clocks := by
  have e := congrArg State.clocks h.rest
  exact e
theorem ChargedFrom.accs : s'.accs = s.accs := by
  have e := congrArg State.accs h.rest
  exact e
theorem ChargedFrom.macBusy : s'.macBusy = s.macBusy := by
  have e := congrArg State.macBusy h.rest
  exact e
theorem ChargedFrom.tlb : s'.tlb = s.tlb := by
  have e := congrArg State.tlb h.rest
  exact e
theorem ChargedFrom.owners : s'.owners = s.owners := by
  have e := congrArg State.owners h.rest
  exact e
theorem ChargedFrom.regs : s'.regs = s.regs := by
  have e := congrArg State.regs h.rest
  exact e
theorem ChargedFrom.host : s'.host = s.host := by
  have e := congrArg State.host h.rest
  exact e

theorem ChargedFrom.engineNow (t : Nat) (x : Thread) :
    engineNow (setThread s' t x) t = engineNow s t := by
  simp [Machine.engineNow, h.clocks]

theorem ChargedFrom.thread (t : Nat) : thread s' t = thread s t := by
  simp [Machine.thread, h.threads]

theorem ChargedFrom.groupOf (th : Thread) : groupOf s' th = groupOf s th := by
  simp [Machine.groupOf, h.groups]

theorem ChargedFrom.gated : s'.sched.gated = s.sched.gated := by
  have e := congrArg Sched.gated h.ledger
  exact e
theorem ChargedFrom.selfRefresh : s'.sched.selfRefresh = s.sched.selfRefresh := by
  have e := congrArg Sched.selfRefresh h.ledger
  exact e

/-- A grid but for its charge. -/
theorem ChargedFrom.gridOf (th : Thread) :
    { gridOf s' th with charge := (gridOf s th).charge } = gridOf s th := h.grids th.grid

theorem ChargedFrom.part (g : Nat) : (grid s' g).part = (grid s g).part := by
  have e := congrArg Grid.part (h.grids g)
  exact e
theorem ChargedFrom.ctx (g : Nat) : (grid s' g).ctx = (grid s g).ctx := by
  have e := congrArg Grid.ctx (h.grids g)
  exact e
theorem ChargedFrom.seed (g : Nat) : (grid s' g).seed = (grid s g).seed := by
  have e := congrArg Grid.seed (h.grids g)
  exact e
theorem ChargedFrom.tpg (g : Nat) : (grid s' g).tpg = (grid s g).tpg := by
  have e := congrArg Grid.tpg (h.grids g)
  exact e
theorem ChargedFrom.debug (g : Nat) : (grid s' g).debug = (grid s g).debug := by
  have e := congrArg Grid.debug (h.grids g)
  exact e

theorem ChargedFrom.tidOf (th : Thread) : tidOf s' th = tidOf s th := by
  have h2 : (Machine.gridOf s' th).tpg = (Machine.gridOf s th).tpg := h.tpg th.grid
  unfold Machine.tidOf
  rw [h.groupOf, h2]

theorem ChargedFrom.srOf (th : Thread) (i : Nat) : srOf s' th i = srOf s th i := by
  have h1 : (Machine.gridOf s' th).seed = (Machine.gridOf s th).seed := h.seed th.grid
  unfold Machine.srOf
  rw [h.tidOf, h1]

theorem ChargedFrom.windowPa (th : Thread) (o : Nat) : windowPa s' th o = windowPa s th o := by
  unfold Machine.windowPa
  rw [h.groupOf]

theorem ChargedFrom.checkLocal (th : Thread) (a : Word) (n k : Nat) :
    checkLocal s' th a n k = checkLocal s th a n k := by
  unfold Machine.checkLocal
  rw [h.groupOf]

theorem ChargedFrom.engineOps (e : Nat) : engineOps s' e = engineOps s e := by
  unfold Machine.engineOps
  simp only [h.thread, h.groupOf]

theorem ChargedFrom.readMustWait (e o n : Nat) : readMustWait s' e o n = readMustWait s e o n := by
  unfold Machine.readMustWait
  rw [h.engineOps]

theorem ChargedFrom.storeMustWait (e o n : Nat) : storeMustWait s' e o n = storeMustWait s e o n := by
  unfold Machine.storeMustWait
  rw [h.engineOps]

end

/-! Issuing. -/

/-- The thread after an instruction is in READY. -/
@[simp] theorem advance_state (i : Insn) (th : Thread) : (advance i th).state = .ready := rfl
@[simp] theorem advance_ops (i : Insn) (th : Thread) : (advance i th).ops = th.ops := rfl

/-- What an issue does once the instruction is reached. -/
theorem issue_reaches {t : Nat} {i : Insn} {s : State} (body : State → Thread → Thread → Eff)
    (h : Reaches t i s) :
    issue t i body s =
      if !gateOpen (thread s t) i then
        afterStep (setThread (chargeIssue s t i.word) t (advance i (thread s t))) t
          (thread s t).stepping
      else match body (chargeIssue s t i.word) (thread s t) (advance i (thread s t)) with
        | .done x => afterStep (setThread (chargeIssue s t i.word) t x) t (thread s t).stepping
        | .exc x c a st =>
          takeException x t (thread s t).pc (if c = .pcrange then 0 else i.word) a c st
        | .state x => afterStep x t (thread s t).stepping
        | .wait => setThread s t { thread s t with state := .wait }
        | .ask g => setThread (g s) t { thread s t with state := .wait } := by
  have hw := h.word
  unfold issue
  simp only [h.may, h.listed, h.legal, h.ready, hw, Bool.not_true, Bool.false_eq_true, if_false,
    ne_eq, not_true]
  all_goals rfl

/-- Halting a thread that is READY, WAIT or SPIN does not free its context. -/
theorem haltThread_ne_free (now : Nat) (x : Thread)
    (h : x.state = .ready ∨ x.state = .wait ∨ x.state = .spin) :
    haltThread now x ≠ Thread.free := by
  apply ne_free_of_state
  unfold haltThread stopThread
  rcases h with h | h | h <;> split <;> simp [h]

/-- A stepped thread, once its instruction has left it in a state. -/
theorem thread_afterStep (s : State) (t : Nat) (th x : Thread)
    (h1 : thread s t = x) (h2 : x.state = .ready ∨ x.state = .wait ∨ x.state = .spin) :
    thread (afterStep s t th.stepping) t = stepped (engineNow s t) th x := by
  unfold afterStep stepped
  split
  · unfold modThread
    rw [h1, thread_setThread_same]
    have : stepEnd (engineNow s t) x = haltThread (engineNow s t) { x with halting := true } := by
      unfold stepEnd
      rcases h2 with h | h | h <;> simp [h]
    rw [this]
    exact haltThread_ne_free _ _ h2
  · exact h1

theorem afterStep_other (s : State) (t u : Nat) (b : Bool) (h : u ≠ t) :
    thread (afterStep s t b) u = thread s u := by
  unfold afterStep
  split
  · exact thread_setThread_ne _ _ _ _ h
  · rfl

theorem afterStep_rest (s : State) (t : Nat) (b : Bool) :
    { afterStep s t b with threads := s.threads } = s := by
  unfold afterStep
  split <;> rfl

/-- Frame of an issue that changes only its thread. -/
theorem onlyThread_of {s s1 : State} {t : Nat} {x : Thread} {b : Bool} (h : ChargedFrom s s1) :
    OnlyThread s (afterStep (setThread s1 t x) t b) t := by
  have hr := afterStep_rest (setThread s1 t x) t b
  have hs : (afterStep (setThread s1 t x) t b).sched = s1.sched := by
    have := congrArg State.sched hr; simpa using this
  have hg : (afterStep (setThread s1 t x) t b).grids = s1.grids := by
    have := congrArg State.grids hr; simpa using this
  refine ⟨?_, fun u hu => ?_, ?_, fun g => ?_⟩
  · have h1 := h.rest
    have : { afterStep (setThread s1 t x) t b with
        threads := s.threads, sched := s.sched, grids := s.grids } =
        { ({ afterStep (setThread s1 t x) t b with threads := (setThread s1 t x).threads }) with
          threads := s.threads, sched := s.sched, grids := s.grids } := rfl
    rw [this, hr]
    have h2 : ({ setThread s1 t x with
        threads := s.threads, sched := s.sched, grids := s.grids } : State) =
        { ({ s1 with sched := s.sched, grids := s.grids }) with threads := s.threads } := rfl
    rw [h2, h1]
  · rw [afterStep_other _ _ _ _ hu, thread_setThread_ne _ _ _ _ hu, h.thread]
  · rw [hs]; exact h.ledger
  · unfold grid; rw [hg]; exact h.grids g

/-- An instruction that issues and changes only its thread, to one that is READY, WAIT or SPIN. -/
theorem becomes_of_done {c : Instr} {t : Nat} {i : Insn} {s : State}
    {body : State → Thread → Thread → Eff} {x : Thread}
    (hc : exec c s = .next (issue t i body s)) (h : Issues t i s)
    (hb : body (chargeIssue s t i.word) (thread s t) (advance i (thread s t)) = .done x)
    (hx : x.state = .ready ∨ x.state = .wait ∨ x.state = .spin) :
    ThreadBecomes c s t x := by
  refine ⟨_, hc, ?_⟩
  rw [issue_reaches body h.toReaches, hb]
  simp only [h.gate, Bool.not_true, Bool.false_eq_true, if_false]
  have hne : x ≠ Thread.free := by
    apply ne_free_of_state
    rcases hx with h | h | h <;> simp [h]
  refine ⟨onlyThread_of (chargeIssue_from s t i.word), ?_⟩
  rw [thread_afterStep _ _ _ _ (thread_setThread_same _ _ _ hne) hx,
    (chargeIssue_from s t i.word).engineNow]

/-- An instruction that issues with its predicate condition false only advances its thread. -/
theorem becomes_of_closed {c : Instr} {t : Nat} {i : Insn} {s : State}
    {body : State → Thread → Thread → Eff}
    (hc : exec c s = .next (issue t i body s)) (h : Reaches t i s)
    (hg : gateOpen (thread s t) i = false) :
    ThreadBecomes c s t (advance i (thread s t)) := by
  refine ⟨_, hc, ?_⟩
  rw [issue_reaches body h]
  simp only [hg, Bool.not_false, if_true]
  have hne : advance i (thread s t) ≠ Thread.free := by
    apply ne_free_of_state
    simp
  refine ⟨onlyThread_of (chargeIssue_from s t i.word), ?_⟩
  rw [thread_afterStep _ _ _ _ (thread_setThread_same _ _ _ hne) (Or.inl rfl),
    (chargeIssue_from s t i.word).engineNow]

end Sys2Proof.Machine
end

