-- ==== Sys2Proof/WellFormed.lean ====
section
/-! DEFINITION. Well-formed commands: every number that names a piece of the device names one that it
has. -/

namespace Sys2Proof

/-- A thread number: 64 contexts of each of 16,640 engines (R11, R55). -/
def threadOk (t : Nat) : Bool := decide (t < 64 * 16640)

/-- An engine (R11). -/
def engineOk (e : Nat) : Bool := decide (e < 16640)

/-- A core (R11). -/
def coreOk (c : Nat) : Bool := decide (c < 1088)

/-- A ring id (R156). -/
def ringOk (r : Nat) : Bool := decide (r < 65536)

/-- A partition or a function (R365, R366). -/
def partOk (p : Nat) : Bool := decide (p ≤ 64)

/-- A network port (R290). -/
def portOk (n : Nat) : Bool := decide (n < 8)

/-- A queue pair number (R194). -/
def qpOk (n : Nat) : Bool := decide (n < 4194304)

/-- A key slot (R327). -/
def slotOk (i : Nat) : Bool := decide (i < 2048)

/-- A slot of a VF's sync window (R342). -/
def windowOk (i : Nat) : Bool := decide (i < 32768)

/-- A sequence tag of Carder (R275). -/
def tagOk (t : Nat) : Bool := decide (t < 1024)

/-- A group id of Bushel (R248). -/
def groupOk (g : Nat) : Bool := decide (g < 65536)

/-- A rule of Gill (R406). -/
def ruleOk (i : Nat) : Bool := decide (i < 32)

/-- A channel or a digital input of Gill (R404, R405). -/
def inputOk (d : Nat) : Bool := decide (d < 8)

/-- What an invalidation is run for: a function, or 65 for an ATS request (R120, R350). -/
def whoOk (w : Nat) : Bool := decide (w ≤ 65)

/-- A register offset (R4). -/
def offsetOk (o : Nat) : Bool := o % 8 == 0

/-- A physical address (R111). -/
def addressOk (pa : Nat) : Bool := decide (pa < 2 ^ 48)

/-- A protocol and a width of the host link (R336, R364). -/
def protoOk (p : Nat) : Bool := decide (1 ≤ p ∧ p ≤ 3)
def widthOk (w : Nat) : Bool := decide (2 ≤ w ∧ w ≤ 4)

/-- An error code (R450). -/
def codeOk (c : Nat) : Bool := decide (1 ≤ c ∧ c ≤ 0x10)

/-- A command is well formed. -/
def Instr.wf (i : Instr) : Bool :=
  match i with
  | .add t _ => threadOk t
  | .sub t _ => threadOk t
  | .and t _ => threadOk t
  | .or t _ => threadOk t
  | .xor t _ => threadOk t
  | .shl t _ => threadOk t
  | .shr t _ => threadOk t
  | .sar t _ => threadOk t
  | .min t _ => threadOk t
  | .max t _ => threadOk t
  | .minu t _ => threadOk t
  | .maxu t _ => threadOk t
  | .slt t _ => threadOk t
  | .sltu t _ => threadOk t
  | .popc t _ => threadOk t
  | .clz t _ => threadOk t
  | .ctz t _ => threadOk t
  | .addi t _ => threadOk t
  | .subi t _ => threadOk t
  | .andi t _ => threadOk t
  | .ori t _ => threadOk t
  | .xori t _ => threadOk t
  | .shli t _ => threadOk t
  | .shri t _ => threadOk t
  | .sari t _ => threadOk t
  | .mini t _ => threadOk t
  | .maxi t _ => threadOk t
  | .minui t _ => threadOk t
  | .maxui t _ => threadOk t
  | .slti t _ => threadOk t
  | .sltui t _ => threadOk t
  | .mul t _ => threadOk t
  | .mulh t _ => threadOk t
  | .mulhu t _ => threadOk t
  | .madd t _ => threadOk t
  | .div t _ => threadOk t
  | .divu t _ => threadOk t
  | .rem t _ => threadOk t
  | .remu t _ => threadOk t
  | .movi t _ => threadOk t
  | .movh t _ => threadOk t
  | .cmpEq t _ => threadOk t
  | .cmpNe t _ => threadOk t
  | .cmpLt t _ => threadOk t
  | .cmpGe t _ => threadOk t
  | .cmpLtu t _ => threadOk t
  | .cmpGeu t _ => threadOk t
  | .cmpiEq t _ => threadOk t
  | .cmpiNe t _ => threadOk t
  | .cmpiLt t _ => threadOk t
  | .cmpiGe t _ => threadOk t
  | .cmpiLtu t _ => threadOk t
  | .cmpiGeu t _ => threadOk t
  | .beq t _ => threadOk t
  | .bne t _ => threadOk t
  | .blt t _ => threadOk t
  | .bge t _ => threadOk t
  | .bltu t _ => threadOk t
  | .bgeu t _ => threadOk t
  | .br t _ => threadOk t
  | .jal t _ => threadOk t
  | .jr t _ => threadOk t
  | .jalr t _ => threadOk t
  | .ldB t _ => threadOk t
  | .ldH t _ => threadOk t
  | .ldW t _ => threadOk t
  | .ldD t _ => threadOk t
  | .ldBu t _ => threadOk t
  | .ldHu t _ => threadOk t
  | .ldWu t _ => threadOk t
  | .ldV t _ => threadOk t
  | .stB t _ => threadOk t
  | .stH t _ => threadOk t
  | .stW t _ => threadOk t
  | .stD t _ => threadOk t
  | .stV t _ => threadOk t
  | .ldgB t _ => threadOk t
  | .ldgH t _ => threadOk t
  | .ldgW t _ => threadOk t
  | .ldgD t _ => threadOk t
  | .ldgBu t _ => threadOk t
  | .ldgHu t _ => threadOk t
  | .ldgWu t _ => threadOk t
  | .ldgV t _ => threadOk t
  | .stgB t _ => threadOk t
  | .stgH t _ => threadOk t
  | .stgW t _ => threadOk t
  | .stgD t _ => threadOk t
  | .stgV t _ => threadOk t
  | .globalLoadResponse t _ => threadOk t
  | .mvpost t _ => threadOk t
  | .mvslots t _ => threadOk t
  | .vaddInt t _ => threadOk t
  | .vsubInt t _ => threadOk t
  | .vmulInt t _ => threadOk t
  | .vadds t _ => threadOk t
  | .vsubs t _ => threadOk t
  | .vminInt t _ => threadOk t
  | .vmaxInt t _ => threadOk t
  | .vand t _ => threadOk t
  | .vor t _ => threadOk t
  | .vxor t _ => threadOk t
  | .vshl t _ => threadOk t
  | .vshr t _ => threadOk t
  | .vsar t _ => threadOk t
  | .vmov t _ => threadOk t
  | .vsel t _ => threadOk t
  | .vaddFp t _ => threadOk t
  | .vsubFp t _ => threadOk t
  | .vmulFp t _ => threadOk t
  | .vfma t _ => threadOk t
  | .vfms t _ => threadOk t
  | .vminFp t _ => threadOk t
  | .vmaxFp t _ => threadOk t
  | .vabs t _ => threadOk t
  | .vneg t _ => threadOk t
  | .vdiv t _ => threadOk t
  | .vsqrt t _ => threadOk t
  | .vrsqrt t _ => threadOk t
  | .vexp2 t _ => threadOk t
  | .vcvt t _ => threadOk t
  | .vqmx t _ => threadOk t
  | .vdqmx t _ => threadOk t
  | .vfoir t _ => threadOk t
  | .vufoir t _ => threadOk t
  | .vemax t _ => threadOk t
  | .vbcast t _ => threadOk t
  | .vext t _ => threadOk t
  | .vins t _ => threadOk t
  | .vperm t _ => threadOk t
  | .vrot t _ => threadOk t
  | .vredsum t _ => threadOk t
  | .vredmax t _ => threadOk t
  | .vredmin t _ => threadOk t
  | .vcmpEq t _ => threadOk t
  | .vcmpNe t _ => threadOk t
  | .vcmpLt t _ => threadOk t
  | .vcmpLe t _ => threadOk t
  | .vcmpGt t _ => threadOk t
  | .vcmpGe t _ => threadOk t
  | .pand t _ => threadOk t
  | .por t _ => threadOk t
  | .pxor t _ => threadOk t
  | .pandn t _ => threadOk t
  | .pnot t _ => threadOk t
  | .pmov t _ => threadOk t
  | .pget t _ => threadOk t
  | .ppopc t _ => threadOk t
  | .pfirst t _ => threadOk t
  | .vcmpr t _ => threadOk t
  | .vexpd t _ => threadOk t
  | .vbspk t _ => threadOk t
  | .vbsup t _ => threadOk t
  | .tmma t _ => threadOk t
  | .tmmaS24 t _ => threadOk t
  | .tmmaS48 t _ => threadOk t
  | .tmmak t _ => threadOk t
  | .tensorComplete t _ => threadOk t
  | .talloc t _ => threadOk t
  | .tfree t _ => threadOk t
  | .tzero t _ => threadOk t
  | .tld t _ => threadOk t
  | .tst t _ => threadOk t
  | .tileMoveComplete t _ => threadOk t
  | .sig t _ => threadOk t
  | .waitGe t _ => threadOk t
  | .take t _ => threadOk t
  | .sread t _ => threadOk t
  | .signalAtHome t _ => threadOk t
  | .waitRetryResponse t => threadOk t
  | .takeRetryResponse t => threadOk t
  | .spinLimitExpiry t => threadOk t
  | .fenceC t _ => threadOk t
  | .fenceD t _ => threadOk t
  | .fenceP t _ => threadOk t
  | .fenceN t _ => threadOk t
  | .fenceRetire t => threadOk t
  | .put t _ => threadOk t
  | .get t _ => threadOk t
  | .atomAdd t _ => threadOk t
  | .atomCas t _ => threadOk t
  | .sigR t _ => threadOk t
  | .netResponse t _ => threadOk t
  | .nopInsn t _ => threadOk t
  | .end_ t _ => threadOk t
  | .threadEnd t => threadOk t
  | .trap t _ => threadOk t
  | .brk t _ => threadOk t
  | .mfs t _ => threadOk t
  | .deferredException t => threadOk t
  | .groupStart _ e => engineOk e
  | .launch r => ringOk r
  | .admission => true
  | .ledgerWindowBoundary => true
  | .gridPace isPart n => (!isPart || partOk n)
  | .calFactorUpdate => true
  | .dbgHaltCmd => true
  | .dbgResume => true
  | .dbgStep => true
  | .dbgWindowWrite off _ => offsetOk off
  | .pageWalk t => threadOk t
  | .faultPostedHoldoffEnd p => partOk p
  | .faultIdAssign p => partOk p
  | .faultTimeout p => partOk p
  | .fqRetry p _ => partOk p
  | .fqFail p _ => partOk p
  | .invPage fn => partOk fn
  | .invCtx fn => partOk fn
  | .invPart fn => partOk fn
  | .invOwner fn => partOk fn
  | .invalidationComplete who => whoOk who
  | .atsInvalidate p _ => partOk p
  | .scrubLine pa => addressOk pa
  | .moverDescriptorStart c _ => coreOk c
  | .moverComplete c _ => coreOk c
  | .ringPoll r => ringOk r
  | .pollResponse r => ringOk r
  | .entryConsume r => ringOk r
  | .consumerReportRead r => ringOk r
  | .overflowDrain r => ringOk r
  | .ringStartPriv r => ringOk r
  | .ringFenceRead r => ringOk r
  | .readClearRegister fn off => partOk fn && offsetOk off
  | .registerWrite fn off _ => partOk fn && offsetOk off
  | .nop r => ringOk r
  | .ringCreate r => ringOk r
  | .ringDestroy r => ringOk r
  | .ringResize r => ringOk r
  | .ringResizeSwitch r => ringOk r
  | .ringStop r => ringOk r
  | .ringStopComplete r => ringOk r
  | .ringStart r => ringOk r
  | .ringBind r => ringOk r
  | .syncGrant r => ringOk r
  | .syncRevoke r => ringOk r
  | .syncRelease r => ringOk r
  | .syncWindowWrite n i _ => partOk n && windowOk i
  | .syncWindowRead n i => partOk n && windowOk i
  | .send r => ringOk r
  | .write r => ringOk r
  | .writeImm r => ringOk r
  | .read r => ringOk r
  | .atomicFadd r => ringOk r
  | .atomicCas r => ringOk r
  | .signal r => ringOk r
  | .enable r => ringOk r
  | .enableGateStart r => ringOk r
  | .countGateStart r => ringOk r
  | .gateTimeout r => ringOk r
  | .packetTransmit p n => partOk p && qpOk n
  | .sendArrival p => portOk p.port
  | .writeArrival p => portOk p.port
  | .writeImmArrival p => portOk p.port
  | .readReq p => portOk p.port
  | .readResp p => portOk p.port
  | .atomicFaddArrival p => portOk p.port
  | .atomicCasArrival p => portOk p.port
  | .atomicResp p => portOk p.port
  | .signalArrival p => portOk p.port
  | .enableArrival p => portOk p.port
  | .ack p => portOk p.port
  | .nak p => portOk p.port
  | .rnr p => portOk p.port
  | .ackTimer p n => partOk p && qpOk n
  | .rtoExpiry p n => partOk p && qpOk n
  | .rnrPauseEnd p n => partOk p && qpOk n
  | .contextFetchStart p n => partOk p && qpOk n
  | .contextFetchComplete p n => partOk p && qpOk n
  | .qpCreate r => ringOk r
  | .qpModify r => ringOk r
  | .qpDestroy r => ringOk r
  | .keyRegister r => ringOk r
  | .keyDeregister r => ringOk r
  | .connectReq p => portOk p.port
  | .connectRep p => portOk p.port
  | .connectRtu p => portOk p.port
  | .connectRej p => portOk p.port
  | .disconnect p => portOk p.port
  | .connectResend p n => partOk p && qpOk n
  | .pathMigrate p => portOk p.port
  | .pathMigrateAck p => portOk p.port
  | .pathMigrateResend p n => partOk p && qpOk n
  | .idleTagAck p n => partOk p && qpOk n
  | .prevKeyExpiry fn i => partOk fn && slotOk i
  | .txload fn i => partOk fn && slotOk i
  | .rxload fn i => partOk fn && slotOk i
  | .ksClr fn i => partOk fn && slotOk i
  | .groupCreate r => ringOk r
  | .groupDestroy r => ringOk r
  | .reduceScatter r => ringOk r
  | .allGather r => ringOk r
  | .broadcast r => ringOk r
  | .barrier r => ringOk r
  | .scalarReduce r => ringOk r
  | .quiesce r => ringOk r
  | .sparseAllGather r => ringOk r
  | .bshData p _ => portOk p.port
  | .bshCredit p => portOk p.port
  | .bshTree p => portOk p.port
  | .bshTaint p => portOk p.port
  | .bshAbort p => portOk p.port
  | .bushelRerun gid => groupOk gid
  | .bushelComplete gid => groupOk gid
  | .bushelStallTimeout gid => groupOk gid
  | .bushelPreemptTimeout gid => groupOk gid
  | .carderBind r => ringOk r
  | .carderUnbind r => ringOk r
  | .dispatch r => ringOk r
  | .dispatchComplete r t => ringOk r && tagOk t
  | .combine r => ringOk r
  | .combineComplete r t => ringOk r && tagOk t
  | .carderStallTimeout r t => ringOk r && tagOk t
  | .crdTok p => portOk p.port
  | .crdDone p => portOk p.port
  | .crdRet p => portOk p.port
  | .portModeWrite n _ => portOk n
  | .portLinkUp n => portOk n
  | .portLinkDown n => portOk n
  | .frameReceive n _ _ _ _ _ => portOk n
  | .frameTransmit n => portOk n
  | .rawTransmit n _ => portOk n
  | .rxcqEnable n _ => portOk n
  | .gclChange n _ => portOk n
  | .gclAbort n _ => portOk n
  | .gclSwitch n => portOk n
  | .gclEntryAdvance n => portOk n
  | .syncArm n => portOk n
  | .syncInEdge => true
  | .lpiEnter n => portOk n
  | .lpiWake n => portOk n
  | .prewake n => portOk n
  | .lldpduTransmit n => portOk n
  | .lldpTlvExpiry n => portOk n
  | .cxlLinkUp proto width => protoOk proto && widthOk width
  | .cxlLinkDown => true
  | .hostPathRestored => true
  | .linkDownTimeout => true
  | .bar2Read fn _ _ => partOk fn
  | .bar2Write fn _ _ => partOk fn
  | .hdmRead pa _ => addressOk pa
  | .hdmWrite pa _ => addressOk pa
  | .perstAssert => true
  | .perstDeassert => true
  | .policyResume _ => true
  | .attentionPulseEnd => true
  | .attentionHoldoffEnd => true
  | .vfEnable n => partOk n
  | .functionLevelReset n => partOk n
  | .pf0Flr => true
  | .partResize r => ringOk r
  | .partReset r => ringOk r
  | .partFreeze r => ringOk r
  | .partThaw r => ringOk r
  | .partSave r => ringOk r
  | .partRestore r => ringOk r
  | .reqFull => true
  | .reqTrim => true
  | .reqDoze => true
  | .reqStandby => true
  | .dozeGate => true
  | .gillSample c _ => inputOk c
  | .gillInputChange d _ => inputOk d
  | .gillInputStuck d => inputOk d
  | .gillChatterEnd d => inputOk d
  | .gillRuleFire i => ruleOk i
  | .gillRuleRelease i => ruleOk i
  | .gillSilent => true
  | .gillLock => true
  | .twinPair r => ringOk r
  | .twinSyncComplete => true
  | .twinPairTimeout => true
  | .twinUnpair r => ringOk r
  | .twinHbFrame _ _ => true
  | .twinDelta _ _ => true
  | .twinData _ _ => true
  | .twinAck _ _ => true
  | .twinPairFrame _ _ => true
  | .twinUnpairFrame _ _ => true
  | .twinHbSend => true
  | .twinAckTimer => true
  | .twinResend => true
  | .twinHbSilent => true
  | .twinFailureDetect => true
  | .takeoverAnnounce => true
  | .twinKeyLoad => true
  | .twinKeyClr => true
  | .manifest => true
  | .blocks => true
  | .start _ _ => true
  | .discard => true
  | .attest => true
  | .settingsRead => true
  | .settingsWrite => true
  | .activate r _ _ => ringOk r
  | .powerOn => true
  | .zerofillComplete => true
  | .powerLoss => true
  | .overvoltageDisconnect => true
  | .refclk156Loss => true
  | .refclk156Restore => true
  | .errorDetect code _ _ part _ _ _ => codeOk code && part.all partOk
  | .fenceTimeout p => partOk p
  | .mpHang _ => true
  | .errHeadWrite _ => true
  | .smbusStatus => true
  | .smbusRead off => offsetOk off
  | .smbusWrite off _ => offsetOk off
  | .smbusWake _ => true
  | .sreadResponse t _ => threadOk t
  | .gillReportsResume => true
  | .gillStuckEnd d => inputOk d
  | .twinLinkTrained => true
  | .drdyBusyMinimumEnd => true
  | .postBusyAttention => true
  | .dozeExitComplete => true
  | .selfRefreshEntry => true

end Sys2Proof
end

