-- ==== Sys2Proof/Tests/Slice0.lean ====
section
/-! SUPPORT. Tests: a state that meets the hypotheses of every statement (`witness_`), words written out
from the spec, commands that are not well formed, and a few values (`test_`). -/

open Sys2Proof Sys2Proof.Machine

namespace Sys2Proof.Tests

set_option Elab.async false

/-! Small states. -/

/-- The device in service. -/
def serving : State :=
  { State.reset with
    boot := { State.reset.boot with st := .service, zeroFill := false }, linkUp := true }

/-- A READY thread at the first word, with some scalar registers. -/
def readyThread (regs : Table Word) : Thread := { Thread.free with state := .ready, s := regs }

/-- A running grid of two groups of one thread. -/
def smallGrid : Grid :=
  { Grid.none with
    state := .running, gx := 2, gy := 1, gz := 1, tpg := 1, psz := 1, nextGroup := 1, excMode := true }

/-- A thread on engine 0 whose next word is `w`, with a window of 16 KiB and two accumulators. -/
def threadAt (th : Thread) (w : Word) : State :=
  { serving with
    parts := [(0, { Partition.idle with state := .run, energy := 1000, nextEnergy := 1000 })]
    grids := [(0, smallGrid)], nextGrid := 1
    groups := [(0, { Group.none with
      threads := [0], winSize := 16384, accs := [0, 1], owners := [some 0, none] })]
    images := [(0, [{ part := 0, ctx := 0, prog := 0, words := [w, 0, 0, 0, 0, 0, 0, 0] }])]
    threads := [(0, th)] }

/-- The same with a fresh thread. -/
def one (regs : Table Word) (w : Word) : State := threadAt (readyThread regs) w

theorem word_one (regs : Table Word) (w : Word) :
    imageWord (one regs w) 0 (thread (one regs w) 0).pc = some w := by
  simp [imageWord, one, threadAt, readyThread, thread, gridOf, tget, serving, Thread.free,
    smallGrid, coreOf, engineOf, Grid.none]

theorem may_one (regs : Table Word) (w : Word) : mayIssue (one regs w) 0 = true :=
  have h : mayIssue (one regs w) 0 = mayIssue (one [] 0) 0 := rfl
  h.trans (by decide +kernel)

theorem issues_one (regs : Table Word) (i : Insn) (h1 : opcodeReserved i.word = false)
    (h2 : i.illegal = false) (h3 : gateOpen (readyThread regs) i = true) :
    Issues 0 i (one regs i.word) :=
  { may := may_one regs _, word := word_one regs i.word, listed := h1, legal := h2, ready := rfl, gate := h3 }

/-! Forms with rd = 1 and sources 2 and 3. -/

def rF : RForm := { psel := 0, pneg := 0, rd := 1, ra := 2, rb := 3, rc := 0, rsv := 0 }
def iF : IForm := { psel := 0, pneg := 0, rd := 1, ra := 2, rsv := 0, imm := 5 }
def wF : WForm := { psel := 0, pneg := 0, rd := 1, imm := 5 }
def bF : BForm := { psel := 0, pneg := 0, ra := 2, rb := 3, off := 4 }
def vF : VForm :=
  { psel := 0, pneg := 0, vd := 2, va := 4, vb := 6, vc := 0, fmt := 0, fmt2 := 0, rnd := 0, rs := 0
    pd := 0, imm := 0 }
def pF : PForm := { psel := 0, pneg := 0, pd := 1, pa := 2, pb := 3, rd := 0, ra := 0, rsv := 0 }
def tF : TForm :=
  { psel := 0, pneg := 0, ta := 0, sa := 0, sb := 0, sm := 0, fmtA := 0, fmtB := 0, rnd := 0, acc := 0
    rsv := 0 }
def sF : SForm := { psel := 0, pneg := 0, rd := 1, ra := 2, rb := 3, rsv := 0, imm := 1 }
def nF : NForm :=
  { psel := 0, pneg := 0, rd := 0, ra := 2, rb := 3, rc := 0, vs := 0, len := 0, rsv := 0 }

/-! The machine. -/

theorem witness_machine :
    (∃ s : State, ∃ c cs, s.pending = c :: cs) ∧ serving.pending = [] ∧
    (∃ s', Memory.wf serving.mem = true ∧ step serving = .next s') ∧
    (∃ s : State, s.boot.floor < 2 ^ 16 ∧ ∃ s', step s = .next s') ∧
    (∃ c w, SpellsWord c 0 w ∧ opcodeReserved w = false) :=
  ⟨⟨{ serving with pending := [.nop 0] }, .nop 0, [], rfl⟩, rfl, ⟨_, rfl, rfl⟩,
    ⟨{ serving with boot := { serving.boot with floor := 65535 } }, by decide, _, rfl⟩,
    .nopInsn 0 iF, wordI 0x30 0 iF, Or.inl ⟨_, rfl, rfl⟩, by decide⟩

/-! Witnesses: states and operands that meet the hypotheses of the statements. -/

theorem witness_scalar_register : ∀ r ∈ scalarRows, ∃ i,
    engineInsn (r.1 0 rF) = some (0, i) ∧ Issues 0 i (one [] i.word) := by
  intro r hr
  simp only [scalarRows, List.mem_cons, List.not_mem_nil, or_false] at hr
  rcases hr with rfl | rfl | rfl | rfl | rfl | rfl | rfl | rfl | rfl | rfl | rfl | rfl | rfl | rfl <;>
    exact ⟨_, rfl, issues_one _ _ (by decide) (by decide) (by decide)⟩

theorem witness_multiply_divide : ∀ r ∈ mulRows, ∃ f i,
    engineInsn (r.1 0 f) = some (0, i) ∧ Issues 0 i (one [] i.word) := by
  intro r hr
  simp only [mulRows, List.mem_cons, List.not_mem_nil, or_false] at hr
  rcases hr with rfl | rfl | rfl | rfl | rfl | rfl | rfl | rfl <;>
    exact ⟨rF, _, rfl, issues_one _ _ (by decide) (by decide) (by decide)⟩

theorem witness_scalar_count : ∀ r ∈ countRows, (∃ f i,
    engineInsn (r.1 0 f) = some (0, i) ∧ Issues 0 i (one [] i.word)) ∧
    ∃ i, engineInsn (r.1 0 rF) = some (0, i) ∧ rF.rb ≠ 0 := by
  intro r hr
  simp only [countRows, List.mem_cons, List.not_mem_nil, or_false] at hr
  rcases hr with rfl | rfl | rfl <;>
    exact ⟨⟨{ rF with rb := 0 }, _, rfl, issues_one _ _ (by decide) (by decide) (by decide)⟩,
      _, rfl, by decide⟩

theorem witness_scalar_immediate : ∀ r ∈ immRows, ∃ i,
    engineInsn (r.1 0 iF) = some (0, i) ∧ Issues 0 i (one [] i.word) := by
  intro r hr
  simp only [immRows, List.mem_cons, List.not_mem_nil, or_false] at hr
  rcases hr with rfl | rfl | rfl | rfl | rfl | rfl | rfl | rfl | rfl | rfl | rfl | rfl | rfl | rfl <;>
    exact ⟨_, rfl, issues_one _ _ (by decide) (by decide) (by decide)⟩

theorem witness_constants :
    (∃ i, engineInsn (.movi 0 wF) = some (0, i) ∧ Issues 0 i (one [] i.word)) ∧
    (∃ i, engineInsn (.movh 0 wF) = some (0, i) ∧ Issues 0 i (one [] i.word)) ∧
    ∃ f i, engineInsn (.movh 0 f) = some (0, i) ∧ f.imm.extractLsb' 21 22 ≠ 0 :=
  ⟨⟨_, rfl, issues_one _ _ (by decide) (by decide) (by decide)⟩,
    ⟨_, rfl, issues_one _ _ (by decide) (by decide) (by decide)⟩,
    { wF with imm := 0x200000 }, _, rfl, by decide⟩

/-- Both outcomes of a comparison at the edge where they meet: equal, and one apart. -/
theorem witness_compare :
    (∃ i, engineInsn (.cmpGe 0 rF) = some (0, i) ∧ Issues 0 i (one [(2, 5), (3, 5)] i.word) ∧
      (readS (readyThread [(2, 5), (3, 5)]) 3).toInt ≤ (readS (readyThread [(2, 5), (3, 5)]) 2).toInt) ∧
    (∃ i, engineInsn (.cmpGe 0 rF) = some (0, i) ∧ Issues 0 i (one [(2, 4), (3, 5)] i.word) ∧
      ¬ (readS (readyThread [(2, 4), (3, 5)]) 3).toInt ≤ (readS (readyThread [(2, 4), (3, 5)]) 2).toInt) ∧
    (∃ i, engineInsn (.cmpiEq 0 iF) = some (0, i) ∧ Issues 0 i (one [(2, 5)] i.word) ∧
      readS (readyThread [(2, 5)]) 2 = iF.imm.signExtend 64) ∧
    ∃ i, engineInsn (.cmpiEq 0 iF) = some (0, i) ∧ Issues 0 i (one [] i.word) ∧
      ¬ readS (readyThread []) 2 = iF.imm.signExtend 64 :=
  ⟨⟨_, rfl, issues_one _ _ (by decide) (by decide) (by decide), by decide⟩,
    ⟨_, rfl, issues_one _ _ (by decide) (by decide) (by decide), by decide⟩,
    ⟨_, rfl, issues_one _ _ (by decide) (by decide) (by decide), by decide⟩,
    ⟨_, rfl, issues_one _ _ (by decide) (by decide) (by decide), by decide⟩⟩

theorem witness_branch : ∀ r ∈ branchRows, ∃ i,
    engineInsn (r.1 0 bF) = some (0, i) ∧ Issues 0 i (one [] i.word) := by
  intro r hr
  simp only [branchRows, List.mem_cons, List.not_mem_nil, or_false] at hr
  rcases hr with rfl | rfl | rfl | rfl | rfl | rfl <;>
    exact ⟨_, rfl, issues_one _ _ (by decide) (by decide) (by decide)⟩

theorem witness_jump :
    (∃ i, engineInsn (.br 0 { bF with ra := 0, rb := 0 }) = some (0, i) ∧ Issues 0 i (one [] i.word)) ∧
    (∃ i, engineInsn (.jal 0 { bF with rb := 0 }) = some (0, i) ∧ Issues 0 i (one [] i.word)) ∧
    (∃ i, engineInsn (.jr 0 { bF with rb := 0 }) = some (0, i) ∧
      Issues 0 i (one [(2, 0x1FFFFFFFFFFFFF8)] i.word) ∧
      (readS (readyThread [(2, 0x1FFFFFFFFFFFFF8)]) 2).toNat % 8 = 0 ∧
      (readS (readyThread [(2, 0x1FFFFFFFFFFFFF8)]) 2).toNat < 2 ^ 57) ∧
    (∃ i, engineInsn (.jr 0 { bF with rb := 0 }) = some (0, i) ∧ Issues 0 i (one [(2, 7)] i.word) ∧
      (readS (readyThread [(2, 7)]) 2).toNat % 8 ≠ 0) ∧
    ∃ i, engineInsn (.jalr 0 bF) = some (0, i) ∧ Issues 0 i (one [(3, 16)] i.word) ∧
      (readS (readyThread [(3, 16)]) 3).toNat % 8 = 0 :=
  ⟨⟨_, rfl, issues_one _ _ (by decide) (by decide) (by decide)⟩,
    ⟨_, rfl, issues_one _ _ (by decide) (by decide) (by decide)⟩,
    ⟨_, rfl, issues_one _ _ (by decide) (by decide) (by decide), by decide, by decide⟩,
    ⟨_, rfl, issues_one _ _ (by decide) (by decide) (by decide), by decide⟩,
    ⟨_, rfl, issues_one _ _ (by decide) (by decide) (by decide), by decide⟩⟩

theorem witness_mask :
    (∀ r ∈ maskRows, ∃ f i, engineInsn (r.1 0 f) = some (0, i) ∧ Issues 0 i (one [] i.word)) ∧
    (∀ r ∈ maskReadRows, ∃ f i, engineInsn (r.1 0 f) = some (0, i) ∧ Issues 0 i (one [] i.word)) ∧
    ∃ f i, engineInsn (.pmov 0 f) = some (0, i) ∧ Issues 0 i (one [] i.word) := by
  refine ⟨fun r hr => ?_, fun r hr => ?_, { pF with pa := 0, pb := 0, ra := 4 }, _, rfl,
    issues_one _ _ (by decide) (by decide) (by decide)⟩
  · simp only [maskRows, List.mem_cons, List.not_mem_nil, or_false] at hr
    rcases hr with rfl | rfl | rfl | rfl | rfl
    iterate 4 exact ⟨pF, _, rfl, issues_one _ _ (by decide) (by decide) (by decide)⟩
    exact ⟨{ pF with pb := 0 }, _, rfl, issues_one _ _ (by decide) (by decide) (by decide)⟩
  · simp only [maskReadRows, List.mem_cons, List.not_mem_nil, or_false] at hr
    rcases hr with rfl | rfl | rfl <;>
      exact ⟨{ pF with pd := 0, pb := 0, rd := 1 }, _, rfl,
        issues_one _ _ (by decide) (by decide) (by decide)⟩

theorem witness_vector_integer : ∀ r ∈ vecIntRows, ∃ f i,
    engineInsn (r.1 0 f) = some (0, i) ∧ Issues 0 i (one [] i.word) := by
  intro r hr
  simp only [vecIntRows, List.mem_cons, List.not_mem_nil, or_false] at hr
  rcases hr with rfl | rfl | rfl | rfl | rfl | rfl | rfl | rfl | rfl | rfl | rfl | rfl | rfl | rfl | rfl
  iterate 13
    exact ⟨{ vF with fmt := 3 }, _, rfl, issues_one _ _ (by decide) (by decide) (by decide)⟩
  · exact ⟨{ vF with fmt := 3, vb := 0 }, _, rfl,
      issues_one _ _ (by decide) (by decide) (by decide)⟩
  · exact ⟨{ vF with fmt := 3, pd := 1 }, _, rfl,
      issues_one _ _ (by decide) (by decide) (by decide)⟩

theorem witness_vector_float : ∀ r ∈ vecFpRows, ∃ f i,
    engineInsn (r.1 0 f) = some (0, i) ∧ Issues 0 i (one [] i.word) := by
  intro r hr
  simp only [vecFpRows, List.mem_cons, List.not_mem_nil, or_false] at hr
  rcases hr with rfl | rfl | rfl | rfl | rfl | rfl | rfl | rfl | rfl | rfl | rfl | rfl | rfl
  iterate 7 exact ⟨vF, _, rfl, issues_one _ _ (by decide) (by decide) (by decide)⟩
  iterate 2
    exact ⟨{ vF with vb := 0 }, _, rfl, issues_one _ _ (by decide) (by decide) (by decide)⟩
  · exact ⟨vF, _, rfl, issues_one _ _ (by decide) (by decide) (by decide)⟩
  iterate 3
    exact ⟨{ vF with vb := 0 }, _, rfl, issues_one _ _ (by decide) (by decide) (by decide)⟩

theorem witness_vector_move : (∀ r ∈ vecPermRows, ∃ f i,
      engineInsn (r.1 0 f) = some (0, i) ∧ Issues 0 i (one [] i.word)) ∧
    (∃ f i, engineInsn (.vext 0 f) = some (0, i) ∧ Issues 0 i (one [] i.word) ∧ f.imm = 15) ∧
    ∃ f i, engineInsn (.vins 0 f) = some (0, i) ∧ Issues 0 i (one [] i.word) ∧ f.imm = 15 := by
  refine ⟨fun r hr => ?_,
    ⟨{ vF with vd := 0, vb := 0, rs := 1, imm := 15 }, _, rfl,
      issues_one _ _ (by decide) (by decide) (by decide), rfl⟩,
    { vF with va := 0, vb := 0, rs := 1, imm := 15 }, _, rfl,
      issues_one _ _ (by decide) (by decide) (by decide), rfl⟩
  simp only [vecPermRows, List.mem_cons, List.not_mem_nil, or_false] at hr
  rcases hr with rfl | rfl | rfl | rfl | rfl
  · exact ⟨{ vF with va := 0, vb := 0, rs := 1 }, _, rfl,
      issues_one _ _ (by decide) (by decide) (by decide)⟩
  · exact ⟨vF, _, rfl, issues_one _ _ (by decide) (by decide) (by decide)⟩
  · exact ⟨{ vF with vb := 0 }, _, rfl, issues_one _ _ (by decide) (by decide) (by decide)⟩
  · exact ⟨{ vF with vb := 0, pd := 1 }, _, rfl,
      issues_one _ _ (by decide) (by decide) (by decide)⟩
  · exact ⟨{ vF with vb := 0, pd := 1 }, _, rfl,
      issues_one _ _ (by decide) (by decide) (by decide)⟩

theorem witness_vector_compare_reduce : (∀ r ∈ vcmpRows, ∃ f i,
      engineInsn (r.1 0 f) = some (0, i) ∧ Issues 0 i (one [] i.word)) ∧
    ∀ r ∈ reduceRows, ∃ f i,
      engineInsn (r.1 0 f) = some (0, i) ∧ Issues 0 i (one [] i.word) := by
  refine ⟨fun r hr => ?_, fun r hr => ?_⟩
  · simp only [vcmpRows, List.mem_cons, List.not_mem_nil, or_false] at hr
    rcases hr with rfl | rfl | rfl | rfl | rfl | rfl <;>
      exact ⟨{ vF with vd := 0, pd := 1 }, _, rfl,
        issues_one _ _ (by decide) (by decide) (by decide)⟩
  · simp only [reduceRows, List.mem_cons, List.not_mem_nil, or_false] at hr
    rcases hr with rfl | rfl | rfl <;>
      exact ⟨{ vF with vb := 0 }, _, rfl, issues_one _ _ (by decide) (by decide) (by decide)⟩

theorem witness_vector_convert :
    (∃ f i, engineInsn (.vcvt 0 f) = some (0, i) ∧ Issues 0 i (one [] i.word)) ∧
    (∃ f i, engineInsn (.vqmx 0 f) = some (0, i) ∧ Issues 0 i (one [] i.word)) ∧
    (∃ f i, engineInsn (.vdqmx 0 f) = some (0, i) ∧ Issues 0 i (one [] i.word)) ∧
    (∃ f i, engineInsn (.vfoir 0 f) = some (0, i) ∧ Issues 0 i (one [] i.word)) ∧
    (∃ f i, engineInsn (.vufoir 0 f) = some (0, i) ∧ Issues 0 i (one [] i.word)) ∧
    ∃ f i, engineInsn (.vemax 0 f) = some (0, i) ∧ Issues 0 i (one [] i.word) :=
  ⟨⟨{ vF with vb := 0, fmt2 := 1 }, _, rfl, issues_one _ _ (by decide) (by decide) (by decide)⟩,
    ⟨{ vF with vb := 0, fmt2 := 11 }, _, rfl, issues_one _ _ (by decide) (by decide) (by decide)⟩,
    ⟨{ vF with vb := 0, fmt := 11, fmt2 := 0 }, _, rfl,
      issues_one _ _ (by decide) (by decide) (by decide)⟩,
    ⟨{ vF with vb := 0, fmt2 := 14, rs := 1 }, _, rfl,
      issues_one _ _ (by decide) (by decide) (by decide)⟩,
    ⟨{ vF with vb := 0, fmt := 14, rs := 1 }, _, rfl,
      issues_one _ _ (by decide) (by decide) (by decide)⟩,
    ⟨{ vF with vd := 0, vb := 0, rs := 1 }, _, rfl,
      issues_one _ _ (by decide) (by decide) (by decide)⟩⟩

theorem witness_sparse_container :
    (∃ f i, engineInsn (.vbspk 0 f) = some (0, i) ∧ Issues 0 i (one [] i.word) ∧
      Memory.wf (one [] i.word).mem = true ∧
      (let s := one [] i.word
       let v := readV (thread s 0) f.vd
       let bs := bsmxBytes (vFmt f) (mxScale v) ((List.range 32).map (mxElem (vFmt f) v))
       checkLocal s (thread s 0) 0 bs.length 8 = none ∧ storeMustWait s 0 0 bs.length = false ∧
         wordsGood s (windowPa s (thread s 0) 0) bs.length)) ∧
    ∃ f i, engineInsn (.vbsup 0 f) = some (0, i) ∧ Issues 0 i (one [] i.word) ∧
      (let s := poke (one [] i.word) (localPa 0 5) [11]
       let th := thread s 0
       let pa := windowPa s th 0
       let h := peek s pa 8
       checkLocal s th 0 8 8 = none ∧ readMustWait s 0 0 40 = false ∧
         localLost s pa = false ∧ h.getD 5 0 = (codeOfFmt (vFmt f)).setWidth 8 ∧ h.getD 7 0 = 0 ∧
         (h.getD 6 0).toNat =
           ((List.range 32).filter fun k => (leNat (h.take 4)).testBit k).length) :=
  ⟨⟨{ vF with va := 0, vb := 0, fmt := 11, rs := 2 }, _, rfl,
      issues_one _ _ (by decide) (by decide) (by decide), rfl, by decide +kernel⟩,
    { vF with va := 0, vb := 0, fmt := 11, rs := 2 }, _, rfl,
      issues_one _ _ (by decide) (by decide) (by decide), by decide +kernel⟩

theorem witness_predicated_off :
    ∃ i, engineInsn (.add 0 { rF with psel := 2 }) = some (0, i) ∧ Reaches 0 i (one [] i.word) ∧
      gateOpen (thread (one [] i.word) 0) i = false :=
  ⟨_, rfl, { may := may_one _ _, word := word_one _ _, listed := by decide, legal := by decide, ready := rfl },
    by decide⟩

theorem witness_traps_and_waits :
    (∃ i, engineInsn (.add 0 { rF with rsv := 1 }) = some (0, i) ∧
      mayIssue (one [] i.word) 0 = true ∧
      imageWord (one [] i.word) 0 (thread (one [] i.word) 0).pc = some i.word ∧ i.illegal = true) ∧
    (∃ i s, engineInsn (.add 0 rF) = some (0, i) ∧ mayIssue s 0 = true ∧
      imageWord s 0 (thread s 0).pc = none) ∧
    (∃ i s, engineInsn (.add 0 rF) = some (0, i) ∧ mayIssue s 0 = true ∧
      imageWord s 0 (thread s 0).pc = some i.word ∧ opcodeReserved i.word = false ∧
      i.illegal = false ∧ blocked (thread s 0) i = true) ∧
    ∃ i, engineInsn (.add 0 rF) = some (0, i) ∧ mayIssue State.reset 0 = false :=
  ⟨⟨_, rfl, may_one _ _, word_one _ _, by decide⟩,
    ⟨_, threadAt { readyThread [] with pc := 64 } 0, rfl, by decide +kernel, by decide⟩,
    ⟨_, threadAt { readyThread [] with
        ops := [{ newOp (readyThread []) (insnI 0x0E 3 .scalar true iF) .load 0 8 2 with
          phase := .flight }] }
        (wordR 0x01 0x00 rF), rfl, by decide +kernel, by decide, by decide, by decide, by decide⟩,
    _, rfl, by decide⟩

theorem witness_registers : tableWf (0 : Word) (readyThread [(1, 7), (31, 9)]).s = true ∧
    tableWf 0 (readyThread []).v = true ∧ tableWf 0 (readyThread []).p = true := by decide

theorem witness_exceptions :
    (let s := threadAt (readyThread []) 0
     let g := grid s 0
     g.excMode = true ∧ g.state = .running ∧ g.nextGroup ≠ gridGroups g ∧ g.excrec = 0 ∧
       g.exc = none ∧ s.dbgHalt = none) ∧
    let s : State := { threadAt (readyThread []) 0 with
      grids := [(0, { smallGrid with excMode := false })]
      groups := [(0, { Group.none with threads := [0, 1], winSize := 256 })]
      threads := [(0, readyThread []), (1, { readyThread [] with state := .ending })] }
    let g := grid s 0
    tableWf Thread.free s.threads = true ∧ g.excMode = false ∧ g.state = .running ∧ g.excrec = 0 ∧
      s.dbgHalt = none ∧ ∃ u ∈ gridThreads s 0, u ≠ 0 ∧ (thread s u).state = .ending := by
  decide +kernel

/-- Local loads up to the last bytes of the window. -/
theorem witness_local_load : (∀ r ∈ localLoadRows, ∃ f i,
      engineInsn (r.1 0 f) = some (0, i) ∧ Issues 0 i (one [] i.word) ∧
      (let s := one [] i.word
       let a := readS (thread s 0) f.ra + f.imm.signExtend 64
       checkLocal s (thread s 0) a r.2.1 r.2.1 = none ∧
         readMustWait s 0 a.toNat r.2.1 = false ∧
         wordsGood s (windowPa s (thread s 0) a.toNat) r.2.1 ∧
         localLost s (windowPa s (thread s 0) a.toNat) = false)) ∧
    ∃ f i, engineInsn (.ldV 0 f) = some (0, i) ∧ Issues 0 i (one [] i.word) ∧
      checkLocal (one [] i.word) (thread (one [] i.word) 0) (f.imm.signExtend 64) 64 64 = none := by
  refine ⟨fun r hr => ?_, { iF with imm := 64 }, _, rfl,
    issues_one _ _ (by decide) (by decide) (by decide), by decide⟩
  simp only [localLoadRows, List.mem_cons, List.not_mem_nil, or_false] at hr
  rcases hr with rfl | rfl | rfl | rfl | rfl | rfl | rfl <;>
    exact ⟨{ iF with imm := 16376 }, _, rfl, issues_one _ _ (by decide) (by decide) (by decide),
      by decide +kernel⟩

theorem witness_local_store : (∀ r ∈ localStoreRows, ∃ f i,
      engineInsn (r.1 0 f) = some (0, i) ∧ Issues 0 i (one [] i.word) ∧
      (let s := one [] i.word
       let a := readS (thread s 0) f.ra + f.imm.signExtend 64
       Memory.wf s.mem = true ∧ checkLocal s (thread s 0) a r.2 r.2 = none ∧
         storeMustWait s 0 a.toNat r.2 = false ∧
         wordsGood s (windowPa s (thread s 0) a.toNat) r.2)) ∧
    ∃ f i, engineInsn (.stV 0 f) = some (0, i) ∧ Issues 0 i (one [] i.word) ∧
      checkLocal (one [] i.word) (thread (one [] i.word) 0) (f.imm.signExtend 64) 64 64 = none := by
  refine ⟨fun r hr => ?_, { iF with imm := 64 }, _, rfl,
    issues_one _ _ (by decide) (by decide) (by decide), by decide⟩
  simp only [localStoreRows, List.mem_cons, List.not_mem_nil, or_false] at hr
  rcases hr with rfl | rfl | rfl | rfl <;>
    exact ⟨{ iF with imm := 16376 }, _, rfl, issues_one _ _ (by decide) (by decide) (by decide),
      by decide +kernel⟩

theorem witness_local_trap :
    (∃ i, engineInsn (.ldD 0 iF) = some (0, i) ∧ Issues 0 i (one [] i.word) ∧
      checkLocal (one [] i.word) (thread (one [] i.word) 0) 5 8 8 = some .align) ∧
    ∃ i, engineInsn (.stD 0 { iF with imm := 16384 }) = some (0, i) ∧ Issues 0 i (one [] i.word) ∧
      checkLocal (one [] i.word) (thread (one [] i.word) 0) 16384 8 8 = some .lbounds :=
  ⟨⟨_, rfl, issues_one _ _ (by decide) (by decide) (by decide), by decide⟩,
    _, rfl, issues_one _ _ (by decide) (by decide) (by decide), by decide⟩

/-- An operation of the ready thread, in flight. -/
def flying (k : OpKind) (pa : Nat) : Op :=
  { newOp (readyThread []) (insnI 0x0E 3 .scalar true iF) k 8 8 1 with pa := pa }

/-- The thread with that operation outstanding. -/
def waiting (o : Op) : State := threadAt { readyThread [] with ops := [o], nextOp := 1 } 0

/-- A cached page of the thread's own context: readable, and writable on demand. -/
def pageEntry (wr : Bool) (frame : Nat) : TlbEntry :=
  { unit := clusterOf 0, part := 0, ctx := 0, page := 0, size := .k4, frame := frame, rd := true
    wr := wr }

theorem witness_global_access : (∀ r ∈ globalLoadRows, ∃ f i,
      engineInsn (r.1 0 f) = some (0, i) ∧ Issues 0 i (one [] i.word) ∧
      (let a := readS (thread (one [] i.word) 0) f.ra + f.imm.signExtend 64
       a.toNat % r.2.2.1 = 0 ∧ a.toNat < 2 ^ 57)) ∧
    (∀ r ∈ globalStoreRows, ∃ f i,
      engineInsn (r.1 0 f) = some (0, i) ∧ Issues 0 i (one [] i.word) ∧
      (let a := readS (thread (one [] i.word) 0) f.ra + f.imm.signExtend 64
       a.toNat % r.2.2 = 0 ∧ a.toNat < 2 ^ 57)) := by
  refine ⟨fun r hr => ?_, fun r hr => ?_⟩
  · simp only [globalLoadRows, List.mem_cons, List.not_mem_nil, or_false] at hr
    rcases hr with rfl | rfl | rfl | rfl | rfl | rfl | rfl | rfl <;>
      exact ⟨{ iF with imm := 64 }, _, rfl, issues_one _ _ (by decide) (by decide) (by decide),
        by decide +kernel⟩
  · simp only [globalStoreRows, List.mem_cons, List.not_mem_nil, or_false] at hr
    rcases hr with rfl | rfl | rfl | rfl | rfl <;>
      exact ⟨{ iF with imm := 64 }, _, rfl, issues_one _ _ (by decide) (by decide) (by decide),
        by decide +kernel⟩

/-- The three ways a translated access goes: no entry, a page that may not be written (R119 walks
again), and a frame. -/
theorem witness_translation :
    cachedAccess (one [] 0) .engine 0 0 0 64 true = none ∧
    (cachedAccess { one [] 0 with tlb := [pageEntry true 0x010100000000] } .engine 0 0 0 64 true).map
      (fun r => r.1.toOption.isNone) = some true ∧
    (cachedAccess { one [] 0 with tlb := [pageEntry true 0x1000] } .engine 0 0 0 64 true).map
      (fun r => r.1.toOption) = some (some 0x1040) ∧
    (let l := flying .load 0x1040
     loadOverlap (thread (waiting l) 0) (flying .store 0) 0x1040 = true ∧
       loadOverlap (thread (waiting l) 0) (flying .store 0) 0x1048 = false) := by decide +kernel

theorem witness_operations_at_target :
    (∃ o : Op, o.kind = .load) ∧ (∃ o : Op, ∃ pa, o.kind = .sig ∧ regionOf pa = .syncObj) ∧
    (∃ o : Op, o.kind = .vstore) ∧ (∃ o : Op, ∃ pa, o.kind = .take ∧ regionOf pa = .syncObj) ∧
    (∃ o : Op, ∃ pa, o.kind = .wait ∧ regionOf pa ≠ .syncObj) ∧
    (thread (waiting (flying .take 0)) 0).state ≠ .halted ∧
    (thread (threadAt { readyThread [] with state := .halted } 0) 0).state = .halted :=
  ⟨⟨flying .load 0, rfl⟩, ⟨flying .sig 0, 0x010100000000, by decide⟩, ⟨flying .vstore 0, rfl⟩,
    ⟨flying .take 0, 0x0101007FFFF8, by decide⟩, ⟨flying .wait 0, 0x010100800000, by decide⟩,
    by decide, rfl⟩

theorem witness_memory_write :
    (Memory.wf (serving).mem = true ∧ wordsGood serving 5 10) ∧
    (8 % 8 = 0 ∧ (leBytes 8 7).length = 8) ∧
    (wordCheck (setCheck serving 8 .poison) 12 = .poison ∧ ¬ (12 % 8 = 0 ∧ (leBytes 4 7).length = 8)) := by
  decide +kernel

theorem witness_global_load :
    (findOp (thread (waiting (flying .load 64)) 0) 0 = some (flying .load 64) ∧
      (regionOf 64 = .hostMem → (waiting (flying .load 64)).linkUp = true) ∧
      loadBefore (thread (waiting (flying .load 64)) 0) (flying .load 64) = false ∧
      (readMem (waiting (flying .load 64)) 64 8).1 = false) ∧
    (let x : Op := { flying .load 64 with id := 1 }
     let s := threadAt { readyThread [] with ops := [flying .load 64, x], nextOp := 2 } 0
     findOp (thread s 0) 1 = some x ∧ loadBefore (thread s 0) x = true) ∧
    (findOp (thread (waiting (flying .vload 64)) 0) 0 = some (flying .vload 64)) ∧
    (let s := { waiting (flying .load 64) with checks := [(8, .poison)] }
     findOp (thread s 0) 0 = some (flying .load 64) ∧ (readMem s 64 8).1 = true) ∧
    let o : Op := { flying .load 64 with fail := some { cause := .poison, status := 0x0D, addr := 8 } }
    (thread (waiting o) 0).ops.find? (fun o => o.fail.isSome) = some o := by
  decide +kernel

/-- A context whose root table maps the first GiB by one leaf. -/
def mapped (s : State) : State :=
  { s with
    regs := [(xuCtxtBase 0, 0x10020)]
    mem := [(0x10000, 1), (0x10002, 0x20), (0x200000, 1), (0x200001, 0x10), (0x200002, 0x20)
            , (0x201000, 0x17)] }

theorem witness_page_walk :
    let o : Op := { flying .load 0 with phase := .walk }
    let s := threadAt { readyThread [] with state := .wait, ops := [o] } 0
    (thread s 0).ops.find? (fun o => o.phase == OpPhase.walk) = some o ∧
    (walkAccess s .engine 0 0 0 8 false).1.toOption = none ∧
    (thread (mapped s) 0).ops.find? (fun o => o.phase == OpPhase.walk) = some o ∧
    (walkAccess (mapped s) .engine 0 0 0 8 false).1.toOption = some 8 ∧
    loadOverlap (thread (mapped s) 0) o 8 = false ∧
    (let o : Op := { flying .store 0 with phase := .walk, id := 1 }
     let s := threadAt { readyThread [] with state := .wait, ops := [flying .load 8, o] } 0
     (thread (mapped s) 0).ops.find? (fun o => o.phase == OpPhase.walk) = some o ∧
       (walkAccess (mapped s) .engine 0 0 0 8 true).1.toOption = some 8 ∧
       loadOverlap (thread (mapped s) 0) o 8 = true) ∧
    (let o : Op := { flying .mvpost 0 with phase := .walk, data := leBytes 8 0, size := 0 }
     let s := threadAt { readyThread [] with state := .wait, ops := [o] } 0
     (walkAccess (mapped s) (opAccess o.kind) 0 0 0 8 (opWrites o)).1.toOption = some 8) := by
  decide +kernel

theorem witness_mover_post :
    (let s := poke (one [] 0) (localPa 0 0) [1, 3]
     slotsHeld s 0 < 256 ∧ readMustWait s 0 ((groupOf s (thread s 0)).winBase + 0) 64 = false ∧ checkLocal s (thread s 0) 0 64 64 = none ∧
       wordsGood s (windowPa s (thread s 0) 0) 64 ∧ localLost s (windowPa s (thread s 0) 0) = false ∧
       postTargets (peek s (windowPa s (thread s 0) 0) 64) = []) ∧
    (let o : Op := { flying .mvpost 0 with data := [1, 0] ++ leBytes 62 0, size := 0 }
     let s : State := { one [] 0 with tlb := [pageEntry true 0x1000] }
     o.size < (postTargets o.data).length ∧
       (cachedAccess s .post 0 0 0 (opVa o) (opWrites o)).map (fun r => r.1.toOption) =
         some (some 0x1000)) ∧
    (∀ x ∈ (one [] 0).threads, ∀ o ∈ x.2.ops, o.kind ≠ .mvpost) ∧
    (∃ i, engineInsn (.mvpost 0 { rF with rb := 0 }) = some (0, i) ∧ Issues 0 i (one [] i.word)) ∧
    (∃ i, engineInsn (.mvslots 0 { rF with ra := 0, rb := 0 }) = some (0, i) ∧
      Issues 0 i (one [] i.word)) ∧ (thread (one [] 0) 0).state ≠ .free :=
  ⟨by decide +kernel, by decide +kernel, by decide +kernel,
    ⟨_, rfl, issues_one _ _ (by decide) (by decide) (by decide)⟩,
    ⟨_, rfl, issues_one _ _ (by decide) (by decide) (by decide)⟩, by decide⟩

/-- A descriptor of core 0 whose bytes are these. -/
def descOf (bs : List Byte) : MoverDesc :=
  { id := 0, thread := 0, grid := 0, part := 0, ctx := 0, engine := 0, winBase := 0, winSize := 16384
    bytes := bs, running := false, done := 0, stalled := false, poisoned := false, remote := false
    statBad := false, statDone := false, syncBad := false, result := none, err := none, errAddr := 0 }

/-- The device with that descriptor in core 0's queue. -/
def moving (d : MoverDesc) : State := { one [] 0 with movers := [(0, { queue := [d], nextId := 1 })] }

/-- A copy of `len` bytes between windows: opcode, flags, rows, length, source and destination. -/
def copyBytes (len : Nat) : List Byte :=
  [1, 3] ++ leBytes 2 1 ++ leBytes 4 len ++ leBytes 8 0 ++ leBytes 8 8192 ++ leBytes 40 0

/-- A copy that reaches the end of the window, one byte past it, one of no length, and a PUT. -/
theorem witness_mover :
    (let d := descOf (copyBytes 8192)
     nextDesc (mover (moving d) 0) = some d ∧ descMalformed d = false ∧ descOutside d = false ∧
       descRemote d = false ∧ (moving d).err.fatal = false ∧
       (partition (moving d) d.part).state ≠ .frozen) ∧
    (let d := descOf (copyBytes 8193)
     nextDesc (mover (moving d) 0) = some d ∧ descMalformed d = false ∧ descOutside d = true) ∧
    (let d := descOf (copyBytes 0)
     nextDesc (mover (moving d) 0) = some d ∧ descMalformed d = true) ∧
    (let d := descOf (4 :: 1 :: (copyBytes 8192).drop 2)
     nextDesc (mover (moving d) 0) = some d ∧ descMalformed d = false ∧ descOutside d = false ∧
       descRemote d = true) ∧
    let d := { descOf (copyBytes 8192) with result := some 0, running := true }
    findDesc (moving d) 0 0 = some d ∧ d.stalled = false ∧ descStat d = 0 ∧ descSync d = 0 ∧
      d.err = none ∧
      let d := descOf ((copyBytes 8).take 48 ++ leBytes 8 0x400 ++ leBytes 8 0)
      descStat d ≠ 0 ∧ descSync d = 0 ∧ d.statDone = false ∧ d.statBad = false ∧
        (lineWrite (mapped (moving d)) d false (descStat d) 8
          (some (leBytes 8 (65536 * descTotal d)))).1.toOption = some () := by
  decide +kernel

/-- A multiply whose tiles lie in the window; the sparse ones have two of four, or four of eight,
elements in each group. -/
theorem witness_tensor_multiply :
    (∃ f i, engineInsn (.tmma 0 f) = some (0, i) ∧ Issues 0 i (one [(2, 8192)] i.word) ∧
      (let s := one [(2, 8192)] i.word
       let th := thread s 0
       tget none s.macBusy 0 = none ∧ checkTiles s th (multiplyTiles 0 f th) = none ∧
         accBad s th f.ta.toNat = false)) ∧
    (∃ f i, engineInsn (.tmmaS24 0 f) = some (0, i) ∧ Issues 0 i (one [(2, 8192), (3, 12288)] i.word) ∧
      checkTiles (one [(2, 8192), (3, 12288)] 0) (readyThread [(2, 8192), (3, 12288)])
        (multiplyTiles 1 f (readyThread [(2, 8192), (3, 12288)])) = none) ∧
    (∃ f i, engineInsn (.tmmaS48 0 f) = some (0, i) ∧ Issues 0 i (one [] i.word)) ∧
    (∃ f i, engineInsn (.tmmak 0 f) = some (0, i) ∧ Issues 0 i (one [] i.word)) ∧
    metaOk 1 0x3333333333333333 = true ∧ metaOk 2 0x0F0F0F0F0F0F0F0F = true :=
  ⟨⟨{ tF with fmtA := 11, fmtB := 11, sa := 1, sb := 2 }, _, rfl,
      issues_one _ _ (by decide) (by decide) (by decide), by decide +kernel⟩,
    ⟨{ tF with fmtA := 11, fmtB := 11, sa := 1, sb := 2, sm := 3 }, _, rfl,
      issues_one _ _ (by decide) (by decide) (by decide), by decide +kernel⟩,
    ⟨{ tF with fmtA := 11, fmtB := 11, sa := 1, sb := 2, sm := 3 }, _, rfl,
      issues_one _ _ (by decide) (by decide) (by decide)⟩,
    ⟨{ tF with fmtA := 11, fmtB := 11, sa := 1, sb := 2, sm := 3 }, _, rfl,
      issues_one _ _ (by decide) (by decide) (by decide)⟩, by decide +kernel, by decide +kernel⟩

theorem witness_tensor_completes :
    let o : Op := { flying .tensor 0 with acc := some 0 }
    let s := waiting o
    findOp (thread s 0) 0 = some o ∧ o.acc.bind (physAcc s (thread s 0)) = some 0 ∧
      leBytes 8 0 = peek s (localPa 0 0) (leBytes 8 0).length ∧ (leBytes 8 0).length ≤ 64 * 1 := by
  decide +kernel

theorem witness_accumulators :
    tableWf 0 (serving).accs = true ∧
    (∃ f i, engineInsn (.talloc 0 f) = some (0, i) ∧ Issues 0 i (one [] i.word) ∧
      physAcc (one [] i.word) (thread (one [] i.word) 0) 1 = some 1 ∧ f.ta = 1 ∧
      accOwner (one [] i.word) (thread (one [] i.word) 0) 1 = none) ∧
    (accOwner (one [] 0) (thread (one [] 0) 0) 0 = some 0 ∧ (thread (one [] 0) 0).lane = 0) ∧
    (accOwner (one [] 0) { thread (one [] 0) 0 with lane := 1 } 0 = some 0) ∧
    (∃ f i, engineInsn (.tfree 0 f) = some (0, i) ∧ Issues 0 i (one [] i.word) ∧
      accBad (one [] i.word) (thread (one [] i.word) 0) f.ta.toNat = false) ∧
    ∃ f i, engineInsn (.tzero 0 f) = some (0, i) ∧ Issues 0 i (one [] i.word) ∧
      accBad (one [] i.word) (thread (one [] i.word) 0) f.ta.toNat = false :=
  ⟨rfl, ⟨{ tF with ta := 1, sa := 1 }, _, rfl, issues_one _ _ (by decide) (by decide) (by decide),
      by decide, rfl, by decide⟩, by decide, by decide,
    ⟨tF, _, rfl, issues_one _ _ (by decide) (by decide) (by decide), by decide⟩,
    tF, _, rfl, issues_one _ _ (by decide) (by decide) (by decide), by decide⟩

theorem witness_tile_moves :
    (∃ f i, engineInsn (.tld 0 f) = some (0, i) ∧ Issues 0 i (one [] i.word) ∧
      fmtOfCode f.fmtA = some .bf16 ∧ portBusy (one [] i.word) 0 = false ∧
      checkTiles (one [] i.word) (thread (one [] i.word) 0) [(0, tileBytes (recordStride .bf16) .bf16)]
        = none ∧ accBad (one [] i.word) (thread (one [] i.word) 0) 0 = false) ∧
    (∃ f i, engineInsn (.tst 0 f) = some (0, i) ∧ Issues 0 i (one [] i.word) ∧
      fmtOfCode f.fmtA = some .e4m3 ∧
      storeMustWait (one [] i.word) 0 0 (tileBytes (recordStride .e4m3) .e4m3) = false) ∧
    (let o : Op := { flying .tileLoad 0 with acc := some 0 }
     findOp (thread (waiting o) 0) 0 = some o ∧
       o.acc.bind (physAcc (waiting o) (thread (waiting o) 0)) = some 0) ∧
    let o : Op := { flying .tileStore 0 with acc := some 1 }
    findOp (thread (waiting o) 0) 0 = some o ∧
      o.acc.bind (physAcc (waiting o) (thread (waiting o) 0)) = some 1 :=
  ⟨⟨{ tF with fmtA := 1, sa := 1 }, _, rfl, issues_one _ _ (by decide) (by decide) (by decide), by decide,
      by decide, by decide, by decide⟩,
    ⟨{ tF with fmtA := 11, sa := 1 }, _, rfl, issues_one _ _ (by decide) (by decide) (by decide),
      by decide, by decide⟩, by decide +kernel, by decide +kernel⟩

/-! Sync objects. -/

/-- Object 0 in this condition, and object 1 FREE. -/
def object (st : SyncState) (n : Word) : SyncObj := { SyncObj.free with state := st, count := n, anyCtx := true }

/-- A thread with an operation in flight to object 0. -/
def atObject (k : OpKind) (x : SyncObj) : State :=
  { waiting (flying k 0x010100000000) with syncs := [(0, x)] }

theorem witness_sync_start : ∀ r ∈ syncRows, ∃ f i,
    engineInsn (r.1 0 f) = some (0, i) ∧ Issues 0 i (one [(2, 8)] i.word) ∧
    (readS (thread (one [(2, 8)] i.word) 0) f.ra).toNat % 8 = 0 := by
  intro r hr
  simp only [syncRows, List.mem_cons, List.not_mem_nil, or_false] at hr
  rcases hr with rfl | rfl | rfl | rfl
  · exact ⟨{ sF with rd := 0 }, _, rfl, issues_one _ _ (by decide) (by decide) (by decide), by decide⟩
  · exact ⟨sF, _, rfl, issues_one _ _ (by decide) (by decide) (by decide), by decide⟩
  · exact ⟨{ sF with rb := 0 }, _, rfl, issues_one _ _ (by decide) (by decide) (by decide), by decide⟩
  · exact ⟨{ sF with rb := 0, imm := 0 }, _, rfl, issues_one _ _ (by decide) (by decide) (by decide),
      by decide⟩

theorem witness_signal :
    (let s := atObject .sig (object .live 3)
     findOp (thread s 0) 0 = some (flying .sig 0x010100000000) ∧
       (syncObj s 0).badAttr = .good ∧ (syncObj s 0).badCount = .good ∧
       syncPasses (syncObj s 0) 0 0 false true = true ∧ (syncObj s 0).state = .live) ∧
    syncPasses (syncObj (atObject .sig (object .free 0)) 0) 0 0 false true = false ∧
    (syncPasses (object .frozen 0) 0 0 false true = true ∧ (object .frozen 0).state = .frozen) ∧
    (syncPasses (object .revoked 0) 0 0 false true = true ∧ (object .revoked 0).state = .revoked) := by
  decide +kernel

theorem witness_sread :
    ∀ st ∈ [SyncState.live, .frozen, .revoked], let s := atObject .sread (object st 3)
      findOp (thread s 0) 0 = some (flying .sread 0x010100000000) ∧ (syncObj s 0).badAttr = .good ∧
        (syncObj s 0).badCount = .good ∧ syncPasses (syncObj s 0) 0 0 false false = true := by
  decide +kernel

/-- A thread in SPIN on object 0. -/
def spinning (take : Bool) (target : Word) (x : SyncObj) : State :=
  { threadAt { readyThread [] with
      state := .spin
      spin := some { take := take, va := 8, pa := 0x010100000000, target := target, dst := 1
                     left := 64, since := 0, stale := false, pc := 0, word := 0 } } 0 with syncs := [(0, x)] }

/-- `wait.ge` at its target and one below, `take` at 1 and at 0, and both on a REVOKED object. -/
theorem witness_spin :
    (∀ p ∈ [(false, (5 : Word), object .live 5), (false, 5, object .live 4), (true, 0, object .live 1),
        (true, 0, object .live 0), (false, 5, object .revoked 0), (true, 0, object .revoked 0)],
      let s := spinning p.1 p.2.1 p.2.2
      (thread s 0).spin.isSome = true ∧ (thread s 0).state = .spin ∧ s.err.fatal = false ∧
        pacedNow s (gridOf s (thread s 0)) = false ∧ (thread s 0).spin.all (fun x => !spinOver s 0 x) = true ∧
        (syncObj s 0).badAttr = .good ∧ (syncObj s 0).badCount = .good ∧
        syncPasses (syncObj s 0) 0 0 false false = true ∧ (syncObj s 0).part.toNat = 0) ∧
    (let s := { spinning true 0 (object .live 1) with
       clocks := [(0, 64)], tlb := [{ pageEntry true 0x010100000000 with unit := clusterOf 0 }] }
     let x : Spin := { take := true, va := 8, pa := 0, target := 0, dst := 1, left := 64, since := 0
                       stale := true, pc := 0, word := 0 }
     x.stale = true ∧ (access s .sync (clusterOf 0) 0 0 x.va.toNat x.take).1.toOption =
       some 0x010100000008 ∧ x.since + x.left ≤ engineNow s 0 ∧
       engineNow (spinning true 0 (object .live 1)) 0 < x.since + x.left) := by
  decide +kernel

theorem witness_fence : (∀ r ∈ fenceRows, ∃ f i,
      engineInsn (r.1 0 f) = some (0, i) ∧ Issues 0 i (one [] i.word)) ∧
    (∃ o ∈ (thread (waiting (flying .sig 0)) 0).ops, fenceWaits .die o = true) ∧
    (∀ o ∈ (thread (one [] 0) 0).ops, fenceWaits .die o = false) ∧
    (let s := threadAt { readyThread [] with state := .wait, fence := some (.net, 1) } 0
     (thread s 0).fence = some (.net, 1) ∧ (thread s 0).state = .wait) := by
  refine ⟨fun r hr => ?_, by decide, by decide, by decide⟩
  simp only [fenceRows, List.mem_cons, List.not_mem_nil, or_false] at hr
  rcases hr with rfl | rfl | rfl | rfl
  iterate 3
    exact ⟨{ sF with rd := 0, ra := 0, rb := 0, imm := 0 }, _, rfl,
      issues_one _ _ (by decide) (by decide) (by decide)⟩
  exact ⟨{ sF with ra := 0, rb := 0, imm := 0 }, _, rfl,
    issues_one _ _ (by decide) (by decide) (by decide)⟩

/-! Net instructions and system instructions. -/

/-- Queue pair 5 of partition 0. -/
def withQp (s : State) (q : Qp) : State :=
  { s with qps := [(5, q)], firkin := { Firkin.reset with cached := [5] } }

/-- In RTS with a window. -/
def rtsQp : Qp := { Qp.none with state := .rts, window := 64, vmask := 3, version := 2 }

/-- Every net instruction on a queue pair that takes it; in ERROR and not on the die it does not. -/
theorem witness_net : (∀ r ∈ netRows, ∃ f, Issues 0 (r.insn f) (one [(2, 8), (3, 5)] (r.insn f).word) ∧
      (let s := one [(2, 8), (3, 5)] (r.insn f).word
       let th := thread s 0
       (readS th f.ra).toNat % 8 = 0 ∧ netLimit th r.kind = false ∧ rbRsv (readS th f.rb) = 0 ∧
       qpTakesNow (withQp s rtsQp) (qpKey 0 (rbQpn (readS th f.rb))) r.op = .take ∧
       qpTakesNow (withQp s { rtsQp with state := .error }) (qpKey 0 (rbQpn (readS th f.rb))) r.op =
         .fail 0x01)) ∧
    qpTakesNow { withQp serving rtsQp with firkin := Firkin.reset } 5 0x02 = .wait := by
  refine ⟨fun r hr => ?_, by decide +kernel⟩
  simp only [netRows, List.mem_cons, List.not_mem_nil, or_false] at hr
  rcases hr with rfl | rfl | rfl | rfl | rfl
  iterate 2 exact ⟨{ nF with len := 32 }, issues_one _ _ (by decide) (by decide) (by decide), by decide +kernel⟩
  iterate 2
    exact ⟨{ nF with rd := 1, rc := 2 }, issues_one _ _ (by decide) (by decide) (by decide),
      by decide +kernel⟩
  exact ⟨{ nF with rc := 2 }, issues_one _ _ (by decide) (by decide) (by decide), by decide +kernel⟩

theorem witness_net_response :
    ∀ st ∈ [(0 : BitVec 8), 7], ∀ k ∈ [OpKind.get, .atomAdd],
      let o : Op := { flying k 0 with answer := some { status := st, bytes := [1, 2] } }
      findOp (thread (waiting o) 0) 0 = some o ∧ o.fail = none := by decide +kernel

theorem witness_system :
    (∃ f i, engineInsn (.nopInsn 0 f) = some (0, i) ∧ Issues 0 i (one [] i.word)) ∧
    (∃ f i, engineInsn (.mfs 0 f) = some (0, i) ∧ Issues 0 i (one [] i.word) ∧ f.imm = 7) ∧
    (∃ f i, engineInsn (.trap 0 f) = some (0, i) ∧ Issues 0 i (one [] i.word)) ∧
    (∃ f i, engineInsn (.brk 0 f) = some (0, i) ∧ Issues 0 i (one [] i.word) ∧
      (gridOf (one [] i.word) (thread (one [] i.word) 0)).debug = false) ∧
    atBoundary (readyThread []) = true ∧
    atBoundary { readyThread [] with ops := [flying .get 0] } = false ∧
    (gridOf { one [] 0 with grids := [(0, { smallGrid with debug := true })] } (readyThread [])).debug =
      true :=
  ⟨⟨{ iF with rd := 0, ra := 0 }, _, rfl, issues_one _ _ (by decide) (by decide) (by decide)⟩,
    ⟨{ iF with ra := 0, imm := 7 }, _, rfl, issues_one _ _ (by decide) (by decide) (by decide), rfl⟩,
    ⟨{ iF with rd := 0, ra := 0 }, _, rfl, issues_one _ _ (by decide) (by decide) (by decide)⟩,
    ⟨{ iF with rd := 0, ra := 0 }, _, rfl, issues_one _ _ (by decide) (by decide) (by decide), by decide⟩,
    by decide, by decide, by decide⟩

theorem witness_thread_end :
    (∃ f i, engineInsn (.end_ 0 f) = some (0, i) ∧ Issues 0 i (one [] i.word) ∧
      (thread (one [] i.word) 0).ops = [] ∧ moverPending (one [] i.word) 0 = false ∧
      (thread (one [] i.word) 0).netFail = none) ∧
    (∃ i s, engineInsn (.end_ 0 { iF with rd := 0, ra := 0 }) = some (0, i) ∧ Issues 0 i s ∧
      (thread s 0).ops ≠ []) ∧
    (∀ nf ∈ [none, some (7 : BitVec 8)],
      let s := threadAt { readyThread [] with state := .ending, netFail := nf } 0
      (thread s 0).state = .ending ∧ (thread s 0).ops = [] ∧ moverPending s 0 = false) :=
  ⟨⟨{ iF with rd := 0, ra := 0 }, _, rfl, issues_one _ _ (by decide) (by decide) (by decide), by decide,
      by decide, by decide⟩,
    ⟨_, threadAt { readyThread [] with ops := [flying .load 0] }
        (wordI 0x30 0x01 { iF with rd := 0, ra := 0 }), rfl,
      { may := by decide +kernel, word := by decide +kernel, listed := by decide +kernel
        legal := by decide +kernel, ready := by decide +kernel, gate := by decide +kernel }, List.cons_ne_nil _ _⟩,
    by decide +kernel⟩

/-! Commands of the device. -/

/-- 64 bytes with fields at their offsets. -/
def bytesWith (n : Nat) (fs : List (Nat × List Byte)) : List Byte :=
  fs.foldl (fun b f => b.take f.1 ++ f.2 ++ b.drop (f.1 + f.2.length)) (leBytes n 0)

/-- A ring entry of one slot. -/
def entryWith (op : Nat) (fs : List (Nat × List Byte)) : RingEntry :=
  { index := 0, bytes := bytesWith 64 ((0, leBytes 1 op) :: fs), gated := false, gateAt := 0
    order := 0 }

/-- A ring in RUN. -/
def runRing (typ : Nat) : Ring := { Ring.idle with typ := typ, state := .run, log2sz := 4 }

/-- Ring 0x200 of a type, with an entry at its head. -/
def headed (typ : Nat) (e : RingEntry) : State :=
  { serving with rings := [(0x200, { runRing typ with taken := [e] })] }

/-- Ring `r` with an entry started on it. -/
def startedOn (r typ : Nat) (e : RingEntry) : State :=
  { serving with rings := [(r, { runRing typ with started := [e] })] }

/-- A thread selected in the debug window, debug-halted. -/
def debugged : State :=
  { threadAt { readyThread [] with state := .halted, debug := true } 0 with
    grids := [(0, { smallGrid with debug := true })], regs := [(0x0600000, 0)] }

theorem witness_debug :
    selGrid debugged = some 0 ∧ selThread debugged = some 0 ∧ selEngine debugged = some 0 ∧
    (thread debugged 0).debug = true ∧ (thread debugged 0).state = .halted ∧
    0x1578 % 8 = 0 ∧ engineStill debugged 0 = true ∧ dbgBusy debugged = false ∧
    dbgBusy { debugged with dbgHalt := some (0, 0) } = true ∧
    (∀ u ∈ gridThreads { debugged with dbgHalt := some (0, 0) } 0,
      (thread debugged u).state = .halted ∨ (thread debugged u).state = .free) ∧
    (let s : State := { one [] 0 with dbgHalt := some (0, 0) }
     ∃ u ∈ gridThreads s 0, (thread s u).state ≠ .halted ∧ (thread s u).state ≠ .free) ∧
    (let th : Thread := { readyThread [] with halting := true }
     th.halting = true ∧ atBoundary th = true ∧ th.state = .ready) ∧
    atBoundary { readyThread [] with ops := [flying .get 0] } = false ∧
    (let th := thread debugged 0
     th.cause = none ∧ th.spin = none ∧ th.fence = none) := by decide +kernel

/-- A fault of partition 0 with id 0. -/
def aFault : FaultRec :=
  { fid := some 0, ctx := 0, key := 0, va := 8, cause := .notPresent, write := false, agent := 0
    ulog2 := 0, time := 0, joined := false, waiters := [.thread 0] }

/-- That fault, at a time. -/
def faulted (f : FaultRec) (now : Nat) : State :=
  { threadAt { readyThread [] with state := .parked } 0 with
    faults := [(0, { FaultTable.empty with faults := [f] })], clocks := [(1, now)] }

theorem witness_faults :
    (bar0 (faulted aFault 0) = true ∧
      (faultTable (faulted aFault 0) 0).faults.find? (fun f => f.fid == some 0) = some aFault ∧
      (thread (faulted aFault 0) 0).state = .parked) ∧
    ((faultTable (faulted aFault 0) 0).faults = [aFault] ∧ aFault.joined = false ∧
      (partition (faulted aFault 0) 0).state ≠ .frozen ∧
      ∃ n, aFault.time + faultTmo (faulted aFault 0) 0 ≤ fdTime (faulted aFault n) ∧
        faultTmo (faulted aFault n) 0 = faultTmo (faulted aFault 0) 0) ∧
    (let f := { aFault with fid := none }
     let s := { faulted f 0 with rings := [(0xE0, { runRing 5 with log2sz := 4 })] }
     (faultTable s 0).faults.find? (fun f => f.fid.isNone && !f.joined) = some f ∧
       (fqReady s 0).1 = true ∧ lowestFid (faultTable s 0) 0 4096 = some 0) ∧
    (let s := { faulted aFault 15000 with
       faults := [(0, { FaultTable.empty with holdoff := true })] }
     (faultTable s 0).holdoff = true ∧ (faultTable s 0).withheld = false ∧
       (faultTable s 0).since + 15000 ≤ fdTime s) :=
  ⟨by decide +kernel, ⟨rfl, rfl, by decide +kernel, faultTmo (faulted aFault 0) 0,
    by decide +kernel, by decide +kernel⟩, by decide +kernel, by decide +kernel⟩

theorem witness_invalidation :
    bar0 serving = true ∧ invBusy serving 64 = false ∧
    (let i : Invalidation := { who := 0, scope := .part, part := 0, ctx := 0, va := 0, size := .k4, dropped := [] }
     let s := { one [] 0 with invs := [i] }
     let s1 := { waiting (flying .load 0) with invs := [i] }
     s.invs.find? (fun i => i.who == 0) = some i ∧
       (∀ t ∈ s.threads, ∀ o ∈ t.2.ops, opCovered s i t.2 o = false) ∧
       s1.invs.find? (fun i => i.who == 0) = some i ∧
       ∃ t ∈ s1.threads, ∃ o ∈ t.2.ops, opCovered s1 i t.2 o = true) := by decide +kernel

theorem witness_scrub :
    (let s := { serving with regs := [(xuScrubCtl, 1)], checks := [(1, .single), (2, .uncorrectable)] }
     regionOf 8 = .lpddr ∧ (reg s xuScrubCtl).getLsbD 0 = true ∧ (s.sched.power = .full ∨ s.sched.power = .trim) ∧
       tableWf .good s.checks = true ∧ wordCheck s 8 = .single ∧ wordCheck s 16 = .uncorrectable) ∧
    (let s := { serving with regs := [(xuScrubCtl, 1)] }
     ∀ k < 8, wordCheck s (0xFFFFFFFFC0 / 64 * 64 + 8 * k) = .good) := by decide +kernel

theorem witness_errors :
    powered serving = true ∧ errClass 0x0A = 3 ∧ errClass 0x03 ≠ 3 ∧
    (let s := { serving with err := { ErrUnit.reset with fences := [(3, 0, 0, false)] }
                             clocks := [(1, 150000000)] }
     s.err.fences.find? (fun f => f.1 == 3) = some (3, 0, 0, false) ∧ s.err.fatal = false ∧
       0 + 150000000 ≤ fdTime s) ∧
    (let s := { serving with err := { ErrUnit.reset with tail := 2 } }
     s.err.dropped = 0 ∧ ((2 : BitVec 32) - s.err.head).toNat ≤ (s.err.tail - s.err.head).toNat ∧
       (s.err.tail - s.err.head).toNat < ((3 : BitVec 32) - s.err.head).toNat) := by decide +kernel

/-- A LAUNCH of one group of one thread on die 0 with an estimate of `n` grains. -/
def launchEntry (n : Nat) (fs : List (Nat × List Byte)) : RingEntry :=
  entryWith 0x01 ([(0x30, leBytes 2 1), (0x32, leBytes 2 1), (0x34, leBytes 2 1), (0x36, [1, 0])
    , (0x38, leBytes 2 256), (0x3A, leBytes 2 1), (0x3C, leBytes 2 n), (0x3E, leBytes 2 1)] ++ fs)

/-- Partition 0 with a budget of 2,000 grains and core 0. -/
def budgeted (s : State) : State :=
  { s with parts := [(0, { Partition.idle with state := .run, energy := 2000 })]
           coreOwner := [(0, some 0)] }

/-- A LAUNCH that fits, one beyond its partition's budget by one grain, and a malformed one. -/
theorem witness_launch :
    (∀ n ∈ [2000, 2001], let e := launchEntry n []
      let s := budgeted (headed 1 e)
      (ring s 0x200).taken = [e] ∧ headReady s 0x200 e = true ∧ headerBad (ring s 0x200) e = false ∧
        entryOpcode e = 0x01 ∧ heldGrid s 0x200 = none ∧ launchBad 0 e = false) ∧
    (let e := launchEntry 2000 []
     let s := budgeted (headed 1 e)
     neverFits s (gridOfLaunch 0x200 (ring s 0x200) e) = false) ∧
    launchBad 0 (launchEntry 0 []) = true := by decide +kernel

/-- A held grid that fits. -/
def heldState : State :=
  budgeted { serving with grids := [(0, gridOfLaunch 0x200 (runRing 1) (launchEntry 100 []))]
                          nextGrid := 1, rings := [(0x200, runRing 1)] }

theorem witness_admission :
    powerAdmits heldState = true ∧ pickCandidate heldState (candidates heldState) = some 0 ∧
    (let s := modGrid heldState 0 fun g => { g with state := .preempted }
     (grid s 0).state ≠ .held ∧ neverFits s (grid s 0) = false ∧
       (admission s (grid s 0)).isSome = true ∧ (partition s (grid s 0).part).state = .run) := by
  decide +kernel

/-- A new group has room on engine 0. -/
theorem witness_group_start :
    let s := budgeted { serving with
      grids := [(0, { smallGrid with shares := [(0, 100)], placed := 1, dies := 1, lsz := 1
                                     nextGroup := 0, image := some [1, 0, 0, 0, 0, 0, 0, 0] })] }
    (grid s 0).state = .running ∧ s.err.fatal = false ∧ s.sched.gated = false ∧
      (partition s 0).state = .run ∧ (partition s 0).draining = false ∧ (fitOn s (grid s 0) 0).isSome = true ∧
      (loadImage s 0 0).1 = none ∧ (grid s 0).saved = [] ∧
      (grid s 0).nextGroup < gridGroups (grid s 0) ∧
      coreChosen s (grid s 0) ((gridCores s (grid s 0)).filter fun c =>
        dieOfGroup (grid s 0) 0 == some (dieOfCore c)) 0 = true := by
  decide +kernel

theorem witness_ledger :
    (let s := { serving with clocks := [(1, 150000)] }
     s.sched.windowStart + 150000 ≤ fdTime s ∧ s.sched.target ≠ some .standby) ∧
    fdTime serving < serving.sched.windowStart + 150000 ∧
    serving.sched.calNext ≤ fdTime serving ∧
    (let s := modSched serving fun z => { z with calNext := 1 }
     fdTime s < s.sched.calNext) := by decide +kernel

theorem witness_pacing :
    (let s := { serving with grids := [(0, { smallGrid with
       shares := [(0, 1)], charge := unitsPerGrain })] }
     (grid s 0).state = .running ∧ (grid s 0).paced = false ∧ (grid s 0).shares ≠ [] ∧
       gridReserve (grid s 0) * unitsPerGrain ≤ (grid s 0).charge) ∧
    ((partition serving 0).energy * unitsPerGrain ≤ partSpent serving 0 ∧
      serving.sched.partPaced.contains 0 = false) ∧
    (let s := { serving with parts := [(0, { Partition.idle with state := .run, nextEnergy := 5 })] }
     (partition s 0).energy ≠ (partition s 0).nextEnergy ∧ tableWf Partition.idle s.parts = true) := by
  decide +kernel

theorem witness_power :
    (∀ x ∈ [PowerState.full, .trim, .doze],
      let s := modSched serving fun z => { z with power := x }
      powered s = true ∧ s.err.fatal = false ∧ s.sched.target = none ∧ s.sched.power = x) ∧
    (let s := modSched serving fun z => { z with target := some .doze }
     powered s = true ∧ s.sched.target = some .doze ∧ computeGroups s = false) ∧
    (let s := modSched serving fun z => { z with power := .doze, target := some .full }
     s.sched.power = .doze ∧ s.sched.target = some .full ∧ s.err.fatal = false) ∧
    (let s := modSched serving fun z => { z with power := .doze }
     s.sched.power = .doze ∧ s.sched.target = none) ∧
    tableWf 0 (poke serving (localPa 3 8) [7]).mem = true ∧
    localPa 0 0 ≤ localPa 16383 32767 ∧ localPa 16383 32767 < localPa 16384 0 := by decide +kernel

theorem witness_supply :
    (modSched serving fun z => { z with power := .off }).sched.power = .off ∧
    serving.sched.power ≠ .off ∧ serving.supply.refclk156 = true := by decide +kernel

/-! Rings. -/

/-- A ring with a poll outstanding and nothing new in memory. -/
def polled : State :=
  { mapped serving with rings := [(0x200, { runRing 1 with
      base := 0x4000, pollsOut := 1, emptyN := 1 })] }

theorem witness_ring_poll :
    ((0xFFFFFFEF : BitVec 32).toNat + 2 ^ 4 < 2 ^ 32 ∧ (15 : BitVec 32).toNat < 2 ^ 4) ∧
    mayPoll (headed 1 (entryWith 0x02 [])) 0x200 = true ∧
    (let y : Ring := { ring polled 0x200 with pollsOut := 0 }
     (ring polled 0x200).pollsOut ≠ 0 ∧ y.state = .run ∧
       ringPaused (setRing polled 0x200 y) 0x200 = false ∧ y.fetchStopped = false ∧
       polled.err.fatal = false ∧ tfind y.prefetch y.prod.toNat = none ∧ y.reported = y.cons ∧
       (readSlot (setRing polled 0x200 y) 0x200 y.prod).1.toOption = some (leBytes 64 0) ∧
       markPresent y y.prod (leBytes 64 0) = false ∧
       y.cont = false ∧ y.emptyN ≠ 0 ∧ y.emptyN ≤ y.emptyRun + 1) := by
  decide +kernel

theorem witness_ring_start :
    privRing 0x90 = some (4, 0, none) ∧
    (let s := { mapped serving with rings := [(0x90, { Ring.idle with base := 0x4000, rpt := 0x8000, log2sz := 4 })] }
     let x : Ring := { ring s 0x90 with typ := 4 }
     (ring s 0x90).state = .idle ∧ bar0 s = true ∧ x.hrK ≤ 20 ∧
       ringFieldsOk 4 x.log2sz x.base x.rpt = true ∧
       (ringRangeOk s 0 x.ctx 4 x.log2sz x.base x.rpt).1 = true) ∧
    ringFieldsOk 4 3 0x4000 0x8000 = false := by decide +kernel

theorem witness_ring_entries :
    (let e := entryWith 0x02 []
     let s := headed 1 e
     (ring s 0x200).taken = [e] ∧ headReady s 0x200 e = true ∧ headerBad (ring s 0x200) e = false ∧
       startsItself 0x02 = false ∧ (ring s 0x200).rpt = 0) ∧
    (let e := entryWith 0xFF []
     let s := headed 1 e
     headReady s 0x200 e = true ∧ headerBad (ring s 0x200) e = true ∧ (ring s 0x200).typ ≠ 6) ∧
    (startedOp (startedOn 0x200 1 (entryWith 0x02 [])) 0x200 0x02 = some (entryWith 0x02 []) ∧
      (ring (startedOn 0x200 1 (entryWith 0x02 [])) 0x200).bindEn = false ∧
      tableWf Ring.idle (startedOn 0x200 1 (entryWith 0x02 [])).rings = true) ∧
    (let e := entryWith 0xFF []
     let s : State := { headed 6 e with
       bushel := [(7, { BshGroup.none with cmq := 0x200 })] }
     headReady s 0x200 e = true ∧ headerBad (ring s 0x200) e = true ∧ (ring s 0x200).typ = 6 ∧
       entryOpcode e ≠ 0x02 ∧ cmqGroup s 0x200 = some 7) ∧
    (startedOp (startedOn 0 3 (entryWith 0x02 [])) 0 0x02 = some (entryWith 0x02 []) ∧
      mpServes (startedOn 0 3 (entryWith 0x02 [])) 0 = true) ∧
    (let s := { serving with rings := [(0x90, { runRing 4 with prod := 16 })] }
     ringProduced (ring s 0x90) = true ∧ ringTakes (ring s 0x90) = true ∧
       ringFull (ring s 0x90) = true ∧ s.err.fatal = false) := by decide +kernel

/-- Partition 3 in a state, with quotas, and a pre-emption area. -/
def partIn (st : PartState) : State :=
  { mapped serving with
    parts := [(0, { Partition.idle with state := .run, ringQ := 10, qpQ := 10, keyQ := 10, syncQ := 10 })
              , (3, { Partition.idle with state := st })]
    regs := [(xuCtxtBase 0, 0x10020), (partPrebase, 0x8000000000000000)] }

/-- The same with an entry started on the AQ of PF0. -/
def onAq (s : State) (e : RingEntry) : State :=
  { s with rings := (0, { runRing 3 with started := [e] }) :: s.rings }

theorem witness_admin :
    (∀ op ∈ [0x40, 0x68, 0x69, 0x6A, 0x62, 0x5A], let e := entryWith op []
      AqTurn (onAq serving e) 0 op e) ∧
    (∀ op ∈ [0x58, 0x50], let e := entryWith op []
      AqTurn (onAq serving e) 0 op e ∧ mirrorFull (onAq serving e) (aqPart e) = false) ∧
    (let e := entryWith 0x41 [(0x10, leBytes 2 0x200)]
     AqTurn (onAq serving e) 0 0x41 e ∧ namedRing (onAq serving e) e = none) ∧
    (let e := entryWith 0x60 []
     let s1 := modSched (onAq serving e) fun z => { z with moving := [] }
     resizeWaits (onAq serving e) 0 = [] ∧ AqTurn s1 0 0x60 e) ∧
    startedOp serving 0 0x40 = none := by
  decide +kernel

/-- A RING_CREATE of SQ 0x200. -/
def createEntry : RingEntry :=
  entryWith 0x40 [(0x10, leBytes 2 0x200), (0x12, [1, 4]), (0x18, leBytes 8 0x4000)
    , (0x20, leBytes 8 0x8000)]

/-- Ring 0x200 in a state, beside the AQ whose entry names it. -/
def withRing (x : Ring) (e : RingEntry) : State :=
  onAq { partIn .run with rings := [(0x200, x)] } e

theorem witness_ring_admin :
    (let s := onAq (partIn .run) createEntry
     AqTurn s 0 0x40 createEntry ∧ createBad createEntry = false ∧ ringIdOk s 0 0x200 = true ∧
       (ring s 0x200).state = .idle ∧ entryByte createEntry 0x36 = 0 ∧
       ringsUsed s 0 < (partition s 0).ringQ ∧ (ringRangeOk s 0 0 1 4 0x4000 0x8000).1 = true ∧
       createBad (entryWith 0x40 []) = true) ∧
    (∀ op ∈ [0x41, 0x43, 0x44], ∀ st ∈ [RingState.run, .stopped], ∀ typ ∈ [1, 2],
      let e := entryWith op [(0x10, leBytes 2 0x200)]
      let s := withRing { runRing typ with state := st } e
      AqTurn s 0 op e ∧ zeroField e 0x12 46 = true ∧ namedRing s e = some 0x200 ∧
        (ring s 0x200).state = st ∧ (ring s 0x200).taken = [] ∧ ringBusy s 0x200 = false) ∧
    (let e := entryWith 0x41 [(0x10, leBytes 2 0x200)]
     let s := onAq { partIn .run with
       rings := [(0x200, runRing 2), (0x201, { runRing 1 with bindEn := true, target := 0x200 })] } e
     boundRings s 0x200 ≠ []) ∧
    (let e := entryWith 0x45 [(0x10, leBytes 2 0x200), (0x14, leBytes 2 0x201), (0x16, [1])]
     let s := onAq { partIn .run with rings := [(0x200, runRing 1), (0x201, runRing 2)] } e
     AqTurn s 0 0x45 e ∧ entryByte e 0x16 = 1 ∧ zeroField e 0x12 2 = true ∧
       zeroField e 0x17 41 = true ∧ namedRing s e = some 0x200 ∧
       bindOk s (ring s 0x200).part (ring s 0x200).typ (entryField e 0x14 2) = true) ∧
    (let e := entryWith 0x42 [(0x10, leBytes 2 0x200), (0x13, [5]), (0x18, leBytes 8 0x6000)]
     let s := withRing { runRing 1 with base := 0x4000 } e
     AqTurn s 0 0x42 e ∧ zeroField e 0x12 1 = true ∧ zeroField e 0x14 4 = true ∧
       zeroField e 0x20 32 = true ∧ 4 ≤ entryByte e 0x13 ∧ entryByte e 0x13 ≤ 20 ∧
       (entryWord e 0x18).toNat < 2 ^ 57 ∧ namedRing s e = some 0x200 ∧
       ringFieldsOk 1 5 (entryWord e 0x18) (ring s 0x200).rpt = true ∧
       (ringRangeOk s 0 0 1 5 (entryWord e 0x18) (ring s 0x200).rpt).1 = true) ∧
    (let s := { serving with rings := [(0x200, { runRing 2 with state := .stopping })] }
     stopEnds s 0x200 = true ∧ (ring s 0x200).stopBy = none ∧ ringConsumed (ring s 0x200) = false ∧
       s.err.fatal = false) ∧
    (let e := { entryWith 0x43 [(0x10, leBytes 2 0x200)] with gated := true }
     let s := withRing { runRing 1 with state := .stopping, stopBy := some (0, 0) } e
     stopEnds s 0x200 = true ∧ startedAt s 0 0 = some e ∧ entryOpcode e = 0x43 ∧
       ringConsumed (ring s 0x200) = true) ∧
    (let s := { mapped serving with rings := [(0x200, { runRing 1 with
       base := 0x4000, resize := some (5, 0x6000, 0, 0) })] }
     (ring s 0x200).resize = some (5, 0x6000, 0, 0) ∧ (resizeReady s 0x200).1 = true ∧
       ringConsumed (ring (resizeReady s 0x200).2 0x200) = true ∧ s.err.fatal = false ∧
       (ring (resizeReady s 0x200).2 0x200).state = .run) := by
  refine ⟨?_, ?_, ?_, ?_, ?_, ?_, ?_, ?_⟩ <;> decide +kernel

/-- One object, at the last index. -/
def lastObject (op : Nat) (fs : List (Nat × List Byte)) : RingEntry :=
  entryWith op ([(0x10, leBytes 4 0xFFFFF), (0x14, leBytes 4 1)] ++ fs)

theorem witness_sync_admin :
    (let e := lastObject 0x48 [(0x18, leBytes 8 0x4000000000000000)]
     let s := onAq (partIn .run) e
     AqTurn s 0 0x48 e ∧ syncRun e = some [0xFFFFF] ∧ attrBad 0 (entryWord e 0x18) = false ∧ zeroField e 0x28 24 = true ∧
       (∀ i ∈ [0xFFFFF], (syncObj (checkRun s [0xFFFFF]) i).state = .free) ∧
       syncUsed (checkRun s [0xFFFFF]) 0 + 1 ≤ (partition (checkRun s [0xFFFFF]) 0).syncQ) ∧
    (∀ op ∈ [0x49, 0x4A], let e := lastObject op []
      let s := onAq (partIn .run) e
      AqTurn s 0 op e ∧ syncRun e = some [0xFFFFF] ∧ zeroField e 0x18 40 = true ∧
        (ring s 0).part = 0) ∧
    (let s := { serving with syncs := [(0, { object .live 1 with part := 1 })] }
     bar0 s = true ∧ (signalObj s 1 0 true (vfSwbase s 1 + 0) 1).1 = .applied) := by
  decide +kernel

/-- An AQ entry for partition 3. -/
def forPart (op : Nat) (fs : List (Nat × List Byte)) : RingEntry := entryWith op ((3, [3]) :: fs)

theorem witness_partition :
    (∀ r ∈ [3, 7], let e := forPart 0x60 [(0x10, leBytes 1 r), (0x14, leBytes 4 5)]
      let s1 := modSched (onAq (partIn .run) e) fun z => { z with moving := [] }
      resizeWaits (onAq (partIn .run) e) 0 = [] ∧ AqTurn s1 0 0x60 e ∧ rzRes e = r ∧
        resizeStatus s1 e = 0) ∧
    (let e := forPart 0x61 []
     let s := onAq (partIn .run) e
     AqTurn s 0 0x61 e ∧ zeroField e 0x10 48 = true ∧ 1 ≤ aqPart e ∧ aqPart e ≤ 64 ∧
       (partition s (aqPart e)).state = .run ∧ standbyBusy s (aqPart e) = false ∧
       powered s = true ∧ s.err.fatal = false) ∧
    (∀ p, 1 ≤ p → p ≤ 64 → (partition serving p).state = .idle) ∧
    (let e := forPart 0x62 []
     let s := onAq (partIn .run) e
     AqTurn s 0 0x62 e ∧ entryByte e 0x10 = 0 ∧ zeroField e 0x11 47 = true ∧ preEnabled s = true ∧
       mirrored s 3 = false ∧ freezeWaits s e = false) ∧
    (let e := forPart 0x62 []
     let s := { onAq (partIn .run) e with
       grids := [(1, { Grid.none with state := .running, part := 3 })]
       groups := [(1, { Group.none with grid := 1, threads := [0] })]
       threads := [(0, { readyThread [] with ops := [flying .get 0] })] }
     AqTurn s 0 0x62 e ∧ freezeWaits s e = true) ∧
    (let e := forPart 0x62 [(0x10, [1])]
     let s := onAq (partIn .frozen) e
     AqTurn s 0 0x62 e ∧ entryByte e 0x10 = 1 ∧ zeroField e 0x11 47 = true ∧
       (partition s 3).state = .frozen) := by
  refine ⟨by decide +kernel, by decide +kernel, fun p h _ => ?_, by decide +kernel, by decide +kernel,
    by decide +kernel⟩
  simp [partition, serving, State.reset, tget]
  rw [if_neg (by omega)]
  rfl

theorem witness_part_save :
    let e := forPart 0x63 [(0x10, leBytes 8 0x100000), (0x18, leBytes 8 4096)]
    let s := onAq (partIn .frozen) e
    AqTurn s 0 0x63 e ∧ zeroField e 0x20 32 = true ∧ (partition s (aqPart e)).state = .frozen ∧
      (saveImage s (aqPart e)).length ≤ entryField e 0x18 8 ∧
      imageRangeOk s (entryField e 0x10 8) (saveImage s (aqPart e)).length = true := by
  decide +kernel

/-- The first 28 bytes of the header of a save image without sections, and 28 more. -/
def imageStart : List Byte :=
  leBytes 4 0x56534750 ++ leBytes 4 1 ++ leBytes 8 256 ++ leBytes 8 0 ++ leBytes 4 3
def z : List Byte := leBytes 28 0

/-- A save image of a partition that holds nothing; its check bytes are those of a CRC-32C reckoned by
hand. -/
def emptyImage : List Byte :=
  (imageStart ++ z ++ z ++ z ++ z ++ z ++ z ++ z ++ z) ++ leBytes 4 0x095019CD

theorem emptyImage_crc :
    crc32c (imageStart ++ z ++ z ++ z ++ z ++ z ++ z ++ z ++ z) = 0x095019CD#32 := by
  have h0 : imageStart.foldl crcByte (BitVec.allOnes 32) = 0x61c156ed#32 := by decide +kernel
  have h1 : z.foldl crcByte (0x61c156ed#32) = 0x4c25b3cd#32 := by decide +kernel
  have h2 : z.foldl crcByte (0x4c25b3cd#32) = 0x26cc150a#32 := by decide +kernel
  have h3 : z.foldl crcByte (0x26cc150a#32) = 0xa0eced6b#32 := by decide +kernel
  have h4 : z.foldl crcByte (0xa0eced6b#32) = 0xb17b1d8b#32 := by decide +kernel
  have h5 : z.foldl crcByte (0xb17b1d8b#32) = 0x8befd317#32 := by decide +kernel
  have h6 : z.foldl crcByte (0x8befd317#32) = 0xa1f90dbd#32 := by decide +kernel
  have h7 : z.foldl crcByte (0xa1f90dbd#32) = 0x9013cc6d#32 := by decide +kernel
  have h8 : z.foldl crcByte (0x9013cc6d#32) = 0xf6afe632#32 := by decide +kernel
  unfold crc32c
  simp only [List.foldl_append, h0, h1, h2, h3, h4, h5, h6, h7, h8]
  decide

theorem emptyImage_form : emptyImage.length = 256 ∧ imgField emptyImage 0 4 = 0x56534750 ∧
    imgField emptyImage 4 2 = 1 ∧ imgField emptyImage 8 8 = 256 ∧
    imgField emptyImage 0xFC 4 = 0x095019CD ∧ imgField emptyImage 6 2 = 0 ∧
    imgField emptyImage 0x18 1 = 3 ∧ imgField emptyImage 0x1C 2 = 0 := by
  decide +kernel

theorem emptyImage_sections : readImage emptyImage = some [] := by
  obtain ⟨h1, h2, h3, h4, h5, h6, -, -⟩ := emptyImage_form
  have hc : emptyImage.take 0xFC = imageStart ++ z ++ z ++ z ++ z ++ z ++ z ++ z ++ z :=
    List.take_left' (by decide +kernel)
  unfold readImage
  rw [hc, emptyImage_crc, h1, h2, h3, h4, h5, List.drop_eq_nil_of_le (by rw [h1])]
  have hz : [(0x19, 3), (0x1E, 2), (0x24, 4), (0x38, 196)].any (fun z =>
      ((emptyImage.drop z.1).take z.2).any fun b => b != 0) = false := by decide +kernel
  simp only [hz]
  simp [readSections, h6]

/-- What a save image without sections holds. -/
def emptyData : ImgData :=
  { part := 3, rbase := 0, grids := [], groups := [], rings := [], syncs := [], qps := [], keys := []
    bushel := [], binds := [], descs := [], faults := [] }

theorem no_sections (bs : List Byte) (h : readImage bs = some []) (h1 : imgField bs 0x18 1 = 3)
    (h2 : imgField bs 0x1C 2 = 0) : imgData bs = some emptyData := by
  unfold imgData
  rw [h]
  simp [secRecs, secOf, cutRecs, h1, h2, imgRangesOk, imgZerosOk, emptyData]

theorem emptyImage_read : imgData emptyImage = some emptyData := by
  obtain ⟨-, -, -, -, -, -, h1, h2⟩ := emptyImage_form
  exact no_sections emptyImage emptyImage_sections h1 h2

theorem witness_part_restore :
    let e := forPart 0x64 [(0x10, leBytes 8 0x100000), (0x18, leBytes 8 256)]
    let s := onAq { partIn .run with
      mem := [(0x100000, 0x50), (0x100001, 0x47), (0x100002, 0x53), (0x100003, 0x56), (0x100004, 1)
              , (0x100009, 1), (0x100018, 3), (0x1000FC, 0xCD), (0x1000FD, 0x19), (0x1000FE, 0x50)
              , (0x1000FF, 9)] } e
    AqTurn s 0 0x64 e ∧ zeroField e 0x24 28 = true ∧ aqPart e ≤ 64 ∧ 256 ≤ entryField e 0x18 8 ∧
      imageRangeOk s (entryField e 0x10 8) (entryField e 0x18 8) = true ∧
      (readMem s 0x100000 256).1 = false ∧ (readMem s 0x100000 256).2.1 = emptyImage ∧
      (imgData emptyImage).any (fun d =>
        let m : ImgMap := { p := 3, rbase := d.rbase, sdelta := 0 }
        !restoreBounds s m d && !restoreQuota s m d) = true := by
  rw [emptyImage_read]
  decide +kernel

/-- An SQ and a CQ of partition 0. -/
def qpRings : State :=
  { partIn .run with rings := [(0x200, runRing 1), (0x201, runRing 2)] }

theorem witness_queue_pair_and_key :
    (let e := entryWith 0x50 [(0x10, leBytes 4 9), (0x14, leBytes 2 0x200), (0x16, leBytes 2 0x201)]
     let s := onAq qpRings e
     AqTurn s 0 0x50 e ∧ mirrorFull s 0 = false ∧ qpCreateBad e = false ∧ standbyBusy s 0 = false ∧
       (qp s (qpKey 0 9)).state = .none ∧ 9 < (partition s 0).qpQ ∧ (ring s 0x200).typ = 1 ∧
       (ring s 0x200).state ≠ .idle ∧ (ring s 0x201).state ≠ .idle ∧ (ring s 0x200).part = 0 ∧
       (ring s 0x201).part = 0 ∧ (ring s 0x201).typ = 2 ∧
       entryField e 0x18 8 = 0 ∧ qpCreateBad (entryWith 0x50 [(0x22, [1])]) = true) ∧
    (∀ x ∈ [(16, QpState.drain), (20, .rts)], let e := entryWith 0x51 [(0x10, leBytes 4 (x.1 * 2 ^ 22 + 5))]
     let s := onAq (withQp serving { rtsQp with state := x.2 }) e
     AqTurn s 0 0x51 e ∧ entryField e 0x10 4 / 2 ^ 22 = x.1 ∧ zeroField e 0x14 44 = true ∧
       mirrorFull s 0 = false ∧ (qp s (qpKey 0 (entryField e 0x10 4 % 2 ^ 22))).state = x.2) ∧
    (∀ st ∈ [QpState.init, .rts], let e := entryWith 0x52 [(0x10, leBytes 4 5)]
     let s := onAq (withQp serving { rtsQp with state := st }) e
     AqTurn s 0 0x52 e ∧ zeroField e 0x14 44 = true ∧ mirrorFull s 0 = false ∧
       (qp s (qpKey 0 (entryField e 0x10 4))).state = st) ∧
    (let e := entryWith 0x53 [(0x10, leBytes 4 9), (0x20, leBytes 8 4096), (0x28, [1])]
     let s := onAq qpRings e
     AqTurn s 0 0x53 e ∧ mirrorFull s 0 = false ∧ keyRegisterBad e = false ∧
       9 < (partition s 0).keyQ ∧ (memKey s 0 9).live = false ∧ standbyBusy s 0 = false ∧
       entryByte e 0x28 < 8 ∧ (rangeOk s 0 0 0 4096 false).1 = true) ∧
    (let e := entryWith 0x54 [(0x10, leBytes 4 9)]
     let s := onAq (setMemKey serving 0 9 { KeyEntry.none with live := true, gen := 1 }) e
     AqTurn s 0 0x54 e ∧ zeroField e 0x14 44 = true ∧ mirrorFull s 0 = false ∧
       (memKey s 0 9).live = true) := by
  refine ⟨?_, ?_, ?_, ?_, ?_⟩ <;> decide +kernel

/-! The transport. -/

/-- A transport entry for queue pair 5 with these bits beside the number: one byte of data, or an operand
of 1 for ENABLE. -/
def workEntry (op extra : Nat) : RingEntry :=
  entryWith op ((0x10, leBytes 4 (5 + extra)) ::
    (if extra = 0 then [] else [(0x38, leBytes 8 (if extra = 2 ^ 22 then 5 else 0x200))]) ++
    (if op ≤ 0x13 then [(0x28, leBytes 4 1)] else if op = 0x17 then [(0x30, leBytes 8 1)] else []))

/-- That entry at the head of SQ 0x200, with queue pair 5. -/
def working (e : RingEntry) (q : Qp) : State := withQp (headed 1 e) q

/-- Every entry ungated, on a queue pair that takes it, one in ERROR and one not on the die; all but
ATOMIC_CAS also with an ENABLE gate; and one that is malformed. -/
theorem witness_sq_commands_start :
    (∀ op ∈ [0x10, 0x11, 0x12, 0x13, 0x14, 0x15, 0x16, 0x17], let e := workEntry op 0
      AtHead (working e rtsQp) 0x200 e ∧ entryOpcode e = op ∧ (ring (working e rtsQp) 0x200).typ = 1 ∧
        e.gated = false ∧ sqBad e = false ∧ entryGate e = 0 ∧
        qpTakes (working e rtsQp) 5 (wireOp op) = .take ∧
        qpTakes (working e { rtsQp with state := .error }) 5 (wireOp op) = .fail 0x01 ∧
        qpTakes { working e rtsQp with firkin := Firkin.reset } 5 (wireOp op) = .wait) ∧
    (∀ op ∈ [0x10, 0x11, 0x12, 0x13, 0x14, 0x16], let e := workEntry op (2 ^ 22)
      AtHead (working e rtsQp) 0x200 e ∧ sqBad e = false ∧ entryGate e = 1 ∧
        qpTakes (working e rtsQp) 5 (wireOp op) = .take ∧
        gateState (working e rtsQp) 0x200 e = .closed) ∧
    (let e := workEntry 0x11 (2 ^ 26)
     AtHead (working e rtsQp) 0x200 e ∧ sqBad e = true) := by
  unfold AtHead
  decide +kernel

/-- A gated entry: its gate is open, and its time has just passed. -/
theorem witness_gate_and_transmit :
    (∀ g ∈ [1, 2], let e := { workEntry 0x10 (g * 2 ^ 22) with gated := true }
      let s := working e { rtsQp with enable := 1, mode := 1 }
      (ring s 0x200).taken.head? = some e ∧ headReady s 0x200 e = true ∧ gateExpired s e = false ∧
        gateState s 0x200 e = .open_ ∧ entryGate e = g ∧
        qpTakes s (sqQp s 0x200 e) (wireOp (entryOpcode e)) = .take) ∧
    (let e := { entryWith 0x10 [(0x10, leBytes 4 (5 + 2 ^ 22)), (0x38, [5]), (0x3E, leBytes 2 2)] with gated := true }
     let s := { working e rtsQp with clocks := [(1, 48000)] }
     (ring s 0x200).taken.head? = some e ∧ headReady s 0x200 e = true ∧ gateExpired s e = true ∧
       bits (gateWord e) 48 16 = 2) ∧
    (let s := submit (withQp serving rtsQp) 5 (.thread 0 0) 0x02 0 0 0 8 0 0 (some (leBytes 8 1))
     readyLen s 5 = some 106 ∧ (nextPkt s 5).isSome = true ∧ (partTurn s 0 0 0 106 64).1 = true) := by
  decide +kernel

/-- A packet with a header and payload, at the address of XPT_ADDR entry 0. -/
def packetWith (h : Pth) (payload : List Byte) : Packet :=
  { port := 0, src := 0xFFFF00000002, dst := 0xFFFF00000001, bytes := pthBytes h ++ payload }

/-- The same with a plain header of an opcode for queue pair 5. -/
def packetOf (ver op : Nat) (payload : List Byte) : Packet := packetWith (Pth.plain ver op 5) payload

/-- A packet has arrived in `s`, which has XPT_ADDR entry 0, a page table and key 9 of 4,096 B with
every right. -/
def into (s : State) (p : Packet) : State :=
  { mapped s with
    arrived := [{ p with time := 0, bad := false }]
    parts := [(0, { Partition.idle with state := .run, keyQ := 10 })]
    keys := [(9, { KeyEntry.none with live := true, gen := 1, length := 4096, rights := 15 })]
    regs := [(xptAddrLo 0, 1), (xptAddrCtl 0, 0x18000), (xuCtxtBase 0, 0x10020)] }

/-- The same with queue pair 5. -/
def received (p : Packet) (q : Qp) : State := into (withQp serving q) p

/-- What the parser reads of a packet. -/
def hdr (p : Packet) : Pth := ((parsePth p.bytes).map fun x => x.1).getD (Pth.plain 0 0 0)
def body (p : Packet) : List Byte := ((parsePth p.bytes).map fun x => x.2.1).getD []
def tagBytes (p : Packet) : List Byte := ((parsePth p.bytes).map fun x => x.2.2).getD []

/-- The one arrival of `into`. -/
def arr (p : Packet) : Arrival := { p with time := 0, bad := false }

/-- The state in which a packet for queue pair 5 reaches its handler. -/
def inHandler (s : State) (p : Packet) : State :=
  let s0 := { s with arrived := s.arrived.erase (arr p) }
  if isConnOp (hdr p).op then fkTouch s0 5
  else
    let s3 := fkTouch (checkTag s0 5 (hdr p) p (tagBytes p)).2 5
    if (qp s3 5).state = .rts ∨ (qp s3 5).state = .drain then s3 else enterRts s3 5

/-- A packet for queue pair 5 of partition 0 reaches the handler of an opcode. -/
def arrives (s : State) (p : Packet) (op : Nat) : Bool :=
  let h := hdr p
  s.arrived.find? (fun x => x.toPacket == p) == some (arr p) && !s.err.fatal &&
    (parsePth p.bytes).isSome && targetPart s p == some 0 && h.qpn == 5 && h.op == op &&
    (!isAnswerOp op || !answerAhead s 5 (arr p)) && !answerWaits s 5 h && fkCached s 5 &&
    stateAccepts (qp s 5) h &&
    (isConnOp op || (h.ver == (qp s 5).version &&
      (checkTag { s with arrived := s.arrived.erase (arr p) } 5 h p (tagBytes p)).1))

theorem arrives_spec (s : State) (p : Packet) (op : Nat) (h : arrives s p op = true) :
    Arrives s p op 5 (arr p) (hdr p) (body p) (inHandler s p) := by
  simp only [arrives, Bool.and_eq_true, beq_iff_eq, Bool.or_eq_true, Bool.not_eq_true'] at h
  obtain ⟨⟨⟨⟨⟨⟨⟨⟨⟨⟨h1, h2⟩, h3⟩, h4⟩, h5⟩, h6⟩, h7⟩, h8⟩, h9⟩, h10⟩, h11⟩ := h
  have hp : parsePth p.bytes = some (hdr p, body p, tagBytes p) := by
    unfold hdr body tagBytes
    cases hq : parsePth p.bytes with
    | none => rw [hq] at h3; cases h3
    | some x => rfl
  refine ⟨tagBytes p, 0, (checkTag { s with arrived := s.arrived.erase (arr p) } 5 (hdr p) p
    (tagBytes p)).2, h1, rfl, h2, hp, h4, by rw [h5]; rfl, h6, ?_, h8, h9, h10, ?_⟩
  · intro h; rcases h7 with h7 | h7
    · rw [h] at h7; cases h7
    · exact h7
  · rw [← h6] at h11 ⊢
    by_cases hc : isConnOp (hdr p).op = true
    · simp only [inHandler, hc, if_true]
    · simp only [hc, Bool.false_eq_true, false_or] at h11
      simp only [inHandler, hc, Bool.false_eq_true, if_false]
      exact ⟨h11.1, Prod.ext h11.2 rfl, trivial⟩

/-- A packet of every opcode, of the least length that R192 allows. -/
theorem witness_arrivals :
    (∀ x ∈ [(1, 0x01, 1), (1, 0x02, 1), (1, 0x03, 0), (1, 0x04, 0), (1, 0x05, 1), (1, 0x06, 8)
            , (1, 0x07, 16), (1, 0x08, 8), (2, 0x09, 8), (2, 0x0A, 0), (1, 0x10, 0), (1, 0x11, 0)
            , (1, 0x12, 0), (1, 0x20, 32), (1, 0x21, 32), (1, 0x22, 32), (1, 0x23, 32), (1, 0x24, 32)
            , (2, 0x28, 32), (2, 0x29, 32), (3, 0x30, 1), (3, 0x31, 0), (3, 0x32, 8), (3, 0x33, 16)
            , (3, 0x34, 16), (3, 0x38, 1), (3, 0x39, 0), (3, 0x3A, 1)],
      let p := packetOf x.1 x.2.1 (leBytes x.2.2 0)
      let s := received p { rtsQp with version := x.1 }
      arrives s p x.2.1 = true ∧ fkCached { s with firkin := Firkin.reset } 5 = false) ∧
    stateAccepts Qp.none (Pth.plain 1 2 5) = false ∧
    (stateAccepts rtsQp (Pth.plain 1 2 5) = true ∧ isConnOp 2 = false ∧ 1 ≠ rtsQp.version) ∧
    (psnClass rtsQp 0 = .new ∧ psnClass rtsQp 0xFFFFFFFF = .dup ∧ psnClass rtsQp 64 = .outside) := by
  decide +kernel

/-- A request of version 2 with its opcode area, alone in its message. -/
def request2 (op : Nat) (key aux : BitVec 32) (off : Word) : Pth :=
  { Pth.plain 2 op 5 with first := true, last := true, key := key, aux := aux, off := off }

/-- New requests that pass their checks. -/
theorem witness_requests :
    (let p := packetWith (request2 0x01 0 7 0) [1]
     let s := received p { rtsQp with rbase := 0x1000, rlog2n := 4, rlog2sz := 12 }
     let s1 := inHandler s p
     arrives s p 0x01 = true ∧ psnClass (qp s1 5) (hdr p).psn = .new ∧ mirrorFull s1 0 = false ∧
       slotBusy (qp s1 5) 0 = false ∧ cqBlocked s1 (qp s1 5).rcq = false ∧
       (place s1 0 0 0x1000 [1]).1.toOption = some ()) ∧
    (∀ op ∈ [0x02, 0x03], let p := packetWith (request2 op 0x1000009 7 4095) [1]
     let s := received p rtsQp
     let s1 := inHandler s p
     arrives s p op = true ∧ psnClass (qp s1 5) (hdr p).psn = .new ∧ mirrorFull s1 0 = false ∧
       (keyCheck s1 5 (hdr p) 1 1).toOption.isSome = true ∧ cqBlocked s1 (qp s1 5).rcq = false ∧
       (place s1 0 0 4095 [1]).1.toOption = some ()) ∧
    (let p := packetWith (request2 0x04 0x1000009 4096 0) []
     let s := received p rtsQp
     let s1 := inHandler s p
     arrives s p 0x04 = true ∧ psnClass (qp s1 5) (hdr p).psn = .new ∧ mirrorFull s1 0 = false ∧
       (keyCheck s1 5 (hdr p) 0 4096).toOption.isSome = true ∧
       (chunks s1 .fabric fabricUnit 0 0 0 4096 false (pageSpan 0 4096)).1.toOption.isSome = true) := by
  refine ⟨?_, ?_, ?_⟩ <;> decide +kernel

theorem witness_atomics_and_signals :
    (∀ x ∈ [(0x06, 8), (0x07, 16)], let p := packetWith (request2 x.1 0x1000009 0 8) (leBytes x.2 0)
     let s := received p rtsQp
     let s1 := inHandler s p
     let f := frameOf s1 fabricUnit 0 0 8
     let a := access f.2 .fabric fabricUnit 0 0 8 true
     arrives s p x.1 = true ∧ psnClass (qp s1 5) (hdr p).psn = .new ∧ mirrorFull s1 0 = false ∧
       (keyCheck s1 5 (hdr p) 2 8).toOption.isSome = true ∧
       f.1.any (fun x => regionOf x == .hostMem) = false ∧ a.1.toOption = some 8 ∧
       (readMem a.2 8 8).1 = false) ∧
    (let p := packetWith (request2 0x09 0x1000009 0 8) (beBytes 8 1)
     let s := { received p rtsQp with
       tlb := [{ pageEntry true 0x010100000000 with unit := fabricUnit }]
       syncs := [(1, { SyncObj.free with state := .live, count := 3, anyCtx := true })] }
     let s1 := inHandler s p
     let a := access s1 .sync fabricUnit 0 0 8 true
     arrives s p 0x09 = true ∧ psnClass (qp s1 5) (hdr p).psn = .new ∧ mirrorFull s1 0 = false ∧
       (keyCheck s1 5 (hdr p) 3 8).toOption.isSome = true ∧ a.1.toOption = some 0x010100000008 ∧
       (signalObj a.2 0 0 false (syncIndex 0x010100000008) 1).1 = .applied) ∧
    (let p := packetWith (request2 0x0A 0 65535 0) []
     let s := received p rtsQp
     let s1 := inHandler s p
     arrives s p 0x0A = true ∧ psnClass (qp s1 5) (hdr p).psn = .new ∧ mirrorFull s1 0 = false ∧
       (qp s1 5).enable + (hdr p).aux.toNat ≤ 65535) := by
  refine ⟨?_, ?_, ?_⟩ <;> decide +kernel

/-- Queue pair 5 after an operation of one packet has been sent. -/
def sentOp (op len : Nat) : Qp :=
  let q := (qp (submit (withQp serving { rtsQp with nxt := 1 }) 5 (.thread 0 0) op 0 0 0 len 0 0
    (some (leBytes len 1))) 5)
  { q with timer := some 0, retry := 7
           ops := q.ops.map fun o => { o with first := some 0, sent := 1, npsn := 1 } }

theorem witness_answers :
    (∀ x ∈ [(0x05, 0x04), (0x08, 0x06), (0x08, 0x07)],
     let p := packetWith (request2 x.1 0 0 0) (leBytes 8 1)
     let s := received p (sentOp x.2 8)
     let s1 := inHandler s p
     arrives s p x.1 = true ∧ (ownerOp (qp s1 5) 0).any (fun o => !o.stalled && o.src != .none &&
       o.op == x.2 && (placeResp s1 5 o 0 [1]).1.toOption == some ()) = true ∧
       psnDone (qp s1 5) 0 = false) ∧
    (let p := packetWith (request2 0x10 1 0 0) []
     let s1 := inHandler (received p (sentOp 0x02 8)) p
     arrives (received p (sentOp 0x02 8)) p 0x10 = true ∧ sackBlocks (hdr p) [] = [] ∧
       answerBad (qp s1 5) 1 (sackBlocks (hdr p) []) = false) ∧
    (let p := packetWith (request2 0x10 0 0 0x100000000) []
     let s1 := inHandler (received p (sentOp 0x02 8)) p
     arrives (received p (sentOp 0x02 8)) p 0x10 = true ∧ sackBlocks (hdr p) [] = [(0, 1)] ∧
       answerBad (qp s1 5) 0 (sackBlocks (hdr p) []) = false) ∧
    (∀ op ∈ [0x11, 0x12], let p := packetWith (request2 op 0 0 0x0000000103000000) []
     let s := received p (sentOp 0x02 8)
     let s1 := inHandler s p
     let s2 := takeAnswer s1 5 (hdr p)
     arrives s p op = true ∧ bits (hdr p).off 32 16 = 1 ∧ answerBad (qp s1 5) 0 [(0, 1)] = false ∧
       psnDone (qp s2 5) 0 = false ∧ (ownerOp (qp s2 5) 0).any (fun o => o.src != .none) = true ∧
       (qp s2 5).rnrUntil = none) := by
  refine ⟨?_, ?_, ?_, ?_⟩ <;> decide +kernel

/-- What a peer says of itself in a connection message. -/
def peerSays (connid : Word) : ConnMsg :=
  { vmask := 6, version := 2, mtu := 4096, sqpn := 9, ipsn := 0, window := 64, tag := false, reason := 0
    connid := connid }

theorem witness_connection_messages :
    (let p := packetOf 1 0x20 (connBytes (peerSays 7))
     let s := received p { Qp.none with state := .listen, vmask := 6, rqpn := 0x3FFFFF }
     let s1 := inHandler s p
     arrives s p 0x20 = true ∧ (qp s1 5).state = .listen ∧ (qp s1 5).repSent = false ∧
       listenMatches (qp s1 5) (arr p) (connOf (body p)) = true ∧
       (answerOf (qp s1 5) (connOf (body p))).toOption = some 2) ∧
    (∀ x ∈ [(0x21, QpState.connecting, false), (0x22, .listen, true), (0x23, .connecting, false)
            , (0x24, .rts, false)],
     let p := packetOf 1 x.1 (connBytes (peerSays 7))
     let s := received p { rtsQp with state := x.2.1, vmask := 6, connid := 7, repSent := x.2.2 }
     let s1 := inHandler s p
     let c := connOf (body p)
     arrives s p x.1 = true ∧ (qp s1 5).connid = c.connid ∧ (qp s1 5).state = x.2.1 ∧
       (qp s1 5).passive = false ∧ 1 ≤ c.version ∧ c.version ≤ 3 ∧
       (qp s1 5).vmask.getLsbD c.version = true ∧ ((qp s1 5).tagReq || c.tag) = false ∧
       (x.1 = 0x22 → repOut (qp s1 5) = true)) ∧
    (∀ op ∈ [0x28, 0x29], let p := packetOf 2 op (migBytes 1 7 3 9)
     let s := received p { rtsQp with migrating := true, connid := 7, mseq := 3, mseqIn := 2, rqpn := 9 }
     let s1 := inHandler s p
     arrives s p op = true ∧ migMatches (qp s1 5) (body p) = true ∧
       (qp s1 5).mseqIn.toNat < beField (body p) 24 4 ∧ (qp s1 5).migrating = true ∧
       beField (body p) 24 4 = (qp s1 5).mseq.toNat) := by
  refine ⟨?_, ?_, ?_⟩ <;> decide +kernel

theorem witness_context_fetch :
    (let s := { withQp serving rtsQp with firkin := { Firkin.reset with wanted := [(5, 8)] } }
     s.firkin.wanted.find? (fun x => x.1 == qpKey 0 5) = some (5, 8) ∧
       fkWays s (fkSet (qpKey 0 5)) < 16) ∧
    (let s := { withQp serving rtsQp with firkin := { Firkin.reset with fetching := [(5, 8)] } }
     s.firkin.fetching.any (fun x => x.1 == qpKey 0 5) = true ∧ (qp s (qpKey 0 5)).state ≠ .none ∧
       s.linkUp = true ∧ (readMem s (qpStore s 0 + 512 * 5) 256).1 = false) := by
  decide +kernel

/-- A queue pair and its port's time, and the fabric clock's. -/
def atTime (q : Qp) (n f : Nat) : State := { withQp serving q with clocks := [(1, f), (8, n)] }

/-- An operation of one packet that has been sent. -/
def sentQp : Qp :=
  let q := { rtsQp with nxt := 1, timer := some 0, retry := 7 }
  { q with ops := (qp (submit (withQp serving q) 5 (.thread 0 0) 0x02 0 0 0 8 0 0
      (some (leBytes 8 1))) 5).ops.map fun o => { o with first := some 0, sent := 1 } }

/-- The last tick before which each timer is not due and some tick at which it is. -/
theorem witness_queue_pair_timers :
    (let s := atTime { rtsQp with ackTimer := some 0 } 1000000 0
     fkCached s 5 = true ∧ fkCached { s with firkin := Firkin.reset } 5 = false ∧
       (qp s (qpKey 0 5)).ackTimer = some 0 ∧ qpLive (qp s (qpKey 0 5)) = true ∧
       0 + ns64Ticks (max 1 (bits (reg s xptSr) 0 16)) ≤ portTime s (qp s (qpKey 0 5)).port) ∧
    (let s := atTime sentQp 15872 0
     let q := qp s 5
     let s1 := loseP s 5 q.una
     q.timer = some 0 ∧ qpLive q = true ∧ q.una ≠ q.nxt ∧ mirrorFull s 0 = false ∧
       s.arrived.any (answerFor s 5) = false ∧
       rtoOf s q ≤ ((evalTick (portTime s q.port) - 0 : Nat) : Rat) ∧ qpLive (qp s1 5) = true) ∧
    (let s := atTime { sentQp with rnrUntil := some 9, resend := [0] } 9 0
     (qp s 5).rnrUntil = some 9 ∧ 9 ≤ portTime s (qp s 5).port ∧ qpLive (qp s 5) = true ∧
       mirrorFull s 0 = false) ∧
    (let s := { atTime { rtsQp with tag := true, ikey := 3, lastTagged := 1 } (2 ^ 30) 0 with
       slots := [(3, { KeySlot.empty with tx := some { k256 := false, bytes := leBytes 16 1 } })] }
     let q := qp s 5
     qpLive q = true ∧ q.tag = true ∧ txKeyReady s 5 = true ∧
       q.lastTagged + 2 ^ 30 ≤ portTime s q.port + 1) ∧
    (∀ n ∈ [1, 200], let s := atTime { rtsQp with state := .connecting, connTimer := some (7, 7, n) } 0 7
      (qp s 5).connTimer = some (7, 7, n) ∧ (qp s 5).migrating = false ∧
        (qp s 5).state = .connecting ∧ 7 ≤ fdTime s ∧
        (qp s 5).repSent = false ∧ (if n = 1 then n < cmTries s else cmTries s ≤ n)) ∧
    (∀ n ∈ [1, 200], let s := atTime { rtsQp with migrating := true, connTimer := some (7, 7, n) } 0 7
      (qp s 5).connTimer = some (7, 7, n) ∧ (qp s 5).migrating = true ∧
        (qp s 5).state = .rts ∧ 7 ≤ fdTime s ∧
        txKeyReady s 5 = true ∧ n ≠ 0 ∧ (if n = 1 then n < cmTries s else cmTries s ≤ n)) := by
  decide +kernel

theorem witness_key_slot :
    (64 ≤ 64 ∧ 2047 < 2048 ∧ bar0 serving = true ∧ (keySlot serving (slotKey 64 2047)).bound = none) ∧
    (let s := setSlot serving (slotKey 64 2047) { KeySlot.empty with bound := some 5 }
     (keySlot s (slotKey 64 2047)).bound ≠ none) ∧
    (let x := { KeySlot.empty with prev := some { k256 := true, bytes := leBytes 32 1 } }
     let s := { setSlot serving (slotKey 0 0) x with clocks := [(8, 2 ^ 30)] }
     keySlot s (slotKey 0 0) = x ∧ x.prev ≠ none ∧
       x.prevAt + 2 ^ 30 ≤ portTime s (slotPort s 0 x)) := by
  decide +kernel

/-! Bushel and Carder. -/

/-- A member of a group of two, at rank 1, whose CMQ is 0x200. -/
def member : BshGroup :=
  { BshGroup.none with
    cmq := 0x200, rank := 1, nx := 2, ny := 1, nz := 1, stall := 1, qps := [some 5, some 5, none, none, none, none] }

/-- A run of its first generation. -/
def aRun (phase attempt : Nat) (tainted : Bool) : BshRun :=
  { gen := 0, entry := entryWith 0x23 [], attempt := attempt, phase := phase, stage := 0, data := []
    map := [], expo := 0, staged := [], taken := [], sent := [], eaten := [], ups := [], upSent := false
    result := none, jobs := [], taints := [], tainted := tainted, status := 0, orank := 0, reason := 0
    bytes := 0, lastRx := 0, preAt := some 0, preStep := 0, preMark := 0, paused := false, oper := none }

/-- A GROUP_CREATE of the last group id. -/
def groupEntry : RingEntry :=
  entryWith 0x58 [(0x10, leBytes 2 4095), (0x12, leBytes 2 0x200), (0x14, leBytes 2 1)
    , (0x16, leBytes 2 2), (0x18, leBytes 2 1), (0x1A, leBytes 2 1), (0x1C, leBytes 4 65535)
    , (0x20, leBytes 4 (2 ^ 31 + 5)), (0x24, leBytes 4 (2 ^ 31 + 5))]

/-- An entry of a CMQ with its element count, its formats and its root; inline where `ext` is 1. -/
def cmqEntry (op ext count fmts root : Nat) : RingEntry :=
  { entryWith op [] with
    bytes := bytesWith 128 ([(0, leBytes 1 op), (2, leBytes 1 ext)
      , (0x18, leBytes 8 (if count = 0 then 0 else 0x8000)), (0x20, leBytes 4 count)
      , (0x24, leBytes 1 fmts), (0x26, leBytes 2 root)]) }

/-- Queue pair 5 of version 3 in the traffic class of Bushel. -/
def qp3 : Qp := { rtsQp with version := 3, tc := bits (reg serving bshCtl) 8 3 }

theorem witness_bushel :
    (∀ op ∈ [0x20, 0x21, 0x22, 0x23, 0x24, 0x25, 0x26], let e := entryWith op []
      let s := headed 6 e
      AtHead s 0x200 e ∧ entryOpcode e = op ∧ (ring s 0x200).typ = 6 ∧ cmqGroup s 0x200 = none ∧
        (let s := setBsh s 7 member
         cmqGroup s 0x200 = some 7 ∧ (bshGroup s 7).run = none ∧ bshRunning s < 8 ∧
           (partition s (ring s 0x200).part).state ≠ .preempted)) ∧
    (∀ e ∈ [cmqEntry 0x20 0 32 0 0, cmqEntry 0x21 1 32 0 0, cmqEntry 0x22 1 16 0 1
            , cmqEntry 0x22 0 16 0 0, cmqEntry 0x23 0 0 0 0, cmqEntry 0x24 1 8 0 0
            , cmqEntry 0x25 0 0 0 0, cmqEntry 0x26 1 8 0 0],
      let s := { setBsh (withQp (mapped (headed 6 e)) qp3) 7 member with
        regs := [(xuCtxtBase 0, 0x10020)] }
      let s0 := consumeHead s 0x200
      let g := bshGroup s0 7
      let d := bshInput s0 g e
      let bs := d.1.toOption.getD []
      let map := if entryOpcode e = 0x26 then clearTail (bshCount e) bs else bs
      let b := if entryOpcode e = 0x26 then sparseBlocks d.2 g e map else (.ok [], d.2)
      AtHead s 0x200 e ∧ (ring s 0x200).typ = 6 ∧ cmqGroup s 0x200 = some 7 ∧ g.broken = false ∧
        g.aborted.find? (fun x => x.1 == g.gen) = none ∧ bshBad s0 g e = false ∧
        bshQpsUp s0 g = true ∧ d.1.toOption.isSome = true ∧ b.1.toOption.isSome = true ∧
        (readOper b.2 e).1.toOption.isSome = true) ∧
    (let e := groupEntry
     let g := gcGroup 0 e
     let s := onAq { withQp serving qp3 with rings := [(0x200, runRing 6)] } e
     let s1 := setBsh (pinAll s (g.qps.filterMap fun o => o.map (qpKey 0))) 4095 g
     AqTurn s 0 0x58 e ∧ aqPart e = 0 ∧ entryField e 0x10 2 = 4095 ∧
     gcBad e g = false ∧ bshGroup s (entryField e 0x10 2) = BshGroup.none ∧ (ring s g.cmq).typ = 6 ∧
       (ring s g.cmq).state = .run ∧ (ring s g.cmq).part = 0 ∧ cmqGroup s g.cmq = none ∧
       g.qps = [some 5, some 5, none, none, none, none] ∧ (qp s (qpKey 0 5)).state = .rts ∧
       (qp s (qpKey 0 5)).tc = bits (reg s bshCtl) 8 3 ∧ 3 ≤ (qp s (qpKey 0 5)).version ∧
       fkCanPin s (g.qps.filterMap fun o => o.map (qpKey 0)) = true ∧
       (s1.firkin.pinned.drop s.firkin.pinned.length).all (fkCached s) = true) ∧
    (let e := entryWith 0x59 [(0x10, leBytes 2 4095)]
     let s := onAq (setBsh (withQp serving qp3) 4095 member) e
     let g := bshGroup s 4095
     let s1 := setBsh (fkUnpin (finishTaken (bshAbort s 4095 0x01 7 g.rank none) g.cmq 0x01)
       (g.qps.filterMap fun o => o.map (qpKey 0))) 4095 BshGroup.none
     AqTurn s 0 0x59 e ∧ aqPart e = 0 ∧ entryField e 0x10 2 = 4095 ∧ zeroField e 0x12 46 = true ∧
       g ≠ BshGroup.none ∧ g.part = 0 ∧
       (s1.firkin.pinned.drop s.firkin.pinned.length).all (fkCached s) = true) ∧
    (∀ r ∈ [aRun 8 0 true, aRun 8 1 true, aRun 8 0 false, aRun 1 0 false],
      let s := { setBsh serving 7 { member with run := some r } with clocks := [(1, 1500000)] }
      (bshGroup s 7).run = some r ∧ r.lastRx + (bshGroup s 7).stall * 1500000 ≤ fdTime s ∧
        r.preAt = some 0 ∧ r.paused = false ∧ 0 + 300000 ≤ fdTime s) := by
  unfold AtHead
  refine ⟨?_, ?_, ?_, ?_, ?_⟩ <;> decide +kernel

/-- A binding of SQ 0x200 with one expert of another rank, and one sequence tag, 9. -/
def aBind : CrdBind :=
  { sq := 0x200, part := 0, ctx := 0, rank := 0, tagbase := 9, tagcnt := 1, tsz := 1, stall := 1
    experts := [{ cap := 4, erank := 1, group := 0, valid := true }], ranks := [0, 5], hosts := [] }

/-- The device with that binding and tag. -/
def bound (e : RingEntry) (t : CrdTag) : State :=
  { headed 1 e with regs := [(crdProg, 0x8000000000000000)], binds := [aBind], tags := [(9, t)] }

/-- A choice of token 0 whose output is missing. -/
def aChoice : CrdChoice :=
  { tok := 0, num := 0, expert := 0, pos := 0, assigned := true, rerouted := false, failed := false
    gate := 0 }

theorem witness_carder :
    (let e := entryWith 0x30 [(0x10, leBytes 2 9), (0x12, leBytes 2 16384), (0x14, [1])]
     let s := bound e CrdTag.free
     AtHead s 0x200 e ∧ (ring s 0x200).typ = 1 ∧ entryOpcode e = 0x30 ∧ sqBind s 0x200 = some aBind ∧
       sqBind (headed 1 e) 0x200 = none ∧ crdInstalled s = true ∧ dispatchBad aBind e = false ∧
       crdTagOk aBind (crdTagOf e) = true ∧ (crdTag s (crdTagOf e)).inUse = false ∧
       crdRunning s < 16 ∧ (∀ x ∈ hostedAt aBind aBind.rank, bufferHeld s aBind (crdTagOf e) x = false) ∧
       crdHeld s aBind = false) ∧
    (let e := entryWith 0x31 [(0x10, leBytes 2 9), (0x12, leBytes 2 1)]
     let t := { CrdTag.free with inUse := true, sq := 0x200, ntok := 1 }
     let s := bound e t
     AtHead s 0x200 e ∧ entryOpcode e = 0x31 ∧ sqBind s 0x200 = some aBind ∧ crdInstalled s = true ∧
       crdTagOk aBind (crdTagOf e) = true ∧ (crdTag s (crdTagOf e)).inUse = true ∧
       (crdTag s (crdTagOf e)).comb = none ∧ (crdTag s (crdTagOf e)).disp = none ∧ crdRunning s < 16 ∧
       crdHeld s aBind = false ∧
       combineBad aBind e ((crdTag s (crdTagOf e)).ntok, (crdTag s (crdTagOf e)).route) = false) ∧
    (let e := entryWith 0x30 []
     let s := bound e { CrdTag.free with inUse := true, disp := some e, comb := some e }
     sqBind s 0x200 = some aBind ∧ (crdTag s 9).disp = some e ∧ (crdTag s 9).comb = some e ∧
       crdTagOk aBind 9 = true ∧ crdOutstanding s aBind e = false ∧ missing aBind (crdTag s 9) = []) ∧
    (let e := entryWith 0x31 []
     let s := { bound e { CrdTag.free with inUse := true, comb := some e, choices := [aChoice] } with
       clocks := [(1, 1500000)] }
     missing aBind (crdTag s 9) ≠ [] ∧ (crdTag s 9).startedAt + aBind.stall * 1500000 ≤ fdTime s) ∧
    (let e := entryWith 0x5A [(0x10, leBytes 2 0x200), (0x38, [1])]
     let s := onAq (bound e CrdTag.free) e
     let s1 := (bindTags aBind).foldl (fun s t => setTag s t CrdTag.free) (fkUnpin s (bindQps aBind))
     AqTurn s 0 0x5A e ∧ cbBad e = false ∧ cbUnbind e = true ∧ sqBind s (entryField e 0x10 2) = some aBind ∧
       aBind.part = aqPart e ∧ (∀ t ∈ bindTags aBind, (crdTag s t).inUse = false) ∧
       (s1.firkin.pinned.drop s.firkin.pinned.length).all (fkCached s) = true) := by
  unfold AtHead
  refine ⟨?_, ?_, ?_, ?_, ?_⟩ <;> decide +kernel

/-- A CARDER_BIND of two ranks and one expert, hosted here, whose tables stand at 0x20000, 0x21000 and
0x22000, and its receive buffer at 0. -/
def bindEntry : RingEntry :=
  entryWith 0x5A [(0x10, leBytes 2 0x200), (0x12, [0, 1]), (0x14, leBytes 2 1), (0x16, leBytes 2 9)
    , (0x18, leBytes 2 1), (0x1A, leBytes 2 1), (0x1C, leBytes 4 1), (0x20, leBytes 8 0x20000)
    , (0x28, leBytes 8 0x21000), (0x30, leBytes 8 0x22000)]

/-- The device with those tables. -/
def binding : State :=
  onAq { withQp (mapped serving) { qp3 with tc := bits (reg serving crdCtl) 8 3 } with
    rings := [(0x200, runRing 1)]
    mem := [(0x10000, 1), (0x10002, 0x20), (0x20000, 1), (0x20006, 1), (0x21008, 5), (0x2100B, 0x80)
            , (0x22008, 192), (0x22018, 1), (0x200000, 1), (0x200001, 0x10), (0x200002, 0x20)
            , (0x201000, 0x17)] } bindEntry

theorem witness_carder_bind :
    let e := bindEntry
    let s := binding
    let x := ring s 0x200
    let t := readTables s 0 x.ctx e
    let b := cbBind 0 x.ctx e (t.1.xs.getD []) (t.1.qs.getD []) (t.1.hs.getD [])
    let w := buffersOk t.2 b
    let s3 := pinAll w.2 (bindQps b)
    AqTurn s 0 0x5A e ∧ aqPart e = 0 ∧ cbBad e = false ∧ cbUnbind e = false ∧ t.1.fail = none ∧
      t.1.qs.isSome = true ∧ tablesBad e b t.1 = false ∧ x.typ = 1 ∧ x.state = .run ∧ x.part = 0 ∧
      sqBind s 0x200 = none ∧ s.binds = [] ∧ hostedAt b b.rank = [0] ∧ bindQps b = [5] ∧
      (qp s 5).state = .rts ∧ (qp s 5).tc = bits (reg s crdCtl) 8 3 ∧ 3 ≤ (qp s 5).version ∧
      qpBound s 5 = false ∧ fkCanPin s (bindQps b) = true ∧ w.1 = true ∧
      (s3.firkin.pinned.drop s.firkin.pinned.length).all (fkCached s) = true := by
  decide +kernel

/-- A packet of version 3 with its opcode area. -/
def request3 (op : Nat) (key aux : BitVec 32) (off : Word) : Pth :=
  { Pth.plain 3 op 5 with first := true, last := true, key := key, aux := aux, off := off }

/-- Queue pair 5 beside group 7, whose member of a rank runs `r`: the queue pair leads toward the other
rank, in direction 1 from rank 0 and in direction 0 from rank 1. -/
def running (p : Packet) (rank : Nat) (r : BshRun) : State :=
  setBsh (received p { qp3 with mtu := 4096 }) 7
    { member with
      rank := rank, run := some r
      qps := if rank = 0 then [none, some 5, none, none, none, none]
        else [some 5, none, none, none, none, none] }

/-- A packet of the running generation meets the statement's general premises. -/
def forRun (s : State) (p : Packet) (op : Nat) (r : BshRun) : Bool :=
  let s1 := inHandler s p
  arrives s p op && psnClass (qp s1 5) (hdr p).psn == .new && !mirrorFull s1 0 && bpGid (hdr p) == 7 &&
    (bshGroup s1 7).part == 0 && bshDir (bshGroup s1 7) 5 == some (1 - (bshGroup s1 7).rank) && (bshGroup s1 7).run == some r &&
    bpGen (hdr p) == r.gen

/-- A chunk of ALL_GATHER's ring, credit, a contribution from below, a result from above, a taint notice
and an abort. -/
theorem witness_bushel_arrivals :
    (let r := { aRun 2 0 false with
       entry := cmqEntry 0x21 1 32 0 0, data := List.replicate 128 0 }
     let bs := List.replicate 64 1
     let p := packetWith (request3 0x30 0x00072000 0 ((crc32c bs).setWidth 64)) bs
     let s := running p 1 r
     let s1 := inHandler s p
     forRun s p 0x30 r = true ∧ crc32c (body p) = bpCrc (hdr p) ∧ bpAttempt (hdr p) = r.attempt ∧
       ((dataPlace s1 (bshGroup s1 7) r 0 (hdr p)).map fun x => x.2.2) = some (body p).length) ∧
    (let p := packetWith (request3 0x31 0x00070000 0 0x100000000) []
     forRun (running p 1 (aRun 1 0 false)) p 0x31 (aRun 1 0 false) = true) ∧
    (let r := aRun 3 0 false
     let p := packetWith (request3 0x32 0x00073000 0 0) (treeBytes 1 1 1 [])
     let s := running p 0 r
     let s2 := heard (acceptReq (inHandler s p) 5 (hdr p)) 7
     forRun s p 0x32 r = true ∧ ((bshGroup s2 7).run.any fun r2 =>
       !treeBad (bshGroup s2 7) r2 1 (hdr p) (body p) && fromBelow (bshGroup s2 7) r2 1 (hdr p)) = true) ∧
    (let r := { aRun 3 0 false with upSent := true }
     let p := packetWith (request3 0x32 0x00074000 0 0) (treeBytes 0 2 2 [])
     let s := running p 1 r
     let s2 := heard (acceptReq (inHandler s p) 5 (hdr p)) 7
     forRun s p 0x32 r = true ∧ ((bshGroup s2 7).run.any fun r2 =>
       !treeBad (bshGroup s2 7) r2 0 (hdr p) (body p) && !fromBelow (bshGroup s2 7) r2 0 (hdr p)) = true) ∧
    (∀ op ∈ [0x33, 0x34], let p := packetWith (request3 op 0x00073000 0 0) (leBytes 16 0)
     let r := aRun 1 0 false
     let s := running p 1 r
     let s2 := heard (acceptReq (inHandler s p) 5 (hdr p)) 7
     forRun s p op r = true ∧ ((bshGroup s2 7).run.any fun r2 => r2.attempt != 1) = true) := by
  refine ⟨?_, ?_, ?_, ?_, ?_⟩ <;> decide +kernel

/-- The binding at rank 0 whose expert 0 is hosted here and expert 1 at the other rank. -/
def hosting : CrdBind :=
  { aBind with
    experts := [{ cap := 4, erank := 0, group := 0, valid := true }
                , { cap := 4, erank := 1, group := 0, valid := true }]
    hosts := [{ base := 0, stride := 1024, sync := 0, nbuf := 1 }] }

/-- Tokens, a done message with its count at the capacity, and an output. -/
theorem witness_carder_arrivals :
    (let p := packetWith (request3 0x38 0x00090000 192 0x0000010000000000) (List.replicate 64 1)
     let s := { received p qp3 with binds := [hosting] }
     let s1 := inHandler s p
     arrives s p 0x38 = true ∧ psnClass (qp s1 5) (hdr p).psn = .new ∧ mirrorFull s1 0 = false ∧
       qpBind s1 5 = some hosting ∧ crdTagOk hosting (cpTag (hdr p)) = true ∧ cpExpert (hdr p) = 0 ∧
       bufferHeld s1 hosting 9 0 = false ∧ (crdTag s1 9).ranksDone.contains 1 = false ∧
       cpOff (hdr p) + 64 ≤ shareLen hosting 0 ∧ cpShare (hdr p) ≤ shareLen hosting 0 ∧
       (writeVa s1 .fabric fabricUnit 0 0 (shareVa hosting 9 0 1 + 192)
         (List.replicate 64 1)).1.toOption = some ()) ∧
    (let p := packetWith (request3 0x39 0x00090000 0 0) (beBytes 4 4)
     let s := { received p qp3 with binds := [hosting] }
     let s1 := inHandler s p
     arrives s p 0x39 = true ∧ psnClass (qp s1 5) (hdr p).psn = .new ∧ mirrorFull s1 0 = false ∧
       qpBind s1 5 = some hosting ∧ crdTagOk hosting (cpTag (hdr p)) = true ∧
       (∀ e ∈ hostedAt hosting 0, bufferHeld s1 hosting 9 e = false) ∧
       (crdTag s1 9).ranksDone.contains (qpRank hosting 5) = false ∧ doneCounts (body p) = [(0, 4)] ∧
       (crdExp hosting 0).cap = 4 ∧ 0 ∈ hostedAt hosting 0) ∧
    (let p := packetWith (request3 0x3A 0x00090001 0 0) (List.replicate 64 1)
     let c := entryWith 0x31 []
     let s := { received p qp3 with
       binds := [hosting]
       tags := [(9, { CrdTag.free with
         inUse := true, comb := some c, choices := [{ aChoice with expert := 1 }] })] }
     let s1 := inHandler s p
     arrives s p 0x3A = true ∧ psnClass (qp s1 5) (hdr p).psn = .new ∧ mirrorFull s1 0 = false ∧
       qpBind s1 5 = some hosting ∧ crdTagOk hosting (cpTag (hdr p)) = true ∧ (crdTag s1 9).inUse = true ∧
       (crdTag s1 9).comb = some c ∧ (crdExp hosting 1).erank = qpRank hosting 5 ∧
       64 ≤ countFor (crdTag s1 9).choices 1 * crdRec hosting ∧
       (writeVa s1 .fabric fabricUnit 0 0 0 (List.replicate 64 1)).1.toOption = some ()) := by
  refine ⟨?_, ?_, ?_⟩ <;> decide +kernel

/-! Ports. -/

/-- The device with port 7 like this, at a time of the port. -/
def atPort (p : Port) (now : Nat) : State := { serving with ports := [(7, p)], clocks := [(15, now)] }

/-- A port whose link is up in mode 7. -/
def upPort : Port := { Port.reset with link := true, actMode := 7 }

theorem witness_port_link :
    (bar0 serving = true ∧ 7 < 8 ∧ bits (7 : Word) 0 4 ≤ 7) ∧
    (let s := { serving with regs := [(portReg 7 8, 7)] }
     (portOf s 7).link = false ∧ portMode s 7 ≠ 0 ∧ portRuns s = true ∧ s.err.fatal = false) ∧
    (portOf (atPort upPort 0) 7).link = true := by
  decide +kernel

/-- A frame of a class. -/
def aFrame (c : Nat) : TxFrame :=
  { hold := some 0, cls := c, ctl := false, ahead := false, size := 64, body := .raw (leBytes 60 0) }

/-- A gate list whose one entry opens class 7 alone, for `n` ticks. -/
def gates (n : Nat) : List GclEntry := [{ open7 := true, excl := true, interval := n }]

/-- A list in the registers: one entry as long as the cycle. -/
def adminIn (s : State) (cycle : Word) : State :=
  { s with regs := [(gclCycle 7, cycle), (portReg 7 0x200, 0x80000000 + 200)] }

theorem witness_port_transmit :
    (let s := atPort { upPort with txq := [aFrame 0], gclOper := gates 16, gclEnd := 16 } 0
     mayTransmit s 7 = true ∧
       (portOf s 7).txq.find? (fun f => fitsNoRun (portOf s 7) f) = some (aFrame 0)) ∧
    (let s := atPort upPort 0
     mayTransmit s 7 = true ∧ (portOf s 7).txq.find? (fun f => fitsNoRun (portOf s 7) f) = none ∧
       (chooseFrame s 7).1 = none) ∧
    (let s := atPort { upPort with txq := [aFrame 7] } 0
     mayTransmit s 7 = true ∧ (portOf s 7).txq.find? (fun f => fitsNoRun (portOf s 7) f) = none ∧
       (chooseFrame s 7).1 = some (aFrame 7) ∧
       (portOf (startFrame (chooseFrame s 7).2 7 (aFrame 7)) 7).rawGo = false ∧
       (classHead s 7 7).filter (gateAllows (portOf s 7) (portTime s 7)) = some (aFrame 7)) ∧
    (bar0 serving = true ∧ (portOf serving 7).rawGo = false ∧ (portOf serving 7).gclSwitch = none) ∧
    adminValid (setReg (adminIn serving 200) (gclCtl 7) 1) 7 = true ∧
    adminValid (setReg (adminIn serving 201) (gclCtl 7) 1) 7 = false ∧
    adminValid (setReg (adminIn serving 200) (gclCtl 7) (0x10001 : Word)) 7 = true ∧
    (∀ x ∈ [some 9, none], let s := atPort { upPort with gclSwitch := some x } 9
      bar0 s = true ∧ (portOf s 7).gclSwitch = some x ∧ powered s = true ∧ 9 ≤ portTime s 7) ∧
    switchTime 0 64 0 = 64 ∧ switchTime 1 64 16 = 80 ∧
    (let s := atPort { upPort with gclOper := gates 16, gclEnd := 16 } 16
     (portOf s 7).gclOper ≠ [] ∧ (portOf s 7).gclEnd ≤ portTime s 7 ∧ powered s = true) ∧
    (portRuns serving = true ∧ (portOf (atPort { upPort with syncArm := true } 0) 7).syncArm = true) := by
  decide +kernel

/-- A frame of the least length, to the broadcast address, and one byte less. -/
def bcast (n : Nat) : List Byte := List.replicate 6 0xFF ++ List.replicate n 0

/-- An idle port with EN and FAST in its PORT_LPI, an idle time of 1 us after its start. -/
def idlePort : State := { atPort upPort 1000 with regs := [(lpiReg 7, 0x103)] }

theorem witness_lpi_on : lpiOn idlePort 7 = true := by
  have h : lpiAllowed idlePort 7 = true := by
    rw [lpiAllowed, Bool.or_eq_true]
    exact Or.inr (by decide +kernel)
  rw [lpiOn, h]
  decide +kernel

theorem witness_port_receive :
    (let s := { atPort upPort 0 with regs := [(portMacReg 7, 7), (portReg 7 0x20, 1518)] }
     (portOf s 7).link = true ∧ s.err.fatal = false ∧ (bcast 53).length < 60 ∧ 60 ≤ (bcast 54).length ∧
       (bcast 54).length + 4 ≤ maxFrm s 7 ∧ rxHeld s 7 + (bcast 54).length ≤ 1048576 ∧
       macAccepts s 7 (ethView (bcast 54)) = true ∧ vlanAccepts s 7 (ethView (bcast 54)) = true ∧
       (ethView (bcast 54)).etype ≠ 0x8808) ∧
    (let s := idlePort
     (portOf s 7).link = true ∧ (portOf s 7).lpiTx = false ∧ (portOf s 7).txq = [] ∧
       portRuns s = true ∧ s.err.fatal = false ∧
       (portOf s 7).idleSince + max 1 (bits (reg s (lpiReg 7)) 8 8) * 1000 ≤ portTime s 7) ∧
    (let s := { atPort { upPort with lpiTx := true, txq := [aFrame 0], gclOper := gates 16 } 0 with
       regs := [(lpiReg 7, 6)] }
     (portOf s 7).lpiTx = true ∧ portRuns s = true ∧ s.err.fatal = false ∧ (portOf s 7).txq ≠ [] ∧
       (reg s (lpiReg 7)).getLsbD 2 = true ∧ (portOf s 7).gclOper ≠ [] ∧
       ∃ x ∈ entryStarts (portOf s 7), x.2.open7 = true ∧ x.1 ≤ portTime s 7 + usTicks (txtwNow s 7)) ∧
    (let s := { atPort { upPort with lldpDue := true } 0 with regs := [(lpiReg 7, 10)] }
     (portOf s 7).link = true ∧ (reg s (lpiReg 7)).getLsbD 3 = true ∧ inService s = true ∧
       s.err.fatal = false ∧ (portOf s 7).lldpDue = true ∧
       txRoom s 7 0 (rawTx s 7 0 (lldpFrame (portMac s 7) (txtwNow s 7) (rxtwOf s 7) 0
         (portOf s 7).partnerTw)).size = true) ∧
    (let s := atPort { upPort with neg := true } (usTicks 120000000)
     (portOf s 7).neg = true ∧ (portOf s 7).tlvAt + usTicks 120000000 ≤ portTime s 7) := by
  decide +kernel

/-! The host's side. -/

/-- The device with this host attachment and link, at a fabric time. -/
def attached (link : Bool) (h : HostAtt) (now : Nat) : State :=
  { serving with linkUp := link, host := h, clocks := [(1, now)] }

def h0 : HostAtt := State.reset.host

theorem witness_host_link :
    (let s := attached false h0 0
     s.linkUp = false ∧ s.host.perst = false ∧ powered s = true) ∧
    (attached true h0 0).linkUp = true ∧
    (let s := attached true { h0 with downAt := some 7 } 0
     s.host.downAt = some 7 ∧ s.linkUp = true ∧ s.err.fatal = false) ∧
    (let s := { attached false { h0 with downAt := some 0 } 1500000 with regs := [(haPolicy, 0x10000)] }
     s.host.downAt = some 0 ∧ s.linkUp = false ∧ s.host.perst = false ∧ s.host.timedOut = false ∧
       s.err.fatal = false ∧ powered s = true ∧
       0 + max 1 (bits (reg s haPolicy) 16 16) * 1500000 ≤ fdTime s) ∧
    (let s := { attached false h0 0 with err := { ErrUnit.reset with fatal := true } }
     s.host.perst = false ∧ powered s = true ∧ s.linkUp = false ∧ s.err.fatal = true) ∧
    (let s := attached true h0 0
     s.host.perst = false ∧ powered s = true ∧ s.linkUp = true ∧ s.err.fatal = false) ∧
    (let s := attached false { h0 with perst := true } 0
     s.host.perst = true ∧ powered s = true) ∧
    (bar0 serving = true ∧ ∀ p < 65, (partition serving p).quiesced = false) := by
  decide +kernel

/-- In ROM the BAR2 of PF0 reaches the staging window. -/
def inRom : State := { serving with boot := { serving.boot with st := .rom } }

theorem witness_bar2 :
    (bar2Served inRom 0 0x3FFFFC0 64 = true ∧
      bar2Target inRom 0 0x3FFFFC0 false = (.pa 0x00FFFFFFFFC0, inRom) ∧
      bar2Target inRom 0 0x3FFFFC0 true = (.pa 0x00FFFFFFFFC0, inRom) ∧
      (readMem inRom 0x00FFFFFFFFC0 64).1 = false) ∧
    (readMem { inRom with checks := [(0x00FFFFFFFFC0 / 8, .poison)] } 0x00FFFFFFFFC0 64).1 = true ∧
    bar2Target { inRom with checks := [(0x00FFFFFFFFC0 / 8, .poison)] } 0 0x3FFFFC0 false =
      (.pa 0x00FFFFFFFFC0, { inRom with checks := [(0x00FFFFFFFFC0 / 8, .poison)] }) ∧
    (bar2Served inRom 0 0x4000000 64 = true ∧
      bar2Target inRom 0 0x4000000 false = (.off, inRom)) :=
  ⟨⟨by decide +kernel, rfl, rfl, by decide +kernel⟩, by decide +kernel, rfl, by decide +kernel, rfl⟩

/-- The link up as CXL, with HDM accesses of a partition. -/
def hdmOf (p : Word) : State :=
  { attached true { h0 with proto := 1 } 0 with regs := [(haHdmId, p)] }

theorem witness_hdm :
    (hdmServed (hdmOf 0) 64 64 = true ∧ (hdmCheck (hdmOf 0) 64 false).1 = true ∧
      (hdmCheck (hdmOf 0) 64 true).1 = true ∧ (readMem (hdmOf 0) 64 64).1 = false) ∧
    (hdmServed (hdmOf 0x700000000) 64 64 = true ∧ (hdmCheck (hdmOf 0x700000000) 64 false).1 = false) := by
  decide +kernel

theorem witness_attention :
    ∀ x ∈ [(DrdyState.pulse, 90), (.holdoff, 2400), (.busy, 5000), (.after, 500), (.ready, 0)],
      let s := { serving with
        drdy := { state := x.1, causes := [], since := 0, pending := true }, clocks := [(5, x.2)] }
      s.drdy.state = x.1 ∧ s.drdy.causes = [] ∧ s.drdy.since + x.2 ≤ glTime s := by
  decide +kernel

/-! Registers, the mailbox and the boot. -/

/-- Bytes put in memory where every word is good are read back. -/
theorem peek_poke (s : State) (a : Nat) (bs : List Byte) (h : Memory.wf s.mem = true) :
    peek (poke s a bs) a bs.length = bs := by
  have h1 : ∀ n k, k + n = bs.length → peek (poke s a bs) (a + k) n = bs.drop k := by
    intro n
    induction n with
    | zero => intro k hk; rw [List.drop_eq_nil_of_le (by omega)]; rfl
    | succ n ih =>
      intro k hk
      have hk1 : k < bs.length := by omega
      rw [peek, memByte_poke s a bs (a + k) h, if_pos (by omega), Nat.add_assoc, ih (k + 1) (by omega),
        Nat.add_sub_cancel_left, List.drop_eq_getElem_cons hk1, List.getD_eq_getElem bs 0 hk1]
  exact h1 bs.length 0 (by omega)

theorem checkWords_clean (s : State) (h : s.checks = []) (a n : Nat) : checkWords s a n = (false, s) := by
  have hw : ∀ a, checkWord s a = (false, s) := by
    intro a
    have : wordCheck s a = .good := by
      unfold wordCheck
      rw [h]
      split <;> rfl
    rw [checkWord, this]
  induction n generalizing a with
  | zero => rfl
  | succ n ih => simp [checkWords, hw, ih]

theorem readFirmware_poke (s : State) (a n : Nat) (bs : List Byte) (h : s.mem = []) (h1 : s.checks = [])
    (h2 : s.sched.selfRefresh = false) (h3 : s.sched.gated = false) (h4 : bs.length = n) :
    readFirmware (poke s a bs) a n = (some bs, poke s a bs) := by
  subst h4
  have h5 : lpddrAwake (poke s a bs) a = poke s a bs := by simp [lpddrAwake, h2]
  have h6 : localLost (poke s a bs) a = false := by simp [localLost, h3]
  rw [readFirmware, readMem, h5, checkWords_clean _ (by simpa using h1), h6]
  simp [peek_poke s a bs (by rw [h]; rfl)]

theorem witness_register :
    (0x0010020 % 8 = 0 ∧ powered serving = true ∧ fnReached serving 0 = true ∧ 0x0010024 % 8 ≠ 0) ∧
    (0x2010000 % 8 = 0 ∧ powered debugged = true ∧ fnReached debugged 0 = true ∧
      (dbgLocal debugged (0x2010000 - 0x2000000)).isSome = true ∧
      dbgLocal debugged (0x2018000 - 0x2000000) = none) ∧
    (let s := headed 1 (entryWith 0x10 [])
     0x50 = 0x50 ∧ ring s 0x200 ≠ Ring.idle ∧ tableWf Ring.idle s.rings = true) ∧
    ((1 : Nat) ≠ 0 ∨ 0 ≠ 0x0010000) ∧
    ((0x8000000000000004 : Word).getLsbD 63 = true ∧ bar0 serving = true ∧ serving.boot.start = none) ∧
    MailboxRow (.discard, 4, discardOp) := by
  refine ⟨by decide +kernel, by decide +kernel, by decide +kernel, by decide, by decide +kernel,
    by simp [MailboxRow]⟩

/-- The device in service with this manifest active and staged, every block of it present, and these
mailbox arguments. -/
def withImage (m : List Byte) (a0 a1 a2 : Word) : State :=
  { serving with
    boot := { serving.boot with
      active := some m, staged := some m, present := List.range 1024, start := none, floor := 0 }
    regs := [(0x0010008, a0), (0x0010010, a1), (0x0010018, a2)] }

/-- A blob of settings without records, with its check bytes. -/
def blobHead : List Byte := leBytes 4 0x53544731 ++ leBytes 24 0
def blobTail : List Byte := List.replicate 8160 0
def aBlob : List Byte :=
  blobHead ++ leBytes 4 (crc32c (blobHead ++ List.replicate 4 0 ++ blobTail)).toNat ++ blobTail

theorem leNat_leBytes4 (n : Nat) (h : n < 2 ^ 32) : leNat (leBytes 4 n) = n := by
  simp only [leBytes, leNat, BitVec.toNat_ofNat]
  omega

theorem blob_field (h c t : List Byte) (hl : h.length = 28) (hc : c.length = 4) :
    mfField (h ++ c ++ t) 0x1C 4 = leNat c ∧ (h ++ c ++ t).take 0x1C = h ∧
      (h ++ c ++ t).drop 0x20 = t := by
  refine ⟨?_, ?_, ?_⟩
  · rw [mfField, List.append_assoc, List.drop_left' hl, List.take_left' hc]
  · rw [List.append_assoc, List.take_left' hl]
  · rw [List.drop_left' (by rw [List.length_append, hl, hc])]

theorem head_field (h t : List Byte) (off n : Nat) (hl : off + n ≤ h.length) :
    mfField (h ++ t) off n = mfField h off n := by
  rw [mfField, mfField, List.drop_append_of_le_length (by omega),
    List.take_append_of_le_length (by rw [List.length_drop]; omega)]

theorem aBlob_good : blobGood aBlob = true ∧ mfField aBlob 6 2 = 0 ∧ mfField aBlob 4 2 = 0 ∧
    aBlob.length = 8192 := by
  obtain ⟨h1, h2, h3⟩ := blob_field blobHead (leBytes 4
    (crc32c (blobHead ++ List.replicate 4 0 ++ blobTail)).toNat) blobTail (by decide) rfl
  refine ⟨?_, ?_, ?_, ?_⟩
  · have hm : mfField aBlob 0 4 = 0x53544731 := by
      rw [aBlob, List.append_assoc, head_field _ _ _ _ (by decide)]
      decide
    rw [blobGood, blobCrc, hm, aBlob, h1, h2, h3, leNat_leBytes4 _ (BitVec.isLt _)]
    simp
  · rw [aBlob, List.append_assoc, head_field _ _ _ _ (by decide)]
    decide
  · rw [aBlob, List.append_assoc, head_field _ _ _ _ (by decide)]
    decide
  · rw [aBlob, List.length_append, List.length_append, blobTail, List.length_replicate]
    rfl

/-- The same as command `op` runs. -/
def hears (s : State) (op : Nat) : State := setReg s 0x0010000 (BitVec.ofNat 64 op)

theorem hears_runs (s : State) (op : Nat) (h1 : bar0 s = true) (h2 : s.boot.start = none) :
    MailboxRuns s op (hears s op) := ⟨h1, h2, rfl⟩

/-- Where a command's hypotheses ask for more than that it runs: DISCARD, SETTINGS_READ with the settings
at the end of the window, BLOCKS, ATTEST (its key is an open value), and a command in the wrong state. -/
theorem witness_mailbox :
    (MailboxRow (.discard, 4, discardOp) ∧ bar0 (withImage [] 0 0 0) = true ∧
      (withImage [] 0 0 0).boot.start = none) ∧
    romOrService (hears (withImage [] 0 0 0) 4) = true ∧
    mbArg (hears (withImage [] (0x3FFE000 : Word) 0 0) 6) 0 + 8192 ≤ 2 ^ 26 ∧
    (let m := leBytes 0x20 (2 * 2 ^ 128 + 65544 * 2 ^ 192)
     let s := hears (withImage m 1 1 (0x3FF0000 : Word)) 2
     1 ≤ mbArg s 1 ∧ mbArg s 1 ≤ 1024 ∧ mbArg s 2 % 65536 = 0 ∧ romOrService s = true ∧
       s.boot.staged = some m ∧ mbArg s 0 + mbArg s 1 ≤ mfBlocks m ∧
       inStage (mbArg s 2) (blocksLen m (mbArg s 0) (mbArg s 1)) = true ∧
       (readFirmware { s with checks := [(stageBase / 8, .poison)] } (stageBase + 0) (blockLen m 1)).1 =
         none ∧
       (readFirmware s (stageBase + 0) (blockLen m 1)).1.isSome = true) ∧
    (let s := hears (withImage [] 0 0 0) 5
     let n := readFirmware s (stageBase + mbArg s 0) 32
     let c := carderDigest n.2
     mbArg s 0 % 64 = 0 ∧ s.boot.st = .service ∧ mbArg s 0 + 50272 ≤ 2 ^ 26 ∧
       n.1 = some (leBytes 32 0) ∧ c.1.isSome = true ∧ (operatorDigest c.2).1.isSome = true) ∧
    (let s := { serving with boot := { serving.boot with st := .starting } }
     bar0 s = true ∧ s.boot.start = none ∧ romOrService (hears s 4) = false ∧
       romOrService (hears s 1) = false) := by
  refine ⟨⟨by simp [MailboxRow], by decide +kernel, rfl⟩, ?_⟩
  decide +kernel

theorem witness_settings_write :
    let s := hears (poke (withImage [] 0 0 0) stageBase aBlob) 7
    MailboxRuns (poke (withImage [] 0 0 0) stageBase aBlob) 7 s ∧
    romOrService s = true ∧ mbArg s 0 + 8192 ≤ 2 ^ 26 ∧
      readFirmware s (stageBase + mbArg s 0) 8192 = (some aBlob, s) ∧ blobGood aBlob = true ∧
      mfField aBlob 6 2 ≤ 510 ∧ setfmtNow s = some (mfField aBlob 4 2) := by
  obtain ⟨h1, h2, h3, h4⟩ := aBlob_good
  have h0 : ∀ bs, mbArg (hears (poke (withImage [] 0 0 0) stageBase bs) 7) 0 = 0 := fun bs => rfl
  have h5 : ∀ bs, hears (poke (withImage [] 0 0 0) stageBase bs) 7 =
      poke (hears (withImage [] 0 0 0) 7) stageBase bs := fun bs => rfl
  refine ⟨hears_runs _ _ rfl rfl, rfl, ?_, ?_, h1, by rw [h2]; decide, by rw [h3]; rfl⟩
  · rw [h0]
    decide
  · rw [h0, h5]
    exact readFirmware_poke _ _ _ _ rfl rfl rfl rfl h4

/-- Any manifest as long as a signed one: a state holds it in the staging window. What the checks answer
depends on the signatures, which are open values: for a manifest that they accept and for one that they
refuse the hypotheses hold. -/
theorem witness_manifest (m : List Byte) (h : m.length ≤ 2 ^ 26) :
    ∃ s0 s, MailboxRuns s0 1 s ∧ romOrService s = true ∧ mbArg s 0 % 64 = 0 ∧ mbArg s 0 + mbArg s 1 ≤ 2 ^ 26 ∧
      mbArg s 1 = m.length ∧
      ∃ s2, readFirmware (emptySlot s) (stageBase + mbArg s 0) (mbArg s 1) = (some m, s2) := by
  have h0 : ∀ w, mbArg (hears (poke (withImage [] 0 w 0) stageBase m) 1) 0 = 0 := fun w => rfl
  have h1 : ∀ w : Word, mbArg (hears (poke (withImage [] 0 w 0) stageBase m) 1) 1 = w.toNat := fun w => rfl
  have hl : (BitVec.ofNat 64 m.length).toNat = m.length := by
    rw [BitVec.toNat_ofNat]
    omega
  refine ⟨poke (withImage [] 0 (BitVec.ofNat 64 m.length) 0) stageBase m, _,
    hears_runs _ 1 rfl rfl, rfl, by rw [h0], ?_, ?_, ?_⟩
  · rw [h0, h1, hl]; omega
  · rw [h1, hl]
  · rw [h0, h1, hl]
    exact ⟨_, readFirmware_poke (emptySlot (hears (withImage [] 0 (BitVec.ofNat 64 m.length) 0) 1)) stageBase
      m.length m rfl rfl rfl rfl rfl⟩

/-- One that is refused whatever the signatures. -/
theorem witness_manifest_refused : checkManifest [] 0 0 ≠ 0 := by
  have h : manifestForm [] 0 = false := by decide +kernel
  simp [checkManifest, h]

theorem witness_image_start :
    (powered State.reset = true ∧ State.reset.boot.zeroFill = true) ∧
    (let s := hears { withImage [] 0 0 0 with boot := { (withImage [] 0 0 0).boot with st := .rom } } 3
     mbArg s 0 = 0 ∧ s.boot.st = .rom ∧ s.boot.staged = some [] ∧ mfBlocks [] ≤ s.boot.present.length ∧
       (checkComps s (slotBase (s.boot.slotA != false)) []).1 = true) ∧
    (let s := { withImage [] 0 0 0 with boot := { (withImage [] 0 0 0).boot with
       start := some (false, true), settings := [] } }
     s.boot.start = some (false, true) ∧ s.boot.zeroFill = false ∧ s.err.fatal = false ∧
       startImage s false = some [] ∧ bar0 (applySettings s (mfSetfmt [])).2 = true ∧
       raisesFloor (applySettings s (mfSetfmt [])).2 [] = false) ∧
    mfRaise (leBytes 8 (2 ^ 48)) = true ∧
    (∀ f ∈ [1, 0], let e := entryWith 0x68 []
     let s := onAq { withImage [] 0 0 0 with boot := { (withImage [] 0 0 0).boot with floor := f } } e
     let c := recheckBlocks s (slotBase s.boot.slotA) []
     let d := checkComps c.2 (slotBase s.boot.slotA) []
     AqTurn s 0 0x68 e ∧ zeroField e 0x12 46 = true ∧ s.boot.staged = some [] ∧ s.boot.st = .service ∧
       s.boot.start = none ∧ mfBlocks [] ≤ s.boot.present.length ∧
       entryField e 0x10 2 = manifestSvn [] ∧
       (if f = 1 then manifestSvn [] < s.boot.floor else s.boot.floor ≤ manifestSvn []) ∧
       c.1 = true ∧ d.1 = true ∧ raisesFloor (drdyBusy d.2 .activate) [] = false) := by
  refine ⟨?_, ?_, ?_, ?_, ?_⟩ <;> decide +kernel

/-! Gill. -/

/-- Gill's time, a channel or input, and rules that are written like this. -/
def withGill (g : Gill) (now : Nat) (rs : Table Word) : State :=
  { serving with gill := g, clocks := [(5, now)], regs := rs }

/-- A rule of channel 0 with an action: at or above 10. -/
def aRule (action : Nat) : Word := BitVec.ofNat 64 (ruleA action 0 0 0 0 0 10 0)

theorem witness_gill_rules :
    (7 < 8 ∧ gillRuns serving = true) ∧
    (0 < 2 ∧ 2 ≤ [(4 : Int), 6].length ∧ (([(4 : Int), 6].take 2).foldl (· + ·) 0) % ((2 : Nat) : Int) = 0) ∧
    (∀ a ∈ [0, 1, 2, 3],
      let s := withGill { Gill.reset with
        channels := [(0, { GillChannel.reset with value := 10 })], condAt := [(31, 1)] } 0
        [(glRuleA 31, aRule a)]
      31 < 32 ∧ gillRuns s = true ∧ ruleOn s 31 = true ∧ ruleFired s 31 = false ∧ ruleDue s 31 = true ∧
        ruleAction s 31 = a ∧ s.sched.power ≠ .standby) ∧
    (let s := withGill { Gill.reset with
       channels := [(0, { GillChannel.reset with value := 9 })], fired := [(31, true)]
       condAt := [(31, 1)] } 0 [(glRuleA 31, aRule 0)]
     gillRuns s = true ∧ ruleOn s 31 = true ∧ ruleFired s 31 = true ∧ ruleDue s 31 = true ∧
       (ruleEvent (setFired s 31 false) 31 false).gill.wake = false) := by
  decide +kernel

/-- Input 6 like this. -/
def withInput (x : GillInput) (now : Nat) : State :=
  withGill { Gill.reset with inputs := [(6, x)] } now [(glDin 6, 0x100000000)]

theorem witness_gill_inputs :
    (∀ b ∈ [false, true], let s := withInput { GillInput.reset with chatter := b } 0
      6 < 7 ∧ gillRuns s = true ∧ (gillInput s 6).pin ≠ true ∧ (gillInput s 6).chatter = b) ∧
    (let s := withInput { GillInput.reset with level := true } 50000
     (gillInput s 6).level = true ∧ (gillInput s 6).stuck = false ∧ gillRuns s = true ∧
       bits (reg s (glDin 6)) 32 16 ≠ 0 ∧
       (gillInput s 6).since + bits (reg s (glDin 6)) 32 16 * 50000 ≤ glTime s) ∧
    (let s := withInput { GillInput.reset with stuck := true } 50000
     (gillInput s 6).stuck = true ∧ (gillInput s 6).level = false ∧ gillRuns s = true ∧
       (gillInput s 6).since + 50000 ≤ glTime s) ∧
    (let s := withInput { GillInput.reset with chatter := true } 50000
     (gillInput s 6).chatter = true ∧ gillRuns s = true ∧ (gillInput s 6).chatAt + 50000 ≤ glTime s ∧
       (gillInput s 6).pinTimes = [] ∧ (gillInput s 6).pin = (gillInput s 6).level) ∧
    (serving.sched.silent = false ∧ powered serving = true) ∧
    (let s := modSched serving fun z => { z with silent := true }
     let s := { s with regs := (List.range 32).map fun i => (glRuleA i, 0) }
     s.sched.silent = true ∧ powered s = true ∧ ∀ i < 32, ruleDig s i = false) := by
  decide +kernel

theorem witness_gill_lock_and_smbus :
    (let s := withGill { Gill.reset with lock := true } 0 [(glRuleA 4, aRule 3), (glRuleA 5, 0)]
     s.gill.lock = true ∧ ruleAction s 4 = 3 ∧ bits (aRule 3) 60 3 = 3 ∧ ruleAction s 5 ≠ 3) ∧
    (∀ off ∈ [0x8000, 0x8FF8], gillRuns serving = true ∧ 0x8000 ≤ off ∧ off < 0x9000 ∧ off % 8 = 0) ∧
    ({ serving with boot := { serving.boot with gill := true } }).boot.gill = true ∧
    (modSched serving fun z => { z with power := .standby }).sched.power = .standby := by
  decide +kernel

/-! The twin. -/

/-- A key. -/
def aKey : SlotKey := { k256 := false, bytes := leBytes 16 1 }

/-- The device with this twin unit, at a fabric time; the mirror ring runs. -/
def twinned (t : Twin) (now : Nat) : State :=
  { serving with twin := t, clocks := [(1, now)], rings := [(tmrRing, runRing 7)] }

/-- A sequenced item of a kind, sent. -/
def anItem (kind : Nat) : TwinItem :=
  { seq := 0, kind := kind, payload := [], pa := 0, ppa := 0, len := 0, entries := 0, sent := true }

/-- A TWIN_PAIR with a time of 1 ms. -/
def pairEntry : RingEntry := entryWith 0x69 [(0x10, leBytes 2 1)]

/-- Payloads of a PAIR frame without mappings: one of version 1, one of version 2. -/
def mates : List (List Byte × BitVec 8) := [(leBytes 9 (2 ^ 64), 0), (leBytes 9 (2 * 2 ^ 64), 0x0F)]

theorem witness_twin_pairing :
    (∀ used ∈ [false, true], let e := pairEntry
      let s := onAq (twinned { Twin.reset with key := some aKey, used := used } 0) e
      AqTurn s 0 0x69 e ∧ entryField e 0x10 2 ≠ 0 ∧ zeroField e 0x12 46 = true ∧ s.twin.state = .unpaired ∧
        s.twin.pairAq = none ∧ (ring s tmrRing).state = .run ∧ pmapBoth s = false ∧
        s.twin.used = used ∧ s.twin.key ≠ none) ∧
    (∀ m ∈ mates, let s := twinned { Twin.reset with pairAq := some (3, pairEntry, 0), mate := some m.1 } 0
      s.twin.state = .unpaired ∧ s.twin.mate = some m.1 ∧ pairStatus s m.1 = m.2) ∧
    (let s := twinned { Twin.reset with state := .syncing } 0
     s.twin.state = .syncing ∧ s.twin.copyEnd ≤ s.twin.ackIn ∧ s.err.fatal = false) ∧
    (let s := twinned { Twin.reset with pairAq := some (3, pairEntry, 0) } 1500000
     s.twin.pairAq = some (3, pairEntry, 0) ∧ s.twin.state = .unpaired ∧ s.err.fatal = false ∧
       0 + entryField pairEntry 0x10 2 * 1500000 ≤ fdTime s) ∧
    (∀ st ∈ [TwinState.unpaired, .syncing, .alone, .paired], let e := entryWith 0x6A []
      let s := onAq (twinned { Twin.reset with state := st } 0) e
      AqTurn s 0 0x6A e ∧ zeroField e 0x10 48 = true ∧ s.twin.state = st ∧ s.twin.unpairAq = none) ∧
    (∀ t ∈ [1499999, 1500000], let e := entryWith 0x6A []
      let s := twinned { Twin.reset with state := .paired, unpairAq := some (0, e, 0), items := [anItem 2] } t
      s.twin.unpairAq = some (0, e, 0) ∧ (s.twin.items.head?.map TwinItem.kind) = some 2 ∧
        (0 + 1500000 ≤ fdTime s ∨ fdTime s < 0 + 1500000)) ∧
    bar0 (twinned Twin.reset 0) = true := by
  refine ⟨?_, ?_, ?_, ?_, ?_, ?_, ?_⟩ <;> decide +kernel

/-- The tag that the partner gives a frame whose bytes before it are `b`; no pairing has told its serial
before. -/
def mateTag (b : List Byte) : List Byte :=
  beBytes 16 (Config.gmac aKey.k256 aKey.bytes (BitVec.ofNat 96
    ((if b.getD 0 0 = 5 then (if beField b 32 8 < Config.serial.toNat then 0 else 1) else 0) * 2 ^ 64 +
      beField b 8 8)) b).toNat

theorem leBytes_length (n v : Nat) : (leBytes n v).length = n := by
  induction n generalizing v with
  | zero => rfl
  | succ n ih => simp [leBytes, ih]

theorem mateTag_length (b : List Byte) : (mateTag b).length = 16 := by
  simp [mateTag, beBytes, leBytes_length]

theorem beField_head (h t : List Byte) (off n : Nat) (hl : off + n ≤ h.length) :
    beField (h ++ t) off n = beField h off n := by
  rw [beField, beField, List.drop_append_of_le_length (by omega),
    List.take_append_of_le_length (by rw [List.length_drop]; omega)]

/-- A twin link with a key, in a state of the pair. -/
def pairIn (st : TwinState) : State :=
  twinned { Twin.reset with state := st, link := true, key := some aKey } 0

/-- A frame with its tag is good. -/
theorem frame_good (st : TwinState) (b : List Byte) (n : Nat) (hb : b.length = 32 + n)
    (h2 : beField b 2 2 = n) (h4 : beField b 4 4 = 0) (h5 : b.getD 0 0 = 5 → 8 ≤ n) :
    twinGood (pairIn st) (b ++ mateTag b) false = true := by
  have g0 : (b ++ mateTag b).getD 0 0 = b.getD 0 0 := by
    cases b with
    | nil => rw [List.length_nil] at hb; omega
    | cons x xs => rfl
  have g2 : beField (b ++ mateTag b) 2 2 = n := by rw [beField_head _ _ _ _ (by omega), h2]
  have g4 : beField (b ++ mateTag b) 4 4 = 0 := by rw [beField_head _ _ _ _ (by omega), h4]
  have g8 : beField (b ++ mateTag b) 8 8 = beField b 8 8 := beField_head _ _ _ _ (by omega)
  have ht : twinTagOk (pairIn st) (b ++ mateTag b) = true := by
    have hk : (pairIn st).twin.key = some aKey := rfl
    have hp : (pairIn st).twin.peer = 0 := rfl
    simp only [twinTagOk, g2, g8, g0, hk, hp, List.take_left' hb, List.drop_left' hb]
    by_cases h : b.getD 0 0 = 5
    · rw [if_pos h, beField_head b _ 32 8 (by have := h5 h; omega)]
      simp only [mateTag, if_pos h, beq_self_eq_true]
    · rw [if_neg h]
      simp only [mateTag, if_neg h, beq_self_eq_true, Bool.true_or, if_true]
  have he : (pairIn st).twin.epoch.toNat = 0 := rfl
  simp [twinGood, g2, g4, ht, he, hb, mateTag_length]
  omega

/-- Its payload is taken where it comes in turn. -/
theorem frame_taken (st : TwinState) (kind n : Nat) (b : List Byte) (hb : b.length = 32 + n)
    (h0 : (b.getD 0 0).toNat = kind) (h2 : beField b 2 2 = n) (h4 : beField b 4 4 = 0)
    (h16 : beField b 16 8 = 0) (h24 : beField b 24 8 = 0) (hn : twinLenOk kind n = true)
    (h5 : kind = 5 → 8 ≤ n) :
    ∃ s1, recvTwin (pairIn st) kind (b ++ mateTag b) false = (some (b.drop 32), s1) ∧
      s1.twin.state = st ∧ s1.twin.unpairAq = none := by
  have g0 : (b ++ mateTag b).getD 0 0 = b.getD 0 0 := by
    cases b with
    | nil => rw [List.length_nil] at hb; omega
    | cons x xs => rfl
  have hg := frame_good st b n hb h2 h4 (fun h => h5 (by rw [← h0, h]; rfl))
  have g2 : beField (b ++ mateTag b) 2 2 = n := by rw [beField_head _ _ _ _ (by omega), h2]
  have g16 : beField (b ++ mateTag b) 16 8 = 0 := by rw [beField_head _ _ _ _ (by omega), h16]
  have g24 : beField (b ++ mateTag b) 24 8 = 0 := by rw [beField_head _ _ _ _ (by omega), h24]
  have gp : ((b ++ mateTag b).drop 32).take n = b.drop 32 := by
    rw [List.drop_append_of_le_length (by omega), List.take_left' (by rw [List.length_drop]; omega)]
  have hc : ¬ ((!(pairIn st).twin.link) = true ∨ (!powered (pairIn st)) = true ∨
      (pairIn st).err.fatal = true ∨ ((b ++ mateTag b).getD 0 0).toNat ≠ kind) := by
    rw [g0, h0]
    simp [pairIn, twinned, powered, serving, State.reset, Sched.reset, ErrUnit.reset]
  have ha : ∀ t : State, takeTwinAck t 0 = t := fun t => by simp [takeTwinAck]
  unfold recvTwin
  rw [if_neg hc, hg, g2, hn, g24, g16, gp]
  simp only [ha, Bool.not_true, Bool.false_eq_true, if_false]
  by_cases hk : kind = 1 ∨ kind = 4
  · rw [if_pos hk]
    exact ⟨_, rfl, rfl, rfl⟩
  · rw [if_neg hk]
    exact ⟨_, rfl, rfl, rfl⟩

/-- The bytes before the tag of a frame with a payload of zeros. -/
def zeroFrame (kind n : Nat) : List Byte := twinBody kind 0 0 0 0 (List.replicate n 0)

theorem zeroFrame_fields (kind n : Nat) (h : n < 65536) :
    (zeroFrame kind n).length = 32 + n ∧ (zeroFrame kind n).getD 0 0 = BitVec.ofNat 8 kind ∧
      beField (zeroFrame kind n) 2 2 = n ∧ beField (zeroFrame kind n) 4 4 = 0 ∧
      beField (zeroFrame kind n) 16 8 = 0 ∧ beField (zeroFrame kind n) 24 8 = 0 ∧
      (zeroFrame kind n).drop 32 = List.replicate n 0 := by
  have hl : (twinBody kind 0 0 0 0 []).length = 32 := by simp [twinBody, beBytes, leBytes_length]
  refine ⟨?_, rfl, ?_, ?_, ?_, ?_, ?_⟩
  · simp [zeroFrame, twinBody, beBytes, leBytes_length]
    omega
  · simp [zeroFrame, twinBody, beField, beNat, beBytes, leBytes, leNat]
    omega
  · simp [zeroFrame, twinBody, beField, beNat, beBytes, leBytes, leNat]
  · simp [zeroFrame, twinBody, beField, beNat, beBytes, leBytes, leNat]
  · simp [zeroFrame, twinBody, beField, beNat, beBytes, leBytes, leNat]
  · simp [zeroFrame, twinBody, beBytes, leBytes]

/-- A frame of every sequenced kind, of the least length, where the pair takes it. -/
theorem witness_twin_frames :
    (∀ x ∈ [(2, 64, TwinState.paired), (3, 9, .paired), (5, 1568, .unpaired), (6, 8, .paired)],
      ∃ bs s1, recvTwin (pairIn x.2.2) x.1 bs false = (some (List.replicate x.2.1 0), s1) ∧
        s1.twin.state = x.2.2 ∧ s1.twin.unpairAq = none) ∧
    regionOf 0 = .lpddr ∧
    (∀ k ∈ [1, 2, 3, 4, 6], let bs := leBytes 1 k
      (pairIn .paired).twin.link = true ∧ powered (pairIn .paired) = true ∧
        (pairIn .paired).err.fatal = false ∧ (bs.getD 0 0).toNat = k ∧
        twinGood (pairIn .paired) bs true = false) := by
  refine ⟨?_, rfl, ?_⟩
  · intro x hx
    have h : x.2.1 < 65536 ∧ x.1 < 256 ∧ twinLenOk x.1 x.2.1 = true ∧ (x.1 = 5 → 8 ≤ x.2.1) := by
      revert x
      decide
    obtain ⟨h1, h2, h3, h4, h5, h6, h7⟩ := zeroFrame_fields x.1 x.2.1 h.1
    obtain ⟨s1, hs, hr⟩ := frame_taken x.2.2 x.1 x.2.1 (zeroFrame x.1 x.2.1) h1
      (by rw [h2, BitVec.toNat_ofNat]; omega) h3 h4 h5 h6 h.2.2.1 h.2.2.2
    rw [h7] at hs
    exact ⟨_, s1, hs, hr⟩
  · simp only [twinGood, Bool.not_true, Bool.false_and]
    decide +kernel

theorem witness_twin_times :
    (let s := twinned Twin.reset 0
     s.twin.link = false ∧ portRuns s = true) ∧
    (let s := twinned { Twin.reset with link := true, key := some aKey, rxNext := 1 } 15000
     twinSpeaks s = true ∧ s.err.fatal = false ∧ s.twin.hbAt + 15000 ≤ fdTime s ∧
       s.twin.reported < s.twin.rxNext ∧ s.twin.reportAt + 1500 ≤ fdTime s) ∧
    (let s := twinned { Twin.reset with link := true, key := some aKey, items := [anItem 6] } 6000
     twinSends s = true ∧ s.twin.ackAt + 6000 ≤ fdTime s ∧ s.twin.items.filter TwinItem.sent ≠ []) ∧
    (let s := { twinned Twin.reset 0 with clocks := [(5, 1250)] }
     s.twin.hbLow = false ∧ s.twin.hbGill + 1250 ≤ glTime s) ∧
    (∀ x ∈ [(true, 0, 30000, true), (true, 1, 30000, false), (false, 0, 75000, true)],
      let s := twinned { Twin.reset with state := .paired, hbInactive := x.1, rxAt := x.2.1 } x.2.2.1
      mirroring s = true ∧ s.twin.hbLow = false ∧ s.err.fatal = false ∧ hbGone s = x.1 ∧
        twinQuiet s (if x.1 then 20 else 50) = x.2.2.2) ∧
    (let s := { pairIn .paired with regs := [(twinCtl, 1)] }
     s.twin.state = .paired ∧ s.twin.unpairAq = none ∧ (reg s twinCtl).getLsbD 0 = true) ∧
    (let s := twinned { Twin.reset with state := .survivor, announces := 1 } 3000000
     s.twin.announces ≠ 0 ∧ s.twin.state = .survivor ∧ s.err.fatal = false ∧
       s.twin.annAt + (3 - s.twin.announces) * 1500000 ≤ fdTime s) := by
  decide +kernel

/-! Words written out from R61 and R63, field by field. -/

/-- One instruction of every format. -/
theorem test_words :
    wordR 0x01 0x00 rF = 0x0400088600000000 ∧
    wordR 0x01 0x00 { rF with psel := 3, pneg := 1 } = 0x05C0088600000000 ∧
    wordI 0x02 0x00 iF = 0x0800088000000005 ∧ wordW 0x04 0x00 wF = 0x1000080000000005 ∧
    wordB 0x08 0x00 bF = 0x200010C000000004 ∧ wordI 0x0C 0x03 iF = 0x3003088000000005 ∧
    wordV 0x14 0x00 vF = 0x5000246000000000 ∧ wordP 0x1C 0x00 pF = 0x7000298000000000 ∧
    wordT 0x20 0x00 { tF with ta := 1, sa := 2, sb := 3, fmtA := 11, fmtB := 11 } = 0x800022182EC00000 ∧
    wordS 0x28 0x00 { sF with rd := 0 } = 0xA000008600000001 ∧
    wordN 0x2C 0x00 { nF with len := 32 } = 0xB000008600800000 ∧
    wordI 0x30 0x02 { iF with rd := 0, ra := 0 } = 0xC002000000000005 := by decide

/-- The opcode map at the ends of its runs (R63), and the all-zero word (R62). -/
theorem test_opcodes :
    opcodeReserved 0x0410000000000000 = false ∧ opcodeReserved 0x0411000000000000 = true ∧
    opcodeReserved 0x1410000000000000 = false ∧ opcodeReserved 0x1406000000000000 = true ∧
    opcodeReserved 0x3404000000000000 = true ∧ opcodeReserved 0x3407000000000000 = false ∧
    opcodeReserved 0 = true := by decide

/-! Commands that are not well formed. -/

/-- One past the last number of every kind. -/
theorem test_ill_formed :
    Instr.wf (.add (64 * 16640) rF) = false ∧ Instr.wf (.groupStart 0 16640) = false ∧
    Instr.wf (.moverComplete 1088 0) = false ∧ Instr.wf (.launch 65536) = false ∧
    Instr.wf (.gridPace true 65) = false ∧ Instr.wf (.portLinkUp 8) = false ∧
    Instr.wf (.ack { port := 8, src := 0, dst := 0, bytes := [] }) = false ∧
    Instr.wf (.ackTimer 0 4194304) = false ∧ Instr.wf (.txload 0 2048) = false ∧
    Instr.wf (.syncWindowRead 0 32768) = false ∧ Instr.wf (.dispatchComplete 0 1024) = false ∧
    Instr.wf (.bushelRerun 65536) = false ∧ Instr.wf (.gillRuleFire 32) = false ∧
    Instr.wf (.gillSample 8 0) = false ∧ Instr.wf (.invalidationComplete 66) = false ∧
    Instr.wf (.readClearRegister 0 4) = false ∧ Instr.wf (.hdmRead (2 ^ 48) 1) = false ∧
    Instr.wf (.cxlLinkUp 4 2) = false ∧ Instr.wf (.cxlLinkUp 1 5) = false ∧
    Instr.wf (.errorDetect 0x11 0 0 none 0 0 0) = false := by decide

/-- The last ones. -/
theorem test_well_formed :
    Instr.wf (.add (64 * 16640 - 1) rF) = true ∧ Instr.wf (.groupStart 0 16639) = true ∧
    Instr.wf (.moverComplete 1087 0) = true ∧ Instr.wf (.launch 65535) = true ∧
    Instr.wf (.ackTimer 64 4194303) = true ∧ Instr.wf (.txload 64 2047) = true ∧
    Instr.wf (.readClearRegister 0 8) = true ∧ Instr.wf (.cxlLinkUp 3 4) = true := by decide

/-! Values. -/

/-- The state that an outcome gives. -/
def after : Host.Outcome State Fault Refusal → State
  | .next s => s
  | _ => State.reset

/-- x1 after a command of thread 0 whose word is `w`. -/
def resultOf (c : Instr) (regs : Table Word) (w : Word) : Word :=
  readS (thread (after (exec c (one regs w))) 0) 1

/-- R64: arithmetic wraps modulo 2^64. -/
theorem test_add_wraps :
    resultOf (.add 0 rF) [(2, 0xFFFFFFFFFFFFFFFF), (3, 2)] (wordR 0x01 0x00 rF) = 1 := by decide +kernel

/-- R64: a shift by rb[5:0]. -/
theorem test_sar_64 :
    resultOf (.sar 0 rF) [(2, 0x8000000000000000), (3, 65)] (wordR 0x01 0x07 rF) = 0xC000000000000000 := by
  decide +kernel

/-- R64: division by zero, and -2^63 by -1. -/
theorem test_div :
    resultOf (.div 0 rF) [(2, 7)] (wordR 0x03 0x04 rF) = 0xFFFFFFFFFFFFFFFF ∧
    resultOf (.div 0 rF) [(2, 0x8000000000000000), (3, 0xFFFFFFFFFFFFFFFF)] (wordR 0x03 0x04 rF) =
      0x8000000000000000 := by decide +kernel

/-- R64: the remainder by zero is ra, and that of -2^63 by -1 is 0. -/
theorem test_rem :
    resultOf (.rem 0 rF) [(2, 7)] (wordR 0x03 0x06 rF) = 7 ∧
    resultOf (.rem 0 rF) [(1, 5), (2, 0x8000000000000000), (3, 0xFFFFFFFFFFFFFFFF)]
      (wordR 0x03 0x06 rF) = 0 := by decide +kernel

/-- R64: movh replaces rd[63:43] and keeps rd[42:0]. -/
theorem test_movh :
    resultOf (.movh 0 { wF with imm := 0x1FFFFF }) [(1, 0x123)] (wordW 0x04 0x01 { wF with imm := 0x1FFFFF }) =
      0xFFFFF80000000123 := by decide +kernel

/-- R64: the leading zeros of 0. -/
theorem test_clz_zero :
    resultOf (.clz 0 { rF with rb := 0 }) [] (wordR 0x01 0x0F { rF with rb := 0 }) = 64 := by decide +kernel

/-- R61: imm32 is sign-extended in logical operations too. -/
theorem test_andi_negative :
    resultOf (.andi 0 { iF with imm := 0x80000000 }) [(2, 0xFFFFFFFFFFFFFFFF)]
      (wordI 0x02 0x02 { iF with imm := 0x80000000 }) = 0xFFFFFFFF80000000 := by decide +kernel

/-- The check value of CRC-32C (R262): that of the digits 1 to 9. -/
theorem test_crc32c :
    crc32c [0x31, 0x32, 0x33, 0x34, 0x35, 0x36, 0x37, 0x38, 0x39] = 0xE3069283 := by decide +kernel

/-- R434, R435: DISCARD empties the staged slot; MB_STAT shows status 0. -/
theorem test_discard :
    let s := { serving with boot := { serving.boot with status := 5, staged := some [1] } }
    (after (exec .discard s)).boot.staged = none ∧ (after (exec .discard s)).boot.status = 0 := by
  decide +kernel

/-- R362: busy for at least 100 us after power-up. -/
theorem test_drdy_busy :
    let s := { serving with drdy := { state := .busy, causes := [], since := 0, pending := false } }
    (after (exec .drdyBusyMinimumEnd { s with clocks := [(5, 4999)] })).drdy.state = .busy ∧
      (after (exec .drdyBusyMinimumEnd { s with clocks := [(5, 5000)] })).drdy.state = .ready := by
  decide +kernel

/-- R309: without SYNC the next start of a cycle at least 64 ticks ahead. -/
theorem test_switch_time : switchTime 1000 500 300 = 1100 ∧ switchTime 1000 1064 300 = 1064 := by decide

end Sys2Proof.Tests
end

section
/-! SUPPORT. What a step runs, that every command answers, and what stands in the device after
power-up. -/

namespace Sys2Proof.Machine

/-! The queue and `exec`. -/

/-- With commands waiting, the first acts on the state with the rest of the queue. -/
theorem step_of_pending_cons {s : State} {c : Instr} {cs : List Instr} (h : s.pending = c :: cs) :
    step s = exec c { s with pending := cs } := by
  unfold step
  rw [h]

/-- With no command waiting, time passes. -/
theorem step_of_pending_nil {s : State} (h : s.pending = []) : step s = .next (idleTick s) := by
  unfold step
  rw [h]

/-- No command faults or is refused. Every arm of `exec` is a function whose outermost constructor is
`.next`, whatever it decides below that, so in each case the next state is found by unfolding. -/
theorem exec_completes (c : Instr) (s : State) : ∃ s', exec c s = .next s' := by
  cases c <;> exact ⟨_, rfl⟩

/-! The state after power-up: every table but the partitions' is empty, so it reads its default. -/

theorem partition_reset (p : Nat) : partition State.reset p =
    if p = 0 then { Partition.idle with state := .run } else Partition.idle := rfl

theorem thread_reset (t : Nat) : thread State.reset t = Thread.free := rfl

theorem ring_reset (r : Nat) : ring State.reset r = Ring.idle := rfl

theorem memByte_reset (a : Nat) : memByte State.reset a = 0 := rfl

theorem accGet_reset (e a m n : Nat) : accGet State.reset e a m n = 0 := rfl

/-- Host memory has no check state, and no other word is listed. -/
theorem wordCheck_reset (w : Nat) : wordCheck State.reset w = .good := ite_self _

theorem syncObj_reset (k : Nat) : syncObj State.reset k = SyncObj.free := rfl

/-- Settles O1, by the two cases of the queue. -/
theorem stepRunsTheFrontCommand : Obligations.step_runs_the_front_command :=
  ⟨fun _ _ _ => step_of_pending_cons, fun _ => step_of_pending_nil⟩

/-- Settles O2, by the commands one by one. -/
theorem everyCommandCompletes : Obligations.every_command_completes :=
  exec_completes

/-- Settles O3, from what each table reads in the reset state. -/
theorem stateAfterPowerUp : Obligations.state_after_power_up := by
  have run : (partition State.reset 0).state = .run := by rw [partition_reset, if_pos rfl]
  have idle : ∀ p, p ≠ 0 → (partition State.reset p).state = .idle := fun p hp => by
    rw [partition_reset, if_neg hp, Partition.idle]
  exact ⟨rfl, run, idle, fun t => congrArg Thread.state (thread_reset t),
    fun r => congrArg Ring.state (ring_reset r), memByte_reset, accGet_reset, wordCheck_reset,
    fun k => congrArg SyncObj.state (syncObj_reset k), rfl, rfl, rfl, rfl, rfl, rfl⟩

end Sys2Proof.Machine
end

section
/-! SUPPORT. Host accesses by BAR2, HDM and registers, and the mailbox's GO. -/

namespace Sys2Proof.Machine

/-! BAR2 and HDM (R343 to R345). -/

section
variable {s s1 s2 : State} {fn off n pa : Nat} {bs : List Byte}

theorem bar2Read_good (hs : bar2Served s fn off n = true)
    (ht : bar2Target s fn off false = (.pa pa, s1)) (hr : readMem s1 pa n = (false, bs, s2)) :
    exec (.bar2Read fn off n) s = .next { s2 with readData := 0 :: bs } := by
  simp [execBar2Read, hs, ht, hr]

/-- A poisoned word answers a completion with EP set and is recorded. -/
theorem bar2Read_poisoned (hs : bar2Served s fn off n = true)
    (ht : bar2Target s fn off false = (.pa pa, s1)) (hr : readMem s1 pa n = (true, bs, s2)) :
    exec (.bar2Read fn off n) s = .next
      { pathFail s2 fn 0x0D pa false ((bar2Reg s fn).extractLsb' 0 20) with readData := [3] } := by
  simp [execBar2Read, hs, ht, hr]

/-- With EN clear a read is an Unsupported Request. -/
theorem bar2Read_off (hs : bar2Served s fn off n = true)
    (ht : bar2Target s fn off false = (.off, s1)) :
    exec (.bar2Read fn off n) s = .next
      { pathFail s1 fn 0 off false ((bar2Reg s fn).extractLsb' 0 20) with readData := [1] } := by
  simp [execBar2Read, hs, ht]

theorem bar2Write_pa (hs : bar2Served s fn off bs.length = true)
    (ht : bar2Target s fn off true = (.pa pa, s1)) :
    exec (.bar2Write fn off bs) s = .next (writeMem s1 pa bs) := by
  simp [execBar2Write, hs, ht]

theorem hdmRead_good (hs : hdmServed s pa n = true) (hc : hdmCheck s pa false = (true, s1))
    (hr : readMem s1 pa n = (false, bs, s2)) :
    exec (.hdmRead pa n) s = .next { s2 with readData := 0 :: bs } := by
  simp [execHdmRead, hs, hc, hr]

/-- A read that the owner check turns away answers poison. -/
theorem hdmRead_denied (hs : hdmServed s pa n = true) (hc : hdmCheck s pa false = (false, s1)) :
    exec (.hdmRead pa n) s = .next
      { pathFail s1 (bits (reg s haHdmId) 32 7) 0x05 pa false 0 with readData := [3] } := by
  simp [execHdmRead, hs, hc]

theorem hdmWrite_allowed (hs : hdmServed s pa bs.length = true)
    (hc : hdmCheck s pa true = (true, s1)) :
    exec (.hdmWrite pa bs) s = .next (writeMem s1 pa bs) := by
  simp [execHdmWrite, hs, hc]

end

/-! Reads of registers (R4, R89). -/

section
variable {s : State} {fn off : Nat} (hp : powered s = true) (hf : fnReached s fn = true)
include hp hf

/-- A read that is not aligned answers zeros. -/
theorem readClearRegister_unaligned (ha : off % 8 ≠ 0) :
    exec (.readClearRegister fn off) s = .next { s with readData := leBytes 8 0 } := by
  simp [execReadClearRegister, hp, hf, ha]

/-- A word of the debug window's local store is read as memory is. -/
theorem readClearRegister_local {r : List Byte × State} (ha : off % 8 = 0) (h0 : fn = 0)
    (ho : 0x2000000 ≤ off) (hl : dbgLocal s (off - 0x2000000) = some r) :
    exec (.readClearRegister fn off) s = .next { r.2 with readData := r.1 } := by
  subst h0
  simp [execReadClearRegister, hp, hf, ha, ho, hl]

/-- Every other register answers its value, and its read-clear fields are cleared. -/
theorem readClearRegister_plain (ha : off % 8 = 0)
    (hl : fn ≠ 0 ∨ off < 0x2000000 ∨ dbgLocal s (off - 0x2000000) = none) :
    exec (.readClearRegister fn off) s =
      .next { clearRead s fn off with readData := leBytes 8 (regView s fn off) } := by
  have noLocal :
      (if fn = 0 ∧ 0x2000000 ≤ off then dbgLocal s (off - 0x2000000) else none) = none := by
    obtain hfn | hlow | hnone := hl
    · exact if_neg fun h => hfn h.1
    · exact if_neg fun h => by omega
    · rw [hnone, ite_self]
  simp [execReadClearRegister, hp, hf, ha, noLocal]

end

/-- A ring read after one ring has changed. -/
theorem ring_modRing (s : State) (r q : Nat) (f : Ring → Ring)
    (h : tableWf Ring.idle s.rings = true) :
    ring (modRing s r f) q = if q = r then f (ring s r) else ring s q :=
  tget_tset Ring.idle s.rings r (f (ring s r)) q h

/-- Reading MALF and OVFEV clears these two and nothing else of the ring (R4). -/
theorem ring_clearRing_counts {s : State} {r : Nat} (hr : ring s r ≠ Ring.idle)
    (h : tableWf Ring.idle s.rings = true) :
    ring (clearRing s r 0x50) r = { ring s r with malf := 0, ovfev := 0 } := by
  unfold clearRing
  rw [if_pos ⟨rfl, hr⟩, ring_modRing s r r _ h, if_pos rfl]

/-! Writes of registers and the mailbox (R4, R6, R434). -/

/-- Elsewhere than at the mailbox's command a write does what the register's fields say. -/
theorem registerWrite_not_mailbox {fn off : Nat} (v : Word) (s : State)
    (h : fn ≠ 0 ∨ off ≠ 0x0010000) :
    exec (.registerWrite fn off v) s = .next (regWrite s fn off v) := by
  have noGo : ¬(fn = 0 ∧ off = 0x0010000 ∧ v.getLsbD 63 ∧ bar0 s ∧ s.boot.start.isNone) := by
    rintro ⟨hfn, hoff, -⟩
    exact h.elim (absurd hfn) (absurd hoff)
  rw [exec_registerWrite, execRegisterWrite, if_neg noGo]

/-- With GO set the named mailbox command runs after the write. -/
theorem registerWrite_mailbox_go {v : Word} {s : State} (hv : v.getLsbD 63 = true)
    (hb : bar0 s = true) (hs : s.boot.start = none) :
    exec (.registerWrite 0 0x0010000 v) s =
      .next (mailboxRow (bits v 0 8) (regWrite s 0 0x0010000 v)) := by
  have go : 0 = 0 ∧ 0x0010000 = 0x0010000 ∧ v.getLsbD 63 ∧ bar0 s ∧ s.boot.start.isNone :=
    ⟨rfl, rfl, hv, hb, by rw [hs]; rfl⟩
  rw [exec_registerWrite, execRegisterWrite, if_pos go]

/-- A mailbox command does what its OP starts: one case per row of the mailbox's table. -/
theorem exec_of_mailboxRow {row : Instr × Nat × (State → State)} (h : MailboxRow row) (s : State) :
    exec row.1 s = .next (mailboxRow row.2.1 s) := by
  simp only [MailboxRow, List.mem_cons, List.not_mem_nil, or_false] at h
  obtain rfl | rfl | rfl | rfl | rfl | rfl | rfl := h <;> rfl

/-- Settles O57, from the results of BAR2, HDM and register accesses. -/
theorem hostAccessResults : Obligations.host_access_results := by
  refine ⟨⟨?_, ?_, ?_, ?_, ?_, ?_⟩, ⟨?_, ?_, ?_, ?_, ?_⟩⟩
  · exact fun _ _ _ _ _ _ hs ht =>
      ⟨fun _ _ => bar2Read_good hs ht, fun _ _ => bar2Read_poisoned hs ht⟩
  · exact fun _ _ _ _ _ => bar2Read_off
  · exact fun _ _ _ _ _ _ => bar2Write_pa
  · exact fun _ _ _ _ hs hc _ _ => hdmRead_good hs hc
  · exact fun _ _ _ _ => hdmRead_denied
  · exact fun _ _ _ _ => hdmWrite_allowed
  · exact fun _ _ _ hp hf => ⟨readClearRegister_plain hp hf,
      fun _ => readClearRegister_local hp hf, readClearRegister_unaligned hp hf⟩
  · intro s r off hoff hr h
    subst hoff
    simp [ring_clearRing_counts hr h]
  · exact fun _ _ v s => registerWrite_not_mailbox v s
  · exact fun _ _ => registerWrite_mailbox_go
  · exact fun _ h s => exec_of_mailboxRow h s

end Sys2Proof.Machine
end

section
/-! SUPPORT. Gill: its samples and rules, its inputs, its silence, LOCK and SMBus. -/

namespace Sys2Proof.Machine

/-! Channels (R404). -/

theorem filterSample_none (s : State) (param : Nat) (last : Int) (h : List Int) :
    filterSample s 0 param last h = (h.headD 0, s) := rfl

/-- A mean that is exact: the samples are there, and the quotient leaves nothing free. -/
theorem filterSample_boxcar_exact {s : State} {n : Nat} {h : List Int} {last : Int} (hn : 0 < n)
    (hl : n ≤ h.length) (hd : ((h.take n).foldl (· + ·) 0) % (n : Int) = 0) :
    filterSample s 1 n last h = (((h.take n).foldl (· + ·) 0) / (n : Int), s) := by
  have inRange : ¬(n = 0 ∨ h.length < n) := by omega
  simp [filterSample, inRange, roundFree, hd]

theorem gillSample_filtered {c : Nat} {x : BitVec 16} {s s1 : State} {v : Int} (hc : c < 8)
    (hr : gillRuns s = true)
    (hv : filterSample s (bits (reg s (glCh c)) 30 2) (bits (reg s (glCh c)) 24 6)
      (gillChannel s c).value (x.toInt :: (gillChannel s c).history.take 62) = (v, s1)) :
    exec (.gillSample c x) s = .next (evalRules (modGill s1 fun g => { g with
      channels := tset GillChannel.reset g.channels c
        { value := (BitVec.ofInt 16 v).toInt, raw := x.toInt
          history := x.toInt :: (gillChannel s c).history.take 62 } }) false c) := by
  simp [execGillSample, hr, Nat.not_le.mpr hc, hv]

/-! Rules (R406, R403). -/

/-- What a due rule waits for holds now, not only since its time began. -/
theorem ruleWaits_of_ruleDue {s : State} {i : Nat} (h : ruleDue s i = true) :
    ruleWaits s i = true :=
  (Bool.and_eq_true_iff.mp h).2

section
variable {s : State} {i : Nat} (hi : i < 32) (hr : gillRuns s = true) (hon : ruleOn s i = true)
  (hd : ruleDue s i = true)
include hi hr hon hd

theorem gillRuleFire_wake (hf : ruleFired s i = false) (ha : ruleAction s i = 1) :
    exec (.gillRuleFire i) s = .next (gillWake (ruleEvent (setFired s i true) i true)) := by
  simp [execGillRuleFire, Nat.not_le.mpr hi, hr, hon, hf, hd, ha]

theorem gillRuleFire_trip (hf : ruleFired s i = false) (ha : ruleAction s i = 3)
    (hp : s.sched.power ≠ .standby) :
    exec (.gillRuleFire i) s = .next (tripStandby (ruleEvent (setFired s i true) i true) i) := by
  simp [execGillRuleFire, Nat.not_le.mpr hi, hr, hon, hf, hd, ha, hp]

/-- ATTENTION and THROTTLE: the event, and the level follows from the rules that have fired. -/
theorem gillRuleFire_eventOnly (hf : ruleFired s i = false) (hw : ruleAction s i ≠ 1)
    (ht : ruleAction s i ≠ 3) :
    exec (.gillRuleFire i) s = .next (ruleEvent (setFired s i true) i true) := by
  simp [execGillRuleFire, Nat.not_le.mpr hi, hr, hon, hf, hd]

/-- A release with no boot waiting for it. -/
theorem gillRuleRelease_noBoot (hf : ruleFired s i = true)
    (hw : (ruleEvent (setFired s i false) i false).gill.wake = false) :
    exec (.gillRuleRelease i) s = .next (ruleEvent (setFired s i false) i false) := by
  simp [execGillRuleRelease, Nat.not_le.mpr hi, hr, hon, hf, hd, hw]

end

/-! Inputs (R405). -/

section
variable {s : State} {d : Nat} (hr : gillRuns s = true)
include hr

theorem gillInputChange_accepted {level : Bool} (hd : d < 7) (hp : (gillInput s d).pin ≠ level)
    (hc : (gillInput s d).chatter = false) :
    exec (.gillInputChange d level) s =
      .next (acceptChange (setInput s d { gillInput s d with pin := level }) d) := by
  simp [execGillInputChange, Nat.not_le.mpr hd, hr, hp, hc]

/-- In CHATTER a change is only noted. -/
theorem gillInputChange_noted {level : Bool} (hd : d < 7) (hp : (gillInput s d).pin ≠ level)
    (hc : (gillInput s d).chatter = true) :
    exec (.gillInputChange d level) s = .next (setInput s d { gillInput s d with
      pin := level, pinTimes := glTime s :: (gillInput s d).pinTimes }) := by
  simp [execGillInputChange, Nat.not_le.mpr hd, hr, hp, hc]

theorem gillInputStuck_held (hl : (gillInput s d).level = true)
    (hs : (gillInput s d).stuck = false) (h0 : bits (reg s (glDin d)) 32 16 ≠ 0)
    (ht : (gillInput s d).since + bits (reg s (glDin d)) 32 16 * 50000 ≤ glTime s) :
    exec (.gillInputStuck d) s =
      .next (evalRules (inputEvent (setInput s d { gillInput s d with stuck := true }) d 3)
        true d) := by
  simp [execGillInputStuck, glMs, hr, hl, hs, h0, Nat.not_lt.mpr ht]

theorem gillStuckEnd_quiet (hs : (gillInput s d).stuck = true)
    (hl : (gillInput s d).level = false) (ht : (gillInput s d).since + 50000 ≤ glTime s) :
    exec (.gillStuckEnd d) s =
      .next (evalRules (inputEvent (setInput s d { gillInput s d with stuck := false }) d 4)
        true d) := by
  simp [execGillStuckEnd, glMs, hr, hs, hl, Nat.not_lt.mpr ht]

/-- With no change on the pin and the pin where the level stands, nothing is left to accept. -/
theorem gillChatterEnd_quiet (hc : (gillInput s d).chatter = true)
    (ht : (gillInput s d).chatAt + 50000 ≤ glTime s) (hq : (gillInput s d).pinTimes = [])
    (hp : (gillInput s d).pin = (gillInput s d).level) :
    exec (.gillChatterEnd d) s =
      .next (inputEvent (setInput s d { gillInput s d with chatter := false, pinTimes := [] })
        d 2) := by
  simp [execGillChatterEnd, glMs, hr, hc, hq, hp, Nat.not_lt.mpr ht]

end

/-! Silence (R26, R409). -/

theorem gillSilent_recorded {s : State} (hs : s.sched.silent = false) (hp : powered s = true) :
    exec .gillSilent s = .next (post (recordError (bump (modGill (modSched s
      fun z => { z with silent := true }) fun g => { g with condAt := [] }) pwrStat 0 16 1)
      { code := 0x0D, unit := 0x12, inst := 0, part := none, status := 0, addr := 0, isVa := false
        ctx := 0, data0 := 0 }) (eqOf 0) 0x64 0 1 (BitVec.ofNat 64 s.sched.window)) := by
  simp [execGillSilent, hs, hp]

/-- Evaluating the digital rules changes nothing where no rule is digital. -/
theorem evalDigital_of_none {s : State} (h : ∀ i < 32, ruleDig s i = false) :
    (List.range 32).foldl (fun s i => if ruleDig s i then evalRule s i else s) s = s := by
  refine List.foldlRecOn (motive := (· = s)) _ _ rfl ?_
  rintro t rfl i hi
  simp [h i (List.mem_range.mp hi)]

theorem gillReportsResume_told {s : State} (hs : s.sched.silent = true) (hp : powered s = true)
    (h : ∀ i < 32, ruleDig s i = false) :
    exec .gillReportsResume s = .next (post (modSched s fun z => { z with silent := false }) (eqOf 0)
      0x64 0 2 (BitVec.ofNat 64 s.sched.window)) := by
  have noDigital : ∀ i < 32, ruleDig (modSched s fun z => { z with silent := false }) i = false := h
  simp [execGillReportsResume, hs, hp, evalDigital_of_none noDigital]

/-! LOCK (R408). -/

theorem gillLock_sets {s : State} (hb : bar0 s = true) :
    exec .gillLock s = .next (modGill s fun g => { g with lock := true }) := by
  have lockBit : (1#64 <<< 63).getLsbD 63 = true := by decide
  rw [exec_gillLock, execGillLock, if_pos hb, writeGl, if_pos rfl, if_pos lockBit]

theorem writeRule_of_ruleLocked {s : State} {i : Nat} {isA : Bool} {v : Word}
    (h : ruleLocked s i isA v = true) : writeRule s i isA v = s :=
  if_pos h

theorem ruleLocked_of_trip {s : State} {i : Nat} (isA : Bool) (v : Word)
    (hl : s.gill.lock = true) (ha : ruleAction s i = 3) : ruleLocked s i isA v = true := by
  simp [ruleLocked, hl, ha]

theorem ruleLocked_of_setsTrip {s : State} (i : Nat) {v : Word} (hl : s.gill.lock = true)
    (hv : bits v 60 3 = 3) : ruleLocked s i true v = true := by
  simp [ruleLocked, hl, hv]

/-! SMBus (R482 to R484). -/

theorem gillRuns_of_standby {s : State} (h : s.sched.power = .standby) : gillRuns s = true := by
  rw [gillRuns, h]
  rfl

theorem smbusOffset_iff {off : Nat} :
    smbusOffset off = true ↔ 0x8000 ≤ off ∧ off < 0x9000 ∧ off % 8 = 0 :=
  decide_eq_true_iff

theorem smbusStatus_of_runs {s : State} (hr : gillRuns s = true) :
    exec .smbusStatus s = .next { s with readData :=
      [BitVec.ofNat 8 (smbusPower s + flagBit s.gill.tripped 3 + flagBit s.boot.gill 4)] } := by
  simp [execSmbusStatus, hr]

theorem smbusRead_of_offset {off : Nat} {s : State} (hr : gillRuns s = true)
    (ho : smbusOffset off = true) :
    exec (.smbusRead off) s = .next { s with readData := leBytes 8 (readGl s off) } := by
  simp [execSmbusRead, hr, ho]

theorem smbusWrite_of_offset {off : Nat} (v : Word) {s : State} (hr : gillRuns s = true)
    (hg : s.boot.gill = true) (ho : smbusOffset off = true) :
    exec (.smbusWrite off v) s = .next (writeGl s off v) := by
  simp [execSmbusWrite, hr, hg, ho]

theorem smbusWake_standby {s : State} (h : s.sched.power = .standby) :
    exec (.smbusWake 0xA5) s = .next (bootFromStandby s) := by
  simp [execSmbusWake, gillRuns_of_standby h, h]

/-- Any data byte but A5H is ignored. -/
theorem smbusWake_otherByte {v : Byte} (s : State) (h : v ≠ 0xA5) :
    exec (.smbusWake v) s = .next s := by
  rw [exec_smbusWake, execSmbusWake, if_pos (Or.inr h)]

/-- Settles O59, from the results of Gill's samples and rules, of its inputs and silence, and of LOCK and
SMBus. -/
theorem gillResults : Obligations.gill_results := by
  refine ⟨⟨?_, ?_, ?_, ?_, ?_, ?_⟩, ⟨?_, ?_, ?_, ?_, ?_, ?_⟩, ⟨?_, ?_, ?_, ?_, ?_, ?_, ?_, ?_⟩⟩
  · exact fun _ _ _ _ _ => gillSample_filtered
  · exact filterSample_none
  · exact fun _ _ _ _ => filterSample_boxcar_exact
  · exact fun _ _ hi hr hon hf hd =>
      ⟨gillRuleFire_wake hi hr hon hd hf, gillRuleFire_trip hi hr hon hd hf,
        gillRuleFire_eventOnly hi hr hon hd hf⟩
  · exact fun _ _ hi hr hon hf hd => gillRuleRelease_noBoot hi hr hon hd hf
  · exact fun _ _ => ruleWaits_of_ruleDue
  · exact fun _ _ _ hd hr hp =>
      ⟨gillInputChange_accepted hr hd hp, gillInputChange_noted hr hd hp⟩
  · exact fun _ _ hl hs hr => gillInputStuck_held hr hl hs
  · exact fun _ _ hs hl hr => gillStuckEnd_quiet hr hs hl
  · exact fun _ _ hc hr => gillChatterEnd_quiet hr hc
  · exact fun _ => gillSilent_recorded
  · exact fun _ => gillReportsResume_told
  · exact fun _ => gillLock_sets
  · exact fun _ _ isA v hl ha => writeRule_of_ruleLocked (ruleLocked_of_trip isA v hl ha)
  · exact fun _ i _ hl hv => writeRule_of_ruleLocked (ruleLocked_of_setsTrip i hl hv)
  · exact fun _ => smbusStatus_of_runs
  · exact fun _ _ hr h1 h2 h3 => smbusRead_of_offset hr (smbusOffset_iff.mpr ⟨h1, h2, h3⟩)
  · exact fun _ v _ hr hg h1 h2 h3 =>
      smbusWrite_of_offset v hr hg (smbusOffset_iff.mpr ⟨h1, h2, h3⟩)
  · exact fun _ => smbusWake_standby
  · exact fun _ s => smbusWake_otherByte s

end Sys2Proof.Machine
end

section
/-! SUPPORT. Reads and writes of memory whose words hold no error (R66, R134, R136), and instructions
that write local store. -/

namespace Sys2Proof.Machine

/-! Words. -/

/-- Host memory begins and ends at a word's first byte. -/
theorem wordCheck_word (s : State) (pa : Nat) : wordCheck s (pa / 8 * 8) = wordCheck s pa := by
  have region : regionOf (pa / 8 * 8) = regionOf pa := by
    have bound (a : Nat) (ha : a % 8 = 0) : pa / 8 * 8 < a ↔ pa < a := by omega
    simp [regionOf, bound]
  unfold wordCheck
  rw [region, Nat.mul_div_cancel _ (by decide)]

/-- Bytes within others touch no further words. -/
theorem wordsGood_of_within {s : State} {pa n q m : Nat} (h : wordsGood s pa n) (hlo : pa ≤ q)
    (hhi : q + m ≤ pa + n) : wordsGood s q m := by
  intro k hk
  obtain ⟨j, hj⟩ : ∃ j, q / 8 = pa / 8 + j := ⟨q / 8 - pa / 8, by omega⟩
  have hm : m ≠ 0 := by
    rintro rfl
    exact absurd hk (by simp [wordSpan])
  have good := h (j + k) (by
    rw [wordSpan, if_neg hm] at hk
    rw [wordSpan, if_neg (by omega)]
    omega)
  rwa [show q / 8 * 8 + 8 * k = pa / 8 * 8 + 8 * (j + k) by omega]

/-- The word of the first byte of a run is among its words. -/
theorem wordCheck_of_wordsGood {s : State} {pa n : Nat} (h : wordsGood s pa n) (hn : n ≠ 0) :
    wordCheck s pa = .good := by
  rw [← wordCheck_word]
  exact h 0 (by simp [wordSpan, hn])

/-! Reads (R134). -/

theorem checkWord_good {s : State} {pa : Nat} (h : wordCheck s pa = .good) :
    checkWord s pa = (false, s) := by
  rw [checkWord, h]

theorem checkWords_good {s : State} (n pa : Nat)
    (h : ∀ k < n, wordCheck s (pa / 8 * 8 + 8 * k) = .good) : checkWords s pa n = (false, s) := by
  induction n generalizing pa with
  | zero => rfl
  | succ n ih =>
    have first : wordCheck s pa = .good := by
      rw [← wordCheck_word]
      exact h 0 (by omega)
    have rest : checkWords s (pa / 8 * 8 + 8) n = (false, s) := by
      refine ih _ fun k hk => ?_
      have good := h (k + 1) (by omega)
      rwa [show (pa / 8 * 8 + 8) / 8 * 8 + 8 * k = pa / 8 * 8 + 8 * (k + 1) by omega]
    simp [checkWords, checkWord_good first, rest]

theorem lpddrAwake_of_region {s : State} {pa : Nat} (h : regionOf pa ≠ .lpddr) :
    lpddrAwake s pa = s := by
  simp [lpddrAwake, h]

theorem readMem_good {s : State} {pa n : Nat} (hr : regionOf pa ≠ .lpddr)
    (hl : localLost s pa = false) (hg : wordsGood s pa n) :
    readMem s pa n = (false, peek s pa n, s) := by
  simp [readMem, lpddrAwake_of_region hr, checkWords_good _ _ hg, hl]

/-! Writes (R136). -/

theorem pokeMem_append (m : Table Byte) (pa : Nat) (xs ys : List Byte) :
    pokeMem m pa (xs ++ ys) = pokeMem (pokeMem m pa xs) (pa + xs.length) ys := by
  induction xs generalizing m pa with
  | nil => rfl
  | cons x xs ih =>
    simp only [List.cons_append, pokeMem, ih, List.length_cons]
    rw [Nat.add_assoc, Nat.add_comm 1]

/-- `s'` is `s` after the bytes `bs` were stored at `pa`: memory holds them, and of the check bits only
those of the words they lie in may differ. -/
structure Wrote (s : State) (pa : Nat) (bs : List Byte) (s' : State) : Prop where
  state : s' = { s with mem := pokeMem s.mem pa bs, checks := s'.checks }
  checks : ∀ w, (∀ b, pa ≤ b → b < pa + bs.length → b / 8 ≠ w) →
    tget .good s'.checks w = tget .good s.checks w

section
variable {s s' : State} {pa : Nat} {bs : List Byte} (h : Wrote s pa bs s')
include h

theorem Wrote.mem : s'.mem = pokeMem s.mem pa bs := congrArg State.mem h.state
theorem Wrote.thread (t : Nat) : thread s' t = thread s t :=
  have e := congrArg (Machine.thread · t) h.state
  e
theorem Wrote.engineNow (t : Nat) : engineNow s' t = engineNow s t :=
  have e := congrArg (Machine.engineNow · t) h.state
  e

end

theorem Wrote.nil (s : State) (pa : Nat) : Wrote s pa [] s := ⟨rfl, fun _ _ => rfl⟩

theorem Wrote.append {s s1 s2 : State} {pa q : Nat} {xs ys : List Byte} (h1 : Wrote s pa xs s1)
    (h2 : Wrote s1 q ys s2) (hq : q = pa + xs.length) : Wrote s pa (xs ++ ys) s2 := by
  subst hq
  refine ⟨?_, fun w hw => ?_⟩
  · rw [pokeMem_append]
    refine h2.state.trans ?_
    rw [h1.state]
  · rw [List.length_append] at hw
    rw [h2.checks w fun b hlo hhi => hw b (by omega) (by omega),
      h1.checks w fun b hlo hhi => hw b hlo (by omega)]

/-- The words before and behind the bytes that were written stay as they were. -/
theorem Wrote.wordCheck {s s' : State} {pa : Nat} {bs : List Byte} (h : Wrote s pa bs s') {q : Nat}
    (hq : ∀ b, pa ≤ b → b < pa + bs.length → b / 8 ≠ q / 8) : wordCheck s' q = wordCheck s q := by
  unfold Machine.wordCheck
  rw [h.checks _ hq]

/-- A write within a word that holds no error stores its bytes, as a whole word or as part of one. -/
theorem writeWord_good {s : State} {pa : Nat} (bs : List Byte) (h : wordCheck s pa = .good) :
    Wrote s pa bs (writeWord s pa bs) := by
  unfold writeWord
  split
  next whole =>
    exact ⟨rfl, fun w hw =>
      tget_tset_ne .good s.checks (pa / 8) .good w (Ne.symm (hw pa le_rfl (by omega)))⟩
  next =>
    rw [checkWord_good h]
    exact ⟨rfl, fun _ _ => rfl⟩

theorem writeWords_good {s : State} {pa : Nat} {bs : List Byte} (n : Nat)
    (hn : wordSpan pa bs.length = n) (hg : wordsGood s pa bs.length) :
    Wrote s pa bs (writeWords s pa bs n) := by
  induction n generalizing s pa bs with
  | zero =>
    have empty : bs = [] := by
      by_contra hne
      rw [wordSpan, if_neg (mt List.length_eq_zero_iff.mp hne)] at hn
      omega
    subst empty
    exact Wrote.nil s pa
  | succ n ih =>
    have hne : bs.length ≠ 0 := by
      intro h0
      simp [wordSpan, h0] at hn
    rw [wordSpan, if_neg hne] at hn
    rw [writeWords]
    generalize hk : 8 - pa % 8 = k
    have first := writeWord_good (bs.take k) (wordCheck_of_wordsGood hg hne)
    by_cases hlen : bs.length ≤ k
    · -- The bytes end in this word.
      have last : n = 0 := by omega
      subst last
      rwa [List.take_of_length_le hlen] at first ⊢
    · have taken : (bs.take k).length = k := by rw [List.length_take]; omega
      have rest := ih (s := writeWord s pa (bs.take k)) (pa := pa + k) (bs := bs.drop k) ?_ ?_
      · have both := first.append rest (by rw [taken])
        rwa [List.take_append_drop] at both
      · rw [List.length_drop, wordSpan, if_neg (by omega)]
        omega
      · intro j hj
        rw [first.wordCheck fun b hlo hhi => by rw [taken] at hhi; omega]
        refine wordsGood_of_within hg (Nat.le_add_right pa k) ?_ j hj
        rw [List.length_drop]
        omega

theorem writeMem_good {s : State} {pa : Nat} {bs : List Byte} (hr : regionOf pa ≠ .lpddr)
    (hg : wordsGood s pa bs.length) : Wrote s pa bs (writeMem s pa bs) := by
  rw [writeMem, lpddrAwake_of_region hr]
  exact writeWords_good _ rfl hg

/-! The window of a group (R52, R112). -/

theorem windowPa_add (s : State) (th : Thread) (a n : Nat) :
    windowPa s th (a + n) = windowPa s th a + n := by
  simp only [windowPa, localPa]
  omega

/-- Local store lies above the LPDDR5X. -/
theorem regionOf_windowPa (s : State) (th : Thread) (off : Nat) :
    regionOf (windowPa s th off) ≠ .lpddr := by
  have above : ¬ windowPa s th off < 0x010000000000 := by
    simp only [windowPa, localPa]
    omega
  rw [regionOf, if_neg above]
  split_ifs <;> decide

section
variable {s s' : State} (h : ChargedFrom s s')
include h

theorem ChargedFrom.peek (pa n : Nat) : peek s' pa n = peek s pa n := by
  induction n generalizing pa with
  | zero => rfl
  | succ n ih => simp only [Machine.peek, memByte, h.mem, ih]

theorem ChargedFrom.wordCheck (pa : Nat) : wordCheck s' pa = wordCheck s pa := by
  unfold Machine.wordCheck
  rw [h.checks]

theorem ChargedFrom.localLost (pa : Nat) : localLost s' pa = localLost s pa := by
  unfold Machine.localLost
  rw [h.gated]

/-- A charge does not change what a thread reads of its window. -/
theorem ChargedFrom.readWindow_good {th : Thread} {off n : Nat}
    (hl : Machine.localLost s (Machine.windowPa s th off) = false)
    (hg : wordsGood s (Machine.windowPa s th off) n) :
    readWindow s' th off n = (false, Machine.peek s (Machine.windowPa s th off) n, s') := by
  rw [readWindow, h.windowPa, readMem_good (regionOf_windowPa s th off), h.peek]
  · rwa [h.localLost]
  · exact fun k hk => (h.wordCheck _).trans (hg k hk)

/-- A charged thread's write to its window stores its bytes. -/
theorem ChargedFrom.writeWindow_good {th : Thread} {off : Nat} {bs : List Byte} (t : Nat)
    (x : Thread) (hg : wordsGood s (Machine.windowPa s th off) bs.length) :
    Wrote (setThread s' t x) (Machine.windowPa s th off) bs
      (writeWindow (setThread s' t x) th off bs) := by
  have place : Machine.windowPa (setThread s' t x) th off = Machine.windowPa s th off :=
    h.windowPa th off
  rw [writeWindow, place]
  exact writeMem_good (regionOf_windowPa s th off) fun k hk => (h.wordCheck _).trans (hg k hk)

end

/-! Instructions that change the state. -/

/-- An instruction that answers a state which differs in its thread alone, as `becomes_of_done` says of
one that answers the thread. -/
theorem becomes_of_state {c : Instr} {t : Nat} {i : Insn} {s : State}
    {body : State → Thread → Thread → Eff} {x : Thread}
    (hc : exec c s = .next (issue t i body s)) (h : Issues t i s)
    (hb : body (chargeIssue s t i.word) (thread s t) (advance i (thread s t)) =
      .state (setThread (chargeIssue s t i.word) t x))
    (hx : x.state = .ready ∨ x.state = .wait ∨ x.state = .spin) :
    ThreadBecomes c s t x := by
  refine becomes_of_done (body := fun _ _ _ => .done x) (hc.trans ?_) h rfl hx
  rw [issue_reaches _ h.toReaches, issue_reaches _ h.toReaches, hb]

theorem afterStep_withMem (s : State) (t : Nat) (b : Bool) (m : Table Byte) (cs : Table WordCheck) :
    afterStep { s with mem := m, checks := cs } t b =
      { afterStep s t b with mem := m, checks := cs } := by
  unfold afterStep
  split <;> rfl

@[simp] theorem afterStep_mem (s : State) (t : Nat) (b : Bool) : (afterStep s t b).mem = s.mem :=
  have rest := congrArg State.mem (afterStep_rest s t b)
  rest

@[simp] theorem afterStep_checks (s : State) (t : Nat) (b : Bool) :
    (afterStep s t b).checks = s.checks :=
  have rest := congrArg State.checks (afterStep_rest s t b)
  rest

/-- Frame of an issue that stores bytes. -/
theorem onlyThread_of_wrote {s s1 s2 : State} {t pa : Nat} {x : Thread} {bs : List Byte} {b : Bool}
    (charged : ChargedFrom s s1) (hw : Wrote (setThread s1 t x) pa bs s2) :
    OnlyThread s { afterStep s2 t b with mem := s.mem, checks := s.checks } t := by
  have same : { setThread s1 t x with mem := s.mem, checks := s.checks } = setThread s1 t x := by
    rw [← charged.mem, ← charged.checks]
    rfl
  rw [hw.state, afterStep_withMem]
  have only := onlyThread_of (t := t) (x := x) (b := b) charged
  rwa [← same, afterStep_withMem] at only

/-- An instruction that issues and stores bytes, its thread READY, WAIT or SPIN. -/
theorem stores_of_wrote {c : Instr} {t : Nat} {i : Insn} {s s2 : State}
    {body : State → Thread → Thread → Eff} {x : Thread} {pa : Nat} {bs : List Byte}
    (hc : exec c s = .next (issue t i body s)) (h : Issues t i s)
    (hb : body (chargeIssue s t i.word) (thread s t) (advance i (thread s t)) = .state s2)
    (hw : Wrote (setThread (chargeIssue s t i.word) t x) pa bs s2)
    (hm : Memory.wf s.mem = true) (hx : x.state = .ready ∨ x.state = .wait ∨ x.state = .spin) :
    Stores c s t x pa bs := by
  have charged := chargeIssue_from s t i.word
  have hx' : x ≠ Thread.free := ne_free_of_state x (by rcases hx with h | h | h <;> simp [h])
  have run : issue t i body s = afterStep s2 t (thread s t).stepping := by
    rw [issue_reaches body h.toReaches, hb]
    simp [h.gate]
  have mem : s2.mem = pokeMem s.mem pa bs := by
    rw [hw.mem, setThread_mem, charged.mem]
  refine ⟨_, hc.trans (congrArg _ run), ?_, onlyThread_of_wrote charged hw, fun a => ?_,
    fun w hout => ?_⟩
  · rw [thread_afterStep s2 t _ x ((hw.thread t).trans (thread_setThread_same _ t x hx')) hx,
      hw.engineNow, charged.engineNow]
  · rw [memByte, afterStep_mem, mem, tget_pokeMem s.mem pa bs a hm]
    rfl
  · rw [afterStep_checks, hw.checks w hout, setThread_checks, charged.checks]

end Sys2Proof.Machine
end

section
/-! SUPPORT. Vector instructions that write the active lanes of a register, lane by lane. -/

namespace Sys2Proof.Machine

@[simp] theorem writeS_state (th : Thread) (r : BitVec 5) (v : Word) :
    (writeS th r v).state = th.state := by
  unfold writeS
  split <;> rfl

@[simp] theorem writeV_state (th : Thread) (r : BitVec 4) (v : Vec) :
    (writeV th r v).state = th.state := rfl

/-- A command of an engine issues one instruction. -/
theorem engineInsn_unique {c : Instr} {t u : Nat} {i j : Insn} (hi : engineInsn c = some (t, i))
    (hj : engineInsn c = some (u, j)) : i = j :=
  congrArg Prod.snd (Option.some.inj (hi.symm.trans hj))

/-- An instruction that `vecLanes` runs leaves lane `k` of vd, where active, with the value that `g`
gives for `k`; a charge to the ledger does not change the random values. -/
theorem vecLanes_becomes {c : Instr} {t : Nat} {f : VForm} {s : State} {major minor : BitVec 6}
    {u : VUse} {fmts : List Fmt} {g : Fmt → Rnd → Nat → Thread → Nat → Nat} {i : Insn}
    (hi : i = insnV major minor u fmts [] .lanes false false false f)
    (hc : exec c s = .next (vecLanes major minor u fmts g t f s)) (h : Issues t i s) :
    ThreadBecomes c s t (writeV (advance i (thread s t)) f.vd
      (lanesWhere (vFmt f) (readV (thread s t) f.vd) (active (thread s t) f)
        fun k => g (vFmt f) (vRnd f) (srOf s (thread s t) k) (thread s t) k)) := by
  subst hi
  refine becomes_of_done hc h ?_ (Or.inl (by simp))
  simp only [(chargeIssue_from s t _).srOf]

/-- A command's instruction writes the active lanes of vd, lane `k` the value `val`: `vecLanes` runs it,
and what the row gives lane `k` is `val`. -/
def RunsLanes (cmd : Nat → VForm → Instr) (val : State → VForm → Thread → Nat → Nat) : Prop :=
  ∃ major minor u fmts, ∃ g : VForm → Fmt → Rnd → Nat → Thread → Nat → Nat,
    (∀ t f, engineInsn (cmd t f) =
      some (t, insnV major minor u fmts [] .lanes false false false f)) ∧
    (∀ t f s, exec (cmd t f) s = .next (vecLanes major minor u fmts (g f) t f s)) ∧
    ∀ s f th k, g f (vFmt f) (vRnd f) (srOf s th k) th k = val s f th k

theorem RunsLanes.becomes {cmd : Nat → VForm → Instr} {val : State → VForm → Thread → Nat → Nat}
    (hr : RunsLanes cmd val) {t : Nat} {f : VForm} {s : State} {i : Insn}
    (hi : engineInsn (cmd t f) = some (t, i)) (h : Issues t i s) :
    ThreadBecomes (cmd t f) s t (writeV (advance i (thread s t)) f.vd
      (lanesWhere (vFmt f) (readV (thread s t) f.vd) (active (thread s t) f)
        (val s f (thread s t)))) := by
  obtain ⟨major, minor, u, fmts, g, insn, runs, value⟩ := hr
  have becomes := vecLanes_becomes (engineInsn_unique hi (insn t f)) (runs t f s) h
  simpa only [value] using becomes

/-- The integer rows of R69 run lane by lane: each arm unfolds to `vecLanes` at its row's value, but for
`vsel`, which chooses between two lanes where its row chooses between two registers. -/
theorem runsLanes_of_vecIntRows : ∀ r ∈ vecIntRows, RunsLanes r.1 r.2 := by
  simp only [vecIntRows, List.forall_mem_cons, List.not_mem_nil, false_implies, implies_true,
    and_true]
  refine ⟨?_, ?_, ?_, ?_, ?_, ?_, ?_, ?_, ?_, ?_, ?_, ?_, ?_, ?_, ?vsel⟩
  case vsel =>
    refine ⟨_, _, _, _, _, engineInsn_vsel, exec_vsel, fun _ f th k => ?_⟩
    exact (apply_ite (srcLane (vFmt f) th · k) _ f.va f.vb).symm
  all_goals exact ⟨_, _, _, _, _, fun _ _ => rfl, fun _ _ _ => rfl, fun _ _ _ _ => rfl⟩

/-- The floating-point rows of R70 run lane by lane: each arm unfolds to `vecLanes` at its row's
value. -/
theorem runsLanes_of_vecFpRows : ∀ r ∈ vecFpRows, RunsLanes r.1 r.2 := by
  simp only [vecFpRows, List.forall_mem_cons, List.not_mem_nil, false_implies, implies_true,
    and_true]
  refine ⟨?_, ?_, ?_, ?_, ?_, ?_, ?_, ?_, ?_, ?_, ?_, ?_, ?_⟩
  all_goals exact ⟨_, _, _, _, _, fun _ _ => rfl, fun _ _ _ => rfl, fun _ _ _ _ => rfl⟩

/-- The permuting rows of R70 and R73 run lane by lane: each arm unfolds to `vecLanes` at its row's
value. -/
theorem runsLanes_of_vecPermRows : ∀ r ∈ vecPermRows, RunsLanes r.1 r.2 := by
  simp only [vecPermRows, List.forall_mem_cons, List.not_mem_nil, false_implies, implies_true,
    and_true]
  refine ⟨?_, ?_, ?_, ?_, ?_⟩
  all_goals exact ⟨_, _, _, _, _, fun _ _ => rfl, fun _ _ _ => rfl, fun _ _ _ _ => rfl⟩

theorem vext_becomes {t : Nat} {f : VForm} {s : State} {i : Insn}
    (hi : engineInsn (.vext t f) = some (t, i)) (h : Issues t i s) :
    ThreadBecomes (.vext t f) s t (writeS (advance i (thread s t)) f.rs
      (BitVec.ofNat 64 (srcLane (vFmt f) (thread s t) f.va f.imm.toNat))) := by
  obtain rfl := engineInsn_unique hi (engineInsn_vext t f)
  exact becomes_of_done (exec_vext t f s) h rfl (Or.inl (by simp))

theorem vins_becomes {t : Nat} {f : VForm} {s : State} {i : Insn}
    (hi : engineInsn (.vins t f) = some (t, i)) (h : Issues t i s) :
    ThreadBecomes (.vins t f) s t (writeV (advance i (thread s t)) f.vd
      (lanesWhere (vFmt f) (readV (thread s t) f.vd) (fun k => k == f.imm.toNat)
        (fun _ => (readS (thread s t) f.rs).toNat))) := by
  obtain rfl := engineInsn_unique hi (engineInsn_vins t f)
  exact becomes_of_done (exec_vins t f s) h rfl (Or.inl (by simp))

/-- Settles O12: each row runs lane by lane, so `RunsLanes.becomes` gives what its thread becomes. -/
theorem vectorArithmeticResults : Obligations.vector_arithmetic_results :=
  ⟨fun r hr _ _ _ _ hi h => (runsLanes_of_vecIntRows r hr).becomes hi h,
    fun r hr _ _ _ _ hi h => (runsLanes_of_vecFpRows r hr).becomes hi h,
    fun r hr _ _ _ _ hi h => (runsLanes_of_vecPermRows r hr).becomes hi h,
    fun _ _ _ _ => vext_becomes, fun _ _ _ _ => vins_becomes⟩

end Sys2Proof.Machine
end

section
/-! SUPPORT. Sparse containers in local store (R38, R39, R73). -/

namespace Sys2Proof.Machine

/-- `vbspk` in a window whose words hold no error stores the bytes of R38. -/
theorem vbspk_stores {t : Nat} {f : VForm} {s : State} {i : Insn} {a : Word} {bs : List Byte}
    (hi : engineInsn (.vbspk t f) = some (t, i)) (h : Issues t i s)
    (ha : readS (thread s t) f.rs = a)
    (hbs : bsmxBytes (vFmt f) (mxScale (readV (thread s t) f.vd))
      ((List.range 32).map (mxElem (vFmt f) (readV (thread s t) f.vd))) = bs)
    (hm : Memory.wf s.mem = true) (hlocal : checkLocal s (thread s t) a bs.length 8 = none)
    (hfree : storeMustWait s (engineOf t) ((groupOf s (thread s t)).winBase + a.toNat) bs.length =
      false)
    (hg : wordsGood s (windowPa s (thread s t) a.toNat) bs.length) :
    Stores (.vbspk t f) s t (advance i (thread s t)) (windowPa s (thread s t) a.toNat) bs := by
  have charged := chargeIssue_from s t i.word
  subst ha hbs
  obtain rfl := engineInsn_unique hi (engineInsn_vbspk t f)
  refine stores_of_wrote (exec_vbspk t f s) h ?_ (charged.writeWindow_good t _ hg) hm
    (Or.inl (by simp))
  generalize chargeIssue s t _ = s1 at charged ⊢
  simp [charged.checkLocal, charged.storeMustWait, charged.groupOf, hlocal, hfree]

/-- The bytes that `vbsup` finds: a container's header at the local address in rs, and behind it the
body, whose size the header's count gives (R38). -/
structure HoldsContainer (s : State) (th : Thread) (a : Word) (fm : Fmt) (hd bd : List Byte) :
    Prop where
  header : peek s (windowPa s th a.toNat) 8 = hd
  body : peek s (windowPa s th (a.toNat + 8)) (bsmxSize (hd.getD 6 0).toNat (fmtWidth fm) - 8) = bd
  count : (hd.getD 6 0).toNat =
    ((List.range 32).filter fun k => (leNat (hd.take 4)).testBit k).length
  format : hd.getD 5 0 = (codeOfFmt fm).setWidth 8
  reserved : hd.getD 7 0 = 0

/-- `vbsup` of a well-formed container writes the dense block to vd: its reads meet no error and each
of its checks passes. -/
theorem vbsup_becomes {t : Nat} {f : VForm} {s : State} {i : Insn} {a : Word} {n : Nat}
    {hd bd : List Byte} (hi : engineInsn (.vbsup t f) = some (t, i)) (h : Issues t i s)
    (ha : readS (thread s t) f.rs = a) (hn : bsmxSize (hd.getD 6 0).toNat (fmtWidth (vFmt f)) = n)
    (holds : HoldsContainer s (thread s t) a (vFmt f) hd bd)
    (hhead : checkLocal s (thread s t) a 8 8 = none) (hall : checkLocal s (thread s t) a n 8 = none)
    (hfree : readMustWait s (engineOf t) ((groupOf s (thread s t)).winBase + a.toNat) 40 = false)
    (hg : wordsGood s (windowPa s (thread s t) a.toNat) n)
    (hl : localLost s (windowPa s (thread s t) a.toNat) = false)
    (hl' : localLost s (windowPa s (thread s t) (a.toNat + 8)) = false) :
    ThreadBecomes (.vbsup t f) s t (writeV (advance i (thread s t)) f.vd (mxRegister (vFmt f)
      { scale := (hd.getD 4 0).toNat
        elems := bsmxDense (vFmt f) (leNat (hd.take 4)) bd })) := by
  have charged := chargeIssue_from s t i.word
  have long : 8 ≤ n := by
    rw [← hn]
    exact Nat.le_add_right 8 _
  have readHead := charged.readWindow_good (n := 8) hl (wordsGood_of_within hg le_rfl (by omega))
  have readBody := charged.readWindow_good (n := n - 8) hl' (wordsGood_of_within hg
    (by rw [windowPa_add]; omega) (by rw [windowPa_add]; omega))
  rw [holds.header] at readHead
  rw [← hn, holds.body] at readBody
  subst ha hn
  obtain rfl := engineInsn_unique hi (engineInsn_vbsup t f)
  refine becomes_of_state (exec_vbsup t f s) h ?_ (Or.inl (by simp))
  generalize chargeIssue s t _ = s1 at charged readHead readBody ⊢
  simp only [charged.checkLocal, charged.readMustWait, charged.groupOf, hhead, hall, hfree, readHead,
    readBody, holds.format, holds.reserved, ← holds.count, ne_eq, not_true, or_self,
    Bool.false_eq_true, if_false]

/-- Settles O14: `vbspk` stores the bytes of the container, `vbsup` reads its header and then its
body. -/
theorem sparseContainerResults : Obligations.sparse_container_results := by
  refine ⟨fun t f s i hi h hm hlocal hfree hg _ => vbspk_stores hi h rfl rfl hm hlocal hfree hg,
    fun t f s i hi h hhead hall hfree hg hl hl' _ hcount hformat hreserved => ?_⟩
  exact vbsup_becomes hi h rfl rfl ⟨rfl, rfl, hcount, hformat, hreserved⟩ hhead hall hfree hg hl hl'

end Sys2Proof.Machine
end

section
/-! SUPPORT. A container in local store that `vbsup` unpacks. -/

open Sys2Proof Sys2Proof.Machine

namespace Sys2Proof.Tests

/-- An E4M3 container at the window's first byte: elements 0 and 2 are stored, the others are zero. -/
def containerAt (w : Word) : State :=
  poke (one [] w) (localPa 0 0) [0x05, 0, 0, 0, 127, 11, 2, 0, 0x38, 0x40, 0, 0, 0, 0, 0, 0]

/-- `vbsup` of E4M3 from the local address in s2, which is 0, to v2. -/
def unpackF : VForm := { vF with va := 0, vb := 0, fmt := 11, rs := 2 }

/-- A container of two elements meets the hypotheses of `vbsup_becomes`, and they stand in the dense
block where its mask places them. -/
theorem witness_container : ∃ i, engineInsn (.vbsup 0 unpackF) = some (0, i) ∧
    Issues 0 i (containerAt i.word) ∧
    let s := containerAt i.word
    let th := thread s 0
    let pa := windowPa s th 0
    HoldsContainer s th 0 .e4m3 (peek s pa 8) (peek s (pa + 8) 8) ∧
      checkLocal s th 0 8 8 = none ∧ checkLocal s th 0 16 8 = none ∧
      readMustWait s 0 0 40 = false ∧ wordsGood s pa 16 ∧ localLost s pa = false ∧
      localLost s (pa + 8) = false ∧
      (bsmxDense .e4m3 (leNat ((peek s pa 8).take 4)) (peek s (pa + 8) 8)).take 4 =
        [0x38, 0, 0x40, 0] := by
  have issues := issues_one [] (insnV 0x1D 0x03 { vd := true, rs := true } fmtsMx [] (.bit 0) false
    false false unpackF) (by decide) (by decide) (by decide)
  exact ⟨_, rfl,
    { may := issues.may, word := issues.word, listed := issues.listed, legal := issues.legal
      ready := rfl, gate := issues.gate },
    ⟨rfl, by decide +kernel, by decide +kernel, by decide +kernel, by decide +kernel⟩,
    by decide +kernel⟩

end Sys2Proof.Tests
end

section
/-! SUPPORT. Words and commands (R60 to R63): the fields of each format, the command that a word of a
listed opcode spells, and that no other does. -/

namespace Sys2Proof.Machine

open BitVec (extractLsb'_append_extractLsb'_eq_extractLsb' extractLsb'_eq_self
  extractLsb'_append_eq_of_le extractLsb'_append_eq_of_add_le)

theorem append_inj {v w : Nat} {x x' : BitVec v} {y y' : BitVec w} (h : x ++ y = x' ++ y') :
    x = x' ∧ y = y' := by
  constructor
  · have high := congrArg (BitVec.extractLsb' w v) h
    simpa [extractLsb'_append_eq_of_le] using high
  · have low := congrArg (BitVec.extractLsb' 0 w) h
    simpa [extractLsb'_append_eq_of_add_le] using low

/-! The fields of a word. -/

/-- The major opcode of a word (R61). -/
def majorOf (w : Word) : BitVec 6 := w.extractLsb' 58 6

/-- The minor opcode of a word (R61). -/
def minorOf (w : Word) : BitVec 6 := w.extractLsb' 48 6

/-- The fields of a format R word (R61). -/
def fieldsR (w : Word) : RForm :=
  { psel := w.extractLsb' 55 3, pneg := w.extractLsb' 54 1, rd := w.extractLsb' 43 5
    ra := w.extractLsb' 38 5, rb := w.extractLsb' 33 5, rc := w.extractLsb' 28 5
    rsv := w.extractLsb' 0 28 }

/-- The fields of a format I word (R61). -/
def fieldsI (w : Word) : IForm :=
  { psel := w.extractLsb' 55 3, pneg := w.extractLsb' 54 1, rd := w.extractLsb' 43 5
    ra := w.extractLsb' 38 5, rsv := w.extractLsb' 32 6, imm := w.extractLsb' 0 32 }

/-- The fields of a format W word (R61). -/
def fieldsW (w : Word) : WForm :=
  { psel := w.extractLsb' 55 3, pneg := w.extractLsb' 54 1, rd := w.extractLsb' 43 5
    imm := w.extractLsb' 0 43 }

/-- The fields of a format B word (R61). -/
def fieldsB (w : Word) : BForm :=
  { psel := w.extractLsb' 55 3, pneg := w.extractLsb' 54 1, ra := w.extractLsb' 43 5
    rb := w.extractLsb' 38 5, off := w.extractLsb' 0 38 }

/-- The fields of a format V word (R61). -/
def fieldsV (w : Word) : VForm :=
  { psel := w.extractLsb' 55 3, pneg := w.extractLsb' 54 1, vd := w.extractLsb' 44 4
    va := w.extractLsb' 40 4, vb := w.extractLsb' 36 4, vc := w.extractLsb' 32 4
    fmt := w.extractLsb' 28 4, fmt2 := w.extractLsb' 24 4, rnd := w.extractLsb' 22 2
    rs := w.extractLsb' 17 5, pd := w.extractLsb' 14 3, imm := w.extractLsb' 0 14 }

/-- The fields of a format P word (R61). -/
def fieldsP (w : Word) : PForm :=
  { psel := w.extractLsb' 55 3, pneg := w.extractLsb' 54 1, pd := w.extractLsb' 45 3
    pa := w.extractLsb' 42 3, pb := w.extractLsb' 39 3, rd := w.extractLsb' 34 5
    ra := w.extractLsb' 29 5, rsv := w.extractLsb' 0 29 }

/-- The fields of a format T word (R61). -/
def fieldsT (w : Word) : TForm :=
  { psel := w.extractLsb' 55 3, pneg := w.extractLsb' 54 1, ta := w.extractLsb' 45 3
    sa := w.extractLsb' 40 5, sb := w.extractLsb' 35 5, sm := w.extractLsb' 30 5
    fmtA := w.extractLsb' 26 4, fmtB := w.extractLsb' 22 4, rnd := w.extractLsb' 20 2
    acc := w.extractLsb' 19 1, rsv := w.extractLsb' 0 19 }

/-- The fields of a format S word (R61). -/
def fieldsS (w : Word) : SForm :=
  { psel := w.extractLsb' 55 3, pneg := w.extractLsb' 54 1, rd := w.extractLsb' 43 5
    ra := w.extractLsb' 38 5, rb := w.extractLsb' 33 5, rsv := w.extractLsb' 20 13
    imm := w.extractLsb' 0 20 }

/-- The fields of a format N word (R61). -/
def fieldsN (w : Word) : NForm :=
  { psel := w.extractLsb' 55 3, pneg := w.extractLsb' 54 1, rd := w.extractLsb' 43 5
    ra := w.extractLsb' 38 5, rb := w.extractLsb' 33 5, rc := w.extractLsb' 28 5
    vs := w.extractLsb' 24 4, len := w.extractLsb' 18 6, rsv := w.extractLsb' 0 18 }

/-- A format lays its fields around the two opcodes: every word has its fields, and no bit of them is
dropped. -/
structure Format (α : Type) where
  word : BitVec 6 → BitVec 6 → α → Word
  fields : Word → α
  word_fields : ∀ w, word (majorOf w) (minorOf w) (fields w) = w
  word_inj : ∀ {a b f a' b' f'}, word a b f = word a' b' f' → a = a' ∧ b = b' ∧ f = f'

/-- Format R (R61). -/
def formatR : Format RForm where
  word := wordR
  fields := fieldsR
  word_fields w := by
    simp only [wordR, fieldsR, majorOf, minorOf]
    iterate 8 rw [extractLsb'_append_extractLsb'_eq_extractLsb' (by rfl)]
    exact extractLsb'_eq_self
  word_inj {a b f a' b' f'} h := by
    obtain ⟨h, h_rsv⟩ := append_inj h
    obtain ⟨h, h_rc⟩ := append_inj h
    obtain ⟨h, h_rb⟩ := append_inj h
    obtain ⟨h, h_ra⟩ := append_inj h
    obtain ⟨h, h_rd⟩ := append_inj h
    obtain ⟨h, h_minor⟩ := append_inj h
    obtain ⟨h, h_pneg⟩ := append_inj h
    obtain ⟨h, h_psel⟩ := append_inj h
    cases f; cases f'; simp_all

/-- Format I (R61). -/
def formatI : Format IForm where
  word := wordI
  fields := fieldsI
  word_fields w := by
    simp only [wordI, fieldsI, majorOf, minorOf]
    iterate 7 rw [extractLsb'_append_extractLsb'_eq_extractLsb' (by rfl)]
    exact extractLsb'_eq_self
  word_inj {a b f a' b' f'} h := by
    obtain ⟨h, h_imm⟩ := append_inj h
    obtain ⟨h, h_rsv⟩ := append_inj h
    obtain ⟨h, h_ra⟩ := append_inj h
    obtain ⟨h, h_rd⟩ := append_inj h
    obtain ⟨h, h_minor⟩ := append_inj h
    obtain ⟨h, h_pneg⟩ := append_inj h
    obtain ⟨h, h_psel⟩ := append_inj h
    cases f; cases f'; simp_all

/-- Format W (R61). -/
def formatW : Format WForm where
  word := wordW
  fields := fieldsW
  word_fields w := by
    simp only [wordW, fieldsW, majorOf, minorOf]
    iterate 5 rw [extractLsb'_append_extractLsb'_eq_extractLsb' (by rfl)]
    exact extractLsb'_eq_self
  word_inj {a b f a' b' f'} h := by
    obtain ⟨h, h_imm⟩ := append_inj h
    obtain ⟨h, h_rd⟩ := append_inj h
    obtain ⟨h, h_minor⟩ := append_inj h
    obtain ⟨h, h_pneg⟩ := append_inj h
    obtain ⟨h, h_psel⟩ := append_inj h
    cases f; cases f'; simp_all

/-- Format B (R61). -/
def formatB : Format BForm where
  word := wordB
  fields := fieldsB
  word_fields w := by
    simp only [wordB, fieldsB, majorOf, minorOf]
    iterate 6 rw [extractLsb'_append_extractLsb'_eq_extractLsb' (by rfl)]
    exact extractLsb'_eq_self
  word_inj {a b f a' b' f'} h := by
    obtain ⟨h, h_off⟩ := append_inj h
    obtain ⟨h, h_rb⟩ := append_inj h
    obtain ⟨h, h_ra⟩ := append_inj h
    obtain ⟨h, h_minor⟩ := append_inj h
    obtain ⟨h, h_pneg⟩ := append_inj h
    obtain ⟨h, h_psel⟩ := append_inj h
    cases f; cases f'; simp_all

/-- Format V (R61). -/
def formatV : Format VForm where
  word := wordV
  fields := fieldsV
  word_fields w := by
    simp only [wordV, fieldsV, majorOf, minorOf]
    iterate 13 rw [extractLsb'_append_extractLsb'_eq_extractLsb' (by rfl)]
    exact extractLsb'_eq_self
  word_inj {a b f a' b' f'} h := by
    obtain ⟨h, h_imm⟩ := append_inj h
    obtain ⟨h, h_pd⟩ := append_inj h
    obtain ⟨h, h_rs⟩ := append_inj h
    obtain ⟨h, h_rnd⟩ := append_inj h
    obtain ⟨h, h_fmt2⟩ := append_inj h
    obtain ⟨h, h_fmt⟩ := append_inj h
    obtain ⟨h, h_vc⟩ := append_inj h
    obtain ⟨h, h_vb⟩ := append_inj h
    obtain ⟨h, h_va⟩ := append_inj h
    obtain ⟨h, h_vd⟩ := append_inj h
    obtain ⟨h, h_minor⟩ := append_inj h
    obtain ⟨h, h_pneg⟩ := append_inj h
    obtain ⟨h, h_psel⟩ := append_inj h
    cases f; cases f'; simp_all

/-- Format P (R61). -/
def formatP : Format PForm where
  word := wordP
  fields := fieldsP
  word_fields w := by
    simp only [wordP, fieldsP, majorOf, minorOf]
    iterate 9 rw [extractLsb'_append_extractLsb'_eq_extractLsb' (by rfl)]
    exact extractLsb'_eq_self
  word_inj {a b f a' b' f'} h := by
    obtain ⟨h, h_rsv⟩ := append_inj h
    obtain ⟨h, h_ra⟩ := append_inj h
    obtain ⟨h, h_rd⟩ := append_inj h
    obtain ⟨h, h_pb⟩ := append_inj h
    obtain ⟨h, h_pa⟩ := append_inj h
    obtain ⟨h, h_pd⟩ := append_inj h
    obtain ⟨h, h_minor⟩ := append_inj h
    obtain ⟨h, h_pneg⟩ := append_inj h
    obtain ⟨h, h_psel⟩ := append_inj h
    cases f; cases f'; simp_all

/-- Format T (R61). -/
def formatT : Format TForm where
  word := wordT
  fields := fieldsT
  word_fields w := by
    simp only [wordT, fieldsT, majorOf, minorOf]
    iterate 12 rw [extractLsb'_append_extractLsb'_eq_extractLsb' (by rfl)]
    exact extractLsb'_eq_self
  word_inj {a b f a' b' f'} h := by
    obtain ⟨h, h_rsv⟩ := append_inj h
    obtain ⟨h, h_acc⟩ := append_inj h
    obtain ⟨h, h_rnd⟩ := append_inj h
    obtain ⟨h, h_fmtB⟩ := append_inj h
    obtain ⟨h, h_fmtA⟩ := append_inj h
    obtain ⟨h, h_sm⟩ := append_inj h
    obtain ⟨h, h_sb⟩ := append_inj h
    obtain ⟨h, h_sa⟩ := append_inj h
    obtain ⟨h, h_ta⟩ := append_inj h
    obtain ⟨h, h_minor⟩ := append_inj h
    obtain ⟨h, h_pneg⟩ := append_inj h
    obtain ⟨h, h_psel⟩ := append_inj h
    cases f; cases f'; simp_all

/-- Format S (R61). -/
def formatS : Format SForm where
  word := wordS
  fields := fieldsS
  word_fields w := by
    simp only [wordS, fieldsS, majorOf, minorOf]
    iterate 8 rw [extractLsb'_append_extractLsb'_eq_extractLsb' (by rfl)]
    exact extractLsb'_eq_self
  word_inj {a b f a' b' f'} h := by
    obtain ⟨h, h_imm⟩ := append_inj h
    obtain ⟨h, h_rsv⟩ := append_inj h
    obtain ⟨h, h_rb⟩ := append_inj h
    obtain ⟨h, h_ra⟩ := append_inj h
    obtain ⟨h, h_rd⟩ := append_inj h
    obtain ⟨h, h_minor⟩ := append_inj h
    obtain ⟨h, h_pneg⟩ := append_inj h
    obtain ⟨h, h_psel⟩ := append_inj h
    cases f; cases f'; simp_all

/-- Format N (R61). -/
def formatN : Format NForm where
  word := wordN
  fields := fieldsN
  word_fields w := by
    simp only [wordN, fieldsN, majorOf, minorOf]
    iterate 10 rw [extractLsb'_append_extractLsb'_eq_extractLsb' (by rfl)]
    exact extractLsb'_eq_self
  word_inj {a b f a' b' f'} h := by
    obtain ⟨h, h_rsv⟩ := append_inj h
    obtain ⟨h, h_len⟩ := append_inj h
    obtain ⟨h, h_vs⟩ := append_inj h
    obtain ⟨h, h_rc⟩ := append_inj h
    obtain ⟨h, h_rb⟩ := append_inj h
    obtain ⟨h, h_ra⟩ := append_inj h
    obtain ⟨h, h_rd⟩ := append_inj h
    obtain ⟨h, h_minor⟩ := append_inj h
    obtain ⟨h, h_pneg⟩ := append_inj h
    obtain ⟨h, h_psel⟩ := append_inj h
    cases f; cases f'; simp_all
theorem Format.parts_word {α : Type} (F : Format α) (a b : BitVec 6) (f : α) :
    a = majorOf (F.word a b f) ∧ b = minorOf (F.word a b f) ∧ f = F.fields (F.word a b f) :=
  F.word_inj (F.word_fields _).symm

/-! The command of a word. -/

/-- The commands of thread `t` whose word is `w`, by major opcode and in the order of their minor
opcodes (R63). -/
def commandAt (t : Nat) (w : Word) (major minor : Nat) : Option Instr :=
  let r := fieldsR w
  let i := fieldsI w
  let b := fieldsB w
  let v := fieldsV w
  let p := fieldsP w
  let m := fieldsT w
  let s := fieldsS w
  let n := fieldsN w
  match major with
  | 0x01 => [.add t r, .sub t r, .and t r, .or t r, .xor t r, .shl t r, .shr t r, .sar t r, .min t r,
      .max t r, .minu t r, .maxu t r, .slt t r, .sltu t r, .popc t r, .clz t r, .ctz t r][minor]?
  | 0x02 => [.addi t i, .subi t i, .andi t i, .ori t i, .xori t i, .shli t i, .shri t i, .sari t i,
      .mini t i, .maxi t i, .minui t i, .maxui t i, .slti t i, .sltui t i][minor]?
  | 0x03 => [.mul t r, .mulh t r, .mulhu t r, .madd t r, .div t r, .divu t r, .rem t r,
      .remu t r][minor]?
  | 0x04 => [.movi t (fieldsW w), .movh t (fieldsW w)][minor]?
  | 0x05 =>
    if minor < 0x10 then
      [.cmpEq t r, .cmpNe t r, .cmpLt t r, .cmpGe t r, .cmpLtu t r, .cmpGeu t r][minor]?
    else [.cmpiEq t i, .cmpiNe t i, .cmpiLt t i, .cmpiGe t i, .cmpiLtu t i,
      .cmpiGeu t i][minor - 0x10]?
  | 0x08 => [.beq t b, .bne t b, .blt t b, .bge t b, .bltu t b, .bgeu t b][minor]?
  | 0x09 => [.br t b, .jal t b, .jr t b, .jalr t b][minor]?
  | 0x0C => [.ldB t i, .ldH t i, .ldW t i, .ldD t i, .ldBu t i, .ldHu t i, .ldWu t i, .ldV t i][minor]?
  | 0x0D =>
    if minor = 0x07 then some (.stV t i) else [.stB t i, .stH t i, .stW t i, .stD t i][minor]?
  | 0x0E => [.ldgB t i, .ldgH t i, .ldgW t i, .ldgD t i, .ldgBu t i, .ldgHu t i, .ldgWu t i,
      .ldgV t i][minor]?
  | 0x0F =>
    if minor = 0x07 then some (.stgV t i) else [.stgB t i, .stgH t i, .stgW t i, .stgD t i][minor]?
  | 0x10 => [.mvpost t r, .mvslots t r][minor]?
  | 0x14 => [.vaddInt t v, .vsubInt t v, .vmulInt t v, .vadds t v, .vsubs t v, .vminInt t v,
      .vmaxInt t v, .vand t v, .vor t v, .vxor t v, .vshl t v, .vshr t v, .vsar t v, .vmov t v,
      .vsel t v][minor]?
  | 0x15 => [.vaddFp t v, .vsubFp t v, .vmulFp t v, .vfma t v, .vfms t v, .vminFp t v, .vmaxFp t v,
      .vabs t v, .vneg t v, .vdiv t v, .vsqrt t v, .vrsqrt t v, .vexp2 t v][minor]?
  | 0x16 => [.vcvt t v, .vqmx t v, .vdqmx t v, .vfoir t v, .vufoir t v, .vemax t v][minor]?
  | 0x17 => [.vbcast t v, .vext t v, .vins t v, .vperm t v, .vrot t v, .vredsum t v, .vredmax t v,
      .vredmin t v][minor]?
  | 0x18 => [.vcmpEq t v, .vcmpNe t v, .vcmpLt t v, .vcmpLe t v, .vcmpGt t v, .vcmpGe t v][minor]?
  | 0x1C => [.pand t p, .por t p, .pxor t p, .pandn t p, .pnot t p, .pmov t p, .pget t p, .ppopc t p,
      .pfirst t p][minor]?
  | 0x1D => [.vcmpr t v, .vexpd t v, .vbspk t v, .vbsup t v][minor]?
  | 0x20 => [.tmma t m, .tmmaS24 t m, .tmmaS48 t m, .tmmak t m][minor]?
  | 0x21 => [.talloc t m, .tfree t m, .tzero t m, .tld t m, .tst t m][minor]?
  | 0x28 => [.sig t s, .waitGe t s, .take t s, .sread t s][minor]?
  | 0x29 => [.fenceC t s, .fenceD t s, .fenceP t s, .fenceN t s][minor]?
  | 0x2C => [.put t n, .get t n, .atomAdd t n, .atomCas t n, .sigR t n][minor]?
  | 0x30 => [.nopInsn t i, .end_ t i, .trap t i, .brk t i, .mfs t i][minor]?
  | _ => none

/-- The command of thread `t` that a word is decoded to. -/
def decodeWord (t : Nat) (w : Word) : Option Instr :=
  commandAt t w (majorOf w).toNat (minorOf w).toNat

/-- The word of a command whose opcodes name it in the map is decoded to that command. -/
theorem Format.decodes {α : Type} (F : Format α) {cmd : Nat → α → Instr} {major minor : BitVec 6}
    {t : Nat} (hl : opcodeListed major.toNat minor.toNat = true)
    (hc : ∀ w, commandAt t w major.toNat minor.toNat = some (cmd t (F.fields w))) (f : α) :
    opcodeReserved (F.word major minor f) = false ∧
      decodeWord t (F.word major minor f) = some (cmd t f) := by
  obtain ⟨hmajor, hminor, hf⟩ := F.parts_word major minor f
  constructor
  · rw [opcodeReserved, Bool.not_eq_false']
    change opcodeListed (majorOf _).toNat (minorOf _).toNat = true
    rwa [← hmajor, ← hminor]
  · rw [decodeWord, ← hmajor, ← hminor, hc, ← hf]

/-- Each command that an engine issues is found again from its word, format by format. -/
theorem decodeWord_of_engineInsn {c : Instr} {t : Nat} {i : Insn}
    (h : engineInsn c = some (t, i)) :
    opcodeReserved i.word = false ∧ decodeWord t i.word = some c := by
  cases c
  all_goals cases h
  case add | sub | and | or | xor | shl | shr | sar | min | max | minu | maxu | slt | sltu
    | popc | clz | ctz | mul | mulh | mulhu | madd | div | divu | rem | remu | cmpEq | cmpNe
    | cmpLt | cmpGe | cmpLtu | cmpGeu | mvpost | mvslots =>
    exact formatR.decodes rfl (fun _ => rfl) _
  case addi | subi | andi | ori | xori | shli | shri | sari | mini | maxi | minui | maxui
    | slti | sltui | cmpiEq | cmpiNe | cmpiLt | cmpiGe | cmpiLtu | cmpiGeu | ldB | ldH | ldW
    | ldD | ldBu | ldHu | ldWu | ldV | stB | stH | stW | stD | stV | ldgB | ldgH | ldgW | ldgD
    | ldgBu | ldgHu | ldgWu | ldgV | stgB | stgH | stgW | stgD | stgV | nopInsn | end_ | trap
    | brk | mfs =>
    exact formatI.decodes rfl (fun _ => rfl) _
  case movi | movh =>
    exact formatW.decodes rfl (fun _ => rfl) _
  case beq | bne | blt | bge | bltu | bgeu | br | jal | jr | jalr =>
    exact formatB.decodes rfl (fun _ => rfl) _
  case vaddInt | vsubInt | vmulInt | vadds | vsubs | vminInt | vmaxInt | vand | vor | vxor
    | vshl | vshr | vsar | vmov | vsel | vaddFp | vsubFp | vmulFp | vfma | vfms | vminFp
    | vmaxFp | vabs | vneg | vdiv | vsqrt | vrsqrt | vexp2 | vcvt | vqmx | vdqmx | vfoir
    | vufoir | vemax | vbcast | vext | vins | vperm | vrot | vredsum | vredmax | vredmin
    | vcmpEq | vcmpNe | vcmpLt | vcmpLe | vcmpGt | vcmpGe | vcmpr | vexpd | vbspk | vbsup =>
    exact formatV.decodes rfl (fun _ => rfl) _
  case pand | por | pxor | pandn | pnot | pmov | pget | ppopc | pfirst =>
    exact formatP.decodes rfl (fun _ => rfl) _
  case tmma | tmmaS24 | tmmaS48 | tmmak | talloc | tfree | tzero | tld | tst =>
    exact formatT.decodes rfl (fun _ => rfl) _
  case sig | waitGe | take | sread | fenceC | fenceD | fenceP | fenceN =>
    exact formatS.decodes rfl (fun _ => rfl) _

/-- A command is found again from the word that it spells. -/
theorem decodeWord_of_spellsWord {c : Instr} {t : Nat} {w : Word} (h : SpellsWord c t w) :
    opcodeReserved w = false ∧ decodeWord t w = some c := by
  obtain ⟨i, hi, rfl⟩ | ⟨r, hr, f, rfl, rfl⟩ := h
  · exact decodeWord_of_engineInsn hi
  · simp only [netRows, List.mem_cons, List.not_mem_nil, or_false] at hr
    rcases hr with rfl | rfl | rfl | rfl | rfl <;> exact formatN.decodes rfl (fun _ => rfl) f

/-- The opcodes `major` and `minor` name a command, which spells the word `w`. -/
def NamesCommand (t : Nat) (w : Word) (major minor : Nat) : Prop :=
  ∃ c, commandAt t w major minor = some c ∧ SpellsWord c t w

theorem Format.namesCommand {α : Type} (F : Format α) {cmd : Nat → α → Instr} {t : Nat} {w : Word}
    {major minor : Nat} (hc : commandAt t w major minor = some (cmd t (F.fields w)))
    (hs : SpellsWord (cmd t (F.fields w)) t
      (F.word (BitVec.ofNat 6 major) (BitVec.ofNat 6 minor) (F.fields w)))
    (hmajor : (majorOf w).toNat = major) (hminor : (minorOf w).toNat = minor) :
    NamesCommand t w major minor := by
  refine ⟨_, hc, ?_⟩
  subst hmajor hminor
  rwa [BitVec.ofNat_toNat, BitVec.ofNat_toNat, BitVec.setWidth_eq, BitVec.setWidth_eq,
    F.word_fields] at hs

theorem namesCommand_of_netRow {t : Nat} {w : Word} {minor : Nat} {r : NetRow}
    (hr : netRows[minor]? = some r) (hc : commandAt t w 0x2C minor = some (r.cmd t (fieldsN w)))
    (hw : ∀ f, (r.insn f).word = wordN 0x2C (BitVec.ofNat 6 minor) f)
    (hmajor : (majorOf w).toNat = 0x2C) (hminor : (minorOf w).toNat = minor) :
    NamesCommand t w 0x2C minor :=
  formatN.namesCommand hc (Or.inr ⟨r, List.mem_of_getElem? hr, _, rfl, hw _⟩) hmajor hminor

/-- Every opcode that the map lists names a command. -/
theorem namesCommand_of_listed {t : Nat} {w : Word} {major minor : Nat}
    (h : opcodeListed major minor = true) (hmajor : (majorOf w).toNat = major)
    (hminor : (minorOf w).toNat = minor) : NamesCommand t w major minor := by
  unfold opcodeListed at h
  split at h
  case h_26 => cases h
  all_goals simp only [Bool.or_eq_true, Bool.and_eq_true, decide_eq_true_eq, beq_iff_eq] at h
  case h_5 =>
    obtain h | ⟨h, h'⟩ := h
    · interval_cases minor
      all_goals exact formatR.namesCommand rfl (Or.inl ⟨_, rfl, rfl⟩) hmajor hminor
    · interval_cases minor
      all_goals exact formatI.namesCommand rfl (Or.inl ⟨_, rfl, rfl⟩) hmajor hminor
  case h_9 | h_11 =>
    obtain h | rfl := h
    · interval_cases minor
      all_goals exact formatI.namesCommand rfl (Or.inl ⟨_, rfl, rfl⟩) hmajor hminor
    · exact formatI.namesCommand rfl (Or.inl ⟨_, rfl, rfl⟩) hmajor hminor
  case h_1 | h_3 | h_12 =>
    interval_cases minor
    all_goals exact formatR.namesCommand rfl (Or.inl ⟨_, rfl, rfl⟩) hmajor hminor
  case h_2 | h_8 | h_10 | h_25 =>
    interval_cases minor
    all_goals exact formatI.namesCommand rfl (Or.inl ⟨_, rfl, rfl⟩) hmajor hminor
  case h_4 =>
    interval_cases minor
    all_goals exact formatW.namesCommand rfl (Or.inl ⟨_, rfl, rfl⟩) hmajor hminor
  case h_6 | h_7 =>
    interval_cases minor
    all_goals exact formatB.namesCommand rfl (Or.inl ⟨_, rfl, rfl⟩) hmajor hminor
  case h_13 | h_14 | h_15 | h_16 | h_17 | h_19 =>
    interval_cases minor
    all_goals exact formatV.namesCommand rfl (Or.inl ⟨_, rfl, rfl⟩) hmajor hminor
  case h_18 =>
    interval_cases minor
    all_goals exact formatP.namesCommand rfl (Or.inl ⟨_, rfl, rfl⟩) hmajor hminor
  case h_20 | h_21 =>
    interval_cases minor
    all_goals exact formatT.namesCommand rfl (Or.inl ⟨_, rfl, rfl⟩) hmajor hminor
  case h_22 | h_23 =>
    interval_cases minor
    all_goals exact formatS.namesCommand rfl (Or.inl ⟨_, rfl, rfl⟩) hmajor hminor
  case h_24 =>
    interval_cases minor
    all_goals exact namesCommand_of_netRow rfl rfl (fun _ => rfl) hmajor hminor

/-- Settles O7: a word of a listed opcode is decoded to a command that spells it, and a command that
spells a word is what the word is decoded to. -/
theorem wordsAndCommandsAgree : Obligations.words_and_commands_agree := by
  refine ⟨fun t w h => ?_, fun c t w h => (decodeWord_of_spellsWord h).1⟩
  have listed := (Bool.not_eq_false' _).mp h
  obtain ⟨c, hc, spells⟩ := namesCommand_of_listed (t := t) listed rfl rfl
  exact ⟨c, spells, fun c' h' => Option.some.inj ((decodeWord_of_spellsWord h').2.symm.trans hc)⟩

end Sys2Proof.Machine
end

section
/-! SUPPORT. What every instruction of an engine has in common: how it issues, waits and traps (R55, R56,
R59 to R62, R82). -/

namespace Sys2Proof.Machine

variable {t : Nat} {i : Insn} {s : State} {body : State → Thread → Thread → Eff}

theorem issue_of_mayNotIssue (h : mayIssue s t = false) : issue t i body s = s := by
  simp [issue, h]

theorem issue_outsideImage (hm : mayIssue s t = true)
    (hw : imageWord s t (thread s t).pc = none) :
    issue t i body s =
      takeException s t (thread s t).pc 0 ((thread s t).pc.setWidth 64) .pcrange 0x04 := by
  simp [issue, hm, hw, excStatus]

theorem issue_illegal (hm : mayIssue s t = true)
    (hw : imageWord s t (thread s t).pc = some i.word) (hi : i.illegal = true) :
    issue t i body s = takeException s t (thread s t).pc i.word 0 .illegal 0x02 := by
  simp [issue, hm, hw, hi, excStatus]

theorem issue_blocked (hm : mayIssue s t = true)
    (hw : imageWord s t (thread s t).pc = some i.word) (ho : opcodeReserved i.word = false)
    (hi : i.illegal = false) (hb : blocked (thread s t) i = true) :
    issue t i body s = setThread s t { thread s t with state := .wait } := by
  simp [issue, hm, hw, ho, hi, hb]

/-- What a thread that may issue is, and what the device is then. -/
theorem mayIssue_iff : mayIssue s t = true ↔
    ((thread s t).state = .ready ∨ (thread s t).state = .wait) ∧ (thread s t).fence = none ∧
    walking (thread s t) = false ∧ (thread s t).halting = false ∧
    pacedNow s (gridOf s (thread s t)) = false ∧
    (partition s (gridOf s (thread s t)).part).draining = false ∧
    coreOf (engineOf t) ∉ s.sched.moving ∧ s.err.fatal = false := by
  simp [mayIssue, and_assoc]

theorem pacedNow_iff {g : Grid} : pacedNow s g = true ↔
    g.paced = true ∨ gridSpent g = true ∨ partOverspent s g.part = true := by
  simp [pacedNow, or_assoc]

/-- A command that runs a helper of the model which issues an instruction. -/
theorem exists_body {c : Instr} {run : State → State} (hc : ∀ s, exec c s = .next (run s))
    (h : ∃ body, ∀ s, run s = issue t i body s) : ∃ body, ∀ s, exec c s = .next (issue t i body s) := by
  obtain ⟨body, runs⟩ := h
  exact ⟨body, fun s => (hc s).trans (congrArg _ (runs s))⟩

/-- A command that stands for an instruction issues it: each arm of `exec` is an `issue`, at once or
under the name of its shape. -/
theorem exec_of_engineInsn {c : Instr} (h : engineInsn c = some (t, i)) :
    ∃ body, ∀ s, exec c s = .next (issue t i body s) := by
  cases c
  all_goals cases h
  case jr | jalr | ldV | stV | mvpost | mvslots | vqmx | vdqmx | vemax | vext | vins | vbspk | vbsup
    | talloc | tfree | tzero | end_ | trap | brk | mfs => exact ⟨_, fun _ => rfl⟩
  all_goals
    refine exists_body (fun _ => rfl) ⟨?_, fun s => ?_⟩
    rotate_left
    simp only [aluR, aluR1, aluI, shiftI, cmpR, cmpI, branch, maskOp, issueReg, localLoad, localStore,
      globalLoad, globalStore, vecAddSub, vecInt, vecLogic, vecLanes, vecFp1, vecFp2, vecFma, vecConvert,
      vecReduce, vecCmp, multiply, tileMove, syncIssue, fence]
    rfl

/-- Settles O15: what an instruction would do stands behind its predicate condition. -/
theorem predicatedOffOnlyAdvances : Obligations.predicated_off_only_advances := by
  intro c t i s hi h hg
  obtain ⟨body, runs⟩ := exec_of_engineInsn hi
  exact becomes_of_closed (runs s) h hg

/-- Settles O16, by what an issue does before its instruction takes effect. -/
theorem illegalAndWaitingInstructions : Obligations.illegal_and_waiting_instructions := by
  refine ⟨⟨fun c t i s hi hm hw hl => ?_, fun c t i s hi hm hw => ?_⟩,
    fun c t i s hi hm hw ho hl hb => ?_, fun c t i s hi hm => ?_, fun s t h => ?_,
    fun s g => pacedNow_iff⟩
  case refine_5 =>
    obtain ⟨hstate, hfence, _, hhalting, hpaced, hdraining, _, hfatal⟩ := mayIssue_iff.mp h
    exact ⟨hstate, hfence, hhalting, hpaced, hdraining, hfatal⟩
  all_goals obtain ⟨body, runs⟩ := exec_of_engineInsn hi
  · rw [runs, issue_illegal hm hw hl]
  · rw [runs, issue_outsideImage hm hw]
  · rw [runs, issue_blocked hm hw ho hl hb]
  · rw [runs, issue_of_mayNotIssue hm]

end Sys2Proof.Machine
end

section
/-! SUPPORT. Registers that are read after a write, and lanes that are put into a register (R57, R69). -/

namespace Sys2Proof.Machine

/-! Registers. -/

/-- Looking an entry up and reading a finite map are one thing. -/
theorem tget_eq_find {α : Type} (d : α) (m : Table α) (k : Nat) :
    tget d m k = ((m.find? fun e => e.1 == k).map Prod.snd).getD d := by
  induction m with
  | nil => rfl
  | cons e m ih =>
    obtain ⟨q, v⟩ := e
    by_cases h : k = q
    · simp [tget, h]
    · simp [tget, h, Ne.symm h, ih]

theorem readS_eq (th : Thread) (r : BitVec 5) :
    readS th r = if r = 0 then 0 else tget 0 th.s r.toNat := by
  rw [readS, tget_eq_find]
  cases th.s.find? fun e => e.1 == r.toNat <;> rfl

theorem readV_eq (th : Thread) (r : BitVec 4) : readV th r = tget 0 th.v r.toNat := by
  rw [readV, tget_eq_find]
  cases th.v.find? fun e => e.1 == r.toNat <;> rfl

theorem readP_eq (th : Thread) (r : BitVec 3) :
    readP th r = if r = 0 then BitVec.allOnes 64 else tget 0 th.p r.toNat := by
  rw [readP, tget_eq_find]
  cases th.p.find? fun e => e.1 == r.toNat <;> rfl

theorem readS_writeS {th : Thread} (r q : BitVec 5) (v : Word) (h : tableWf 0 th.s = true) :
    readS (writeS th r v) q = if q = 0 then 0 else if q = r then v else readS th q := by
  simp only [readS_eq]
  split
  · rfl
  · unfold writeS
    split
    · simp_all
    · rw [tget_tset _ _ _ _ _ h]
      simp only [BitVec.toNat_inj]

theorem readV_writeV {th : Thread} (r q : BitVec 4) (v : Vec) (h : tableWf 0 th.v = true) :
    readV (writeV th r v) q = if q = r then v else readV th q := by
  simp only [readV_eq, writeV]
  rw [tget_tset _ _ _ _ _ h]
  simp only [BitVec.toNat_inj]

theorem readP_writeP {th : Thread} (r q : BitVec 3) (v : Word) (h : tableWf 0 th.p = true) :
    readP (writeP th r v) q =
      if q = 0 then BitVec.allOnes 64 else if q = r then v else readP th q := by
  simp only [readP_eq]
  split
  · rfl
  · unfold writeP
    split
    · simp_all
    · rw [tget_tset _ _ _ _ _ h]
      simp only [BitVec.toNat_inj]

theorem writeS_zero (th : Thread) (v : Word) : writeS th 0 v = th := rfl

/-- A write to a scalar register leaves everything else of its thread. -/
theorem writeS_frame (th : Thread) (r : BitVec 5) (v : Word) :
    { writeS th r v with s := th.s } = th := by
  unfold writeS
  split <;> rfl

/-- Settles O17, by the tables that the registers are. -/
theorem registersReadBack : Obligations.registers_read_back := by
  refine ⟨fun th r q v h => readS_writeS r q v h, fun th r q v h => readV_writeV r q v h,
    fun th r q v h => readP_writeP r q v h, fun th r v => ?_⟩
  have frame := writeS_frame th r v
  have v_same := congrArg Thread.v frame
  have p_same := congrArg Thread.p frame
  have pc_same := congrArg Thread.pc frame
  refine ⟨v_same, p_same, pc_same, ?_⟩
  rintro rfl
  exact writeS_zero th v

/-! Lanes. -/

/-- No bit above the last lane is set. -/
theorem getLsbD_vecOfLanes_above (w n : Nat) (g : Nat → Nat) {p : Nat} (h : w * n ≤ p) :
    (vecOfLanes w n g).getLsbD p = false := by
  induction n with
  | zero => simp [vecOfLanes]
  | succ n ih =>
    rw [Nat.mul_succ] at h
    have high : (g n % 2 ^ w).testBit (p - w * n) = false :=
      Nat.testBit_lt_two_pow (lt_of_lt_of_le (Nat.mod_lt _ (by positivity))
        (Nat.pow_le_pow_right (by decide) (by omega)))
    simp [vecOfLanes, ih (by omega), BitVec.getLsbD_ofNat, Nat.testBit_mul_two_pow, high]

/-- A bit of a lane that was put into the register. -/
theorem getLsbD_vecOfLanes (w n : Nat) (g : Nat → Nat) {k j : Nat} (hk : k < n) (hj : j < w)
    (hw : w * n ≤ 512) : (vecOfLanes w n g).getLsbD (w * k + j) = (g k).testBit j := by
  induction n with
  | zero => omega
  | succ n ih =>
    rw [Nat.mul_succ] at hw
    have inside : w * k + j < 512 := by
      have := Nat.mul_le_mul_left w (Nat.le_of_lt_succ hk)
      omega
    simp only [vecOfLanes, BitVec.getLsbD_or, BitVec.getLsbD_ofNat, Nat.testBit_mul_two_pow]
    by_cases last : k = n
    · subst last
      rw [getLsbD_vecOfLanes_above w k g (Nat.le_add_right _ j)]
      simp [inside, Nat.testBit_mod_two_pow, hj]
    · have below : w * k + j < w * n := by
        have := Nat.mul_le_mul_left w (show k + 1 ≤ n by omega)
        rw [Nat.mul_succ] at this
        omega
      simp [ih (by omega) (by omega), Nat.not_le.mpr below]

theorem lane_vecOfLanes (w n : Nat) (g : Nat → Nat) {k : Nat} (hk : k < n) (hw : w * n ≤ 512) :
    lane w (vecOfLanes w n g) k = g k % 2 ^ w := by
  apply Nat.eq_of_testBit_eq
  intro j
  rw [lane, BitVec.testBit_toNat, BitVec.getLsbD_extractLsb', Nat.testBit_mod_two_pow]
  by_cases hj : j < w
  · simp [hj, getLsbD_vecOfLanes w n g hk hj hw]
  · simp [hj]

theorem lane_lanesWhere (fm : Fmt) (old : Vec) (act : Nat → Bool) (g : Nat → Nat) {k : Nat}
    (hk : k < fmtLanes fm) : lane (fmtWidth fm) (lanesWhere fm old act g) k =
      if act k then g k % 2 ^ fmtWidth fm else lane (fmtWidth fm) old k := by
  rw [lanesWhere, lane_vecOfLanes _ _ _ hk (Nat.mul_div_le 512 _)]
  split
  · rfl
  · exact Nat.mod_eq_of_lt (BitVec.isLt _)

/-- Settles O11, bit by bit. -/
theorem vectorLanesReadBack : Obligations.vector_lanes_read_back :=
  ⟨fun w n g _ hk hw => lane_vecOfLanes w n g hk hw,
    fun fm old act g _ hk => lane_lanesWhere fm old act g hk⟩

end Sys2Proof.Machine
end

section
/-! SUPPORT. Instructions that write their thread's registers and nothing else: scalar arithmetic,
comparisons, branches and jumps (R64, R65). -/

namespace Sys2Proof.Machine

@[simp] theorem writeP_state (th : Thread) (r : BitVec 3) (v : Word) :
    (writeP th r v).state = th.state := by
  unfold writeP
  split <;> rfl

theorem bits_eq (x : Word) (lo n : Nat) : bits x lo n = x.toNat / 2 ^ lo % 2 ^ n := by
  simp [bits, Nat.shiftRight_eq_div_pow]

/-! Outcomes of an issue. -/

section
variable {t : Nat} {i : Insn} {s x : State} {body : State → Thread → Thread → Eff} (h : Issues t i s)
include h

theorem issue_of_exc {c : Cause} {a : Word} {st : BitVec 8}
    (hb : body (chargeIssue s t i.word) (thread s t) (advance i (thread s t)) = .exc x c a st) :
    issue t i body s =
      takeException x t (thread s t).pc (if c = .pcrange then 0 else i.word) a c st := by
  rw [issue_reaches body h.toReaches, hb]
  simp [h.gate]

theorem issue_of_state
    (hb : body (chargeIssue s t i.word) (thread s t) (advance i (thread s t)) = .state x) :
    issue t i body s = afterStep x t (thread s t).stepping := by
  rw [issue_reaches body h.toReaches, hb]
  simp [h.gate]

theorem issue_of_wait
    (hb : body (chargeIssue s t i.word) (thread s t) (advance i (thread s t)) = .wait) :
    issue t i body s = setThread s t { thread s t with state := .wait } := by
  rw [issue_reaches body h.toReaches, hb]
  simp [h.gate]

theorem issue_of_ask {g : State → State}
    (hb : body (chargeIssue s t i.word) (thread s t) (advance i (thread s t)) = .ask g) :
    issue t i body s = setThread (g s) t { thread s t with state := .wait } := by
  rw [issue_reaches body h.toReaches, hb]
  simp [h.gate]

end

/-! Rows of one shape. -/

/-- A row of instructions of format `α` that change only their thread: from what the thread held, the
instruction gives what the advanced thread becomes. -/
def RunsReg {α : Type} (cmd : Nat → α → Instr) (val : α → Thread → Thread → Thread) : Prop :=
  ∃ (insn : α → Insn) (g : α → Thread → Thread → Thread),
    (∀ t f, engineInsn (cmd t f) = some (t, insn f)) ∧
    (∀ t f s, exec (cmd t f) s = .next (issueReg t (insn f) (g f) s)) ∧
    ∀ f th th', g f th th' = val f th th'

theorem RunsReg.becomes {α : Type} {cmd : Nat → α → Instr} {val : α → Thread → Thread → Thread}
    (hr : RunsReg cmd val) {t : Nat} {f : α} {s : State} {i : Insn}
    (hi : engineInsn (cmd t f) = some (t, i)) (h : Issues t i s)
    (hx : (val f (thread s t) (advance i (thread s t))).state = .ready) :
    ThreadBecomes (cmd t f) s t (val f (thread s t) (advance i (thread s t))) := by
  obtain ⟨insn, g, listed, runs, value⟩ := hr
  obtain rfl := engineInsn_unique hi (listed t f)
  exact becomes_of_done (runs t f s) h (congrArg Eff.done (value f _ _)) (Or.inl hx)

/-- A row of instructions that decide a relation of two operands and leave their thread as `set` says. -/
def Decides {α : Type} (cmd : Nat → α → Instr) (rel : Word → Word → Prop) (a b : α → Thread → Word)
    (set : α → Bool → Thread → Thread → Thread) : Prop :=
  ∃ op : Word → Word → Bool, (∀ x y, op x y = true ↔ rel x y) ∧
    RunsReg cmd fun f th th' => set f (op (a f th) (b f th)) th th'

theorem Decides.becomes {α : Type} {cmd : Nat → α → Instr} {rel : Word → Word → Prop}
    {a b : α → Thread → Word} {set : α → Bool → Thread → Thread → Thread}
    (hd : Decides cmd rel a b set) {t : Nat} {f : α} {s : State} {i : Insn}
    (hi : engineInsn (cmd t f) = some (t, i)) (h : Issues t i s)
    (hx : ∀ c th, (set f c th (advance i th)).state = .ready) :
    let th := thread s t
    (rel (a f th) (b f th) → ThreadBecomes (cmd t f) s t (set f true th (advance i th))) ∧
      (¬ rel (a f th) (b f th) → ThreadBecomes (cmd t f) s t (set f false th (advance i th))) := by
  obtain ⟨op, decides, runs⟩ := hd
  have becomes := runs.becomes hi h (hx _ _)
  refine ⟨fun holds => ?_, fun fails => ?_⟩
  · rwa [(decides _ _).mpr holds] at becomes
  · rwa [Bool.eq_false_iff.mpr (mt (decides _ _).mp fails)] at becomes

/-! Values (R64). -/

theorem minS_eq (a b : Word) : minS a b = if a.toInt < b.toInt then a else b := by
  simp [minS, BitVec.slt]

theorem maxS_eq (a b : Word) : maxS a b = if a.toInt < b.toInt then b else a := by
  simp [maxS, BitVec.slt]

theorem minU_eq (a b : Word) : minU a b = if a.toNat < b.toNat then a else b := by
  simp [minU, BitVec.ult]

theorem maxU_eq (a b : Word) : maxU a b = if a.toNat < b.toNat then b else a := by
  simp [maxU, BitVec.ult]

theorem bit01_slt (a b : Word) : bit01 (a.slt b) = if a.toInt < b.toInt then 1 else 0 := by
  simp [bit01, BitVec.slt]

theorem bit01_ult (a b : Word) : bit01 (a.ult b) = if a.toNat < b.toNat then 1 else 0 := by
  simp [bit01, BitVec.ult]

theorem shl6_eq (a b : Word) : shl6 a b = a <<< (b.toNat % 64) := by
  simp [shl6, bits_eq]

theorem shr6_eq (a b : Word) : shr6 a b = a >>> (b.toNat % 64) := by
  simp [shr6, bits_eq]

theorem sar6_eq (a b : Word) : sar6 a b = a.sshiftRight (b.toNat % 64) := by
  simp [sar6, bits_eq]

theorem slt_iff (a b : Word) : a.slt b = true ↔ a.toInt < b.toInt := decide_eq_true_iff

theorem ult_iff (a b : Word) : a.ult b = true ↔ a.toNat < b.toNat := decide_eq_true_iff

theorem not_slt_iff (a b : Word) : (!a.slt b) = true ↔ b.toInt ≤ a.toInt := by
  simp [BitVec.slt]

theorem not_ult_iff (a b : Word) : (!a.ult b) = true ↔ b.toNat ≤ a.toNat := by
  simp [BitVec.ult]

/-- The index of the lowest set bit is 64 where there is none. -/
theorem lowestSet_spec (x : Word) : lowestSet x ≤ 64 ∧ (∀ k < lowestSet x, x.getLsbD k = false) ∧
    (lowestSet x < 64 → x.getLsbD (lowestSet x) = true) := by
  unfold lowestSet
  split
  next k hk =>
    obtain ⟨hset, hlt, hfirst⟩ := List.find?_range_eq_some.mp hk
    exact ⟨by simpa using (List.mem_range.mp hlt).le, fun j hj => by simpa using hfirst j hj,
      fun _ => hset⟩
  next hk =>
    refine ⟨le_rfl, fun j hj => ?_, fun h => absurd h (lt_irrefl _)⟩
    simpa using List.find?_eq_none.mp hk j (List.mem_range.mpr hj)

/-- The highest set bit stands at the logarithm, and above it is none. -/
theorem leadingZeros_spec (x : Word) : leadingZeros x ≤ 64 ∧
    (∀ k < leadingZeros x, x.getLsbD (63 - k) = false) ∧
    (leadingZeros x < 64 → x.getLsbD (63 - leadingZeros x) = true) := by
  unfold leadingZeros
  split
  next hx => simp [hx]
  next hx =>
    have hne : x.toNat ≠ 0 := fun h => hx (BitVec.eq_of_toNat_eq h)
    have hlog : Nat.log2 x.toNat < 64 := (Nat.log2_lt hne).mpr x.isLt
    refine ⟨by omega, fun k hk => ?_, fun _ => ?_⟩
    · exact Nat.testBit_lt_two_pow (lt_of_lt_of_le Nat.lt_log2_self
        (Nat.pow_le_pow_right (by decide) (by omega)))
    · rw [Nat.sub_sub_self (by omega)]
      exact Nat.testBit_log2 hne

/-! Scalar rows (R64). -/

/-- What a row of format R makes of its thread: rd receives a value of ra, rb and rc. -/
abbrev setsRd (op : Word → Word → Word → Word) (f : RForm) (th th' : Thread) : Thread :=
  writeS th' f.rd (op (readS th f.ra) (readS th f.rb) (readS th f.rc))

theorem runsReg_of_scalarRows : ∀ r ∈ scalarRows, RunsReg r.1 (setsRd r.2) := by
  simp only [scalarRows, List.forall_mem_cons, List.not_mem_nil, false_implies, implies_true,
    and_true]
  refine ⟨?add, ?sub, ?and, ?or, ?xor, ?shl, ?shr, ?sar, ?min, ?max, ?minu, ?maxu, ?slt, ?sltu⟩
  all_goals refine ⟨_, _, fun _ _ => rfl, fun _ _ _ => rfl, fun f th th' => congrArg (writeS th' f.rd) ?_⟩
  case add | sub | and | or | xor => rfl
  case shl => exact shl6_eq _ _
  case shr => exact shr6_eq _ _
  case sar => exact sar6_eq _ _
  case min => exact minS_eq _ _
  case max => exact maxS_eq _ _
  case minu => exact minU_eq _ _
  case maxu => exact maxU_eq _ _
  case slt => exact bit01_slt _ _
  case sltu => exact bit01_ult _ _

theorem runsReg_of_countRows : ∀ r ∈ countRows, RunsReg r.1
    (setsRd fun a _ _ => BitVec.ofNat 64 (r.2 a)) := by
  simp only [countRows, List.forall_mem_cons, List.not_mem_nil, false_implies, implies_true,
    and_true]
  refine ⟨?_, ?_, ?_⟩
  all_goals exact ⟨_, _, fun _ _ => rfl, fun _ _ _ => rfl, fun _ _ _ => rfl⟩

/-- A counting instruction uses no rb, which must be zero (R62). -/
theorem countRows_illegal : ∀ r ∈ countRows, ∀ t f i,
    engineInsn (r.1 t f) = some (t, i) → f.rb ≠ 0 → i.illegal = true := by
  simp only [countRows, List.forall_mem_cons, List.not_mem_nil, false_implies, implies_true,
    and_true]
  refine ⟨?_, ?_, ?_⟩
  all_goals
    intro t f i hi hrb
    cases hi
    simp [insnR, fieldOk, show ¬ f.rb = 0#5 from hrb]

theorem runsReg_of_mulRows : ∀ r ∈ mulRows, RunsReg r.1 (setsRd r.2) := by
  simp only [mulRows, List.forall_mem_cons, List.not_mem_nil, false_implies, implies_true, and_true]
  refine ⟨?_, ?_, ?_, ?_, ?_, ?_, ?_, ?_⟩
  all_goals exact ⟨_, _, fun _ _ => rfl, fun _ _ _ => rfl, fun _ _ _ => rfl⟩

theorem runsReg_of_immRows : ∀ r ∈ immRows, RunsReg r.1 fun f th th' =>
    writeS th' f.rd (r.2 (readS th f.ra) (f.imm.signExtend 64)) := by
  simp only [immRows, List.forall_mem_cons, List.not_mem_nil, false_implies, implies_true, and_true]
  refine ⟨?addi, ?subi, ?andi, ?ori, ?xori, ?shli, ?shri, ?sari, ?mini, ?maxi, ?minui, ?maxui, ?slti,
    ?sltui⟩
  all_goals refine ⟨_, _, fun _ _ => rfl, fun _ _ _ => rfl, fun f th th' => congrArg (writeS th' f.rd) ?_⟩
  case addi | subi | andi | ori | xori => rfl
  case shli => exact shl6_eq _ _
  case shri => exact shr6_eq _ _
  case sari => exact sar6_eq _ _
  case mini => exact minS_eq _ _
  case maxi => exact maxS_eq _ _
  case minui => exact minU_eq _ _
  case maxui => exact maxU_eq _ _
  case slti => exact bit01_slt _ _
  case sltui => exact bit01_ult _ _

theorem runsReg_movi : RunsReg Instr.movi fun f _ th' => writeS th' f.rd (f.imm.signExtend 64) :=
  ⟨_, _, fun _ _ => rfl, fun _ _ _ => rfl, fun _ _ _ => rfl⟩

theorem runsReg_movh : RunsReg Instr.movh fun f th th' =>
    writeS th' f.rd (f.imm.extractLsb' 0 21 ++ (readS th f.rd).extractLsb' 0 43) :=
  ⟨_, _, fun _ _ => rfl, fun _ _ _ => rfl, fun _ _ _ => rfl⟩

theorem movh_illegal {t : Nat} {f : WForm} {i : Insn} (hi : engineInsn (.movh t f) = some (t, i))
    (h : f.imm.extractLsb' 21 22 ≠ 0) : i.illegal = true := by
  cases hi
  simpa [orIllegal, insnW] using h

/-! Comparisons and branches (R64, R65). -/

theorem decides_of_cmpRows : ∀ r ∈ cmpRows, Decides r.1 r.2 (fun f th => readS th f.ra)
    (fun f th => readS th f.rb) fun f c _ th' => writeP th' (f.rd.setWidth 3) (predOf c) := by
  simp only [cmpRows, List.forall_mem_cons, List.not_mem_nil, false_implies, implies_true, and_true]
  refine ⟨⟨_, fun _ _ => beq_iff_eq, ?_⟩, ⟨_, fun _ _ => bne_iff_ne, ?_⟩, ⟨_, slt_iff, ?_⟩,
    ⟨_, not_slt_iff, ?_⟩, ⟨_, ult_iff, ?_⟩, ⟨_, not_ult_iff, ?_⟩⟩
  all_goals exact ⟨_, _, fun _ _ => rfl, fun _ _ _ => rfl, fun _ _ _ => rfl⟩

theorem decides_of_cmpiRows : ∀ r ∈ cmpiRows, Decides r.1 r.2 (fun f th => readS th f.ra)
    (fun f _ => f.imm.signExtend 64) fun f c _ th' => writeP th' (f.rd.setWidth 3) (predOf c) := by
  simp only [cmpiRows, List.forall_mem_cons, List.not_mem_nil, false_implies, implies_true, and_true]
  refine ⟨⟨_, fun _ _ => beq_iff_eq, ?_⟩, ⟨_, fun _ _ => bne_iff_ne, ?_⟩, ⟨_, slt_iff, ?_⟩,
    ⟨_, not_slt_iff, ?_⟩, ⟨_, ult_iff, ?_⟩, ⟨_, not_ult_iff, ?_⟩⟩
  all_goals exact ⟨_, _, fun _ _ => rfl, fun _ _ _ => rfl, fun _ _ _ => rfl⟩

/-- A shift by three places is a product by 8. -/
theorem branchTarget_eq (th : Thread) (f : BForm) :
    branchTarget th f = th.pc + 8 * f.off.signExtend 57 := by
  rw [branchTarget, BitVec.shiftLeft_eq_mul_twoPow, BitVec.mul_comm]
  rfl

theorem decides_of_branchRows : ∀ r ∈ branchRows, Decides r.1 r.2 (fun f th => readS th f.ra)
    (fun f th => readS th f.rb) fun f c th th' =>
      if c then { th' with pc := th.pc + 8 * f.off.signExtend 57 } else th' := by
  simp only [branchRows, List.forall_mem_cons, List.not_mem_nil, false_implies, implies_true,
    and_true]
  refine ⟨⟨_, fun _ _ => beq_iff_eq, ?_⟩, ⟨_, fun _ _ => bne_iff_ne, ?_⟩, ⟨_, slt_iff, ?_⟩,
    ⟨_, not_slt_iff, ?_⟩, ⟨_, ult_iff, ?_⟩, ⟨_, not_ult_iff, ?_⟩⟩
  all_goals
    refine ⟨_, _, fun _ _ => rfl, fun _ _ _ => rfl, fun f th th' => ?_⟩
    rw [branchTarget_eq]

/-- Settles O8: each row writes rd, or decides its relation into a predicate. -/
theorem scalarResults : Obligations.scalar_results := by
  refine ⟨fun r hr t f s i hi h => ?_, ⟨fun r hr t f s i hi h => ?_, lowestSet_spec, leadingZeros_spec,
    countRows_illegal⟩, fun r hr t f s i hi h => ?_, ⟨fun r hr t f s i hi h => ?_,
    fun t f s i hi h => ?_, fun t f s i hi h => ?_, fun t f i => movh_illegal⟩,
    fun r hr t f s i hi h => ?_, fun r hr t f s i hi h => ?_⟩
  · exact (runsReg_of_scalarRows r hr).becomes hi h (by simp)
  · exact (runsReg_of_countRows r hr).becomes hi h (by simp)
  · exact (runsReg_of_mulRows r hr).becomes hi h (by simp)
  · exact (runsReg_of_immRows r hr).becomes hi h (by simp)
  · exact runsReg_movi.becomes hi h (by simp)
  · exact runsReg_movh.becomes hi h (by simp)
  · exact (decides_of_cmpRows r hr).becomes hi h (by simp)
  · exact (decides_of_cmpiRows r hr).becomes hi h (by simp)

/-! Jumps (R65). -/

theorem jumpTo_aligned {s : State} {th : Thread} {a : Word} (ha : a.toNat % 8 = 0)
    (hc : a.toNat < 2 ^ 57) : jumpTo s th a = .done { th with pc := a.setWidth 57 } := by
  have high : bits a 57 7 = 0 := by rw [bits_eq, Nat.div_eq_of_lt hc, Nat.zero_mod]
  have low : bits a 0 3 = 0 := by simpa [bits_eq] using ha
  simp [jumpTo, low, high]

theorem jumpTo_misaligned {s : State} {th : Thread} {a : Word} (ha : a.toNat % 8 ≠ 0) :
    jumpTo s th a = .exc s .align a 0x04 := by
  have low : bits a 0 3 ≠ 0 := by simpa [bits_eq] using ha
  simp [jumpTo, low, raise, excStatus]

/-- Settles O9, by the relations that branches decide and the two ends of a jump. -/
theorem branchAndJumpResults : Obligations.branch_and_jump_results := by
  have runs_br : RunsReg Instr.br fun f th th' =>
      { th' with pc := th.pc + 8 * f.off.signExtend 57 } :=
    ⟨_, _, fun _ _ => rfl, fun _ _ _ => rfl, fun f th th' => by rw [branchTarget_eq]⟩
  have runs_jal : RunsReg Instr.jal fun f th th' =>
      writeS { th' with pc := th.pc + 8 * f.off.signExtend 57 } f.ra ((th.pc + 8).setWidth 64) :=
    ⟨_, _, fun _ _ => rfl, fun _ _ _ => rfl, fun f th th' => by rw [branchTarget_eq]⟩
  refine ⟨⟨fun r hr t f s i hi h => ?_, fun t f s i hi h => ?_, fun t f s i hi h => ?_⟩,
    fun t f s i hi h => ⟨fun ha hc => ?_, fun ha => ?_⟩,
    fun t f s i hi h => ⟨fun ha hc => ?_, fun ha => ?_⟩⟩
  · exact (decides_of_branchRows r hr).becomes hi h (by simp [apply_ite Thread.state])
  · exact runs_br.becomes hi h rfl
  · exact runs_jal.becomes hi h (by simp)
  · obtain rfl := engineInsn_unique hi (engineInsn_jr t f)
    exact becomes_of_done (exec_jr t f s) h (jumpTo_aligned ha hc) (Or.inl rfl)
  · obtain rfl := engineInsn_unique hi (engineInsn_jr t f)
    rw [exec_jr, execJr, issue_of_exc h (jumpTo_misaligned ha)]
    rfl
  · obtain rfl := engineInsn_unique hi (engineInsn_jalr t f)
    exact becomes_of_done (exec_jalr t f s) h (jumpTo_aligned ha hc) (Or.inl (by simp))
  · obtain rfl := engineInsn_unique hi (engineInsn_jalr t f)
    rw [exec_jalr, execJalr, issue_of_exc h (jumpTo_misaligned ha)]
    rfl

end Sys2Proof.Machine
end

section
/-! SUPPORT. Mask instructions, vector comparisons and reductions, and vector conversions (R70 to
R73). -/

namespace Sys2Proof.Machine

/-! Mask instructions (R73). -/

theorem runsReg_of_maskRows : ∀ r ∈ maskRows, RunsReg r.1 fun f th th' =>
    writeP th' f.pd (r.2 (readP th f.pa) (readP th f.pb)) := by
  simp only [maskRows, List.forall_mem_cons, List.not_mem_nil, false_implies, implies_true, and_true]
  refine ⟨?_, ?_, ?_, ?_, ?_⟩
  all_goals exact ⟨_, _, fun _ _ => rfl, fun _ _ _ => rfl, fun _ _ _ => rfl⟩

theorem runsReg_of_maskReadRows : ∀ r ∈ maskReadRows, RunsReg r.1 fun f th th' =>
    writeS th' f.rd (r.2 (readP th f.pa)) := by
  simp only [maskReadRows, List.forall_mem_cons, List.not_mem_nil, false_implies, implies_true,
    and_true]
  refine ⟨?_, ?_, ?_⟩
  all_goals exact ⟨_, _, fun _ _ => rfl, fun _ _ _ => rfl, fun _ _ _ => rfl⟩

theorem runsReg_pmov : RunsReg Instr.pmov fun f th th' => writeP th' f.pd (readS th f.ra) :=
  ⟨_, _, fun _ _ => rfl, fun _ _ _ => rfl, fun _ _ _ => rfl⟩

/-! Vector comparisons and reductions (R70). -/

theorem ChargedFrom.srOf_eq {s s' : State} (h : ChargedFrom s s') (th : Thread) :
    Machine.srOf s' th = Machine.srOf s th := funext (h.srOf th)

/-- A row that `vecCmp` runs. -/
def ComparesLanes (cmd : Nat → VForm → Instr) (op : Val → Val → Bool) : Prop :=
  ∃ minor, (∀ t f, engineInsn (cmd t f) = some (t, insnV 0x18 minor
      { va := true, vb := true, pd := true } fmtsAll [] .lanes false false false f)) ∧
    ∀ t f s, exec (cmd t f) s = .next (vecCmp minor op t f s)

theorem ComparesLanes.becomes {cmd : Nat → VForm → Instr} {op : Val → Val → Bool}
    (hr : ComparesLanes cmd op) {t : Nat} {f : VForm} {s : State} {i : Insn}
    (hi : engineInsn (cmd t f) = some (t, i)) (h : Issues t i s) :
    let th := thread s t
    ThreadBecomes (cmd t f) s t (writeP (advance i th) f.pd (wordOfBits 64 fun k =>
      if active th f k ∧ k < fmtLanes (vFmt f) then
        op (decodeElem (vFmt f) (srcLane (vFmt f) th f.va k))
          (decodeElem (vFmt f) (srcLane (vFmt f) th f.vb k))
      else (readP th f.pd).getLsbD k)) := by
  obtain ⟨minor, listed, runs⟩ := hr
  obtain rfl := engineInsn_unique hi (listed t f)
  exact becomes_of_done (runs t f s) h rfl (Or.inl (by simp))

theorem comparesLanes_of_vcmpRows : ∀ r ∈ vcmpRows, ComparesLanes r.1 r.2 := by
  simp only [vcmpRows, List.forall_mem_cons, List.not_mem_nil, false_implies, implies_true, and_true]
  refine ⟨?_, ?_, ?_, ?_, ?_, ?_⟩
  all_goals exact ⟨_, fun _ _ => rfl, fun _ _ _ => rfl⟩

/-- A row that `vecReduce` runs. -/
def Reduces (cmd : Nat → VForm → Instr)
    (comb : Fmt → Rnd → (Nat → Nat) → Nat → Nat → Nat → Nat) : Prop :=
  ∃ minor, (∀ t f, engineInsn (cmd t f) = some (t, insnV 0x17 minor { vd := true, va := true } fmtsAll
      [] .lanes false false false f)) ∧
    ∀ t f s, exec (cmd t f) s = .next (vecReduce minor comb t f s)

theorem Reduces.becomes {cmd : Nat → VForm → Instr}
    {comb : Fmt → Rnd → (Nat → Nat) → Nat → Nat → Nat → Nat} (hr : Reduces cmd comb) {t : Nat}
    {f : VForm} {s : State} {i : Insn} (hi : engineInsn (cmd t f) = some (t, i)) (h : Issues t i s) :
    let th := thread s t
    ThreadBecomes (cmd t f) s t (writeV (advance i th) f.vd
      (vecOfLanes (fmtWidth (vFmt f)) 1 fun _ => quietResult (vFmt f)
        ((reduceTree (active th f) (srcLane (vFmt f) th f.va) (comb (vFmt f) (vRnd f) (srOf s th))
          (Nat.log2 (fmtLanes (vFmt f))) 0).getD 0))) := by
  obtain ⟨minor, listed, runs⟩ := hr
  obtain rfl := engineInsn_unique hi (listed t f)
  refine becomes_of_done (runs t f s) h ?_ (Or.inl (by simp))
  simp only [(chargeIssue_from s t _).srOf_eq]

theorem reduces_of_reduceRows : ∀ r ∈ reduceRows, Reduces r.1 r.2 := by
  simp only [reduceRows, List.forall_mem_cons, List.not_mem_nil, false_implies, implies_true,
    and_true]
  refine ⟨?_, ?_, ?_⟩
  all_goals exact ⟨_, fun _ _ => rfl, fun _ _ _ => rfl⟩

theorem quietResult_of_nan {fm : Fmt} {x : Nat} (h : decodeElem fm x = .nan)
    (hf : fmtIsInt fm = false) : quietResult fm x = canonicalNaN fm := by
  simp [quietResult, h, hf]

theorem quietResult_of_ne_nan {fm : Fmt} {x : Nat} (h : decodeElem fm x ≠ .nan) :
    quietResult fm x = x := by
  simp [quietResult, h]

/-- Settles O10, row by row. -/
theorem maskAndVectorCompareResults : Obligations.mask_and_vector_compare_results :=
  ⟨⟨fun r hr _ _ _ _ hi h => (runsReg_of_maskRows r hr).becomes hi h (by simp),
      fun r hr _ _ _ _ hi h => (runsReg_of_maskReadRows r hr).becomes hi h (by simp),
      fun _ _ _ _ hi h => runsReg_pmov.becomes hi h (by simp)⟩,
    fun r hr _ _ _ _ => (comparesLanes_of_vcmpRows r hr).becomes,
    fun r hr _ _ _ _ => (reduces_of_reduceRows r hr).becomes, fun _ _ => quietResult_of_nan,
    fun _ _ => quietResult_of_ne_nan⟩

/-! Conversions (R71, R72). -/

/-- A row that `vecConvert` runs, each element going to `val`. -/
def ConvertsLanes (cmd : Nat → VForm → Instr) (val : State → VForm → Thread → Nat → Nat → Nat) :
    Prop :=
  ∃ minor u fa fb, ∃ g : VForm → Fmt → Fmt → Rnd → Nat → Thread → Nat → Nat,
    (∀ t f, engineInsn (cmd t f) = some (t, insnV 0x16 minor u fa fb .lanes
      (decide (laneGroups (vFmt f) (vFmt2 f) ≤ f.imm.toNat)) false false f)) ∧
    (∀ t f s, exec (cmd t f) s = .next (vecConvert minor u fa fb (g f) t f s)) ∧
    ∀ s f th k e, g f (vFmt f) (vFmt2 f) (vRnd f) (srOf s th k) th e = val s f th k e

theorem ConvertsLanes.becomes {cmd : Nat → VForm → Instr}
    {val : State → VForm → Thread → Nat → Nat → Nat} (hr : ConvertsLanes cmd val) {t : Nat} {f : VForm}
    {s : State} {i : Insn} (hi : engineInsn (cmd t f) = some (t, i)) (h : Issues t i s) :
    let th := thread s t
    let a := vFmt f
    let b := vFmt2 f
    let n := min (fmtLanes a) (fmtLanes b)
    let so := if fmtLanes b < fmtLanes a then f.imm.toNat * n else 0
    let d := if fmtLanes a < fmtLanes b then f.imm.toNat * n else 0
    ThreadBecomes (cmd t f) s t (writeV (advance i th) f.vd (lanesWhere b (readV th f.vd)
      (fun j => decide (d ≤ j ∧ j < d + n) && active th f j)
      (fun j => val s f th j (srcLane a th f.va (so + (j - d)))))) := by
  obtain ⟨minor, u, fa, fb, g, listed, runs, value⟩ := hr
  obtain rfl := engineInsn_unique hi (listed t f)
  have issues := runs t f s
  rw [vecConvert] at issues
  refine becomes_of_done issues h ?_ (Or.inl (by simp))
  simp only [(chargeIssue_from s t _).srOf, value]

theorem convertsLanes_of_convertRows : ∀ r ∈ convertRows, ConvertsLanes r.1 r.2 := by
  simp only [convertRows, List.forall_mem_cons, List.not_mem_nil, false_implies, implies_true,
    and_true]
  refine ⟨?_, ?_, ?_⟩
  all_goals exact ⟨_, _, _, _, _, fun _ _ => rfl, fun _ _ _ => rfl, fun _ _ _ _ _ => rfl⟩

/-- `vqmx` takes the upper 16 values of FP32 from the register above va (R71). -/
theorem vqmx_becomes {t : Nat} {f : VForm} {s : State} {i : Insn}
    (hi : engineInsn (.vqmx t f) = some (t, i)) (h : Issues t i s) :
    let th := thread s t
    ThreadBecomes (.vqmx t f) s t (writeV (advance i th) f.vd (mxRegister (vFmt2 f)
      (quantise (vFmt2 f) (vRnd f) (srOf s th) ((List.range 32).map fun k =>
        decodeElem (vFmt f) (if f.fmt = 0 ∧ 16 ≤ k then srcLane (vFmt f) th (f.va + 1) (k - 16)
          else srcLane (vFmt f) th f.va k))))) := by
  obtain rfl := engineInsn_unique hi (engineInsn_vqmx t f)
  refine becomes_of_done (exec_vqmx t f s) h ?_ (Or.inl (by simp))
  simp only [(chargeIssue_from s t _).srOf_eq, Bool.and_eq_true, beq_iff_eq, decide_eq_true_eq]

theorem vdqmx_becomes {t : Nat} {f : VForm} {s : State} {i : Insn}
    (hi : engineInsn (.vdqmx t f) = some (t, i)) (h : Issues t i s) :
    let th := thread s t
    let v := readV th f.va
    let x (k : Nat) : Nat :=
      encodeFloat .fp32 .rne 0 (decodeMx (vFmt f) (mxScale v) (mxElem (vFmt f) v k))
    ThreadBecomes (.vdqmx t f) s t (writeV (writeV (advance i th) f.vd (vecOfLanes 32 16 x))
      (f.vd + 1) (vecOfLanes 32 16 fun k => x (16 + k))) := by
  obtain rfl := engineInsn_unique hi (engineInsn_vdqmx t f)
  refine becomes_of_done (exec_vdqmx t f s) h ?_ (Or.inl (by simp))
  simp

theorem vemax_becomes {t : Nat} {f : VForm} {s : State} {i : Insn}
    (hi : engineInsn (.vemax t f) = some (t, i)) (h : Issues t i s) :
    let th := thread s t
    ThreadBecomes (.vemax t f) s t (writeS (advance i th) f.rs
      (match (List.range (fmtLanes (vFmt f))).filterMap (fun k =>
          if active th f k then elemExponent (vFmt f) (srcLane (vFmt f) th f.va k) else none) with
        | [] => 0x8000000000000000
        | e :: es => BitVec.ofInt 64 (es.foldl max e))) := by
  obtain rfl := engineInsn_unique hi (engineInsn_vemax t f)
  exact becomes_of_done (exec_vemax t f s) h rfl (Or.inl (by simp))

/-- Settles O13, row by row. -/
theorem vectorConvertResults : Obligations.vector_convert_results :=
  ⟨fun r hr _ _ _ _ => (convertsLanes_of_convertRows r hr).becomes, fun _ _ _ _ => vqmx_becomes,
    fun _ _ _ _ => vdqmx_becomes, fun _ _ _ _ => vemax_becomes⟩

end Sys2Proof.Machine
end

section
/-! SUPPORT. Local loads and stores, and the traps of their addresses (R52, R66, R82, R112, R136). -/

namespace Sys2Proof.Machine

/-! The checks on a local access. -/

theorem checkLocal_align_iff {s : State} {th : Thread} {a : Word} {n k : Nat} :
    checkLocal s th a n k = some .align ↔ a.toNat % k ≠ 0 := by
  unfold checkLocal
  split
  next h => simp [h]
  next h => split <;> simp_all

theorem checkLocal_lbounds_iff {s : State} {th : Thread} {a : Word} {n k : Nat} :
    checkLocal s th a n k = some .lbounds ↔
      a.toNat % k = 0 ∧ (2 ^ 15 ≤ a.toNat ∨ (groupOf s th).winSize < a.toNat + n) := by
  unfold checkLocal
  split
  next h => simp [h]
  next h => split <;> simp_all

/-- A local access has two causes of a trap. -/
theorem checkLocal_cause {s : State} {th : Thread} {a : Word} {n k : Nat} {c : Cause}
    (h : checkLocal s th a n k = some c) : c = .align ∨ c = .lbounds := by
  unfold checkLocal at h
  split_ifs at h <;> simp_all

/-- An instruction whose local access fails its checks raises their cause with the address. -/
theorem issue_traps_local {t : Nat} {i : Insn} {s : State} {body : State → Thread → Thread → Eff}
    {a : Word} {n k : Nat} {c : Cause} (h : Issues t i s)
    (hc : checkLocal s (thread s t) a n k = some c)
    (hb : body (chargeIssue s t i.word) (thread s t) (advance i (thread s t)) =
      raise (chargeIssue s t i.word) c a) :
    issue t i body s =
      takeException (chargeIssue s t i.word) t (thread s t).pc i.word a c 0x04 := by
  rw [issue_of_exc h hb]
  obtain rfl | rfl := checkLocal_cause hc <;> rfl

/-! Loads. -/

/-- A row that `localLoad` runs. -/
def LoadsLocal (cmd : Nat → IForm → Instr) (n : Nat) (sext : Bool) : Prop :=
  ∃ minor, (∀ t f, engineInsn (cmd t f) = some (t, insnI 0x0C minor .scalar true f)) ∧
    ∀ t f s, exec (cmd t f) s = .next (localLoad minor n sext t f s)

theorem loadsLocal_of_localLoadRows : ∀ r ∈ localLoadRows, LoadsLocal r.1 r.2.1 r.2.2 := by
  simp only [localLoadRows, List.forall_mem_cons, List.not_mem_nil, false_implies, implies_true,
    and_true]
  refine ⟨?_, ?_, ?_, ?_, ?_, ?_, ?_⟩
  all_goals exact ⟨_, fun _ _ => rfl, fun _ _ _ => rfl⟩

/-- What lets a read of `n` bytes of a thread's window at `a` give them: it passes its checks, waits for
no tile, and meets no error. -/
structure ReadsWindow (s : State) (t : Nat) (a : Word) (n : Nat) : Prop where
  passes : checkLocal s (thread s t) a n n = none
  free : readMustWait s (engineOf t) ((groupOf s (thread s t)).winBase + a.toNat) n = false
  good : wordsGood s (windowPa s (thread s t) a.toNat) n
  kept : localLost s (windowPa s (thread s t) a.toNat) = false

section
variable {cmd : Nat → IForm → Instr} {n t : Nat} {sext : Bool} {f : IForm} {s : State} {i : Insn}
  {a : Word}

theorem LoadsLocal.becomes (hr : LoadsLocal cmd n sext) (hi : engineInsn (cmd t f) = some (t, i))
    (h : Issues t i s) (ha : effAddr (thread s t) f = a) (hw : ReadsWindow s t a n) :
    ThreadBecomes (cmd t f) s t (writeS (advance i (thread s t)) f.rd
      (loadValue sext (peek s (windowPa s (thread s t) a.toNat) n))) := by
  obtain ⟨minor, listed, runs⟩ := hr
  obtain rfl := engineInsn_unique hi (listed t f)
  have charged := chargeIssue_from s t (insnI 0x0C minor .scalar true f).word
  refine becomes_of_state (runs t f s) h ?_ (Or.inl (by simp))
  generalize chargeIssue s t _ = s1 at charged ⊢
  simp [ha, charged.checkLocal, hw.passes, charged.groupOf, charged.readMustWait, hw.free,
    charged.readWindow_good hw.kept hw.good]

theorem LoadsLocal.traps (hr : LoadsLocal cmd n sext) (hi : engineInsn (cmd t f) = some (t, i))
    (h : Issues t i s) (ha : effAddr (thread s t) f = a) {c : Cause}
    (hc : checkLocal s (thread s t) a n n = some c) :
    exec (cmd t f) s =
      .next (takeException (chargeIssue s t i.word) t (thread s t).pc i.word a c 0x04) := by
  obtain ⟨minor, listed, runs⟩ := hr
  obtain rfl := engineInsn_unique hi (listed t f)
  rw [runs, localLoad, issue_traps_local h hc]
  simp only [ha, (chargeIssue_from s t _).checkLocal, hc]

theorem ldV_becomes (hi : engineInsn (.ldV t f) = some (t, i)) (h : Issues t i s)
    (ha : effAddr (thread s t) f = a) (hw : ReadsWindow s t a 64) :
    ThreadBecomes (.ldV t f) s t (writeV (advance i (thread s t)) (f.rd.setWidth 4)
      (vecOfBytes (peek s (windowPa s (thread s t) a.toNat) 64))) := by
  obtain rfl := engineInsn_unique hi (engineInsn_ldV t f)
  have charged := chargeIssue_from s t (insnI 0x0C 0x07 .vector true f).word
  refine becomes_of_state (exec_ldV t f s) h ?_ (Or.inl (by simp))
  generalize chargeIssue s t _ = s1 at charged ⊢
  simp [ha, charged.checkLocal, hw.passes, charged.groupOf, charged.readMustWait, hw.free,
    charged.readWindow_good hw.kept hw.good]

end

/-- Settles O19. -/
theorem localLoadResults : Obligations.local_load_results :=
  ⟨fun r hr _ _ _ _ hi h hc hf hg hl =>
      (loadsLocal_of_localLoadRows r hr).becomes hi h rfl ⟨hc, hf, hg, hl⟩,
    fun _ _ _ _ hi h hc hf hg hl => ldV_becomes hi h rfl ⟨hc, hf, hg, hl⟩⟩

/-! Stores. -/

/-- A row that `localStore` runs. -/
def StoresLocal (cmd : Nat → IForm → Instr) (n : Nat) : Prop :=
  ∃ minor, (∀ t f, engineInsn (cmd t f) = some (t, insnI 0x0D minor .scalar true f)) ∧
    ∀ t f s, exec (cmd t f) s = .next (localStore minor n t f s)

theorem storesLocal_of_localStoreRows : ∀ r ∈ localStoreRows, StoresLocal r.1 r.2 := by
  simp only [localStoreRows, List.forall_mem_cons, List.not_mem_nil, false_implies, implies_true,
    and_true]
  refine ⟨?_, ?_, ?_, ?_⟩
  all_goals exact ⟨_, fun _ _ => rfl, fun _ _ _ => rfl⟩

@[simp] theorem leBytes_length (n v : Nat) : (leBytes n v).length = n := by
  induction n generalizing v with
  | zero => rfl
  | succ n ih => simp [leBytes, ih]

/-- What lets a write of `n` bytes to a thread's window at `a` store them. -/
structure WritesWindow (s : State) (t : Nat) (a : Word) (n : Nat) : Prop where
  wf : Memory.wf s.mem = true
  passes : checkLocal s (thread s t) a n n = none
  free : storeMustWait s (engineOf t) ((groupOf s (thread s t)).winBase + a.toNat) n = false
  good : wordsGood s (windowPa s (thread s t) a.toNat) n

section
variable {cmd : Nat → IForm → Instr} {n t : Nat} {f : IForm} {s : State} {i : Insn} {a : Word}

/-- The bytes that a thread writes to its window, once they may be written. -/
theorem WritesWindow.wrote (hw : WritesWindow s t a n) (v : Nat) (w : Word) (x : Thread) :
    Wrote (setThread (chargeIssue s t w) t x) (windowPa s (thread s t) a.toNat) (leBytes n v)
      (writeWindow (setThread (chargeIssue s t w) t x) (thread s t) a.toNat (leBytes n v)) := by
  have good := hw.good
  rw [← leBytes_length n v] at good
  exact (chargeIssue_from s t w).writeWindow_good t x good

theorem StoresLocal.stores (hr : StoresLocal cmd n) (hi : engineInsn (cmd t f) = some (t, i))
    (h : Issues t i s) (ha : effAddr (thread s t) f = a) (hw : WritesWindow s t a n) :
    Stores (cmd t f) s t (advance i (thread s t)) (windowPa s (thread s t) a.toNat)
      (leBytes n (readS (thread s t) f.rd).toNat) := by
  obtain ⟨minor, listed, runs⟩ := hr
  obtain rfl := engineInsn_unique hi (listed t f)
  have charged := chargeIssue_from s t (insnI 0x0D minor .scalar true f).word
  refine stores_of_wrote (runs t f s) h ?_ (hw.wrote _ _ _) hw.wf (Or.inl (by simp))
  generalize chargeIssue s t _ = s1 at charged ⊢
  simp [ha, charged.checkLocal, hw.passes, charged.groupOf, charged.storeMustWait, hw.free]

theorem StoresLocal.traps (hr : StoresLocal cmd n) (hi : engineInsn (cmd t f) = some (t, i))
    (h : Issues t i s) (ha : effAddr (thread s t) f = a) {c : Cause}
    (hc : checkLocal s (thread s t) a n n = some c) :
    exec (cmd t f) s =
      .next (takeException (chargeIssue s t i.word) t (thread s t).pc i.word a c 0x04) := by
  obtain ⟨minor, listed, runs⟩ := hr
  obtain rfl := engineInsn_unique hi (listed t f)
  rw [runs, localStore, issue_traps_local h hc]
  simp only [ha, (chargeIssue_from s t _).checkLocal, hc]

theorem stV_stores (hi : engineInsn (.stV t f) = some (t, i)) (h : Issues t i s)
    (ha : effAddr (thread s t) f = a) (hw : WritesWindow s t a 64) :
    Stores (.stV t f) s t (advance i (thread s t)) (windowPa s (thread s t) a.toNat)
      (leBytes 64 (readV (thread s t) (f.rd.setWidth 4)).toNat) := by
  obtain rfl := engineInsn_unique hi (engineInsn_stV t f)
  have charged := chargeIssue_from s t (insnI 0x0D 0x07 .vector true f).word
  refine stores_of_wrote (exec_stV t f s) h ?_ (hw.wrote _ _ _) hw.wf (Or.inl (by simp))
  generalize chargeIssue s t _ = s1 at charged ⊢
  simp [ha, charged.checkLocal, hw.passes, charged.groupOf, charged.storeMustWait, hw.free]

end

/-- Settles O20. -/
theorem localStoreResults : Obligations.local_store_results :=
  ⟨fun r hr _ _ _ _ hi h hm hc hf hg _ =>
      (storesLocal_of_localStoreRows r hr).stores hi h rfl ⟨hm, hc, hf, hg⟩,
    fun _ _ _ _ hi h hm hc hf hg _ => stV_stores hi h rfl ⟨hm, hc, hf, hg⟩⟩

/-- Settles O21, by the two checks and what an instruction that fails one raises. -/
theorem localAccessTraps : Obligations.local_access_traps :=
  ⟨fun _ _ _ _ => checkLocal_align_iff, fun _ _ _ _ => checkLocal_lbounds_iff,
    fun r hr _ _ _ _ _ hi h hc => (loadsLocal_of_localLoadRows r hr).traps hi h rfl hc,
    fun r hr _ _ _ _ _ hi h hc => (storesLocal_of_localStoreRows r hr).traps hi h rfl hc⟩

end Sys2Proof.Machine
end

section
/-! SUPPORT. Operations that leave their engine: how they start, what their target answers, and page
walks (R66, R75, R81, R85, R118, R119, R126, R142, R151). -/

namespace Sys2Proof.Machine

@[simp] theorem engineNow_setThread (s : State) (t u : Nat) (x : Thread) :
    engineNow (setThread s t x) u = engineNow s u := rfl

@[simp] theorem groupOf_setThread (s : State) (t : Nat) (x th : Thread) :
    groupOf (setThread s t x) th = groupOf s th := rfl

@[simp] theorem gridOf_setThread (s : State) (t : Nat) (x th : Thread) :
    gridOf (setThread s t x) th = gridOf s th := rfl

/-- The thread of an instruction that goes on is not free. -/
theorem thread_setThread_advance (s : State) (t : Nat) (i : Insn) (th : Thread) :
    thread (setThread s t (advance i th)) t = advance i th :=
  thread_setThread_same s t _ (ne_free_of_state _ (by simp))

/-! The start of an operation. -/

theorem opVa_of_ne_mvpost {o : Op} (h : o.kind ≠ .mvpost) : opVa o = o.va.toNat := by
  unfold opVa
  split
  · contradiction
  · rfl

/-- An operation other than a post looks its address up and goes on, parks, or waits for a walk. -/
theorem startOp_of_ne_mvpost {s : State} {t : Nat} {o : Op} (n : Nat) (h : o.kind ≠ .mvpost) :
    startOp s t o (n + 1) =
      match cachedAccess s (opAccess o.kind) (clusterOf (engineOf t)) (gridOf s (thread s t)).part
          (gridOf s (thread s t)).ctx o.va.toNat (opWrites o) with
      | none => setThread s t
          (pushOp { thread s t with state := .wait } { o with phase := .walk })
      | some (.error e, s1) => park s1 t o e
      | some (.ok pa, s1) =>
        if loadOverlap (thread s t) o pa then
          setThread s1 t (pushOp { thread s t with state := .wait } { o with phase := .walk })
        else goTo s1 t o pa := by
  simp only [startOp, h, false_and, if_false, opVa_of_ne_mvpost h] <;> rfl

/-- An instruction that starts an operation once its thread has gone on. -/
theorem startsOp_of_state {c : Instr} {t : Nat} {i : Insn} {s : State} {o : Op}
    {body : State → Thread → Thread → Eff} (hc : exec c s = .next (issue t i body s))
    (h : Issues t i s) (ho : o.kind ≠ .mvpost)
    (hb : body (chargeIssue s t i.word) (thread s t) (advance i (thread s t)) =
      .state (startOp (setThread (chargeIssue s t i.word) t (advance i (thread s t))) t o 1)) :
    StartsOp c s t i o := by
  have charged := chargeIssue_from s t i.word
  have hpart : (gridOf (chargeIssue s t i.word) (advance i (thread s t))).part =
      (gridOf s (thread s t)).part := charged.part _
  have hctx : (gridOf (chargeIssue s t i.word) (advance i (thread s t))).ctx =
      (gridOf s (thread s t)).ctx := charged.ctx _
  have runs := hc.trans (congrArg _ (issue_of_state h hb))
  rw [startOp_of_ne_mvpost 0 ho, thread_setThread_advance, gridOf_setThread, hpart, hctx] at runs
  refine ⟨fun look => ?_, fun e s2 look => ?_, fun pa s2 look free => ?_,
    fun pa s2 look overlap => ?_⟩ <;> rw [runs, look]
  · simp only
    rw [if_neg]
    exact fun overlap => absurd (overlap.symm.trans free) (by decide)
  · simp only
    rw [if_pos]
    exact overlap

/-! Global loads and stores (R66, R126). -/

theorem checkGlobal_none {a : Word} {n : Nat} (ha : a.toNat % n = 0) (hc : a.toNat < 2 ^ 57) :
    checkGlobal a n = none := by
  have high : bits a 57 7 = 0 := by rw [bits_eq, Nat.div_eq_of_lt hc, Nat.zero_mod]
  simp [checkGlobal, ha, high]

/-- A row that `globalLoad` runs. -/
def LoadsGlobal (cmd : Nat → IForm → Instr) (k : OpKind) (n : Nat) (sext : Bool) : Prop :=
  k ≠ .mvpost ∧ ∃ minor, (∀ t f, engineInsn (cmd t f) = some (t, insnI 0x0E minor
      (if k = .vload then .vector else .scalar) true f)) ∧
    ∀ t f s, exec (cmd t f) s = .next (globalLoad minor k n sext t f s)

theorem loadsGlobal_of_globalLoadRows :
    ∀ r ∈ globalLoadRows, LoadsGlobal r.1 r.2.1 r.2.2.1 r.2.2.2 := by
  simp only [globalLoadRows, List.forall_mem_cons, List.not_mem_nil, false_implies, implies_true,
    and_true]
  refine ⟨?_, ?_, ?_, ?_, ?_, ?_, ?_, ?_⟩
  all_goals exact ⟨by decide, _, fun _ _ => rfl, fun _ _ _ => rfl⟩

theorem LoadsGlobal.starts {cmd : Nat → IForm → Instr} {k : OpKind} {n : Nat} {sext : Bool}
    (hr : LoadsGlobal cmd k n sext) {t : Nat} {f : IForm} {s : State} {i : Insn}
    (hi : engineInsn (cmd t f) = some (t, i)) (h : Issues t i s)
    (ha : (effAddr (thread s t) f).toNat % n = 0) (hc : (effAddr (thread s t) f).toNat < 2 ^ 57) :
    StartsOp (cmd t f) s t i
      (opOf (thread s t) i k (effAddr (thread s t) f) n f.rd.toNat sext 0 []) := by
  obtain ⟨hk, minor, listed, runs⟩ := hr
  obtain rfl := engineInsn_unique hi (listed t f)
  have issues := runs t f s
  rw [globalLoad] at issues
  refine startsOp_of_state issues h hk ?_
  simp only [checkGlobal_none ha hc]
  rfl

/-- A row that `globalStore` runs. -/
def StoresGlobal (cmd : Nat → IForm → Instr) (k : OpKind) (n : Nat) : Prop :=
  k ≠ .mvpost ∧ ∃ minor, (∀ t f, engineInsn (cmd t f) = some (t, insnI 0x0F minor
      (if k = .vstore then .vector else .scalar) true f)) ∧
    ∀ t f s, exec (cmd t f) s = .next (globalStore minor k n t f s)

theorem storesGlobal_of_globalStoreRows :
    ∀ r ∈ globalStoreRows, StoresGlobal r.1 r.2.1 r.2.2 := by
  simp only [globalStoreRows, List.forall_mem_cons, List.not_mem_nil, false_implies, implies_true,
    and_true]
  refine ⟨?_, ?_, ?_, ?_, ?_⟩
  all_goals exact ⟨by decide, _, fun _ _ => rfl, fun _ _ _ => rfl⟩

theorem StoresGlobal.starts {cmd : Nat → IForm → Instr} {k : OpKind} {n : Nat}
    (hr : StoresGlobal cmd k n) {t : Nat} {f : IForm} {s : State} {i : Insn}
    (hi : engineInsn (cmd t f) = some (t, i)) (h : Issues t i s)
    (ha : (effAddr (thread s t) f).toNat % n = 0) (hc : (effAddr (thread s t) f).toNat < 2 ^ 57) :
    let th := thread s t
    let v := if k = .vstore then (readV th (f.rd.setWidth 4)).toNat else (readS th f.rd).toNat
    StartsOp (cmd t f) s t i (opOf th i k (effAddr th f) n 0 false 0 (leBytes n v)) := by
  obtain ⟨hk, minor, listed, runs⟩ := hr
  obtain rfl := engineInsn_unique hi (listed t f)
  have issues := runs t f s
  rw [globalStore] at issues
  refine startsOp_of_state issues h hk ?_
  simp only [checkGlobal_none ha hc]
  rfl

/-! An operation at its translated address (R66, R75, R82). -/

section
variable {s : State} {t pa : Nat} {o : Op}

theorem goTo_flight (h : o.kind = .load ∨ o.kind = .vload ∨
    ((o.kind = .sig ∨ o.kind = .sread) ∧ regionOf pa = .syncObj)) :
    goTo s t o pa = setThread s t (pushOp (thread s t) { o with phase := .flight, pa := pa }) := by
  rcases h with hk | hk | ⟨hk | hk, hr⟩ <;> simp [goTo, *]

theorem goTo_store (h : o.kind = .store ∨ o.kind = .vstore) : goTo s t o pa = writeMem s pa o.data := by
  rcases h with hk | hk <;> simp [goTo, hk]

/-- The spin that a `wait.ge` or `take` begins at an address. -/
def spinAt (s : State) (t : Nat) (o : Op) (pa : Nat) : Spin :=
  { take := o.kind == .take, va := o.va, pa := pa, target := o.x
    dst := BitVec.ofNat 5 o.dst, left := o.size, since := engineNow s t, stale := false
    pc := o.pc, word := o.word }

theorem goTo_spin (h : o.kind = .wait ∨ o.kind = .take) (hr : regionOf pa = .syncObj) :
    goTo s t o pa = if (thread s t).state = .halted then s
      else setThread s t { thread s t with state := .spin, spin := some (spinAt s t o pa) } := by
  rcases h with hk | hk <;> simp [goTo, spinAt, *]

theorem goTo_notSync
    (h : o.kind = .sig ∨ o.kind = .sread ∨ o.kind = .wait ∨ o.kind = .take)
    (hr : regionOf pa ≠ .syncObj) :
    goTo s t o pa = takeException s t o.pc o.word o.va .notsync 0x04 := by
  rcases h with hk | hk | hk | hk <;> simp [goTo, hk, hr, excStatus]

end

/-- Settles O22: instructions row by row, and the target of an operation by its kind. -/
theorem globalAccessStarts : Obligations.global_access_starts := by
  refine ⟨⟨fun r hr _ _ _ _ hi h => (loadsGlobal_of_globalLoadRows r hr).starts hi h,
    fun r hr _ _ _ _ hi h => (storesGlobal_of_globalStoreRows r hr).starts hi h⟩,
    fun _ _ _ _ => goTo_flight, fun _ _ _ _ => goTo_store, fun s t o pa h hr hs => ?_,
    fun s t o pa h hr hs => ?_, fun _ _ _ _ => goTo_notSync⟩
  · rw [goTo_spin h hr, if_neg hs, thread_setThread_same _ _ _ (ne_free_of_state _ (by simp))]
    exact ⟨rfl, rfl⟩
  · rw [goTo_spin h hr, if_pos hs]

/-! Answers of global loads, and deferred exceptions (R66, R81, R126). -/

section
variable {t id : Nat} {s : State} {o : Op}

/-- A load whose data may arrive: in flight, its target reachable, and no earlier load of its bytes
before it. -/
structure LoadAnswers (s : State) (t id : Nat) (o : Op) : Prop where
  found : findOp (thread s t) id = some o
  flight : o.phase = .flight
  whole : o.fail = none
  reachable : regionOf o.pa = .hostMem → s.linkUp = true
  first : loadBefore (thread s t) o = false

theorem LoadAnswers.exec (h : LoadAnswers s t id o) (hk : o.kind = .load ∨ o.kind = .vload) :
    exec (.globalLoadResponse t id) s = .next (
      let r := readMem s o.pa o.size
      if r.1 then setThread r.2.2 t (putOp (thread s t)
        { o with fail := some { cause := .poison, status := 0x0D, addr := o.va } })
      else settleThread (setThread r.2.2 t
        (if o.kind = .vload then
          writeV (dropOp (thread s t) id) (BitVec.ofNat 4 o.dst) (vecOfBytes r.2.1)
        else writeS (dropOp (thread s t) id) (BitVec.ofNat 5 o.dst) (loadValue o.sext r.2.1))) t) := by
  have kind : ¬(o.kind ≠ .load ∧ o.kind ≠ .vload) := by tauto
  have up : ¬(regionOf o.pa = .hostMem ∧ s.linkUp = false) := fun hh => by simp [h.reachable hh.1] at hh
  simp only [exec_globalLoadResponse, execGlobalLoadResponse, h.found]
  rw [if_neg]
  simp only [h.flight, h.whole, h.first, kind, ne_eq, not_true, false_or, Option.isSome_none,
    Bool.false_eq_true, or_false, Bool.not_eq_true']
  exact up

theorem globalLoadResponse_waits (h : findOp (thread s t) id = some o)
    (hb : loadBefore (thread s t) o = true) : exec (.globalLoadResponse t id) s = .next s := by
  simp [execGlobalLoadResponse, h, hb]

theorem deferredException_raises {x : OpFail}
    (h : (thread s t).ops.find? (fun o => o.fail.isSome) = some o) (hf : o.fail = some x) :
    exec (.deferredException t) s = .next (takeException
      (setThread s t (dropOp (thread s t) o.id)) t o.pc o.word x.addr x.cause x.status) := by
  simp [execDeferredException, h, hf]

end

/-- Settles O24. A response asks the same of a scalar and a vector load: `LoadAnswers`. -/
theorem globalLoadAnswers : Obligations.global_load_answers := by
  refine ⟨fun t id s o hf hk hp hw hr hb hg => ?_, fun t id s o hf hk hp hw hr hb hg => ?_,
    fun t id s o hf hk hp hw hr hb hg => ?_, fun _ _ _ _ => globalLoadResponse_waits,
    fun _ _ _ _ => deferredException_raises⟩
  · simp [LoadAnswers.exec ⟨hf, hp, hw, hr, hb⟩ (Or.inl hk), hg, hk]
  · simp [LoadAnswers.exec ⟨hf, hp, hw, hr, hb⟩ (Or.inr hk), hg, hk]
  · simp [LoadAnswers.exec ⟨hf, hp, hw, hr, hb⟩ hk, hg]

end Sys2Proof.Machine
end

section
/-! SUPPORT. Page walks, sync instructions and their signals, fences (R75, R76, R85, R118, R142, R151). -/

namespace Sys2Proof.Machine

/-! Page walks (R85, R118). -/

section
variable {s : State} {t : Nat} {o : Op}

theorem park_running (e : XlateCause) (h : (thread s t).state ≠ .halted) :
    park s t o e = raiseFault (setThread s t
      { thread s t with
        state := .parked, pc := o.pc, spin := none
        halting := (thread s t).halting && !(thread s t).stepping
        ops := (thread s t).ops.filter fun x => x.phase != OpPhase.walk })
      (gridOf s (thread s t)).part (gridOf s (thread s t)).ctx (opVa o) e (opWrites o) 0
      (.thread t) := by
  simp [park, h]

/-- A thread that was stopped meanwhile stays so, and waits on no fault. -/
theorem park_halted (e : XlateCause) (h : (thread s t).state = .halted) :
    park s t o e = forgetWaiter (raiseFault (setThread s t
      { thread s t with
        pc := o.pc, spin := none
        halting := (thread s t).halting && !(thread s t).stepping
        ops := (thread s t).ops.filter fun x => x.phase != OpPhase.walk })
      (gridOf s (thread s t)).part (gridOf s (thread s t)).ctx (opVa o) e (opWrites o) 0
      (.thread t)) t := by
  simp [park, h]

/-- Only a store waits for the bytes that earlier loads have yet to read (R126). -/
theorem loadOverlap_of_mvpost (th : Thread) (pa : Nat) (h : o.kind = .mvpost) :
    loadOverlap th o pa = false := by
  simp [loadOverlap, h]

/-- The walk of the operation that waits for it, and what comes of it. -/
theorem pageWalk_of_walking
    (h : (thread s t).ops.find? (fun o => o.phase == OpPhase.walk) = some o) :
    exec (.pageWalk t) s = .next (
      let r := walkAccess s (opAccess o.kind) (clusterOf (engineOf t)) (gridOf s (thread s t)).part
        (gridOf s (thread s t)).ctx (opVa o) (opWrites o)
      let s1 := setThread r.2 t { thread s t with
        ops := (thread s t).ops.filter fun x => x.phase != OpPhase.walk
        state := if (thread s t).state = .wait then .ready else (thread s t).state }
      match r.1 with
      | .error e => settleThread (park r.2 t o e) t
      | .ok pa =>
        if loadOverlap (thread s t) o pa then r.2
        else settleThread (if o.kind = .mvpost then startOp s1 t { o with size := o.size + 1 } 2
          else goTo s1 t o pa) t) := by
  simp only [exec_pageWalk, execPageWalk, pageWalk, h] <;> rfl

end

/-- Settles O25, by the outcomes of the walk. -/
theorem pageWalkCompletes : Obligations.page_walk_completes := by
  intro t s o h
  have runs := pageWalk_of_walking h
  refine ⟨fun e hr => ?_, fun pa hr hov => ?_, fun pa hr hov hk => ?_, fun pa hr hk => ?_,
    fun e hs => park_running e hs, fun e hs => park_halted e hs⟩
  · simp only [runs, hr]
  · simp only [runs, hr, hov, if_true]
  · simp only [runs, hr, hov, hk, Bool.false_eq_true, if_false]
  · simp only [runs, hr, loadOverlap_of_mvpost _ pa hk, Bool.false_eq_true, if_false]
    rw [if_pos hk]

/-! Sync instructions and signals (R75, R142, R151). -/

/-- A row that `syncIssue` runs. -/
def RunsSync (cmd : Nat → SForm → Instr) (k : OpKind) (arg : Thread → SForm → Word)
    (limit : SForm → Nat) : Prop :=
  k ≠ .mvpost ∧ ∃ insn : SForm → Insn, (∀ t f, engineInsn (cmd t f) = some (t, insn f)) ∧
    ∀ t f s, exec (cmd t f) s = .next (syncIssue (insn f) k t f (fun th => arg th f) (limit f) s)

theorem runsSync_of_syncRows : ∀ r ∈ syncRows, RunsSync r.1 r.2.1 r.2.2.1 r.2.2.2 := by
  simp only [syncRows, List.forall_mem_cons, List.not_mem_nil, false_implies, implies_true, and_true]
  refine ⟨?_, ?_, ?_, ?_⟩
  all_goals exact ⟨by decide, _, fun _ _ => rfl, fun _ _ _ => rfl⟩

theorem RunsSync.starts {cmd : Nat → SForm → Instr} {k : OpKind} {arg : Thread → SForm → Word}
    {limit : SForm → Nat} (hr : RunsSync cmd k arg limit) {t : Nat} {f : SForm} {s : State} {i : Insn}
    (hi : engineInsn (cmd t f) = some (t, i)) (h : Issues t i s)
    (ha : (readS (thread s t) f.ra).toNat % 8 = 0) (hc : (readS (thread s t) f.ra).toNat < 2 ^ 57) :
    StartsOp (cmd t f) s t i (opOf (thread s t) i k (readS (thread s t) f.ra) (limit f) f.rd.toNat
      false (arg (thread s t) f) []) := by
  obtain ⟨hk, insn, listed, runs⟩ := hr
  obtain rfl := engineInsn_unique hi (listed t f)
  have issues := runs t f s
  rw [syncIssue] at issues
  refine startsOp_of_state issues h hk ?_
  simp only [checkSyncAddr, checkGlobal_none ha hc]
  rfl

/-- An object whose words are intact stays as it is at the check. -/
theorem checkSync_intact {s : State} {k : Nat} (ha : (syncObj s k).badAttr = .good)
    (hc : (syncObj s k).badCount = .good) : checkSync s k = s := by
  simp [checkSync, ha, hc, wordLost]

section
variable {t id : Nat} {s : State} {o : Op}

/-- A `sig` in flight, at an object whose words are intact. -/
structure SignalArrives (s : State) (t id : Nat) (o : Op) : Prop where
  found : findOp (thread s t) id = some o
  kind : o.kind = .sig
  flight : o.phase = .flight
  whole : o.fail = none
  attr : (syncObj s (syncIndex o.pa)).badAttr = .good
  count : (syncObj s (syncIndex o.pa)).badCount = .good

/-- The owner check that a signal of the thread must pass. -/
abbrev mayMark (s : State) (t : Nat) (o : Op) : Bool :=
  syncPasses (syncObj s (syncIndex o.pa)) (gridOf s (thread s t)).part (gridOf s (thread s t)).ctx
    false true

theorem signalAtHome_live (h : SignalArrives s t id o) (hp : mayMark s t o = true)
    (hs : (syncObj s (syncIndex o.pa)).state = .live) :
    let x := syncObj s (syncIndex o.pa)
    exec (.signalAtHome t id) s = .next (settleThread (setThread
      (setSync s (syncIndex o.pa) { x with count := x.count + o.x }) t
      (dropOp (thread s t) id)) t) := by
  simp [execSignalAtHome, h.found, h.kind, h.flight, h.whole, signalObj,
    checkSync_intact h.attr h.count, hp, hs]

theorem signalAtHome_refused (h : SignalArrives s t id o) (hp : mayMark s t o = false) :
    exec (.signalAtHome t id) s = .next (setThread s t (putOp (thread s t)
      { o with fail := some { cause := .notsync, status := 0x04, addr := o.va } })) := by
  simp [execSignalAtHome, h.found, h.kind, h.flight, h.whole, signalObj,
    checkSync_intact h.attr h.count, hp]

theorem signalAtHome_discarded (h : SignalArrives s t id o) (hp : mayMark s t o = true)
    (hs : (syncObj s (syncIndex o.pa)).state = .frozen ∨
      (syncObj s (syncIndex o.pa)).state = .revoked) :
    exec (.signalAtHome t id) s = .next (settleThread (recordError
      (setThread s t (dropOp (thread s t) id)) (discardInfo 0x01 (coreOf (engineOf t))
        (gridOf s (thread s t)).part (some (syncIndex o.pa))
        (if (syncObj s (syncIndex o.pa)).state = .frozen then 0x11 else 0x09))) t) := by
  rcases hs with hs | hs <;>
    simp [execSignalAtHome, h.found, h.kind, h.flight, h.whole, signalObj,
      checkSync_intact h.attr h.count, hp, hs, sigStatus]

end

/-- Settles O30. -/
theorem signalsAtHome : Obligations.signals_at_home := by
  refine ⟨fun r hr _ _ _ _ hi h => (runsSync_of_syncRows r hr).starts hi h,
    fun t id s o hf hk hp hw ha hc => ?_⟩
  have arrives : SignalArrives s t id o := ⟨hf, hk, hp, hw, ha, hc⟩
  exact ⟨signalAtHome_live arrives, signalAtHome_refused arrives, signalAtHome_discarded arrives⟩

/-! Fences (R76). -/

theorem any_fenceWaits {th : Thread} {sc : FenceScope} :
    th.ops.any (fenceWaits sc) = true ↔ ∃ o ∈ th.ops, fenceWaits sc o = true := List.any_eq_true

theorem any_fenceWaits_false {th : Thread} {sc : FenceScope} :
    th.ops.any (fenceWaits sc) = false ↔ ∀ o ∈ th.ops, fenceWaits sc o = false := by
  simp [List.any_eq_false]

/-- The thread at its fence. -/
abbrev atFence (i : Insn) (th : Thread) (sc : FenceScope) (rd : BitVec 5) : Thread :=
  { advance i th with fence := some (sc, rd), state := .wait }

@[simp] theorem retireFence_state {th : Thread} {x : FenceScope × BitVec 5} (h : th.fence = some x) :
    (retireFence th).state = .ready := by
  obtain ⟨sc, rd⟩ := x
  cases sc <;> simp [retireFence, h]

/-- A row that `fence` runs. -/
def RunsFence (cmd : Nat → SForm → Instr) (sc : FenceScope) (rd : SForm → BitVec 5) : Prop :=
  ∃ insn : SForm → Insn, (∀ t f, engineInsn (cmd t f) = some (t, insn f)) ∧
    ∀ t f s, exec (cmd t f) s = .next (fence (insn f) sc (rd f) t s)

theorem runsFence_of_fenceRows : ∀ r ∈ fenceRows, RunsFence r.1 r.2.1 r.2.2 := by
  simp only [fenceRows, List.forall_mem_cons, List.not_mem_nil, false_implies, implies_true,
    and_true]
  refine ⟨?_, ?_, ?_, ?_⟩
  all_goals exact ⟨_, fun _ _ => rfl, fun _ _ _ => rfl⟩

theorem RunsFence.becomes {cmd : Nat → SForm → Instr} {sc : FenceScope} {rd : SForm → BitVec 5}
    (hr : RunsFence cmd sc rd) {t : Nat} {f : SForm} {s : State} {i : Insn}
    (hi : engineInsn (cmd t f) = some (t, i)) (h : Issues t i s) :
    let x := atFence i (thread s t) sc (rd f)
    ThreadBecomes (cmd t f) s t
      (if (thread s t).ops.any (fenceWaits sc) then x else retireFence x) := by
  obtain ⟨insn, listed, runs⟩ := hr
  obtain rfl := engineInsn_unique hi (listed t f)
  refine becomes_of_done (runs t f s) h rfl ?_
  split
  · exact Or.inr (Or.inl rfl)
  · exact Or.inl (retireFence_state rfl)

theorem fenceRetire_eq {t : Nat} {s : State} {sc : FenceScope} {rd : BitVec 5}
    (h : (thread s t).fence = some (sc, rd)) (hs : (thread s t).state = .wait) :
    exec (.fenceRetire t) s = .next (
      if (thread s t).ops.any (fenceWaits sc) then s
      else setThread s t (retireFence (thread s t))) := by
  simp [execFenceRetire, h, hs]

/-- A fence of memory waits for each of these operations, `fence.n` for none of them. -/
theorem fenceWaits_memory_iff {sc : FenceScope} {o : Op}
    (h : o.kind = .load ∨ o.kind = .vload ∨ o.kind = .sig ∨ o.kind = .sread ∨ o.kind = .mvpost ∨
      o.kind = .tileLoad ∨ o.kind = .tileStore) : fenceWaits sc o = true ↔ sc ≠ .net := by
  rcases h with h | h | h | h | h | h | h <;> cases sc <;> simp [fenceWaits, h]

/-- Settles O33. -/
theorem fenceResults : Obligations.fence_results := by
  refine ⟨fun r hr t f s i hi h => ⟨fun hw => ?_, fun hw => ?_⟩, fun th sc rd h hn => ?_,
    fun th rd h => ?_, fun t s sc rd h hs => ⟨fun hw => ?_, fun hw => ?_⟩,
    fun _ _ => fenceWaits_memory_iff⟩
  · have becomes := (runsFence_of_fenceRows r hr).becomes hi h
    simpa only [any_fenceWaits.mpr hw, if_true] using becomes
  · have becomes := (runsFence_of_fenceRows r hr).becomes hi h
    simpa only [any_fenceWaits_false.mpr hw, Bool.false_eq_true, if_false] using becomes
  · cases sc <;> simp_all [retireFence]
  · simp [retireFence, h]
  · rw [fenceRetire_eq h hs, if_neg (by simpa using any_fenceWaits_false.mpr hw)]
  · rw [fenceRetire_eq h hs, if_pos (any_fenceWaits.mpr hw)]

end Sys2Proof.Machine
end

section
/-! SUPPORT. System instructions and the end of a thread (R54, R58, R78, R79, R86, R88). -/

namespace Sys2Proof.Machine

@[simp] theorem moverPending_setThread (s : State) (t u : Nat) (x : Thread) :
    moverPending (setThread s t x) u = moverPending s u := rfl

theorem ChargedFrom.moverPending {s s' : State} (h : ChargedFrom s s') (t : Nat) :
    Machine.moverPending s' t = Machine.moverPending s t := by
  simp [Machine.moverPending, h.movers]

theorem ChargedFrom.specialReg {s s' : State} (h : ChargedFrom s s') (t n : Nat) :
    Machine.specialReg s' t n = Machine.specialReg s t n := by
  have hpart : (Machine.gridOf s' (Machine.thread s t)).part =
      (Machine.gridOf s (Machine.thread s t)).part := h.part _
  have hctx : (Machine.gridOf s' (Machine.thread s t)).ctx =
      (Machine.gridOf s (Machine.thread s t)).ctx := h.ctx _
  simp only [Machine.specialReg, h.thread, h.tidOf, hpart, hctx, h.clocks]

/-! The end of a thread (R54, R78). -/

section
variable {t : Nat} {s : State}

theorem finishThread_outstanding (h : (thread s t).ops ≠ []) : finishThread s t = s := by
  simp [finishThread, h]

theorem finishThread_drained (hs : (thread s t).state = .ending) (ho : (thread s t).ops = [])
    (hm : moverPending s t = false) :
    finishThread s t = match (thread s t).netFail with
      | some st => takeException s t (thread s t).pc ((imageWord s t (thread s t).pc).getD 0) 0 .net st
      | none => endThread s t := by
  exact if_neg (by simp [hs, ho, hm])

end

/-- The grid of the thread has DEBUG set as it had before the charge. -/
theorem debug_charged (s : State) (t : Nat) (w : Word) :
    (gridOf (chargeIssue s t w) (thread s t)).debug = (gridOf s (thread s t)).debug :=
  (chargeIssue_from s t w).debug _

section
variable {t : Nat} {f : IForm} {s : State} {i : Insn} (h : Issues t i s)
include h

theorem nop_becomes (hi : engineInsn (.nopInsn t f) = some (t, i)) :
    ThreadBecomes (.nopInsn t f) s t (advance i (thread s t)) := by
  obtain rfl := engineInsn_unique hi (engineInsn_nopInsn t f)
  exact becomes_of_done (exec_nopInsn t f s) h rfl (Or.inl (by simp))

theorem mfs_becomes (hi : engineInsn (.mfs t f) = some (t, i)) :
    ThreadBecomes (.mfs t f) s t
      (writeS (advance i (thread s t)) f.rd (specialReg s t f.imm.toNat)) := by
  obtain rfl := engineInsn_unique hi (engineInsn_mfs t f)
  refine becomes_of_done (exec_mfs t f s) h ?_ (Or.inl (by simp))
  rw [(chargeIssue_from s t _).specialReg]
  rfl

theorem trap_raises (hi : engineInsn (.trap t f) = some (t, i)) :
    exec (.trap t f) s = .next (takeException (chargeIssue s t i.word) t (thread s t).pc i.word
      (BitVec.ofNat 64 (f.imm.toNat % 2 ^ 16)) .trap 0x01) := by
  obtain rfl := engineInsn_unique hi (engineInsn_trap t f)
  have imm : (f.imm.extractLsb' 0 16).setWidth 64 = BitVec.ofNat 64 (f.imm.toNat % 2 ^ 16) := by
    apply BitVec.eq_of_toNat_eq
    simp
  rw [← imm]
  exact (exec_trap t f s).trans (congrArg _ (issue_of_exc h rfl))

theorem brk_halts (hi : engineInsn (.brk t f) = some (t, i)) (hd : (gridOf s (thread s t)).debug = true)
    (hb : atBoundary (thread s t) = true) :
    exec (.brk t f) s = .next (afterStep (dbgHaltEvent (setThread (chargeIssue s t i.word) t
      { advance i (thread s t) with state := .halted, debug := true, stepping := false }) t) t
        (thread s t).stepping) := by
  have charged := (debug_charged s t i.word).trans hd
  obtain rfl := engineInsn_unique hi (engineInsn_brk t f)
  refine (exec_brk t f s).trans (congrArg _ (issue_of_state h ?_))
  rw [if_pos charged, if_neg (by simp [hb])]

theorem brk_waits (hi : engineInsn (.brk t f) = some (t, i)) (hd : (gridOf s (thread s t)).debug = true)
    (hb : atBoundary (thread s t) = false) :
    exec (.brk t f) s = .next (setThread s t { thread s t with state := .wait }) := by
  have charged := (debug_charged s t i.word).trans hd
  obtain rfl := engineInsn_unique hi (engineInsn_brk t f)
  refine (exec_brk t f s).trans (congrArg _ (issue_of_wait h ?_))
  rw [if_pos charged, if_pos (by simp [hb])]

theorem brk_raises (hi : engineInsn (.brk t f) = some (t, i))
    (hd : (gridOf s (thread s t)).debug = false) :
    exec (.brk t f) s = .next (takeException (chargeIssue s t i.word) t (thread s t).pc i.word 0
      .brk 0x01) := by
  have charged := (debug_charged s t i.word).trans hd
  obtain rfl := engineInsn_unique hi (engineInsn_brk t f)
  refine (exec_brk t f s).trans (congrArg _ (issue_of_exc h ?_))
  rw [if_neg (by rw [charged]; decide)]
  rfl

/-- `end` puts its thread in ENDING, and ends it where nothing is outstanding. -/
theorem end_finishes (hi : engineInsn (.end_ t f) = some (t, i)) :
    exec (.end_ t f) s = .next (afterStep (finishThread (setThread (chargeIssue s t i.word) t
      { thread s t with state := .ending }) t) t (thread s t).stepping) := by
  obtain rfl := engineInsn_unique hi (engineInsn_end_ t f)
  exact (exec_end_ t f s).trans (congrArg _ (issue_of_state h rfl))

end

theorem thread_ending (s : State) (t : Nat) (th : Thread) :
    thread (setThread s t { th with state := .ending }) t = { th with state := .ending } :=
  thread_setThread_same s t _ (ne_free_of_state _ (by simp))

/-- Settles O35: each instruction by its issue, and THREAD_END by what is outstanding. -/
theorem systemInstructionResults : Obligations.system_instruction_results := by
  refine ⟨⟨fun t f s i hi h => nop_becomes h hi, fun t f s i hi h => mfs_becomes h hi,
    fun t f s i hi h => trap_raises h hi,
    fun t f s i hi h => ⟨brk_halts h hi, brk_waits h hi, brk_raises h hi⟩⟩,
    fun t f s i hi h ho => ?_, fun t f s i hi h ho hm hn => ?_,
    fun t s hs ho hm => ⟨fun hn => ?_, fun st hn => ?_⟩, fun t s hs ho => ?_⟩
  · rw [end_finishes h hi, finishThread_outstanding (by rwa [thread_ending])]
  · rw [end_finishes h hi, finishThread_drained, thread_ending]
    · simp only [hn]
    · rw [thread_ending]
    · rwa [thread_ending]
    · rwa [moverPending_setThread, (chargeIssue_from s t i.word).moverPending]
  · rw [exec_threadEnd, execThreadEnd, finishThread_drained hs ho hm, hn]
  · rw [exec_threadEnd, execThreadEnd, finishThread_drained hs ho hm, hn]
  · rw [exec_threadEnd, execThreadEnd, finishThread_outstanding ho]

end Sys2Proof.Machine
end

section
/-! SUPPORT. The debug window: halt, resume, step and window writes (R86 to R89). -/

namespace Sys2Proof.Machine

/-! Commands on the selected context (R87, R88). -/

section
variable {s : State} {g t : Nat}

theorem dbgHaltCmd_starts (hg : selGrid s = some g) (ht : selThread s = some t)
    (hb : dbgBusy s = false) : exec .dbgHaltCmd s = .next (settleDebug
      { (gridThreads s g).foldl debugHalt s with dbgHalt := some (g, t) }) := by
  simp [execDbgHaltCmd, hg, ht, hb]

theorem dbgResume_resumes (hg : selGrid s = some g) (hb : dbgBusy s = false) :
    exec .dbgResume s = .next ((gridThreads s g).foldl (fun s t => modThread s t fun th =>
      if th.debug then resumeThread (engineNow s t) th else th) s) := by
  simp [execDbgResume, hg, hb]

theorem dbgStep_steps (hg : selGrid s = some g) (ht : selThread s = some t) (hb : dbgBusy s = false)
    (hd : (thread s t).debug = true) : exec .dbgStep s = .next (setThread s t
      { resumeThread (engineNow s t) (thread s t) with stepping := true }) := by
  simp [execDbgStep, hg, ht, hb, modThread, hd]

/-- While a HALT or a STEP is under way a command changes nothing, whatever is selected. -/
theorem dbgCommands_busy (hb : dbgBusy s = true) :
    exec .dbgHaltCmd s = .next s ∧ exec .dbgResume s = .next s ∧ exec .dbgStep s = .next s := by
  simp only [exec_dbgHaltCmd, exec_dbgResume, exec_dbgStep, execDbgHaltCmd, execDbgResume,
    execDbgStep, hb, if_true]
  refine ⟨?_, ?_, ?_⟩ <;> split <;> rfl

/-- A thread that holds a HALT up no longer. -/
theorem stopped_iff {u : Nat} :
    ((thread s u).state == .halted || (thread s u).state == .free) = true ↔
      (thread s u).state = .halted ∨ (thread s u).state = .free := by
  simp

theorem settleDebug_stopped (h : s.dbgHalt = some (g, t))
    (hs : ∀ u ∈ gridThreads s g, (thread s u).state = .halted ∨ (thread s u).state = .free) :
    settleDebug s = { dbgHaltEvent s t with dbgHalt := none } := by
  simp only [settleDebug, h]
  rw [if_pos (List.all_eq_true.mpr fun u hu => stopped_iff.mpr (hs u hu))]

theorem settleDebug_running (h : s.dbgHalt = some (g, t))
    (hs : ∃ u ∈ gridThreads s g, (thread s u).state ≠ .halted ∧ (thread s u).state ≠ .free) :
    settleDebug s = s := by
  obtain ⟨u, hu, hhalted, hfree⟩ := hs
  simp only [settleDebug, h]
  rw [if_neg fun all => ?_]
  exact (stopped_iff.mp (List.all_eq_true.mp all u hu)).elim hhalted hfree

end

/-! A thread halts and resumes (R86, R88). -/

section
variable {now : Nat} {th : Thread}

theorem haltThread_atBoundary (hh : th.halting = true) (hb : atBoundary th = true)
    (hs : th.state = .ready ∨ th.state = .wait) : haltThread now th =
      { th with state := .halted, debug := true, halting := false, stepping := false } := by
  rcases hs with hs | hs <;> simp [haltThread, hh, hb, stopThread, hs]

theorem haltThread_inFlight (hb : atBoundary th = false) : haltThread now th = th := by
  simp [haltThread, hb]

theorem resumeThread_halted (hs : th.state = .halted) (hc : th.cause = none) (hp : th.spin = none)
    (hf : th.fence = none) :
    (resumeThread now th).state = .ready ∧ (resumeThread now th).debug = false := by
  simp [resumeThread, hs, hc, hp, hf]

end

/-! Writes in the debug window (R87, R89). -/

theorem writeThreadWindow_scalar (th : Thread) (k : Nat) (v : Word) (h : k < 32) :
    writeThreadWindow th (8 * k) v = writeS th (BitVec.ofNat 5 k) v := by
  simp only [writeThreadWindow]
  rw [if_pos (by omega), Nat.mul_div_cancel_left k (by decide)]

section
variable {s : State} {e t off : Nat} {v : Word} (he : selEngine s = some e)
  (ht : selThread s = some t) (ha : off % 8 = 0)
include he ht ha

theorem dbgWindowWrite_thread (hl : 0x1000 ≤ off) (hu : off < 0x1580)
    (hs : (thread s t).state = .halted) (hd : (thread s t).debug = true) :
    exec (.dbgWindowWrite off v) s =
      .next (setThread s t (writeThreadWindow (thread s t) (off - 0x1000) v)) := by
  simp only [exec_dbgWindowWrite, execDbgWindowWrite, he, ht]
  rw [if_neg (by omega), if_pos ⟨hl, hu⟩, if_pos (Or.inr ⟨hs, hd⟩)]

theorem dbgWindowWrite_localStore (hl : 0x10000 ≤ off) (hu : off < 0x18000)
    (hs : engineStill s e = true) : exec (.dbgWindowWrite off v) s =
      .next (writeMem s (localPa e (off - 0x10000)) (leBytes 8 v.toNat)) := by
  simp only [exec_dbgWindowWrite, execDbgWindowWrite, he, ht]
  rw [if_neg (by omega), if_neg (by omega), if_pos ⟨hl, hu⟩, if_pos hs]

theorem dbgWindowWrite_accumulators (hl : 0x20000 ≤ off) (hu : off < 0x40000)
    (hs : engineStill s e = true) :
    let k := e * 8 * 4096 + (off - 0x20000) / 4
    exec (.dbgWindowWrite off v) s = .next { s with
      accs := tset 0 (tset 0 s.accs k (v.setWidth 32)) (k + 1) (v.extractLsb' 32 32) } := by
  simp only [exec_dbgWindowWrite, execDbgWindowWrite, he, ht]
  rw [if_neg (by omega), if_neg (by omega), if_neg (by omega), if_pos ⟨hl, hu⟩, if_pos hs]

end

/-- Settles O36: the commands, the halt of one thread, and the window's three regions. -/
theorem debugResults : Obligations.debug_results :=
  ⟨⟨fun _ _ _ => dbgHaltCmd_starts, fun _ _ => dbgResume_resumes, fun _ _ _ => dbgStep_steps,
      fun _ => dbgCommands_busy, fun _ _ _ h => ⟨settleDebug_stopped h, settleDebug_running h⟩,
      fun _ _ => haltThread_atBoundary, fun _ _ => haltThread_inFlight,
      fun _ _ => resumeThread_halted⟩,
    fun _ _ _ _ _ => dbgWindowWrite_thread, writeThreadWindow_scalar,
    fun _ _ _ _ _ => dbgWindowWrite_localStore, fun _ _ _ _ _ => dbgWindowWrite_accumulators⟩

end Sys2Proof.Machine
end

section
/-! SUPPORT. Net instructions and the answers to them (R77, R78, R81, R217, R241). -/

namespace Sys2Proof.Machine

/-- A row that `netIssue` runs. -/
def RunsNet (r : NetRow) : Prop :=
  ∀ t f s, exec (r.cmd t f) s =
    .next (netIssue (r.insn f) r.kind r.op r.align (r.dst f) (r.len f) (fun th => r.data th f) t f s)

theorem runsNet_of_netRows : ∀ r ∈ netRows, RunsNet r := by
  simp only [netRows, List.forall_mem_cons, List.not_mem_nil, false_implies, implies_true, and_true]
  refine ⟨?_, ?_, ?_, ?_, ?_⟩
  all_goals exact fun _ _ _ => rfl

section
variable {r : NetRow} {t : Nat} {f : NForm} {s : State}

/-- The queue pair that a net instruction names. -/
abbrev netQp (s : State) (th : Thread) (f : NForm) : Nat :=
  qpKey (gridOf s th).part (rbQpn (readS th f.rb))

/-- A net instruction that reaches its queue pair: its target is aligned, fewer than 64 acknowledgements
are outstanding, and the reserved bits of rb are 0. -/
structure AsksQp (r : NetRow) (t : Nat) (f : NForm) (s : State) : Prop where
  issues : Issues t (r.insn f) s
  aligned : r.align = true → (readS (thread s t) f.ra).toNat % 8 = 0
  room : netLimit (thread s t) r.kind = false
  reserved : rbRsv (readS (thread s t) f.rb) = 0

variable (hr : RunsNet r) (h : AsksQp r t f s)
include hr h

omit hr in
theorem AsksQp.not_misaligned : ¬(r.align = true ∧ (readS (thread s t) f.ra).toNat % 8 ≠ 0) :=
  fun misaligned => misaligned.2 (h.aligned misaligned.1)

theorem AsksQp.taken
    (hq : qpTakesNow (chargeIssue s t (r.insn f).word)
      (netQp (chargeIssue s t (r.insn f).word) (thread s t) f) r.op = .take) :
    let th := thread s t
    let s1 := chargeIssue s t (r.insn f).word
    let q := netQp s1 th f
    exec (r.cmd t f) s = .next (xptDone s (afterStep
      (submit (fkTouch (setThread s1 t (pushOp (advance (r.insn f) th)
        (newOp th (r.insn f) r.kind (readS th f.ra) (r.len f) (r.dst f)))) q) q
        (.thread t th.nextOp) r.op (rbKey (readS th f.rb)) (readS th f.ra).toNat 0 (r.len f) 0 0
        (r.data th f)) t th.stepping)) := by
  have runs := hr t f s
  rw [netIssue] at runs
  refine runs.trans (congrArg (Host.Outcome.next ∘ xptDone s) (issue_of_state h.issues ?_))
  simp only [if_neg h.not_misaligned, h.room, h.reserved, hq, Bool.false_eq_true, if_false, if_true]

theorem AsksQp.refused {st : BitVec 8}
    (hq : qpTakesNow (chargeIssue s t (r.insn f).word)
      (netQp (chargeIssue s t (r.insn f).word) (thread s t) f) r.op = .fail st) :
    exec (r.cmd t f) s = .next (xptDone s (takeException (chargeIssue s t (r.insn f).word) t
      (thread s t).pc (r.insn f).word 0 .net st)) := by
  have runs := hr t f s
  rw [netIssue] at runs
  refine runs.trans (congrArg (Host.Outcome.next ∘ xptDone s) (issue_of_exc h.issues ?_))
  simp only [if_neg h.not_misaligned, h.room, h.reserved, hq, Bool.false_eq_true, if_false, if_true]

theorem AsksQp.asks
    (hq : qpTakesNow (chargeIssue s t (r.insn f).word)
      (netQp (chargeIssue s t (r.insn f).word) (thread s t) f) r.op = .wait) :
    exec (r.cmd t f) s = .next (xptDone s (setThread
      (fkWant s (netQp (chargeIssue s t (r.insn f).word) (thread s t) f) 8) t
      { thread s t with state := .wait })) := by
  have runs := hr t f s
  rw [netIssue] at runs
  refine runs.trans (congrArg (Host.Outcome.next ∘ xptDone s) (issue_of_ask h.issues
    (g := fun x => fkWant x (netQp (chargeIssue s t (r.insn f).word) (thread s t) f) 8) ?_))
  simp only [if_neg h.not_misaligned, h.room, h.reserved, hq, Bool.false_eq_true, if_false, if_true]

end

/-! Answers (R78, R81). -/

section
variable {t id : Nat} {s : State} {o : Op} {a : NetAnswer}
  (ho : findOp (thread s t) id = some o) (ha : o.answer = some a) (hf : o.fail = none)
include ho ha hf

theorem netResponse_answered (hs : a.status = 0) : exec (.netResponse t id) s = .next (settleThread
    (setThread s t (if o.kind = .get then
        writeV (dropOp (thread s t) id) (BitVec.ofNat 4 o.dst) (vecOfBytes (a.bytes.take o.size))
      else writeS (dropOp (thread s t) id) (BitVec.ofNat 5 o.dst)
        (BitVec.ofNat 64 (leNat (a.bytes.take 8))))) t) := by
  simp [execNetResponse, ho, ha, hf, hs]

theorem netResponse_failed (hs : a.status ≠ 0) : exec (.netResponse t id) s = .next (setThread s t
    (putOp (thread s t) { o with fail := some { cause := .net, status := a.status, addr := 0 } })) := by
  simp only [exec_netResponse, execNetResponse, ho, ha, hf]
  rw [if_neg (by decide), if_pos hs]

end

/-- Settles O34: by what the queue pair answers, and by the status of the answer. -/
theorem netResults : Obligations.net_results := by
  refine ⟨fun r hr t f s hi ha hl hv => ?_, fun t id s o a ho ha hf => ⟨fun hs hk => ?_, fun hs hk => ?_,
    netResponse_failed ho ha hf⟩⟩
  · have runs := runsNet_of_netRows r hr
    have reaches : AsksQp r t f s := ⟨hi, ha, hl, hv⟩
    exact ⟨reaches.taken runs, fun st => reaches.refused runs, reaches.asks runs⟩
  · rw [netResponse_answered ho ha hf hs, if_pos hk]
  · rw [netResponse_answered ho ha hf hs, if_neg hk]

end Sys2Proof.Machine
end

section
/-! SUPPORT. Tensor multiplies: what they check as they issue, and their completion (R74, R95, R96, R103 to
R107, R109). -/

namespace Sys2Proof.Machine

/-! Formats and metadata. -/

theorem tensorFmtA_wordT (a b : BitVec 6) (f : TForm) :
    tensorFmtA (wordT a b f) = (fmtOfCode f.fmtA).getD .fp32 := by
  obtain ⟨_, _, fields⟩ := formatT.parts_word a b f
  have field : f.fmtA = (wordT a b f).extractLsb' 26 4 := congrArg TForm.fmtA fields
  rw [tensorFmtA, ← field]

theorem tensorFmtB_wordT (a b : BitVec 6) (f : TForm) :
    tensorFmtB (wordT a b f) = (fmtOfCode f.fmtB).getD .fp32 := by
  obtain ⟨_, _, fields⟩ := formatT.parts_word a b f
  have field : f.fmtB = (wordT a b f).extractLsb' 22 4 := congrArg TForm.fmtB fields
  rw [tensorFmtB, ← field]

theorem metaBroken_of_metaOk {s : State} {th : Thread} {mn va : Nat} {md : List Byte}
    (h : mn = 1 ∨ mn = 2 → ∀ k < 64, metaOk mn (metaWord md k) = true) :
    metaBroken s th mn va md = false := by
  rw [metaBroken, Bool.and_eq_false_iff]
  by_cases hmn : mn = 1 ∨ mn = 2
  · right
    rw [List.any_eq_false]
    intro k hk
    simp [h hmn k (List.mem_range.mp hk)]
  · left
    simpa using hmn

/-! Issue. -/

/-- How a multiply of a minor opcode issues (R74). -/
def multiplyInsn (minor : BitVec 6) (f : TForm) : Insn :=
  insnT 0x20 minor (pairOk (fmtOfCode f.fmtA) (fmtOfCode f.fmtB) && f.rnd == 0) true true
    (minor != 0) f

/-- The operation of a multiply, with the operand bytes that it read. -/
def multiplyOp (th : Thread) (i : Insn) (f : TForm) (bytes : List Byte) : Op :=
  { opOf th i .tensor (readS th f.sm) 0 0 false (readS th f.sa) [] with
    y := readS th f.sb, acc := some f.ta.toNat, data := bytes }

/-- The metadata or mask that a multiply reads. -/
def multiplyMeta (s : State) (th : Thread) (mn : Nat) (f : TForm) : List Byte :=
  if mn = 0 then [] else peek s (windowPa s th (readS th f.sm).toNat) (if mn = 3 then 8 else 512)

/-- The bytes of the window operands of a multiply. -/
def operandBytes (s : State) (th : Thread) (tiles : List (Word × Nat)) : List Byte :=
  tiles.flatMap fun x => peek s (windowPa s th x.1.toNat) x.2

/-- The operand bytes are those of A, of B and of the metadata. -/
theorem operandBytes_multiplyTiles (s : State) (th : Thread) (mn : Nat) (f : TForm) :
    let fa := (fmtOfCode f.fmtA).getD .fp32
    let fb := (fmtOfCode f.fmtB).getD .fp32
    let sa := if mn = 1 ∨ mn = 2 then sparseStride fa else recordStride fa
    operandBytes s th (multiplyTiles mn f th) =
      peek s (windowPa s th (readS th f.sa).toNat) (tileBytes sa fa) ++
        peek s (windowPa s th (readS th f.sb).toNat) (tileBytes (recordStride fb) fb) ++
        multiplyMeta s th mn f := by
  by_cases hmn : mn = 0 <;> simp [operandBytes, multiplyTiles, multiplyMeta, hmn]

theorem ChargedFrom.operandBytes {s s' : State} (h : ChargedFrom s s') (th : Thread)
    (tiles : List (Word × Nat)) :
    Machine.operandBytes s' th tiles = Machine.operandBytes s th tiles := by
  simp only [Machine.operandBytes, h.windowPa, h.peek]

theorem ChargedFrom.multiplyMeta {s s' : State} (h : ChargedFrom s s') (th : Thread) (mn : Nat)
    (f : TForm) : Machine.multiplyMeta s' th mn f = Machine.multiplyMeta s th mn f := by
  simp only [Machine.multiplyMeta, h.windowPa, h.peek]

/-- What a multiply that starts has found: a free MAC array, its operands in the window and no tile
store into them, an accumulator of its thread, legal metadata and words without poison. -/
structure MultiplyStarts (s s2 : State) (e : Nat) (th : Thread) (mn : Nat) (i : Insn) (f : TForm) :
    Prop where
  macFree : tget none s.macBusy e = none
  tiles : checkTiles s th (multiplyTiles mn f th) = none
  owned : accBad s th f.ta.toNat = false
  settled : ∀ x ∈ multiplyTiles mn f th,
    readMustWait s e ((groupOf s th).winBase + x.1.toNat) x.2 = false
  metaLegal : mn = 1 ∨ mn = 2 → ∀ k < 64, metaOk mn (metaWord (multiplyMeta s th mn f) k) = true
  whole : checkRanges s th (bytesRead mn (metaWord (multiplyMeta s th mn f) 0)
    (multiplyOp th i f [])) = (false, s2)

theorem multiply_issues {minor : BitVec 6} {t : Nat} {f : TForm} {s s2 : State}
    (h : Issues t (multiplyInsn minor f) s)
    (hs : MultiplyStarts (chargeIssue s t (multiplyInsn minor f).word) s2 (engineOf t) (thread s t)
      minor.toNat (multiplyInsn minor f) f) :
    multiply minor t f s = afterStep (setThread
      { s2 with macBusy := tset none s2.macBusy (engineOf t) (some (t, (thread s t).nextOp)) } t
      (pushOp (advance (multiplyInsn minor f) (thread s t))
        (multiplyOp (thread s t) (multiplyInsn minor f) f
          (operandBytes (chargeIssue s t (multiplyInsn minor f).word) (thread s t)
            (multiplyTiles minor.toNat f (thread s t)))))) t (thread s t).stepping := by
  obtain ⟨macFree, tiles, owned, settled, metaLegal, whole⟩ := hs
  rw [multiply]
  refine issue_of_state h ?_
  have hA : tensorFmtA (multiplyInsn minor f).word = (fmtOfCode f.fmtA).getD .fp32 :=
    tensorFmtA_wordT _ _ _
  have hB : tensorFmtB (multiplyInsn minor f).word = (fmtOfCode f.fmtB).getD .fp32 :=
    tensorFmtB_wordT _ _ _
  have notBroken := metaBroken_of_metaOk (s := s2) (th := thread s t)
    (va := (readS (thread s t) f.sm).toNat) metaLegal
  have noWait := List.any_eq_false.mpr fun x hx => Bool.eq_false_iff.mp (settled x hx)
  rw [operandBytes_multiplyTiles]
  unfold multiplyInsn at *
  simp only [multiplyTiles] at tiles noWait
  simp only [multiplyOp, opOf, multiplyMeta, newOp] at whole notBroken
  simp only [hA, hB, macFree, Option.isSome_none, tiles, owned, noWait, newOp, whole, notBroken,
    Bool.false_eq_true, if_false]
  rfl

/-- A row that `multiply` runs. -/
def RunsMultiply (cmd : Nat → TForm → Instr) (mn : Nat) : Prop :=
  ∃ minor : BitVec 6, minor.toNat = mn ∧
    (∀ t f, engineInsn (cmd t f) = some (t, multiplyInsn minor f)) ∧
    ∀ t f s, exec (cmd t f) s = .next (multiply minor t f s)

theorem runsMultiply_of_multiplyRows : ∀ r ∈ multiplyRows, RunsMultiply r.1 r.2 := by
  simp only [multiplyRows, List.forall_mem_cons, List.not_mem_nil, false_implies, implies_true,
    and_true]
  refine ⟨?_, ?_, ?_, ?_⟩
  all_goals exact ⟨_, rfl, fun _ _ => rfl, fun _ _ _ => rfl⟩

theorem RunsMultiply.starts {cmd : Nat → TForm → Instr} {mn : Nat} (hr : RunsMultiply cmd mn) {t : Nat}
    {f : TForm} {s s2 : State} {i : Insn} (hi : engineInsn (cmd t f) = some (t, i))
    (h : Issues t i s)
    (hs : MultiplyStarts (chargeIssue s t i.word) s2 (engineOf t) (thread s t) mn i f) :
    exec (cmd t f) s = .next (afterStep (setThread
      { s2 with macBusy := tset none s2.macBusy (engineOf t) (some (t, (thread s t).nextOp)) } t
      (pushOp (advance i (thread s t)) (multiplyOp (thread s t) i f
        (operandBytes s (thread s t) (multiplyTiles mn f (thread s t)))))) t
      (thread s t).stepping) := by
  obtain ⟨minor, rfl, listed, runs⟩ := hr
  obtain rfl := engineInsn_unique hi (listed t f)
  rw [runs, multiply_issues h hs, (chargeIssue_from s t _).operandBytes]

/-! Completion (R93, R96, R107, R109). -/

theorem tensorComplete_eq {t id a : Nat} {s : State} {o : Op} (ho : findOp (thread s t) id = some o)
    (hk : o.kind = .tensor) (ha : o.acc.bind (physAcc s (thread s t)) = some a) :
    let th := thread s t
    let e := engineOf t
    let s1 := accWrite s e a (multiplyResult s th o e a)
    let s2 := chargeThread (takeFree s1).2 t (multiplyCharge s th o)
    exec (.tensorComplete t id) s = .next (settleThread (setThread
      { s2 with macBusy := tset none s2.macBusy e none } t (dropOp th id)) t) := by
  simp [execTensorComplete, ho, hk, ha]

theorem peek_take (s : State) (pa n k : Nat) : (peek s pa n).take k = peek s pa (min k n) := by
  induction n generalizing pa k with
  | zero => simp [peek]
  | succ n ih =>
    cases k with
    | zero => simp [peek]
    | succ k => simp [peek, ih, Nat.succ_min_succ]

theorem peek_drop (s : State) (pa n k : Nat) : (peek s pa n).drop k = peek s (pa + k) (n - k) := by
  induction n generalizing pa k with
  | zero => simp [peek]
  | succ n ih =>
    cases k with
    | zero => simp
    | succ k => rw [peek, List.drop_succ_cons, ih, Nat.add_right_comm, Nat.add_assoc, Nat.succ_sub_succ]

/-- Where memory still holds the bytes that a multiply read, each line is that one, old or new. -/
theorem operandLines_unchanged (s : State) (n : Nat) : ∀ (pa : Nat) (old : List Byte),
    old = peek s pa old.length → operandLines s pa old n = old := by
  induction n with
  | zero => exact fun _ _ _ => rfl
  | succ n ih =>
    intro pa old h
    have now : peek s pa (old.take 64).length = old.take 64 := by
      rw [List.length_take, ← peek_take, ← h]
    have rest : old.drop 64 = peek s (pa + 64) (old.drop 64).length := by
      rw [List.length_drop, ← peek_drop, ← h]
    rw [operandLines, now, ih _ _ rest, ite_self, List.take_append_drop]

/-- Settles O27: what a multiply checks does not turn on the charge, which leaves memory alone. -/
theorem tensorMultiplyResults : Obligations.tensor_multiply_results := by
  refine ⟨fun r hr t f s i hi h macFree tiles owned settled metaLegal s2 whole => ?_,
    fun t id s o a ho hk ha => ⟨tensorComplete_eq ho hk ha,
      fun pa old n h _ => operandLines_unchanged s n pa old h⟩⟩
  have charged := chargeIssue_from s t i.word
  refine (runsMultiply_of_multiplyRows r hr).starts hi h
    { macFree := ?_, tiles := tiles, owned := owned, settled := ?_, metaLegal := ?_, whole := ?_ }
  · rwa [charged.macBusy]
  · intro x hx
    rw [charged.groupOf]
    exact settled x hx
  · rwa [charged.multiplyMeta]
  · rw [charged.multiplyMeta]
    exact whole

end Sys2Proof.Machine
end

section
/-! SUPPORT. What an exception does to its thread and its grid (R54, R81, R83, R84, R88). -/

namespace Sys2Proof.Machine

@[simp] theorem thread_setGrid (s : State) (g t : Nat) (x : Grid) :
    thread (setGrid s g x) t = thread s t := rfl

@[simp] theorem gridThreads_setGrid (s : State) (g n : Nat) (x : Grid) :
    gridThreads (setGrid s g x) n = gridThreads s n := rfl

theorem ne_none_of_state (x : Grid) (h : x.state ≠ .gone) : x ≠ Grid.none := by
  rintro rfl
  exact h rfl

theorem grid_setGrid_same (s : State) (n : Nat) (x : Grid) (h : x.state ≠ .gone) :
    grid (setGrid s n x) n = x := tget_tset_same _ _ _ _ (ne_none_of_state x h)

/-! What ends a command of the scheduler (R54, R88). -/

theorem settleDebug_none {s : State} (h : s.dbgHalt = none) : settleDebug s = s := by
  simp [settleDebug, h]

theorem settleGrid_of_not_done {s : State} {n : Nat} (h : gridDone s n = false) :
    settleGrid s n = settleDebug s := by
  simp [settleGrid, h]

/-- A grid that runs is not done while groups of it are to start. -/
theorem gridDone_of_groups_left {s : State} {n : Nat} (hr : (grid s n).state = .running)
    (hg : (grid s n).nextGroup ≠ gridGroups (grid s n)) : gridDone s n = false := by
  simp [gridDone, hr, hg]

/-- A grid is not done while one of its threads is ENDING. -/
theorem gridDone_of_ending {s : State} {n u : Nat} (hu : u ∈ gridThreads s n)
    (he : (thread s u).state = .ending) : gridDone s n = false := by
  have gone : threadGone s u = false := by simp [threadGone, he]
  have all : (gridThreads s n).all (threadGone s) = false :=
    List.all_eq_false.mpr ⟨u, hu, by simp [gone]⟩
  simp [gridDone, all]

/-! Stopping the threads of a grid (R83, R86). -/

/-- A thread that runs no more. -/
def IsStopped (th : Thread) : Prop := th.state = .halted ∨ th.state = .ending ∨ th.state = .free

theorem isStopped_stopThread (now : Nat) (th : Thread) : IsStopped (stopThread now th) := by
  unfold stopThread IsStopped
  split <;> simp_all
  cases hs : th.state <;> simp_all

theorem stopThread_of_isStopped (now : Nat) {th : Thread} (h : IsStopped th) :
    stopThread now th = th := by
  rcases h with h | h | h <;> simp [stopThread, h]

theorem thread_modThread {s : State} (h : tableWf Thread.free s.threads = true) (t u : Nat)
    (f : Thread → Thread) :
    thread (modThread s t f) u = if u = t then f (thread s t) else thread s u :=
  tget_tset _ _ _ _ _ h

/-- The threads of a list stopped, as `stopGridThreads` stops those of a grid. -/
def stopThreads (l : List Nat) (s : State) : State :=
  l.foldl (fun s t => modThread s t (stopThread (engineNow s t))) s

theorem stopGridThreads_eq (s : State) (g : Nat) :
    stopGridThreads s g = stopThreads (gridThreads s g) s := rfl

/-- Stopping a list of threads stops each of them, and leaves a stopped thread as it is. -/
theorem thread_stopThreads (l : List Nat) : ∀ s : State, tableWf Thread.free s.threads = true → ∀ u,
    (IsStopped (thread s u) → thread (stopThreads l s) u = thread s u) ∧
    (u ∈ l → IsStopped (thread (stopThreads l s) u)) := by
  induction l with
  | nil => exact fun _ _ _ => ⟨fun _ => rfl, fun h => absurd h List.not_mem_nil⟩
  | cons t l ih =>
    intro s hwf u
    let s1 := modThread s t (stopThread (engineNow s t))
    obtain ⟨keeps, stops⟩ := ih s1 (tableWf_tset _ _ _ _ hwf) u
    have now : thread s1 u = if u = t then stopThread (engineNow s t) (thread s t) else thread s u :=
      thread_modThread hwf t u _
    have same (hs : IsStopped (thread s u)) : thread s1 u = thread s u := by
      rw [now]
      split
      next e => rw [e] at hs ⊢; exact stopThread_of_isStopped _ hs
      · rfl
    refine ⟨fun hs => ?_, fun hu => ?_⟩
    · exact (keeps (by rwa [same hs])).trans (same hs)
    · rcases List.mem_cons.mp hu with rfl | hu
      · have stopped : IsStopped (thread s1 u) := by
          rw [now, if_pos rfl]
          exact isStopped_stopThread _ _
        exact (keeps stopped).symm ▸ stopped
      · exact stops hu

/-- The stop changes no group and no grid. -/
theorem stopThreads_frame (l : List Nat) : ∀ s : State,
    (stopThreads l s).groups = s.groups ∧ (stopThreads l s).grids = s.grids ∧
    (stopThreads l s).dbgHalt = s.dbgHalt := by
  induction l with
  | nil => exact fun _ => ⟨rfl, rfl, rfl⟩
  | cons t l ih => exact fun s => ih (modThread s t (stopThread (engineNow s t)))

/-! The exception (R81 to R84). -/

section
variable {s : State} {t : Nat} {pc : BitVec 57} {word addr : Word} {cause : Cause} {st : BitVec 8}

/-- The thread as an exception leaves it. -/
def excThread (th : Thread) (cause : Cause) : Thread :=
  { th with state := .halted, fence := none, spin := none, debug := false, stepping := false
            halting := false, cause := some cause }

/-- The record of an exception of a thread (R84). -/
def excRecord (s : State) (t : Nat) (pc : BitVec 57) (word addr : Word) (cause : Cause)
    (st : BitVec 8) : ExcRec :=
  { pc := pc, insn := word, tid := tidOf s (thread s t), addr := addr, cause := cause, status := st
    engine := engineOf t }

/-- The grid keeps the first record, and counts the exceptions after it. -/
def excGrid (g : Grid) (r : ExcRec) : Grid :=
  match g.exc with
  | none => { g with exc := some r }
  | some _ => { g with more := g.more + 1 }

@[simp] theorem excGrid_state (g : Grid) (r : ExcRec) : (excGrid g r).state = g.state := by
  unfold excGrid; split <;> rfl
@[simp] theorem excGrid_nextGroup (g : Grid) (r : ExcRec) :
    (excGrid g r).nextGroup = g.nextGroup := by
  unfold excGrid; split <;> rfl
@[simp] theorem gridGroups_excGrid (g : Grid) (r : ExcRec) :
    gridGroups (excGrid g r) = gridGroups g := by
  unfold excGrid; split <;> rfl

/-- The state in which the thread is HALTED and its exception recorded. -/
def excState (s : State) (t : Nat) (r : ExcRec) : State :=
  setGrid (setThread s t (excThread (thread s t) r.cause)) (thread s t).grid
    (excGrid (grid s (thread s t).grid) r)

/-- The state in which, the exception recorded, the grid has stopped. -/
def excStopState (s : State) (t : Nat) (r : ExcRec) : State :=
  let n := (thread s t).grid
  let s' := stopGridThreads (excState s t r) n
  setGrid s' n { grid s' n with state := .stopping }

/-- Where no record is to be written to memory, an exception is recorded and, without EXC_MODE, stops its
grid. -/
theorem takeException_eq (hx : (grid s (thread s t).grid).excrec = 0) :
    let r := excRecord s t pc word addr cause st
    takeException s t pc word addr cause st = settleGrid
      (if (grid s (thread s t).grid).excMode then excState s t r else excStopState s t r)
      (thread s t).grid := by
  intro r
  let g := grid s (thread s t).grid
  let s1 := setThread s t (excThread (thread s t) cause)
  have recorded : (match g.exc with
      | none => writeExcRec (setGrid s1 (thread s t).grid { g with exc := some r })
          { g with exc := some r } r
      | some _ => setGrid s1 (thread s t).grid { g with more := g.more + 1 }) = excState s t r := by
    rw [excState, excGrid]
    cases g.exc
    · exact if_pos hx
    · rfl
  exact congrArg (fun s2 => settleGrid (if g.excMode then s2 else
    let s' := stopGridThreads s2 (thread s t).grid
    setGrid s' (thread s t).grid { grid s' (thread s t).grid with state := .stopping })
    (thread s t).grid) recorded

theorem thread_excState_same (r : ExcRec) :
    thread (excState s t r) t = excThread (thread s t) r.cause :=
  thread_setThread_same s t (excThread (thread s t) r.cause)
    (ne_free_of_state _ (by simp [excThread]))

theorem thread_excState_ne (r : ExcRec) {u : Nat} (h : u ≠ t) :
    thread (excState s t r) u = thread s u :=
  thread_setThread_ne s t u (excThread (thread s t) r.cause) h

theorem grid_excState (r : ExcRec) (hr : (grid s (thread s t).grid).state = .running) :
    grid (excState s t r) (thread s t).grid = excGrid (grid s (thread s t).grid) r :=
  grid_setGrid_same _ _ _ (by simp [hr])

theorem gridThreads_excStopState (r : ExcRec) (n : Nat) :
    gridThreads (excStopState s t r) n = gridThreads s n := by
  obtain ⟨hgroups, _, _⟩ := stopThreads_frame (gridThreads (excState s t r) (thread s t).grid)
    (excState s t r)
  exact congrArg (fun g => (g.filter fun e => e.2.grid == n).flatMap fun e => e.2.threads) hgroups

theorem dbgHalt_excStopState (r : ExcRec) : (excStopState s t r).dbgHalt = s.dbgHalt := by
  obtain ⟨_, _, hdbg⟩ := stopThreads_frame (gridThreads (excState s t r) (thread s t).grid)
    (excState s t r)
  exact hdbg

end

/-- Settles O18: the grid is not done, in the one case because groups are left to start, in the other
because a thread of it is ENDING; so only the halt of the debugger may end. -/
theorem exceptionResults : Obligations.exception_results := by
  refine ⟨fun s t pc word addr cause st hm hr hg hx => ?_,
    fun s t pc word addr cause st hwf hm hr hx ⟨u, hu, hne, he⟩ => ?_⟩
  · let r := excRecord s t pc word addr cause st
    have grid' := grid_excState r hr
    have notDone : gridDone (excState s t r) (thread s t).grid = false :=
      gridDone_of_groups_left (by rw [grid', excGrid_state, hr]) (by simpa [grid'] using hg)
    refine ⟨excState s t r, ?_, rfl,
      fun hd => settleDebug_none (s := excState s t r) hd, ?_, ?_, ?_, ?_, ?_,
      fun v hv => thread_excState_ne r hv, fun he => ?_, fun r' he => ?_⟩
    · rw [takeException_eq hx, if_pos hm, settleGrid_of_not_done notDone]
    · rw [thread_excState_same]; rfl
    · rw [thread_excState_same]; rfl
    · rw [thread_excState_same]; rfl
    · rw [thread_excState_same]; rfl
    · rw [thread_excState_same]; rfl
    · rw [grid', excGrid, he]; rfl
    · rw [grid', excGrid, he]
  · let r := excRecord s t pc word addr cause st
    have stopped := thread_stopThreads (gridThreads s (thread s t).grid) (excState s t r)
      (tableWf_tset _ _ t (excThread (thread s t) cause) hwf)
    have ending : (thread (excStopState s t r) u).state = .ending := by
      have same := thread_excState_ne (s := s) r hne
      refine (congrArg Thread.state ((stopped u).1 ?_)).trans ?_
      · exact same ▸ Or.inr (Or.inl he)
      · rw [same, he]
    have notDone : gridDone (excStopState s t r) (thread s t).grid = false :=
      gridDone_of_ending (by rwa [gridThreads_excStopState]) ending
    refine ⟨excStopState s t r, ?_, fun hd => settleDebug_none ((dbgHalt_excStopState r).trans hd), ?_,
      fun v hv => (stopped v).2 hv⟩
    · rw [takeException_eq hx, if_neg (by simp [hm]), settleGrid_of_not_done notDone]
    · rw [excStopState, grid_setGrid_same _ _ _ (by simp)]

end Sys2Proof.Machine
end

section
/-! SUPPORT. Mover descriptors: how they are posted, start, stop and leave their queue (R68, R131, R132,
R217). -/

namespace Sys2Proof.Machine

/-! Posting (R68). -/

theorem ChargedFrom.slotsHeld {s s' : State} (h : ChargedFrom s s') (c : Nat) :
    Machine.slotsHeld s' c = Machine.slotsHeld s c := by
  simp only [Machine.slotsHeld, mover, h.movers, h.threads]

/-- What lets `mvpost` read its descriptor at `a`: a slot is free, and the access passes its checks, waits
for no tile and finds its words good. -/
structure PostReads (s : State) (t : Nat) (a : Word) : Prop where
  slot : slotsHeld s (coreOf (engineOf t)) < 256
  passes : checkLocal s (thread s t) a 64 64 = none
  free : readMustWait s (engineOf t) ((groupOf s (thread s t)).winBase + a.toNat) 64 = false
  good : wordsGood s (windowPa s (thread s t) a.toNat) 64
  kept : localLost s (windowPa s (thread s t) a.toNat) = false

section
variable {t : Nat} {f : RForm} {s : State} {i : Insn}

theorem mvpost_starts (hi : engineInsn (.mvpost t f) = some (t, i)) (h : Issues t i s)
    (hp : PostReads s t (readS (thread s t) f.ra)) :
    let th := thread s t
    let a := readS th f.ra
    exec (.mvpost t f) s = .next (afterStep
      (startOp (setThread (chargeIssue s t i.word) t (advance i th)) t
        (opOf th i .mvpost a 0 f.rd.toNat false 0 (peek s (windowPa s th a.toNat) 64)) 3) t
      th.stepping) := by
  have charged := chargeIssue_from s t i.word
  obtain rfl := engineInsn_unique hi (engineInsn_mvpost t f)
  refine (exec_mvpost t f s).trans (congrArg _ (issue_of_state h ?_))
  have slot : ¬moverSlots ≤ slotsHeld s (coreOf (engineOf t)) := Nat.not_le.mpr hp.slot
  simp only [charged.slotsHeld, charged.checkLocal, charged.groupOf, charged.readMustWait,
    charged.readWindow_good hp.kept hp.good, hp.passes, hp.free, if_neg slot, Bool.false_eq_true,
    if_false]
  rfl

theorem mvslots_becomes (hi : engineInsn (.mvslots t f) = some (t, i)) (h : Issues t i s) :
    ThreadBecomes (.mvslots t f) s t (writeS (advance i (thread s t)) f.rd
      (BitVec.ofNat 64 (256 - slotsHeld s (coreOf (engineOf t))))) := by
  obtain rfl := engineInsn_unique hi (engineInsn_mvslots t f)
  refine becomes_of_done (exec_mvslots t f s) h ?_ (Or.inl (by simp))
  rw [(chargeIssue_from s t _).slotsHeld, moverSlots]

end

section
variable {s : State} {t : Nat} {o : Op}

theorem startOp_posted (n : Nat) (hk : o.kind = .mvpost)
    (hd : (postTargets o.data).length ≤ o.size) : startOp s t o (n + 1) = acceptDesc s t o := by
  rw [startOp, if_pos ⟨hk, hd⟩]

theorem startOp_translates {pa : Nat} {s1 : State} (n : Nat) (hk : o.kind = .mvpost)
    (hd : o.size < (postTargets o.data).length)
    (look : cachedAccess s .post (clusterOf (engineOf t)) (gridOf s (thread s t)).part
      (gridOf s (thread s t)).ctx (opVa o) (opWrites o) = some (.ok pa, s1)) :
    startOp s t o (n + 1) = startOp s1 t { o with size := o.size + 1 } n := by
  have access : opAccess o.kind = .post := by rw [hk]; rfl
  rw [startOp, if_neg (fun h => absurd h.2 (Nat.not_le.mpr hd))]
  simp only [access, look]
  rw [if_pos hk]

end

theorem mover_setMover_same (s : State) (c : Nat) (m : Mover) (h : m.queue ≠ []) :
    mover (setMover s c m) c = m := by
  refine tget_tset_same _ _ _ _ ?_
  rintro rfl
  exact h rfl

/-- The descriptor goes to the end of the queue of its thread's core. -/
theorem mover_acceptDesc (s : State) (t : Nat) (o : Op) : ∃ d,
    (mover (acceptDesc s t o) (coreOf (engineOf t))).queue =
      (mover s (coreOf (engineOf t))).queue ++ [d] ∧ d.bytes = o.data ∧ d.thread = t := by
  refine ⟨_, congrArg Mover.queue (mover_setMover_same s (coreOf (engineOf t)) _ ?_), rfl, rfl⟩
  exact List.append_ne_nil_of_right_ne_nil _ (List.cons_ne_nil _ _)

theorem thread_acceptDesc (s : State) (t : Nat) (o : Op) (h : (thread s t).state ≠ .free) :
    thread (acceptDesc s t o) t = writeS (thread s t) (BitVec.ofNat 5 o.dst) 0 :=
  thread_setThread_same _ t (writeS (thread s t) (BitVec.ofNat 5 o.dst) 0)
    (ne_free_of_state _ (by simpa using h))

/-- Where no post of the core's threads is being translated, the queue alone holds slots. -/
theorem slotsHeld_eq_queue {s : State} {c : Nat} (h : ∀ t th, (t, th) ∈ s.threads →
    coreOf (t / 64) = c → ∀ o ∈ th.ops, o.kind ≠ .mvpost) :
    slotsHeld s c = (mover s c).queue.length := by
  have none_held : (s.threads.flatMap fun x => if coreOf (x.1 / 64) = c then
      x.2.ops.filter fun o => o.kind == .mvpost else []) = [] := by
    refine List.flatMap_eq_nil_iff.mpr fun x hx => ?_
    split
    next hc =>
      refine List.filter_eq_nil_iff.mpr fun o ho => ?_
      simpa using h x.1 x.2 hx hc o ho
    · rfl
  simp [slotsHeld, none_held]

/-! Start (R131, R132). -/

/-- The next descriptor of a core starts, where the device is not in the fatal state and its partition is
not frozen. -/
theorem moverDescriptorStart_next {c : Nat} {s : State} {d : MoverDesc}
    (hd : nextDesc (mover s c) = some d) (hf : s.err.fatal = false)
    (hp : (partition s d.part).state ≠ .frozen) :
    exec (.moverDescriptorStart c d.id) s = .next (
      let d1 : MoverDesc := { d with running := true }
      if descMalformed d then stopDesc s c d1 0x02
      else if descOutside d then stopDesc s c d1 0x04
      else if descRemote d then xptDone s (startRemote s c d)
      else moveLines (putDesc s c d1) c d1 (lineBound d)) := by
  simp only [exec_moverDescriptorStart, execMoverDescriptorStart, hd]
  rw [if_neg (by simp [hf, hp])]

/-! Completion (R132). -/

theorem moverComplete_stopped {c id : Nat} {s : State} {d : MoverDesc} {st : BitVec 8}
    (hd : findDesc s c id = some d) (hr : d.result = some st) (hs : d.stalled = false) :
    exec (.moverComplete c id) s = .next (settleGrid (completeDesc s c d st) d.grid) := by
  simp [execMoverComplete, hd, hr, hs]

/-- The status word of a descriptor that has moved its data has been written, or there is none. -/
def StatusWritten (s : State) (d : MoverDesc) (s1 : State) : Prop :=
  (descStat d = 0 ∧ s1 = s) ∨ (descStat d ≠ 0 ∧ d.statDone = false ∧ d.statBad = false ∧
    lineWrite s d false (descStat d) 8 (some (leBytes 8 (65536 * descTotal d))) = (.ok (), s1))

theorem descStatus_ok {c : Nat} {s s1 : State} {d : MoverDesc} (h : StatusWritten s d s1) :
    descStatus s c d 0 = (none, { d with statDone := true }, s1) := by
  rcases h with ⟨hz, rfl⟩ | ⟨hn, hdone, hbad, hw⟩
  · cases hdone : d.statDone
    · simp [descStatus, hdone, hz]
    · simp only [descStatus, hdone, if_true]
      rw [← hdone]
  · simp [descStatus, hdone, hbad, hn, hw]

theorem descSignal_none {c : Nat} {s : State} {d : MoverDesc} (h : descSync d = 0) :
    descSignal s c d = (none, s) := if_pos (Or.inl h)

theorem completeDesc_ok {c : Nat} {s s1 : State} {d : MoverDesc} (hs : descSync d = 0)
    (he : d.err = none) (h : StatusWritten s d s1) : completeDesc s c d 0 =
      setMover s1 c { mover s1 c with
        queue := (mover s1 c).queue.filter fun x => x.id != d.id } := by
  have signal : descSignal s1 c { d with statDone := true, result := some 0 } = (none, s1) :=
    descSignal_none hs
  rw [he] at signal
  simp only [completeDesc, descStatus_ok h, he, signal]

/-- Settles O26: posting, start and completion, each from what its command finds. -/
theorem moverResults : Obligations.mover_results := by
  refine ⟨⟨fun t f s i hi h hs hc hw hg hl => mvpost_starts hi h ⟨hs, hc, hw, hg, hl⟩,
      fun _ _ _ n => startOp_posted n, fun _ _ _ n _ _ => startOp_translates n,
      fun s t o ht => ?_, fun _ _ _ _ => mvslots_becomes, fun _ _ => slotsHeld_eq_queue⟩,
    fun c s d hd hf hp => ?_, fun _ _ _ _ _ => moverComplete_stopped,
    fun _ _ _ _ => completeDesc_ok⟩
  · obtain ⟨d, queue, bytes, owner⟩ := mover_acceptDesc s t o
    exact ⟨d, queue, bytes, owner, thread_acceptDesc s t o ht⟩
  · have starts := moverDescriptorStart_next hd hf hp
    refine ⟨fun hm => ?_, fun hm ho => ?_, fun hm ho hr => ?_, fun hm ho hr => ?_⟩
    · rw [starts, if_pos hm]
    · simp [starts, hm, ho]
    · simp [starts, hm, ho, hr]
    · simp [starts, hm, ho, hr]

end Sys2Proof.Machine
end

section
/-! SUPPORT. LAUNCH, the admission of grids and the start of their groups (R51, R90, R91, R372, R395 to
R397). -/

namespace Sys2Proof.Machine

/-! LAUNCH (R90, R91). -/

/-- A LAUNCH that stands ready at the head of an SQ, with no grid held for it yet. -/
structure LaunchReady (s : State) (r : Nat) (e : RingEntry) : Prop where
  head : ∃ es, (ring s r).taken = e :: es
  ready : headReady s r e = true
  header : headerBad (ring s r) e = false
  opcode : entryOpcode e = 0x01
  notHeld : heldGrid s r = none

theorem LaunchReady.exec {s : State} {r : Nat} {e : RingEntry} (h : LaunchReady s r e) :
    exec (.launch r) s = .next (
      let g := gridOfLaunch r (ring s r) e
      if launchBad (ring s r).part e then finishHead s r e 0x02
      else if (partition s (ring s r).part).energy < g.energy ∨ neverFits s g then finishHead s r e 0x10
      else setGrid { s with nextGrid := s.nextGrid + 1 } s.nextGrid g) := by
  obtain ⟨es, head⟩ := h.head
  simp only [exec_launch, execLaunch, head]
  rw [if_neg (by simp [h.ready, h.header, h.opcode, h.notHeld])]

/-! Admission (R395, R397). -/

theorem admission_admits {s : State} {g : Nat} (hp : powerAdmits s = true)
    (hg : pickCandidate s (candidates s) = some g) : exec .admission s = .next (admitGrid s g) := by
  simp [execAdmission, admitAll, hp, hg]

/-- A grid as its admission leaves it. -/
def admittedGrid (s : State) (shares : List (Nat × Nat)) (g : Grid) : Grid :=
  { g with
    state := .running, shares := shares, skipped := 0, estimate := effectiveEstimate s g
    fullWindow := false, charge := 0, paced := s.sched.partPaced.contains g.part
    pacedAt := fdTime s }

/-- A grid that was not held, of a partition that runs, is admitted on its shares and nothing else
changes. -/
theorem admitGrid_resumed {s : State} {n : Nat} {shares : List (Nat × Nat)}
    (hs : (grid s n).state ≠ .held) (hf : neverFits s (grid s n) = false)
    (ha : admission s (grid s n) = some shares)
    (hp : (partition s (grid s n).part).state = .run) :
    admitGrid s n = setGrid s n (admittedGrid s shares (grid s n)) := by
  have running : (partition (setGrid s n (admittedGrid s shares (grid s n)))
      (grid s n).part).state = .run := hp
  have notHeld : ((grid s n).state == .held) = false := by simpa using hs
  simp only [admitGrid, hf, ha, notHeld, Bool.false_eq_true, if_false]
  exact if_neg fun preempted => absurd (running.symm.trans preempted) (by decide)

/-! The start of groups (R51, R372, R396). -/

/-- A group of a running grid may be placed on engine `e` at a place found for it, with the grid's program
loaded. -/
structure GroupPlaces (s : State) (gn e : Nat) (p : Placing) (s1 : State) : Prop where
  running : (grid s gn).state = .running
  serviceable : s.err.fatal = false
  powered : e < 16384 → s.sched.gated = false
  partRuns : (partition s (grid s gn).part).state = .run
  partStays : (partition s (grid s gn).part).draining = false
  fits : fitOn s (grid s gn) e = some p
  loaded : loadImage s gn (coreOf e) = (none, s1)

section
variable {gn e : Nat} {s s1 : State} {p : Placing} (h : GroupPlaces s gn e p s1)
include h

theorem GroupPlaces.mayStart : ¬((grid s gn).state ≠ .running ∨ s.err.fatal = true ∨
    (e < 16384 ∧ s.sched.gated = true) ∨ (partition s (grid s gn).part).state ≠ .run ∨
    (partition s (grid s gn).part).draining = true) := by
  rintro (hr | hf | ⟨he, hg⟩ | hp | hd)
  · exact hr h.running
  · exact absurd (h.serviceable.symm.trans hf) (by decide)
  · exact absurd ((h.powered he).symm.trans hg) (by decide)
  · exact hp h.partRuns
  · exact absurd (h.partStays.symm.trans hd) (by decide)

/-- A new group of the grid, on the least charged core of its die that has room. -/
theorem GroupPlaces.startsNew (hs : (grid s gn).saved = [])
    (hn : (grid s gn).nextGroup < gridGroups (grid s gn))
    (hc : coreChosen s (grid s gn) ((gridCores s (grid s gn)).filter fun c =>
      dieOfGroup (grid s gn) (grid s gn).nextGroup == some (dieOfCore c)) e = true) :
    exec (.groupStart gn e) s = .next (startGroup s1 gn e p) := by
  simp only [exec_groupStart, execGroupStart]
  rw [if_neg h.mayStart]
  simp only [hs, hc, h.fits, h.loaded, Bool.not_true, Bool.false_eq_true, if_false]
  rw [if_neg (Nat.not_le.mpr hn)]

/-- A saved group goes before the new ones, to any core of the grid. -/
theorem GroupPlaces.startsSaved {x : SavedGroup} {xs : List SavedGroup}
    (hs : (grid s gn).saved = x :: xs)
    (hc : coreChosen s (grid s gn) (gridCores s (grid s gn)) e = true) :
    exec (.groupStart gn e) s = .next (replaceGroup s1 gn e p x) := by
  simp only [exec_groupStart, execGroupStart]
  rw [if_neg h.mayStart]
  simp only [hs, hc, h.fits, h.loaded, Bool.not_true, Bool.false_eq_true, if_false]

end

/-- Settles O40: LAUNCH, admission and group start, each past the guards of its command. -/
theorem launchResults : Obligations.launch_results := by
  refine ⟨⟨fun r s e es ht hr hh ho hn => ?_, fun _ _ => admission_admits,
      fun s n shares hs hf ha hp => ?_⟩,
    fun gn e s p s1 hr hf hg hp hd hfit hl => ?_⟩
  · have runs := LaunchReady.exec ⟨⟨es, ht⟩, hr, hh, ho, hn⟩
    refine ⟨fun hb => ?_, fun hb he => ?_, fun hb he hv => ?_⟩
    · rw [runs, if_pos hb]
    · simp [runs, hb, he]
    · simp [runs, hb, Nat.not_lt.mpr he, hv, setGrid]
  · rw [admitGrid_resumed hs hf ha hp]
    have admitted := grid_setGrid_same s n (admittedGrid s shares (grid s n))
      (by simp [admittedGrid])
    refine ⟨_, rfl, ?_, ?_, ?_, rfl⟩ <;> rw [admitted] <;> rfl
  · have places : GroupPlaces s gn e p s1 := ⟨hr, hf, hg, hp, hd, hfit, hl⟩
    exact ⟨places.startsNew, fun _ _ => places.startsSaved⟩

end Sys2Proof.Machine
end

section
/-! SUPPORT. Accumulators: their elements read after they are written, their owners, and the
instructions that claim, free and zero them (R98 to R100). -/

namespace Sys2Proof.Machine

/-! Elements. -/

theorem tableWf_accFill {s : State} (h : tableWf 0 s.accs = true) (base : Nat) (g : Nat → BitVec 32)
    (n : Nat) : tableWf 0 (accFill s base g n).accs = true := by
  induction n with
  | zero => exact h
  | succ n ih => exact tableWf_tset 0 _ (base + n) (g n) ih

theorem tget_accFill {s : State} (h : tableWf 0 s.accs = true) (base : Nat) (g : Nat → BitVec 32)
    (n q : Nat) : tget 0 (accFill s base g n).accs q =
      if base ≤ q ∧ q < base + n then g (q - base) else tget 0 s.accs q := by
  induction n with
  | zero => rw [accFill, if_neg (by omega)]
  | succ n ih =>
    rw [accFill, tget_tset 0 _ (base + n) (g n) q (tableWf_accFill h base g n), ih]
    by_cases hq : q = base + n
    · subst hq
      simp
    · simp [hq, show q < base + (n + 1) ↔ q < base + n by omega]

theorem tableWf_accWrite {s : State} (h : tableWf 0 s.accs = true) (e a : Nat)
    (g : Nat → Nat → BitVec 32) : tableWf 0 (accWrite s e a g).accs = true :=
  tableWf_accFill h _ _ _

theorem accGet_accWrite_same {s : State} (h : tableWf 0 s.accs = true) (e a : Nat)
    (g : Nat → Nat → BitVec 32) {m n : Nat} (hm : m < 64) (hn : n < 64) :
    accGet (accWrite s e a g) e a m n = g m n := by
  rw [accGet, accWrite, tget_accFill h, accKey, if_pos (by omega)]
  congr 1 <;> omega

/-- The keys of two accumulators of eight to an engine do not meet. -/
theorem accGet_accWrite_ne {s : State} (h : tableWf 0 s.accs = true) {e a e' a' m n : Nat}
    (g : Nat → Nat → BitVec 32) (ha : a < 8) (ha' : a' < 8) (hm : m < 64) (hn : n < 64)
    (hne : (e', a') ≠ (e, a)) : accGet (accWrite s e a g) e' a' m n = accGet s e' a' m n := by
  have apart : e' * 8 + a' ≠ e * 8 + a := fun same =>
    hne (Prod.ext (by omega : e' = e) (by omega : a' = a))
  rw [accGet, accWrite, tget_accFill h, accKey, if_neg (by omega)]
  rfl

/-! Owners. -/

@[simp] theorem setOwner_accs (s : State) (th : Thread) (k : Nat) (o : Option Nat) :
    (setOwner s th k o).accs = s.accs := rfl

/-- A group that reserves accumulators is listed, so it reads as it was put. -/
theorem groupOf_setOwner {s : State} {th : Thread} {k : Nat} (o : Option Nat)
    (h : k < (groupOf s th).owners.length) : groupOf (setOwner s th k o) th =
      { groupOf s th with owners := (groupOf s th).owners.set k o } := by
  refine tget_tset_same _ _ _ _ fun unlisted => ?_
  have empty : (groupOf s th).owners.set k o = [] := congrArg Group.owners unlisted
  have none : (groupOf s th).owners.length = 0 := by rw [← List.length_set, empty, List.length_nil]
  omega

theorem accOwner_setOwner {s : State} {th : Thread} {k : Nat} (o : Option Nat)
    (h : k < (groupOf s th).owners.length) : accOwner (setOwner s th k o) th k = o := by
  rw [accOwner, groupOf_setOwner o h]
  simp [h]

/-! Claim, free and zero. -/

/-- An instruction that issues and leaves the state `x`. -/
theorem exec_of_state {c : Instr} {t : Nat} {i : Insn} {s x : State}
    {body : State → Thread → Thread → Eff} (hc : exec c s = .next (issue t i body s))
    (h : Issues t i s)
    (hb : body (chargeIssue s t i.word) (thread s t) (advance i (thread s t)) = .state x) :
    exec c s = .next (afterStep x t (thread s t).stepping) := by
  rw [hc, issue_of_state h hb]

section
variable {t : Nat} {f : TForm} {s : State} {i : Insn} {a : Nat}

theorem talloc_claims (hi : engineInsn (.talloc t f) = some (t, i)) (h : Issues t i s)
    (hp : physAcc (chargeIssue s t i.word) (thread s t) f.ta.toNat = some a)
    (ho : accOwner (chargeIssue s t i.word) (thread s t) f.ta.toNat = none) :
    exec (.talloc t f) s = .next (afterStep (setThread
      (setOwner (chargeIssue s t i.word) (thread s t) f.ta.toNat (some (thread s t).lane)) t
      (writeS (advance i (thread s t)) f.sa 0)) t (thread s t).stepping) := by
  obtain rfl := engineInsn_unique hi (engineInsn_talloc t f)
  refine exec_of_state (exec_talloc t f s) h ?_
  simp only [hp, ho, Option.isNone_some, Bool.false_eq_true, if_false]

/-- `talloc` of an accumulator that has an owner changes its thread alone. -/
theorem talloc_owned {l : Nat} (hi : engineInsn (.talloc t f) = some (t, i)) (h : Issues t i s)
    (hp : physAcc (chargeIssue s t i.word) (thread s t) f.ta.toNat = some a)
    (ho : accOwner (chargeIssue s t i.word) (thread s t) f.ta.toNat = some l) :
    ThreadBecomes (.talloc t f) s t (writeS (advance i (thread s t)) f.sa
      (if l = (thread s t).lane then 0 else 0x10)) := by
  obtain rfl := engineInsn_unique hi (engineInsn_talloc t f)
  refine becomes_of_done (exec_talloc t f s) h ?_ (Or.inl (by simp))
  simp only [hp, ho, Option.isNone_some, Bool.false_eq_true, if_false]

theorem tfree_frees (hi : engineInsn (.tfree t f) = some (t, i)) (h : Issues t i s)
    (ho : accBad (chargeIssue s t i.word) (thread s t) f.ta.toNat = false) :
    exec (.tfree t f) s = .next (afterStep (setThread
      (setOwner (chargeIssue s t i.word) (thread s t) f.ta.toNat none) t
      (advance i (thread s t))) t (thread s t).stepping) := by
  obtain rfl := engineInsn_unique hi (engineInsn_tfree t f)
  refine exec_of_state (exec_tfree t f s) h ?_
  simp only [ho, Bool.false_eq_true, if_false]

theorem tzero_zeroes (hi : engineInsn (.tzero t f) = some (t, i)) (h : Issues t i s)
    (hp : physAcc (chargeIssue s t i.word) (thread s t) f.ta.toNat = some a)
    (ho : accBad (chargeIssue s t i.word) (thread s t) f.ta.toNat = false) :
    exec (.tzero t f) s = .next (afterStep (setThread
      (accWrite (chargeIssue s t i.word) (engineOf t) a fun _ _ => 0) t
      (advance i (thread s t))) t (thread s t).stepping) := by
  obtain rfl := engineInsn_unique hi (engineInsn_tzero t f)
  refine exec_of_state (exec_tzero t f s) h ?_
  simp only [hp, ho, Bool.false_eq_true, if_false]

end

/-- Settles O28, by what each element and each owner reads and what each instruction finds. -/
theorem accumulatorResults : Obligations.accumulator_results := by
  refine ⟨fun s e a g hw ha => ⟨fun m n => accGet_accWrite_same hw e a g,
      fun e' a' m n hm hn ha' => accGet_accWrite_ne hw g ha ha' hm hn, tableWf_accWrite hw e a g⟩,
    fun t f s i a hi h hp => ⟨talloc_claims hi h hp, fun l ho hl => ?_, fun ho => ?_⟩,
    fun _ _ _ _ => tfree_frees, fun _ _ _ _ _ => tzero_zeroes,
    fun _ _ _ => accOwner_setOwner, setOwner_accs⟩
  · simpa only [if_neg hl] using talloc_owned hi h hp ho
  · simpa only [if_true] using talloc_owned hi h hp ho

end Sys2Proof.Machine
end

section
/-! SUPPORT. Tile moves on the accumulator port: their issue and their completion (R101, R108). -/

namespace Sys2Proof.Machine

/-! Issue. -/

/-- How `tld` or `tst` issues (R101). -/
def tileInsn (minor : BitVec 6) (k : OpKind) (fmts : List Fmt) (f : TForm) : Insn :=
  insnT 0x21 minor (tileOk k fmts f) true false false f

/-- The bytes of a tile of a format. -/
abbrev tileSize (fm : Fmt) : Nat := tileBytes (recordStride fm) fm

/-- The operation of a tile move. -/
def tileOp (th : Thread) (i : Insn) (k : OpKind) (f : TForm) (fm : Fmt) : Op :=
  { opOf th i k (readS th f.sa) (tileSize fm) 0 false 0 [] with
    acc := some f.ta.toNat, y := th.srCount.setWidth 64 }

/-- What a tile move finds of its `n` bytes at `a` before it goes on, and the state it goes on in: a
load has found no poison in the words it read (R135), and a store waits for no operation that is to
read or write them (R67, R109). -/
inductive TileGranted (s : State) (e : Nat) (th : Thread) (a : Word) (n : Nat) : OpKind → State → Prop
  | load {s2 : State} (whole : checkRanges s th [(a.toNat, n)] = (false, s2)) :
      TileGranted s e th a n .tileLoad s2
  | store (free : storeMustWait s e ((groupOf s th).winBase + a.toNat) n = false) :
      TileGranted s e th a n .tileStore s

/-- A tile move that goes on: the port is free, the tile in the window and the accumulator the
thread's. -/
structure TileStarts (s s2 : State) (e : Nat) (th : Thread) (k : OpKind) (f : TForm) (fm : Fmt) :
    Prop where
  portFree : portBusy s e = false
  tile : checkTiles s th [(readS th f.sa, tileSize fm)] = none
  owned : accBad s th f.ta.toNat = false
  granted : TileGranted s e th (readS th f.sa) (tileSize fm) k s2

theorem tileMove_starts {minor : BitVec 6} {k : OpKind} {fmts : List Fmt} {t : Nat} {f : TForm}
    {s s2 : State} {fm : Fmt} (h : Issues t (tileInsn minor k fmts f) s)
    (hfm : fmtOfCode f.fmtA = some fm)
    (hs : TileStarts (chargeIssue s t (tileInsn minor k fmts f).word) s2 (engineOf t) (thread s t) k
      f fm) :
    tileMove minor k fmts t f s = afterStep (setThread s2 t
      (pushOp (advance (tileInsn minor k fmts f) (thread s t))
        (tileOp (thread s t) (tileInsn minor k fmts f) k f fm))) t (thread s t).stepping := by
  obtain ⟨portFree, tile, owned, granted⟩ := hs
  have format : tensorFmtA (tileInsn minor k fmts f).word = fm := by
    rw [tileInsn, insnT, tensorFmtA_wordT, hfm, Option.getD_some]
  unfold tileMove
  extract_lets ok i e n
  have insn : i = tileInsn minor k fmts f := rfl
  have size : n = tileSize fm := congrArg tileSize format
  clear_value n i
  subst insn size
  refine issue_of_state h ?_
  simp only [e, portFree, tile, owned, Bool.false_eq_true, if_false]
  cases granted with
  | load whole =>
    simp only [whole, reduceCtorEq, Bool.false_eq_true, if_false]
    rfl
  | store free =>
    simp only [free, Bool.false_eq_true, if_false, if_true]
    rfl

theorem tld_starts {t : Nat} {f : TForm} {s s2 : State} {i : Insn} {fm : Fmt}
    (hi : engineInsn (.tld t f) = some (t, i)) (h : Issues t i s) (hfm : fmtOfCode f.fmtA = some fm)
    (hs : TileStarts (chargeIssue s t i.word) s2 (engineOf t) (thread s t) .tileLoad f fm) :
    exec (.tld t f) s = .next (afterStep (setThread s2 t (pushOp (advance i (thread s t))
      (tileOp (thread s t) i .tileLoad f fm))) t (thread s t).stepping) := by
  obtain rfl := engineInsn_unique hi (engineInsn_tld t f)
  rw [exec_tld, execTld, tileMove_starts h hfm hs]
  rfl

theorem tst_starts {t : Nat} {f : TForm} {s s2 : State} {i : Insn} {fm : Fmt}
    (hi : engineInsn (.tst t f) = some (t, i)) (h : Issues t i s) (hfm : fmtOfCode f.fmtA = some fm)
    (hs : TileStarts (chargeIssue s t i.word) s2 (engineOf t) (thread s t) .tileStore f fm) :
    exec (.tst t f) s = .next (afterStep (setThread s2 t (pushOp (advance i (thread s t))
      (tileOp (thread s t) i .tileStore f fm))) t (thread s t).stepping) := by
  obtain rfl := engineInsn_unique hi (engineInsn_tst t f)
  rw [exec_tst, execTst, tileMove_starts h hfm hs]
  rfl

/-! Completion. -/

/-- The elements that a `tld` writes (R94, R101): record r of the tile is row r or, with dir 1, column
r. -/
def tileLoaded (s : State) (th : Thread) (o : Op) (m n : Nat) : BitVec 32 :=
  let fm := tensorFmtA o.word
  let tile := leNat (peek s (windowPa s th o.va.toNat) o.size)
  let g (r k : Nat) : BitVec 32 :=
    BitVec.ofNat 32 (convertElem fm .fp32 .rne 0 (tileElem fm (recordStride fm) tile r k))
  if o.word.getLsbD 19 then g n m else g m n

section
variable {t id a : Nat} {s : State} {o : Op} (ho : findOp (thread s t) id = some o)
  (ha : o.acc.bind (physAcc s (thread s t)) = some a)
include ho ha

theorem tileMoveComplete_load (hk : o.kind = .tileLoad) :
    exec (.tileMoveComplete t id) s = .next (settleThread (setThread (chargeThread
      (accWrite s (engineOf t) a (tileLoaded s (thread s t) o)) t tileCharge)
      t (dropOp (thread s t) id)) t) := by
  simp only [exec_tileMoveComplete, execTileMoveComplete, ho, hk, ha]
  rfl

theorem tileMoveComplete_store (hk : o.kind = .tileStore) :
    exec (.tileMoveComplete t id) s = .next (settleThread (setThread (chargeThread
      (writeWindow s (thread s t) o.va.toNat (tileImage s (thread s t) o (engineOf t) a)) t tileCharge)
      t (dropOp (thread s t) id)) t) := by
  simp only [exec_tileMoveComplete, execTileMoveComplete, ho, hk, ha]

end

/-- Settles O29: each move by what it finds as it issues, and its completion by its kind. -/
theorem tileMoves : Obligations.tile_moves :=
  ⟨fun _ _ _ _ _ hi h hfm portFree tile owned _ whole =>
      tld_starts hi h hfm ⟨portFree, tile, owned, .load whole⟩,
    fun _ _ _ _ _ hi h hfm portFree tile owned free =>
      tst_starts hi h hfm ⟨portFree, tile, owned, .store free⟩,
    fun _ _ _ _ _ ho hk ha => tileMoveComplete_load ho ha hk,
    fun _ _ _ _ _ ho hk ha => tileMoveComplete_store ho ha hk⟩

end Sys2Proof.Machine
end

section
/-! SUPPORT. What writing error records leaves alone (R453, R457), and writes to memory by their words
(R124, R136). -/

namespace Sys2Proof.Machine

/-! Error records. -/

/-- `s'` is `s` but for what the error unit keeps, counts and tells: memory, its check bits and the boot
are as they were. -/
structure Recorded (s s' : State) : Prop where
  mem : s'.mem = s.mem
  checks : s'.checks = s.checks
  boot : s'.boot = s.boot

theorem Recorded.refl (s : State) : Recorded s s := ⟨rfl, rfl, rfl⟩

section
variable {s s1 s2 : State}

theorem Recorded.trans (h : Recorded s s1) (h2 : Recorded s1 s2) : Recorded s s2 :=
  ⟨h2.mem.trans h.mem, h2.checks.trans h.checks, h2.boot.trans h.boot⟩

/-- Changes elsewhere. -/
theorem Recorded.elsewhere (h : Recorded s s1) (hm : s2.mem = s1.mem) (hc : s2.checks = s1.checks)
    (hb : s2.boot = s1.boot) : Recorded s s2 := h.trans ⟨hm, hc, hb⟩

theorem Recorded.ite {c : Prop} [Decidable c] (h : Recorded s s1) (h2 : Recorded s s2) :
    Recorded s (if c then s1 else s2) := by
  split
  · exact h
  · exact h2

end

section
variable {s s1 : State} (h : Recorded s s1)
include h

theorem Recorded.bump {k lo n m : Nat} : Recorded s (Machine.bump s1 k lo n m) := h.elsewhere rfl rfl rfl
theorem Recorded.keepFatal {r : ErrRec} : Recorded s (Machine.keepFatal s1 r) := h.elsewhere rfl rfl rfl
theorem Recorded.mpPost {e : Event} : Recorded s (Machine.mpPost s1 e) := h.elsewhere rfl rfl rfl
theorem Recorded.enterFatal : Recorded s (Machine.enterFatal s1) := h.elsewhere rfl rfl rfl
theorem Recorded.startFence {p n : Nat} : Recorded s (Machine.startFence s1 p n) :=
  h.elsewhere rfl rfl rfl

/-- A record is queued or counted as dropped, kept if it is fatal, and told of. -/
theorem Recorded.writeRecord {r : ErrRec} : Recorded s (Machine.writeRecord s1 r) := by
  have queued {e e' : ErrUnit} {c : Prop} [Decidable c] {lo : Nat} : Recorded s
      (if c then Machine.bump { s1 with err := e } errOvf lo 32 1 else { s1 with err := e' }) :=
    .ite (h.elsewhere rfl rfl rfl) (h.elsewhere rfl rfl rfl)
  unfold Machine.writeRecord
  extract_lets
  split
  · exact .ite (.mpPost (.ite (.mpPost (.ite queued.keepFatal queued)) (.ite queued.keepFatal queued)))
      (.ite (.mpPost (.ite queued.keepFatal queued)) (.ite queued.keepFatal queued))
  · exact .ite (.mpPost (.ite queued.keepFatal queued)) (.ite queued.keepFatal queued)

theorem Recorded.recordCorrected {i : ErrInfo} : Recorded s (Machine.recordCorrected s1 i) := by
  unfold Machine.recordCorrected
  extract_lets
  split
  · exact h.bump.writeRecord.elsewhere rfl rfl rfl
  · exact .ite (h.bump.writeRecord.elsewhere rfl rfl rfl) (h.elsewhere rfl rfl rfl)

theorem Recorded.startFences {ps : List Nat} {n : Nat} :
    Recorded s (ps.foldl (fun s p => Machine.startFence s p n) s1) := by
  induction ps generalizing s1 with
  | nil => exact h
  | cons p ps ih => exact ih h.startFence

theorem Recorded.recordContained {i : ErrInfo} {x : Detected} :
    Recorded s (Machine.recordContained s1 i x) := by
  unfold Machine.recordContained
  extract_lets
  split
  · exact h.bump.writeRecord
  · exact .ite h.bump.writeRecord.keepFatal.enterFatal h.bump.writeRecord.startFences

theorem Recorded.recordError {i : ErrInfo} : Recorded s (Machine.recordError s1 i) :=
  .ite h.recordCorrected (.ite h.bump.writeRecord.enterFatal h.recordContained)

end

/-! Writes. -/

theorem wordCheck_lpddrAwake (s : State) (pa q : Nat) :
    wordCheck (lpddrAwake s pa) q = wordCheck s q := by
  unfold lpddrAwake
  split <;> rfl

theorem lpddrAwake_mem (s : State) (pa : Nat) : (lpddrAwake s pa).mem = s.mem := by
  unfold lpddrAwake
  split <;> rfl

/-- A write of words that hold no error stores exactly its bytes, whatever region they lie in. -/
theorem writeMem_mem {s : State} {pa : Nat} {bs : List Byte} (hg : wordsGood s pa bs.length) :
    (writeMem s pa bs).mem = pokeMem s.mem pa bs := by
  have good : wordsGood (lpddrAwake s pa) pa bs.length := fun k hk => by
    rw [wordCheck_lpddrAwake]
    exact hg k hk
  rw [writeMem, (writeWords_good _ rfl good).mem, lpddrAwake_mem]

/-- A whole word is stored over whatever its check bits say. -/
theorem writeWord_whole {s : State} {pa : Nat} {bs : List Byte} (h : pa % 8 = 0 ∧ bs.length = 8) :
    writeWord s pa bs = poke (setCheck s pa .good) pa bs := if_pos h

/-- The record of a narrower write to a poisoned word. -/
def narrowWriteInfo (s : State) (pa : Nat) : ErrInfo :=
  { code := 0x06, unit := (unitOf pa).1, inst := (unitOf pa).2, part := granuleOwner s pa
    status := 0, addr := pa / 8 * 8, isVa := false, ctx := 0, data0 := 0 }

theorem writeWord_poisoned {s : State} {pa : Nat} {bs : List Byte} (hp : wordCheck s pa = .poison)
    (h : ¬ (pa % 8 = 0 ∧ bs.length = 8)) :
    writeWord s pa bs = recordError s (narrowWriteInfo s pa) := by
  rw [writeWord, if_neg h, checkWord, hp]
  rfl

/-- Settles O23: the bytes of words without error, a whole word, and the record of a narrower write. -/
theorem memoryWriteEffect : Obligations.memory_write_effect := by
  refine ⟨fun s pa bs hm hg => ⟨?_, fun a => ?_⟩, fun s pa bs ha hl => ⟨?_, ?_⟩,
    fun s pa bs hp h => ?_⟩
  · rw [writeMem_mem hg]
    exact pokeMem_wf s.mem pa bs hm
  · rw [memByte, writeMem_mem hg]
    exact tget_pokeMem s.mem pa bs a hm
  · rw [writeWord_whole ⟨ha, hl⟩]
    rfl
  · rw [writeWord_whole ⟨ha, hl⟩]
    rfl
  · have logged : Recorded s (writeWord s pa bs) := by
      rw [writeWord_poisoned hp h]
      exact (Recorded.refl s).recordError
    exact ⟨logged.mem, logged.checks, _, rfl, rfl, writeWord_poisoned hp h⟩

end Sys2Proof.Machine
end

section
/-! SUPPORT. Invalidation of cached translations and owner entries (R120, R121, R152, R350). -/

namespace Sys2Proof.Machine

/-! What a map reads once its values are changed. -/

/-- Values changed by a function that keeps the default. -/
theorem tget_map_snd {α : Type} (d : α) (g : α → α) (hg : g d = d) (m : Table α) (k : Nat) :
    tget d (m.map fun x => (x.1, g x.2)) k = g (tget d m k) := by
  induction m with
  | nil => exact hg.symm
  | cons e m ih =>
    obtain ⟨p, v⟩ := e
    simp only [List.map_cons, tget, ih]
    split <;> rfl

/-! Start. -/

section
variable {s : State} {fn : Nat} {scope : InvScope}

/-- GO of a function that may ask for the scope and has none in progress begins the invalidation. -/
theorem invStart_begins (hfn : fn ≤ 64) (hon : bar0 s = true) (idle : invBusy s fn = false)
    (hscope : scope = .owner → fn = 0) :
    invStart s fn scope =
      let i := invAsked s fn scope
      let s1 := revokeGone (invDrop s i) i
      { s1 with invs := s1.invs ++ [i] } := by
  have go : ¬ (invBusy s fn ∨ !bar0 s ∨ 64 < fn ∨ (scope = .owner ∧ fn ≠ 0)) := by
    rintro (busy | off | big | ⟨owner, vf⟩)
    · simp [idle] at busy
    · simp [hon] at off
    · omega
    · exact vf (hscope owner)
  rw [invStart, if_neg go]
  rfl

/-- Owner entries are PF0's to drop. -/
theorem invStart_owner_vf (h : fn ≠ 0) : invStart s fn .owner = s := by
  rw [invStart, if_pos]
  exact .inr (.inr (.inr ⟨rfl, h⟩))

end

section
variable {s : State} {i : Invalidation}

/-- Dropping translations leaves what a context's root is read from. -/
theorem contextGone_invDrop (p : Nat) (c : BitVec 20) :
    contextGone (invDrop s i) p c = contextGone s p c := by
  unfold invDrop
  split <;> rfl

theorem invDrop_translations (h : i.scope ≠ .owner) : invDrop s i = { s with
    tlb := s.tlb.filter fun e => !invCovers i e
    threads := s.threads.map fun x => (x.1, staleSpin i (grid s x.2.grid) x.2) } := by
  unfold invDrop
  split
  · contradiction
  · rfl

theorem revokeGone_none (h : ¬ (i.scope = .ctx ∨ i.scope = .part)) : revokeGone s i = s :=
  if_neg h

/-- What an object becomes under an invalidation of its context or partition. -/
def afterInv (s : State) (i : Invalidation) (o : SyncObj) : SyncObj :=
  if o.part.toNat = i.part ∧ (i.scope = .part ∨ o.ctx = i.ctx) ∧ !o.anyCtx ∧
    (o.state = .live ∨ o.state = .frozen) ∧ contextGone s i.part o.ctx then revokeObj o else o

theorem revokeGone_eq (h : i.scope = .ctx ∨ i.scope = .part) : revokeGone s i =
    { s with syncs := s.syncs.map fun x => (x.1, afterInv s i x.2) } := by
  have entry (x : Nat × SyncObj) : (if x.2.part.toNat = i.part ∧ (i.scope = .part ∨ x.2.ctx = i.ctx) ∧
      !x.2.anyCtx ∧ (x.2.state = .live ∨ x.2.state = .frozen) ∧ contextGone s i.part x.2.ctx then
      (x.1, revokeObj x.2) else x) = (x.1, afterInv s i x.2) := by
    unfold afterInv
    split <;> rfl
  rw [revokeGone, if_pos h]
  exact congrArg (fun m => { s with syncs := m }) (List.map_congr_left fun x _ => entry x)

theorem syncObj_revokeGone (h : i.scope = .ctx ∨ i.scope = .part) (k : Nat) :
    syncObj (revokeGone s i) k = afterInv s i (syncObj s k) := by
  have free : afterInv s i SyncObj.free = SyncObj.free := by simp [afterInv, SyncObj.free]
  rw [revokeGone_eq h]
  exact tget_map_snd SyncObj.free _ free s.syncs k

theorem afterInv_invDrop : afterInv (invDrop s i) i = afterInv s i := by
  funext o
  simp only [afterInv, contextGone_invDrop]

/-- GO of a context or a partition: objects are revoked besides. -/
theorem revokeGone_invDrop (h : i.scope = .ctx ∨ i.scope = .part) : revokeGone (invDrop s i) i = { s with
    tlb := s.tlb.filter fun e => !invCovers i e
    threads := s.threads.map fun x => (x.1, staleSpin i (grid s x.2.grid) x.2)
    syncs := (revokeGone s i).syncs } := by
  have other : i.scope ≠ .owner := by
    intro owner
    simp [owner] at h
  rw [revokeGone_eq h, revokeGone_eq h, afterInv_invDrop, invDrop_translations other]

/-- Accesses in flight under the invalidation hold it back. -/
theorem invDrained_iff : invDrained s i = true ↔
    ∀ t ∈ s.threads, ∀ o ∈ t.2.ops, opCovered s i t.2 o = false := by
  simp [invDrained]

end

/-! The commands. -/

section
variable {s : State} {fn : Nat} (hfn : fn ≤ 64) (hon : bar0 s = true) (idle : invBusy s fn = false)
include hfn hon idle

theorem invPage_drops :
    let i := invAsked s fn .page
    exec (.invPage fn) s = .next { s with
      tlb := s.tlb.filter fun e => !invCovers i e
      threads := s.threads.map fun x => (x.1, staleSpin i (grid s x.2.grid) x.2)
      invs := s.invs ++ [i] } := by
  rw [exec_invPage, execInvPage, invStart_begins hfn hon idle (by simp)]
  simp only
  rw [revokeGone_none (by simp [invAsked]), invDrop_translations (by simp [invAsked])]

theorem invCtx_drops :
    let i := invAsked s fn .ctx
    exec (.invCtx fn) s = .next { s with
      tlb := s.tlb.filter fun e => !invCovers i e
      threads := s.threads.map fun x => (x.1, staleSpin i (grid s x.2.grid) x.2)
      syncs := (revokeGone s i).syncs, invs := s.invs ++ [i] } := by
  rw [exec_invCtx, execInvCtx, invStart_begins hfn hon idle (by simp)]
  simp only
  rw [revokeGone_invDrop (.inl rfl)]

theorem invPart_drops :
    let i := invAsked s fn .part
    exec (.invPart fn) s = .next { s with
      tlb := s.tlb.filter fun e => !invCovers i e
      threads := s.threads.map fun x => (x.1, staleSpin i (grid s x.2.grid) x.2)
      syncs := (revokeGone s i).syncs, invs := s.invs ++ [i] } := by
  rw [exec_invPart, execInvPart, invStart_begins hfn hon idle (by simp)]
  simp only
  rw [revokeGone_invDrop (.inr rfl)]

end

theorem invOwner_drops {s : State} (hon : bar0 s = true) (idle : invBusy s 0 = false) :
    exec (.invOwner 0) s = .next { s with
      owners := tdel (granuleIndex (tget 0 s.regs 0x0501000).toNat) s.owners
      invs := s.invs ++ [invAsked s 0 .owner] } := by
  rw [exec_invOwner, execInvOwner, invStart_begins (by omega) hon idle fun _ => rfl]
  simp only
  rw [revokeGone_none (by simp [invAsked])]
  rfl

theorem invCovers_part {i : Invalidation} (h : i.scope = .part) (e : TlbEntry) :
    invCovers i e = (e.part == i.part) := by
  simp [invCovers, h]

theorem invCovers_ctx {i : Invalidation} (h : i.scope = .ctx) (e : TlbEntry) :
    invCovers i e = (e.part == i.part && e.ctx == i.ctx) := by
  simp [invCovers, h]

/-- An ATS request is an invalidation of the partition. -/
theorem atsInvalidate_drops (p : Nat) (va : Word) (s : State) :
    let i : Invalidation :=
      { who := 65, scope := .part, part := p, ctx := 0, va := va, size := .k4, dropped := [] }
    exec (.atsInvalidate p va) s = .next { s with
      tlb := s.tlb.filter fun e => e.part != p
      threads := s.threads.map fun x => (x.1, staleSpin i (grid s x.2.grid) x.2)
      invs := s.invs ++ [i] } := by
  simp only [exec_atsInvalidate, execAtsInvalidate, atsWho]
  rw [invDrop_translations (by simp)]
  simp only [invCovers_part, bne]

/-! Completion (R350 step 3). -/

section
variable {who : Nat} {s : State} {i : Invalidation}
  (hi : s.invs.find? (fun i => i.who == who) = some i)
include hi

theorem invalidationComplete_drained (h : invDrained s i = true) :
    exec (.invalidationComplete who) s = .next { s with invs := s.invs.erase i } := by
  simp only [exec_invalidationComplete, execInvalidationComplete, hi, if_pos h]

theorem invalidationComplete_waits (h : ¬ invDrained s i = true) :
    exec (.invalidationComplete who) s = .next s := by
  simp only [exec_invalidationComplete, execInvalidationComplete, hi, if_neg h]

end

/-- Settles O38: the start by its scope, the objects one by one, and completion by what is in flight. -/
theorem invalidationResults : Obligations.invalidation_results := by
  refine ⟨fun _ _ => invPage_drops, fun _ _ => invCtx_drops, fun _ _ => invPart_drops,
    fun _ => invOwner_drops, fun fn s h => ?_, fun s fn scope => ⟨rfl, rfl, fun h => ?_⟩,
    fun i e h => invCovers_part h e, fun i e h => invCovers_ctx h e,
    fun s i k h => syncObj_revokeGone h k, atsInvalidate_drops, fun who s i hi => ⟨fun h => ?_, ?_⟩⟩
  · rw [exec_invOwner, execInvOwner, invStart_owner_vf h]
  · exact if_neg (by omega)
  · exact invalidationComplete_drained hi (invDrained_iff.mpr h)
  · rintro ⟨t, ht, o, ho, covered⟩
    refine invalidationComplete_waits hi fun drained => ?_
    simp [invDrained_iff.mp drained t ht o ho] at covered

end Sys2Proof.Machine
end

section
/-! SUPPORT. What every step keeps: memory in its canonical form, and the version floor (R111, R124,
R439). A rule for each function of the model that answers a state, in the order of the model: here
the operations on the state, translation, rings, faults and schedules. -/

namespace Sys2Proof.Machine

/-- `s` keeps what `s0` has of what every step keeps: memory in its canonical form, and a version
floor of 16 bits that has not decreased (R439). -/
structure Keeps (s0 s : State) : Prop where
  canonical : Memory.wf s0.mem = true → Memory.wf s.mem = true
  floorLe : s0.boot.floor ≤ s.boot.floor
  floorLt : s0.boot.floor < 2 ^ 16 → s.boot.floor < 2 ^ 16

/-- A command's answer is a state that keeps what `s0` has. -/
inductive Next (s0 : State) : Res → Prop where
  | mk {s : State} (h : Keeps s0 s) : Next s0 (.next s)

/-- The states in what an issued instruction does keep what `s0` has. -/
inductive EffKeeps (s0 : State) : Eff → Prop where
  | done {th : Thread} : EffKeeps s0 (.done th)
  | exc {s : State} {c : Cause} {a : Word} {st : BitVec 8} (h : Keeps s0 s) :
      EffKeeps s0 (.exc s c a st)
  | state {s : State} (h : Keeps s0 s) : EffKeeps s0 (.state s)
  | wait : EffKeeps s0 .wait
  | ask {f : State → State} (h : ∀ s, Keeps s0 s → Keeps s0 (f s)) : EffKeeps s0 (.ask f)

variable {s0 s : State}

theorem Keeps.refl (s : State) : Keeps s s := ⟨id, le_rfl, id⟩

/-- What changes neither memory nor the floor. -/
theorem Keeps.frame {s' : State} (h : Keeps s0 s) (hm : s'.mem = s.mem)
    (hf : s'.boot.floor = s.boot.floor) : Keeps s0 s' :=
  ⟨fun hw => hm ▸ h.canonical hw, hf ▸ h.floorLe, fun hl => hf ▸ h.floorLt hl⟩

theorem Keeps.ite {c : Prop} [Decidable c] {a b : State} (ha : Keeps s0 a) (hb : Keeps s0 b) :
    Keeps s0 (if c then a else b) := by
  split
  · exact ha
  · exact hb

theorem Keeps.ite_snd {α : Type} {c : Prop} [Decidable c] {a b : α × State} (ha : Keeps s0 a.2)
    (hb : Keeps s0 b.2) : Keeps s0 (if c then a else b).2 := by
  split
  · exact ha
  · exact hb

theorem Keeps.ite_snd_snd {α β : Type} {c : Prop} [Decidable c] {a b : α × β × State}
    (ha : Keeps s0 a.2.2) (hb : Keeps s0 b.2.2) : Keeps s0 (if c then a else b).2.2 := by
  split
  · exact ha
  · exact hb

theorem Keeps.ite_state {c : Prop} [Decidable c] {a b : AdminAnswer} (ha : Keeps s0 a.state)
    (hb : Keeps s0 b.state) : Keeps s0 (if c then a else b).state := by
  split
  · exact ha
  · exact hb

theorem Keeps.ite_aqState {c : Prop} [Decidable c] {a b : AqAnswer} (ha : Keeps s0 a.state)
    (hb : Keeps s0 b.state) : Keeps s0 (if c then a else b).state := by
  split
  · exact ha
  · exact hb

theorem Keeps.ite_fst {α : Type} {c : Prop} [Decidable c] {a b : State × α} (ha : Keeps s0 a.1)
    (hb : Keeps s0 b.1) : Keeps s0 (if c then a else b).1 := by
  split
  · exact ha
  · exact hb

theorem Keeps.ite_snd_fst {α β : Type} {c : Prop} [Decidable c] {a b : α × State × β}
    (ha : Keeps s0 a.2.1) (hb : Keeps s0 b.2.1) : Keeps s0 (if c then a else b).2.1 := by
  split
  · exact ha
  · exact hb

theorem Keeps.pair_fst {α : Type} {a : α} (h : Keeps s0 s) : Keeps s0 (s, a).1 := h

theorem Keeps.pair {α : Type} {a : α} (h : Keeps s0 s) : Keeps s0 (a, s).2 := h

theorem Keeps.aqAnswer {st d0} (h : Keeps s0 s) : Keeps s0 (AqAnswer.mk st d0 s).state := h

theorem EffKeeps.ite {c : Prop} [Decidable c] {a b : Eff} (ha : EffKeeps s0 a)
    (hb : EffKeeps s0 b) : EffKeeps s0 (if c then a else b) := by
  split
  · exact ha
  · exact hb

theorem Keeps.foldl {α : Type} {f : State → α → State} {l : List α} (h : Keeps s0 s)
    (hf : ∀ s x, Keeps s0 s → Keeps s0 (f s x)) : Keeps s0 (l.foldl f s) := by
  induction l generalizing s with
  | nil => exact h
  | cons x l ih => exact ih (hf s x h)

theorem Keeps.foldl_snd {α β : Type} {f : β × State → α → β × State} {l : List α} {a : β × State}
    (h : Keeps s0 a.2) (hf : ∀ a x, Keeps s0 a.2 → Keeps s0 (f a x).2) :
    Keeps s0 (l.foldl f a).2 := by
  induction l generalizing a with
  | nil => exact h
  | cons x l ih => exact ih (hf a x h)

theorem Keeps.foldl_fst {α β : Type} {f : State × β → α → State × β} {l : List α} {a : State × β}
    (h : Keeps s0 a.1) (hf : ∀ a x, Keeps s0 a.1 → Keeps s0 (f a x).1) :
    Keeps s0 (l.foldl f a).1 := by
  induction l generalizing a with
  | nil => exact h
  | cons x l ih => exact ih (hf a x h)

/-- The state of an answer that is taken apart. -/
theorem Keeps.snd_eq {α : Type} {p : α × State} {a : α} (h : Keeps s0 p.2) (e : p = (a, s)) :
    Keeps s0 s := by
  rw [e] at h
  exact h

/-- Writing error records. -/
theorem Keeps.recorded {s' : State} (h : Keeps s0 s) (hr : Recorded s s') : Keeps s0 s' :=
  h.frame hr.mem (congrArg Boot.floor hr.boot)

/-! Machine/Ops.lean -/

theorem Keeps.takeFree (h : Keeps s0 s) :
    Keeps s0 (Machine.takeFree s).2 := .frame h rfl rfl

theorem Keeps.setReg {key v} (h : Keeps s0 s) :
    Keeps s0 (Machine.setReg s key v) := h.frame rfl rfl

theorem Keeps.bump {key lo n k} (h : Keeps s0 s) :
    Keeps s0 (Machine.bump s key lo n k) := h.frame rfl rfl

theorem Keeps.poke {pa bs} (h : Keeps s0 s) :
    Keeps s0 (Machine.poke s pa bs) :=
  ⟨fun hw => poke_wf s pa bs (h.canonical hw), h.floorLe, h.floorLt⟩

theorem Keeps.setCheck {pa c} (h : Keeps s0 s) :
    Keeps s0 (Machine.setCheck s pa c) := h.frame rfl rfl

theorem Keeps.mpPost {e} (h : Keeps s0 s) :
    Keeps s0 (Machine.mpPost s e) := h.frame rfl rfl

theorem Keeps.drdyBusy {c} (h : Keeps s0 s) :
    Keeps s0 (Machine.drdyBusy s c) := h.frame rfl rfl

theorem Keeps.drdyRelease (h : Keeps s0 s) :
    Keeps s0 (Machine.drdyRelease s) := h.frame rfl rfl

theorem Keeps.drdyDone {c} (h : Keeps s0 s) :
    Keeps s0 (Machine.drdyDone s c) :=
  .ite (.drdyRelease (.frame h rfl rfl)) (.frame h rfl rfl)

theorem Keeps.holdHb (h : Keeps s0 s) :
    Keeps s0 (Machine.holdHb s) := h.frame rfl rfl

theorem Keeps.recordContained {i x} (h : Keeps s0 s) :
    Keeps s0 (Machine.recordContained s i x) := h.recorded (Recorded.refl s).recordContained

theorem Keeps.recordError {i} (h : Keeps s0 s) :
    Keeps s0 (Machine.recordError s i) := h.recorded (Recorded.refl s).recordError

theorem Keeps.beginHandling {unit inst part} (h : Keeps s0 s) :
    Keeps s0 (Machine.beginHandling s unit inst part).2 := .frame h rfl rfl

theorem Keeps.endHandling {seq} (h : Keeps s0 s) :
    Keeps s0 (Machine.endHandling s seq) := h.frame rfl rfl

theorem Keeps.checkWord {pa} (h : Keeps s0 s) :
    Keeps s0 (Machine.checkWord s pa).2 := by
  rw [Machine.checkWord]
  split
  · exact .pair h
  · exact .pair h
  · exact .pair h.setCheck.bump.recordError
  · exact .pair h.setCheck.bump.recordError

theorem Keeps.checkWords {pa n} (h : Keeps s0 s) :
    Keeps s0 (Machine.checkWords s pa n).2 := by
  induction n generalizing s pa with
  | zero => exact h
  | succ n ih => exact ih h.checkWord

theorem Keeps.lpddrAwake {pa} (h : Keeps s0 s) :
    Keeps s0 (Machine.lpddrAwake s pa) := .ite (.frame h rfl rfl) h

theorem Keeps.takeBytes {n} (h : Keeps s0 s) :
    Keeps s0 (Machine.takeBytes s n).2 := by
  induction n generalizing s with
  | zero => exact h
  | succ n ih => exact ih h.takeFree

theorem Keeps.readMem {pa n} (h : Keeps s0 s) :
    Keeps s0 (Machine.readMem s pa n).2.2 :=
  .ite_snd_snd h.lpddrAwake.checkWords.takeBytes h.lpddrAwake.checkWords

theorem Keeps.writeWord {pa bs} (h : Keeps s0 s) :
    Keeps s0 (Machine.writeWord s pa bs) :=
  .ite h.setCheck.poke (.ite h.checkWord.recordError h.checkWord.poke)

theorem Keeps.writeWords {pa bs n} (h : Keeps s0 s) :
    Keeps s0 (Machine.writeWords s pa bs n) := by
  induction n generalizing s pa bs with
  | zero => exact h
  | succ n ih => exact ih h.writeWord

theorem Keeps.writeMem {pa bs} (h : Keeps s0 s) :
    Keeps s0 (Machine.writeMem s pa bs) := h.lpddrAwake.writeWords

theorem Keeps.poisonMem {pa n} (h : Keeps s0 s) :
    Keeps s0 (Machine.poisonMem s pa n) := by
  induction n generalizing s pa with
  | zero => exact h
  | succ n ih => exact ih (.setCheck (.ite h h.bump))

/-! Machine/Xlate.lean -/

theorem Keeps.ownerEntry {idx} (h : Keeps s0 s) :
    Keeps s0 (Machine.ownerEntry s idx).2 := by
  rw [Machine.ownerEntry]
  split
  · exact h
  · exact .frame h.readMem rfl rfl

theorem Keeps.ownerCheck {p c pa write} (h : Keeps s0 s) :
    Keeps s0 (Machine.ownerCheck s p c pa write).2 := by
  rw [Machine.ownerCheck]
  split
  · exact .ite_snd h.ownerEntry h
  · exact .ite_snd h.ownerEntry h
  · exact h
  · exact h
  · exact h
  · exact h

theorem Keeps.walkStep {p c va table level} (h : Keeps s0 s) :
    Keeps s0 (Machine.walkStep s p c va table level).2 := by
  rw [Machine.walkStep]
  refine .ite_snd h ?_
  refine .ite_snd h.ownerCheck ?_
  refine .ite_snd h.ownerCheck.readMem ?_
  refine .ite_snd h.ownerCheck.readMem ?_
  exact .ite_snd h.ownerCheck.readMem (.ite_snd h.ownerCheck.readMem h.ownerCheck.readMem)

theorem Keeps.walkLevels {p c va table n} (h : Keeps s0 s) :
    Keeps s0 (Machine.walkLevels s p c va table n).2 := by
  induction n generalizing s table with
  | zero =>
    rw [Machine.walkLevels]
    split
    · exact h.walkStep
    · exact h.walkStep
    · exact h.walkStep
  | succ n ih =>
    rw [Machine.walkLevels]
    split
    · exact h.walkStep
    · exact ih h.walkStep
    · exact h.walkStep

theorem Keeps.walk {p c va} (h : Keeps s0 s) :
    Keeps s0 (Machine.walk s p c va).2 :=
  .ite_snd h (.ite_snd h (.ite_snd h.readMem (.ite_snd h.readMem h.readMem.walkLevels)))

theorem Keeps.tlbFill {unit p c m} (h : Keeps s0 s) :
    Keeps s0 (Machine.tlbFill s unit p c m) := h.frame rfl rfl

theorem Keeps.checkAccess {k p c va write m} (h : Keeps s0 s) :
    Keeps s0 (Machine.checkAccess s k p c va write m).2 :=
  .ite_snd h (.ite_snd h (.ite_snd h (.ite_snd h.ownerCheck h.ownerCheck)))

theorem Keeps.walkAccess {k unit p c va write} (h : Keeps s0 s) :
    Keeps s0 (Machine.walkAccess s k unit p c va write).2 := by
  rw [Machine.walkAccess]
  split
  · exact h.walk
  · exact h.walk.tlbFill.checkAccess

theorem Keeps.cachedAccess {k unit p c va write r} (h : Keeps s0 s)
    (hr : Machine.cachedAccess s k unit p c va write = some r) : Keeps s0 r.2 := by
  rw [Machine.cachedAccess] at hr
  rcases hf : tlbFind s unit p c va with _ | e
  · rw [hf] at hr
    cases hr
  · rw [hf] at hr
    obtain ⟨-, hr⟩ := Option.ite_none_left_eq_some.mp hr
    rw [← Option.some.inj hr]
    exact h.checkAccess

theorem Keeps.access {k unit p c va write} (h : Keeps s0 s) :
    Keeps s0 (Machine.access s k unit p c va write).2 := by
  unfold Machine.access
  split
  · next r hr => exact h.cachedAccess hr
  · exact h.walkAccess

theorem Keeps.frameOf {unit p c va} (h : Keeps s0 s) :
    Keeps s0 (Machine.frameOf s unit p c va).2 := by
  rw [Machine.frameOf]
  split
  · exact h
  · dsimp only
    split
    · exact h.walk
    · exact h.walk.tlbFill

theorem Keeps.loseHost (h : Keeps s0 s) :
    Keeps s0 (Machine.loseHost s) := h.frame rfl rfl

theorem Keeps.chunks {k unit p c va len write n} (h : Keeps s0 s) :
    Keeps s0 (Machine.chunks s k unit p c va len write n).2 := by
  induction n generalizing s va len with
  | zero => exact h
  | succ n ih =>
    rw [Machine.chunks]
    refine .ite_snd h ?_
    dsimp only
    split
    · exact h.access
    · refine .ite_snd (.pair h.access.loseHost) ?_
      split
      · exact ih h.access
      · exact ih h.access

theorem Keeps.readChunks {l} (h : Keeps s0 s) :
    Keeps s0 (Machine.readChunks s l).2 := by
  induction l generalizing s with
  | nil => exact h
  | cons c cs ih =>
    obtain ⟨_, _⟩ := c
    rw [Machine.readChunks]
    split
    · exact ih h.readMem
    · exact ih h.readMem

theorem Keeps.writeChunks {l bs} (h : Keeps s0 s) :
    Keeps s0 (Machine.writeChunks s l bs) := by
  induction l generalizing s bs with
  | nil => exact h
  | cons c cs ih =>
    obtain ⟨_, _⟩ := c
    exact ih h.writeMem

theorem Keeps.readVa {k unit p c va len} (h : Keeps s0 s) :
    Keeps s0 (Machine.readVa s k unit p c va len).2 := by
  rw [Machine.readVa]
  split
  · exact h.chunks
  · dsimp only
    split
    · exact h.chunks.readChunks
    · exact h.chunks.readChunks

theorem Keeps.writeVa {k unit p c va bs} (h : Keeps s0 s) :
    Keeps s0 (Machine.writeVa s k unit p c va bs).2 := by
  rw [Machine.writeVa]
  split
  · exact h.chunks
  · exact h.chunks.writeChunks

theorem Keeps.rangeOk {p c va len write} (h : Keeps s0 s) :
    Keeps s0 (Machine.rangeOk s p c va len write).2 := h.chunks

/-! Machine/SyncOps.lean -/

theorem Keeps.setSync {i o} (h : Keeps s0 s) :
    Keeps s0 (Machine.setSync s i o) := h.frame rfl rfl

theorem Keeps.releaseWaiters {i} (h : Keeps s0 s) :
    Keeps s0 (Machine.releaseWaiters s i) := h.frame rfl rfl

theorem Keeps.syncWordCorrected {i owner c} (h : Keeps s0 s) :
    Keeps s0 (Machine.syncWordCorrected s i owner c) := .ite h.bump.recordError h

theorem Keeps.checkSync {i} (h : Keeps s0 s) :
    Keeps s0 (Machine.checkSync s i) := by
  rw [Machine.checkSync]
  refine .ite h.setSync.releaseWaiters.recordError ?_
  exact .ite h.setSync.recordError (.ite h.setSync.syncWordCorrected.syncWordCorrected h)

theorem Keeps.signalObj {p c any i n} (h : Keeps s0 s) :
    Keeps s0 (Machine.signalObj s p c any i n).2 := by
  rw [Machine.signalObj]
  refine .ite_snd (.pair h.checkSync) ?_
  split
  · exact h.checkSync.setSync
  · exact h.checkSync
  · exact h.checkSync

theorem Keeps.signalVa {unit inst xu p c va n} (h : Keeps s0 s) :
    Keeps s0 (Machine.signalVa s unit inst xu p c va n) := by
  rw [Machine.signalVa]
  split
  · exact h.access.recordError
  · refine .ite (.ite h.access.signalObj h.access.signalObj.recordError) ?_
    exact h.access.recordError

theorem Keeps.retryObj {p c i take target} (h : Keeps s0 s) :
    Keeps s0 (Machine.retryObj s p c i take target).2 := by
  rw [Machine.retryObj]
  refine .ite_snd (.pair h.checkSync) ?_
  refine .ite_snd (.pair h.checkSync) ?_
  split
  · exact h.checkSync
  · exact .ite_snd (.pair h.checkSync) (.pair h.checkSync)
  · refine .ite_snd (.pair h.checkSync) ?_
    refine .ite_snd (.ite_snd (.pair h.checkSync) (.pair h.checkSync.setSync)) ?_
    exact .ite_snd (.pair h.checkSync) (.pair h.checkSync)

theorem Keeps.readObj {p c any i} (h : Keeps s0 s) :
    Keeps s0 (Machine.readObj s p c any i).2 := .ite_snd (.pair h.checkSync) (.pair h.checkSync)

/-! Machine/RingOps.lean -/

theorem Keeps.setRing {r x} (h : Keeps s0 s) :
    Keeps s0 (Machine.setRing s r x) := h.frame rfl rfl

theorem Keeps.modRing {r f} (h : Keeps s0 s) :
    Keeps s0 (Machine.modRing s r f) := h.frame rfl rfl

theorem Keeps.readReport {r} (h : Keeps s0 s) :
    Keeps s0 (Machine.readReport s r).2 := by
  rw [Machine.readReport]
  split
  · exact .pair h.readVa
  · exact .ite_snd (.pair h.readVa.setRing) (.pair h.readVa.setRing)

theorem Keeps.refreshReport {r} (h : Keeps s0 s) :
    Keeps s0 (Machine.refreshReport s r).2 := .ite_snd h.readReport h

theorem Keeps.ringFail {r st} (h : Keeps s0 s) :
    Keeps s0 (Machine.ringFail s r st) := .ite h h.modRing

theorem Keeps.signalRing {r} (h : Keeps s0 s) :
    Keeps s0 (Machine.signalRing s r) := .ite h h.signalVa

theorem Keeps.produce {r bytes} (h : Keeps s0 s) :
    Keeps s0 (Machine.produce s r bytes).2 := by
  rw [Machine.produce]
  split
  · exact h.writeVa
  · exact h.writeVa.modRing.signalRing

theorem Keeps.attention (h : Keeps s0 s) :
    Keeps s0 (Machine.attention s) := h.frame rfl rfl

theorem Keeps.eqTake {e} (h : Keeps s0 s) :
    Keeps s0 (Machine.eqTake s e).2 := by
  rw [Machine.eqTake]
  refine .ite_snd (.pair h) ?_
  extract_lets -lift s1 bs item lost hold f x p
  have held {s} (h : Keeps s0 s) : Keeps s0 (hold s) := .ite h.setRing h.setRing
  rcases hf : f with ⟨_ | st, s2⟩
  · have fresh : Keeps s0 s2 := h.modRing.refreshReport.snd_eq hf
    refine .ite_snd ?_ (.pair (held fresh))
    rcases hp : p with ⟨_ | st, s3⟩
    · have made : Keeps s0 s3 := h.modRing.refreshReport.produce.snd_eq hp
      exact .pair (.ite made.attention made)
    · have made : Keeps s0 s3 := h.modRing.refreshReport.produce.snd_eq hp
      exact .ite_snd (.pair (held made)) (.pair made.ringFail)
  · have fresh : Keeps s0 s2 := h.modRing.refreshReport.snd_eq hf
    exact .ite_snd (.pair (held fresh)) (.pair fresh.ringFail)

theorem Keeps.post {eq code source data0 data1} (h : Keeps s0 s) :
    Keeps s0 (Machine.post s eq code source data0 data1) := by
  rw [Machine.post]
  split
  · exact h.eqTake
  · exact .ite h.eqTake h.eqTake.eqTake

theorem Keeps.errorReport {r} (h : Keeps s0 s) :
    Keeps s0 (Machine.errorReport s r) := by
  rw [Machine.errorReport]
  refine .ite h ?_
  rcases hw : Machine.writeVa _ _ _ _ _ _ _ with ⟨_ | _, s1⟩
  · exact h.writeVa.snd_eq hw
  · exact (h.writeVa.snd_eq hw).modRing

theorem Keeps.ringError {r st index} (h : Keeps s0 s) :
    Keeps s0 (Machine.ringError s r st index) :=
  .ite h (.ite h.errorReport.ringFail h.errorReport.ringFail.post)

theorem Keeps.setFetchStopped {cq v} (h : Keeps s0 s) :
    Keeps s0 (Machine.setFetchStopped s cq v) := .foldl h fun _ _ h' => h'.modRing

theorem Keeps.cqWrite {cq it} (h : Keeps s0 s) :
    Keeps s0 (Machine.cqWrite s cq it).2 := by
  rw [Machine.cqWrite]
  refine .ite_snd ?_ (.ite h.modRing h)
  dsimp only
  split
  · exact h.produce
  · exact .ite h.produce.modRing h.produce

theorem Keeps.cqTake {cq it} (h : Keeps s0 s) :
    Keeps s0 (Machine.cqTake s cq it) := by
  rw [Machine.cqTake]
  refine .ite ?_ ?_
  · dsimp only
    split
    · refine .cqWrite ?_
      split
      · exact .ringError (.ite_snd h.refreshReport h)
      · exact .ite_snd h.refreshReport h
    · refine .modRing (.ringError (.cqWrite ?_))
      split
      · exact .ringError (.ite_snd h.refreshReport h)
      · exact .ite_snd h.refreshReport h
  · refine .ite ?_ ?_
    · refine .setRing ?_
      split
      · exact .ringError (.ite_snd h.refreshReport h)
      · exact .ite_snd h.refreshReport h
    · refine .ite ?_ ?_
      · refine .ite ?_ ?_
        · refine .post (.setFetchStopped (.setRing ?_))
          split
          · exact .ringError (.ite_snd h.refreshReport h)
          · exact .ite_snd h.refreshReport h
        · refine .setFetchStopped (.setRing ?_)
          split
          · exact .ringError (.ite_snd h.refreshReport h)
          · exact .ite_snd h.refreshReport h
      · refine .setRing ?_
        split
        · exact .ringError (.ite_snd h.refreshReport h)
        · exact .ite_snd h.refreshReport h

theorem Keeps.deliver {r cookie noCqe st bytes d0 d1} (h : Keeps s0 s) :
    Keeps s0 (Machine.deliver s r cookie noCqe st bytes d0 d1) := .ite h.setRing h.cqTake

theorem Keeps.completeEntry {r e st bytes d0 d1} (h : Keeps s0 s) :
    Keeps s0 (Machine.completeEntry s r e st bytes d0 d1) := h.modRing.deliver

theorem Keeps.countMalf {r st} (h : Keeps s0 s) :
    Keeps s0 (Machine.countMalf s r st) := .ite h.modRing h

theorem Keeps.mpTook {r st} (h : Keeps s0 s) :
    Keeps s0 (Machine.mpTook s r st) := .countMalf (.frame h rfl rfl)

theorem Keeps.fkWant {k port} (h : Keeps s0 s) :
    Keeps s0 (Machine.fkWant s k port) := .ite h (.frame h rfl rfl)

theorem Keeps.wantEntry {r e} (h : Keeps s0 s) :
    Keeps s0 (Machine.wantEntry s r e) := .ite h.fkWant h

theorem Keeps.headReport {r} (h : Keeps s0 s) :
    Keeps s0 (Machine.headReport s r) := by
  rw [Machine.headReport]
  refine .ite h.setRing ?_
  dsimp only
  split
  · exact h.writeVa.modRing
  · exact h.writeVa.ringError

theorem Keeps.drainOne {q x it} (h : Keeps s0 s) :
    Keeps s0 (Machine.drainOne s q x it).2 :=
  .ite_snd (.ite h.setRing.produce.attention h.setRing.produce) h.setRing.cqWrite

theorem Keeps.drainOverflow {q n} (h : Keeps s0 s) :
    Keeps s0 (Machine.drainOverflow s q n) := by
  induction n generalizing s with
  | zero => exact h
  | succ n ih =>
    rw [Machine.drainOverflow]
    refine .ite h ?_
    split
    · dsimp only
      split
      · exact ih h.drainOne
      · exact h.drainOne.setRing.ringError
    · dsimp only
      split
      · exact ih h.drainOne
      · exact h.drainOne.setRing.ringError
    · exact h

theorem Keeps.drainRing {q} (h : Keeps s0 s) :
    Keeps s0 (Machine.drainRing s q) := by
  rw [Machine.drainRing]
  refine .ite (.ite h.drainOverflow.setRing.post h.drainOverflow) ?_
  refine .ite ?_ h.drainOverflow
  exact .ite h.drainOverflow.setFetchStopped.post h.drainOverflow.setFetchStopped

/-! Machine/FaultOps.lean -/

theorem Keeps.setFaults {p t} (h : Keeps s0 s) :
    Keeps s0 (Machine.setFaults s p t) := h.frame rfl rfl

theorem Keeps.faultPosted {p} (h : Keeps s0 s) :
    Keeps s0 (Machine.faultPosted s p) := .ite h.setFaults h.setFaults.post

theorem Keeps.fqReport {p} (h : Keeps s0 s) :
    Keeps s0 (Machine.fqReport s p).2 := .ite_snd h h.readReport

theorem Keeps.fqReady {p} (h : Keeps s0 s) :
    Keeps s0 (Machine.fqReady s p).2 := by
  rw [Machine.fqReady]
  refine .ite_snd h ?_
  dsimp only
  split
  · exact h.fqReport.ringError
  · exact h.fqReport

theorem Keeps.writeFq {p fid f} (h : Keeps s0 s) :
    Keeps s0 (Machine.writeFq s p fid f) := by
  rw [Machine.writeFq]
  split
  · exact h.produce.ringError
  · exact .ite h.produce.faultPosted h.produce

theorem Keeps.raiseFault {p c va cause write agent who} (h : Keeps s0 s) :
    Keeps s0 (Machine.raiseFault s p c va cause write agent who) := by
  rw [Machine.raiseFault]
  refine .ite h.setFaults ?_
  dsimp only
  split
  · exact h.fqReady.setFaults.writeFq
  · exact h.fqReady.setFaults

/-! Machine/SchedOps.lean -/

theorem Keeps.setGrid {g x} (h : Keeps s0 s) :
    Keeps s0 (Machine.setGrid s g x) := h.frame rfl rfl

theorem Keeps.modGrid {g f} (h : Keeps s0 s) :
    Keeps s0 (Machine.modGrid s g f) := h.frame rfl rfl

theorem Keeps.modSched {f} (h : Keeps s0 s) :
    Keeps s0 (Machine.modSched s f) := h.frame rfl rfl

theorem Keeps.addCharge {e p g u} (h : Keeps s0 s) :
    Keeps s0 (Machine.addCharge s e p g u) := .ite h.modSched h.modSched.modGrid

theorem Keeps.chargeThread {t u} (h : Keeps s0 s) :
    Keeps s0 (Machine.chargeThread s t u) := .ite h h.addCharge

theorem Keeps.chargeIssue {t w} (h : Keeps s0 s) :
    Keeps s0 (Machine.chargeIssue s t w) := by
  rw [Machine.chargeIssue]
  split
  · exact h.chargeThread
  · exact h

theorem Keeps.modPart {p f} (h : Keeps s0 s) :
    Keeps s0 (Machine.modPart s p f) := h.frame rfl rfl

theorem Keeps.useCorrection {g} (h : Keeps s0 s) :
    Keeps s0 (Machine.useCorrection s g) := h.frame rfl rfl

theorem Keeps.dropCorrections {p} (h : Keeps s0 s) :
    Keeps s0 (Machine.dropCorrections s p) := h.frame rfl rfl

theorem Keeps.schedRelease {n} (h : Keeps s0 s) :
    Keeps s0 (Machine.schedRelease s n) := .setGrid (.ite h.modSched h)

/-! Machine/EngineOps.lean -/

theorem Keeps.setThread {t x} (h : Keeps s0 s) :
    Keeps s0 (Machine.setThread s t x) := h.frame rfl rfl

theorem Keeps.modThread {t f} (h : Keeps s0 s) :
    Keeps s0 (Machine.modThread s t f) := h.frame rfl rfl

theorem Keeps.modAgent {t f} (h : Keeps s0 s) :
    Keeps s0 (Machine.modAgent s t f) := .ite h.modThread h.modGrid

theorem Keeps.writeExcRec {g r} (h : Keeps s0 s) :
    Keeps s0 (Machine.writeExcRec s g r) := .ite h h.writeVa

theorem Keeps.haltAtBoundary {t} (h : Keeps s0 s) :
    Keeps s0 (Machine.haltAtBoundary s t) := h.frame rfl rfl

theorem Keeps.stopGridThreads {g} (h : Keeps s0 s) :
    Keeps s0 (Machine.stopGridThreads s g) := .foldl h fun _ _ h' => h'.modThread

theorem Keeps.forgetWaiter {t} (h : Keeps s0 s) :
    Keeps s0 (Machine.forgetWaiter s t) := h.frame rfl rfl

theorem Keeps.releaseGroup {key} (h : Keeps s0 s) :
    Keeps s0 (Machine.releaseGroup s key) :=
  .frame (.foldl h fun _ _ h' => h'.forgetWaiter.setThread) rfl rfl

theorem Keeps.completeGrid {n} (h : Keeps s0 s) :
    Keeps s0 (Machine.completeGrid s n) := by
  rw [Machine.completeGrid]
  refine .schedRelease (.deliver (.modRing (.foldl ?_ fun _ _ h' => h'.releaseGroup)))
  split
  · exact .ite h h.writeExcRec
  · exact h

theorem Keeps.dbgHaltEvent {t} (h : Keeps s0 s) :
    Keeps s0 (Machine.dbgHaltEvent s t) := h.post

theorem Keeps.settleDebug (h : Keeps s0 s) :
    Keeps s0 (Machine.settleDebug s) := by
  rw [Machine.settleDebug]
  split
  · exact h
  · exact .ite (.frame h.dbgHaltEvent rfl rfl) h

theorem Keeps.settleGrid {n} (h : Keeps s0 s) :
    Keeps s0 (Machine.settleGrid s n) := .ite h.settleDebug.completeGrid h.settleDebug

theorem Keeps.takeException {t pc word addr c st} (h : Keeps s0 s) :
    Keeps s0 (Machine.takeException s t pc word addr c st) := by
  rw [Machine.takeException]
  refine .settleGrid (.ite ?_ (.setGrid (.stopGridThreads ?_)))
  · split
    · exact h.setThread.setGrid.writeExcRec
    · exact h.setThread.setGrid
  · split
    · exact h.setThread.setGrid.writeExcRec
    · exact h.setThread.setGrid

theorem Keeps.raise {c a} (h : Keeps s0 s) : EffKeeps s0 (Machine.raise s c a) := .exc h

theorem Keeps.afterStep {t stepping} (h : Keeps s0 s) :
    Keeps s0 (Machine.afterStep s t stepping) := .ite h.modThread h

theorem Keeps.issue {t i body}
    (hbody : ∀ s th th', Keeps s0 s → EffKeeps s0 (body s th th')) (h : Keeps s0 s) :
    Keeps s0 (Machine.issue t i body s) := by
  unfold Machine.issue
  extract_lets th
  refine .ite h ?_
  split
  · exact h.takeException
  · next w _ =>
    refine .ite h.takeException (.ite h (.ite h.takeException (.ite h.setThread ?_)))
    have charged : Keeps s0 (Machine.chargeIssue s t w) := h.chargeIssue
    refine .ite charged.setThread.afterStep ?_
    have effect := hbody _ th (advance i th) charged
    cases hb : body (Machine.chargeIssue s t w) th (advance i th) with rw [hb] at effect
    | done => exact charged.setThread.afterStep
    | exc => cases effect with | exc hx => exact hx.takeException
    | state => cases effect with | state hx => exact hx.afterStep
    | wait => exact h.setThread
    | ask => cases effect with | ask hg => exact (hg s h).setThread

theorem Keeps.issueReg {t i f} (h : Keeps s0 s) :
    Keeps s0 (Machine.issueReg t i f s) := h.issue (fun _ _ _ _ => .done)

end Sys2Proof.Machine
end

section
/-! SUPPORT. Instructions keep memory canonical and the version floor. -/

namespace Sys2Proof.Machine

variable {s0 s : State}

/-! Machine/Scalar.lean -/

theorem Keeps.aluR {major minor op t f} (h : Keeps s0 s) :
    Keeps s0 (Machine.aluR major minor op t f s) := h.issueReg

theorem Keeps.aluR1 {minor op t f} (h : Keeps s0 s) :
    Keeps s0 (Machine.aluR1 minor op t f s) := h.issueReg

theorem Keeps.aluI {minor op t f} (h : Keeps s0 s) :
    Keeps s0 (Machine.aluI minor op t f s) := h.issueReg

theorem Keeps.shiftI {minor op t f} (h : Keeps s0 s) :
    Keeps s0 (Machine.shiftI minor op t f s) := h.issueReg

theorem Keeps.cmpR {minor op t f} (h : Keeps s0 s) :
    Keeps s0 (Machine.cmpR minor op t f s) := h.issueReg

theorem Keeps.cmpI {minor op t f} (h : Keeps s0 s) :
    Keeps s0 (Machine.cmpI minor op t f s) := h.issueReg

theorem Keeps.branch {minor op t f} (h : Keeps s0 s) :
    Keeps s0 (Machine.branch minor op t f s) := h.issueReg

theorem Keeps.jumpTo {th a} (h : Keeps s0 s) : EffKeeps s0 (Machine.jumpTo s th a) :=
  .ite h.raise (.ite h.raise .done)

theorem Keeps.maskOp {minor op t f} (h : Keeps s0 s) :
    Keeps s0 (Machine.maskOp minor op t f s) := h.issueReg

theorem Keeps.execAdd {t f} (h : Keeps s0 s) :
    Next s0 (Machine.execAdd t f s) := .mk h.aluR

theorem Keeps.execSub {t f} (h : Keeps s0 s) :
    Next s0 (Machine.execSub t f s) := .mk h.aluR

theorem Keeps.execAnd {t f} (h : Keeps s0 s) :
    Next s0 (Machine.execAnd t f s) := .mk h.aluR

theorem Keeps.execOr {t f} (h : Keeps s0 s) :
    Next s0 (Machine.execOr t f s) := .mk h.aluR

theorem Keeps.execXor {t f} (h : Keeps s0 s) :
    Next s0 (Machine.execXor t f s) := .mk h.aluR

theorem Keeps.execShl {t f} (h : Keeps s0 s) :
    Next s0 (Machine.execShl t f s) := .mk h.aluR

theorem Keeps.execShr {t f} (h : Keeps s0 s) :
    Next s0 (Machine.execShr t f s) := .mk h.aluR

theorem Keeps.execSar {t f} (h : Keeps s0 s) :
    Next s0 (Machine.execSar t f s) := .mk h.aluR

theorem Keeps.execMin {t f} (h : Keeps s0 s) :
    Next s0 (Machine.execMin t f s) := .mk h.aluR

theorem Keeps.execMax {t f} (h : Keeps s0 s) :
    Next s0 (Machine.execMax t f s) := .mk h.aluR

theorem Keeps.execMinu {t f} (h : Keeps s0 s) :
    Next s0 (Machine.execMinu t f s) := .mk h.aluR

theorem Keeps.execMaxu {t f} (h : Keeps s0 s) :
    Next s0 (Machine.execMaxu t f s) := .mk h.aluR

theorem Keeps.execSlt {t f} (h : Keeps s0 s) :
    Next s0 (Machine.execSlt t f s) := .mk h.aluR

theorem Keeps.execSltu {t f} (h : Keeps s0 s) :
    Next s0 (Machine.execSltu t f s) := .mk h.aluR

theorem Keeps.execPopc {t f} (h : Keeps s0 s) :
    Next s0 (Machine.execPopc t f s) := .mk h.aluR1

theorem Keeps.execClz {t f} (h : Keeps s0 s) :
    Next s0 (Machine.execClz t f s) := .mk h.aluR1

theorem Keeps.execCtz {t f} (h : Keeps s0 s) :
    Next s0 (Machine.execCtz t f s) := .mk h.aluR1

theorem Keeps.execAddi {t f} (h : Keeps s0 s) :
    Next s0 (Machine.execAddi t f s) := .mk h.aluI

theorem Keeps.execSubi {t f} (h : Keeps s0 s) :
    Next s0 (Machine.execSubi t f s) := .mk h.aluI

theorem Keeps.execAndi {t f} (h : Keeps s0 s) :
    Next s0 (Machine.execAndi t f s) := .mk h.aluI

theorem Keeps.execOri {t f} (h : Keeps s0 s) :
    Next s0 (Machine.execOri t f s) := .mk h.aluI

theorem Keeps.execXori {t f} (h : Keeps s0 s) :
    Next s0 (Machine.execXori t f s) := .mk h.aluI

theorem Keeps.execShli {t f} (h : Keeps s0 s) :
    Next s0 (Machine.execShli t f s) := .mk h.shiftI

theorem Keeps.execShri {t f} (h : Keeps s0 s) :
    Next s0 (Machine.execShri t f s) := .mk h.shiftI

theorem Keeps.execSari {t f} (h : Keeps s0 s) :
    Next s0 (Machine.execSari t f s) := .mk h.shiftI

theorem Keeps.execMini {t f} (h : Keeps s0 s) :
    Next s0 (Machine.execMini t f s) := .mk h.aluI

theorem Keeps.execMaxi {t f} (h : Keeps s0 s) :
    Next s0 (Machine.execMaxi t f s) := .mk h.aluI

theorem Keeps.execMinui {t f} (h : Keeps s0 s) :
    Next s0 (Machine.execMinui t f s) := .mk h.aluI

theorem Keeps.execMaxui {t f} (h : Keeps s0 s) :
    Next s0 (Machine.execMaxui t f s) := .mk h.aluI

theorem Keeps.execSlti {t f} (h : Keeps s0 s) :
    Next s0 (Machine.execSlti t f s) := .mk h.aluI

theorem Keeps.execSltui {t f} (h : Keeps s0 s) :
    Next s0 (Machine.execSltui t f s) := .mk h.aluI

theorem Keeps.execMul {t f} (h : Keeps s0 s) :
    Next s0 (Machine.execMul t f s) := .mk h.aluR

theorem Keeps.execMulh {t f} (h : Keeps s0 s) :
    Next s0 (Machine.execMulh t f s) := .mk h.aluR

theorem Keeps.execMulhu {t f} (h : Keeps s0 s) :
    Next s0 (Machine.execMulhu t f s) := .mk h.aluR

theorem Keeps.execMadd {t f} (h : Keeps s0 s) :
    Next s0 (Machine.execMadd t f s) := .mk h.issueReg

theorem Keeps.execDiv {t f} (h : Keeps s0 s) :
    Next s0 (Machine.execDiv t f s) := .mk h.aluR

theorem Keeps.execDivu {t f} (h : Keeps s0 s) :
    Next s0 (Machine.execDivu t f s) := .mk h.aluR

theorem Keeps.execRem {t f} (h : Keeps s0 s) :
    Next s0 (Machine.execRem t f s) := .mk h.aluR

theorem Keeps.execRemu {t f} (h : Keeps s0 s) :
    Next s0 (Machine.execRemu t f s) := .mk h.aluR

theorem Keeps.execMovi {t f} (h : Keeps s0 s) :
    Next s0 (Machine.execMovi t f s) := .mk h.issueReg

theorem Keeps.execMovh {t f} (h : Keeps s0 s) :
    Next s0 (Machine.execMovh t f s) := .mk h.issueReg

theorem Keeps.execCmpEq {t f} (h : Keeps s0 s) :
    Next s0 (Machine.execCmpEq t f s) := .mk h.cmpR

theorem Keeps.execCmpNe {t f} (h : Keeps s0 s) :
    Next s0 (Machine.execCmpNe t f s) := .mk h.cmpR

theorem Keeps.execCmpLt {t f} (h : Keeps s0 s) :
    Next s0 (Machine.execCmpLt t f s) := .mk h.cmpR

theorem Keeps.execCmpGe {t f} (h : Keeps s0 s) :
    Next s0 (Machine.execCmpGe t f s) := .mk h.cmpR

theorem Keeps.execCmpLtu {t f} (h : Keeps s0 s) :
    Next s0 (Machine.execCmpLtu t f s) := .mk h.cmpR

theorem Keeps.execCmpGeu {t f} (h : Keeps s0 s) :
    Next s0 (Machine.execCmpGeu t f s) := .mk h.cmpR

theorem Keeps.execCmpiEq {t f} (h : Keeps s0 s) :
    Next s0 (Machine.execCmpiEq t f s) := .mk h.cmpI

theorem Keeps.execCmpiNe {t f} (h : Keeps s0 s) :
    Next s0 (Machine.execCmpiNe t f s) := .mk h.cmpI

theorem Keeps.execCmpiLt {t f} (h : Keeps s0 s) :
    Next s0 (Machine.execCmpiLt t f s) := .mk h.cmpI

theorem Keeps.execCmpiGe {t f} (h : Keeps s0 s) :
    Next s0 (Machine.execCmpiGe t f s) := .mk h.cmpI

theorem Keeps.execCmpiLtu {t f} (h : Keeps s0 s) :
    Next s0 (Machine.execCmpiLtu t f s) := .mk h.cmpI

theorem Keeps.execCmpiGeu {t f} (h : Keeps s0 s) :
    Next s0 (Machine.execCmpiGeu t f s) := .mk h.cmpI

theorem Keeps.execBeq {t f} (h : Keeps s0 s) :
    Next s0 (Machine.execBeq t f s) := .mk h.branch

theorem Keeps.execBne {t f} (h : Keeps s0 s) :
    Next s0 (Machine.execBne t f s) := .mk h.branch

theorem Keeps.execBlt {t f} (h : Keeps s0 s) :
    Next s0 (Machine.execBlt t f s) := .mk h.branch

theorem Keeps.execBge {t f} (h : Keeps s0 s) :
    Next s0 (Machine.execBge t f s) := .mk h.branch

theorem Keeps.execBltu {t f} (h : Keeps s0 s) :
    Next s0 (Machine.execBltu t f s) := .mk h.branch

theorem Keeps.execBgeu {t f} (h : Keeps s0 s) :
    Next s0 (Machine.execBgeu t f s) := .mk h.branch

theorem Keeps.execBr {t f} (h : Keeps s0 s) :
    Next s0 (Machine.execBr t f s) := .mk h.issueReg

theorem Keeps.execJal {t f} (h : Keeps s0 s) :
    Next s0 (Machine.execJal t f s) := .mk h.issueReg

theorem Keeps.execJr {t f} (h : Keeps s0 s) :
    Next s0 (Machine.execJr t f s) := .mk (h.issue (fun _ _ _ h' => h'.jumpTo))

theorem Keeps.execJalr {t f} (h : Keeps s0 s) :
    Next s0 (Machine.execJalr t f s) := .mk (h.issue (fun _ _ _ h' => h'.jumpTo))

theorem Keeps.execPand {t f} (h : Keeps s0 s) :
    Next s0 (Machine.execPand t f s) := .mk h.maskOp

theorem Keeps.execPor {t f} (h : Keeps s0 s) :
    Next s0 (Machine.execPor t f s) := .mk h.maskOp

theorem Keeps.execPxor {t f} (h : Keeps s0 s) :
    Next s0 (Machine.execPxor t f s) := .mk h.maskOp

theorem Keeps.execPandn {t f} (h : Keeps s0 s) :
    Next s0 (Machine.execPandn t f s) := .mk h.maskOp

theorem Keeps.execPnot {t f} (h : Keeps s0 s) :
    Next s0 (Machine.execPnot t f s) := .mk h.issueReg

theorem Keeps.execPmov {t f} (h : Keeps s0 s) :
    Next s0 (Machine.execPmov t f s) := .mk h.issueReg

theorem Keeps.execPget {t f} (h : Keeps s0 s) :
    Next s0 (Machine.execPget t f s) := .mk h.issueReg

theorem Keeps.execPpopc {t f} (h : Keeps s0 s) :
    Next s0 (Machine.execPpopc t f s) := .mk h.issueReg

theorem Keeps.execPfirst {t f} (h : Keeps s0 s) :
    Next s0 (Machine.execPfirst t f s) := .mk h.issueReg

/-! Machine/LocalOps.lean -/

theorem Keeps.readWindow {th off n} (h : Keeps s0 s) :
    Keeps s0 (Machine.readWindow s th off n).2.2 := h.readMem

theorem Keeps.writeWindow {th off bs} (h : Keeps s0 s) :
    Keeps s0 (Machine.writeWindow s th off bs) := h.writeMem

/-! Machine/Global.lean -/

theorem Keeps.setMover {c m} (h : Keeps s0 s) :
    Keeps s0 (Machine.setMover s c m) := h.frame rfl rfl

theorem Keeps.acceptDesc {t o} (h : Keeps s0 s) :
    Keeps s0 (Machine.acceptDesc s t o) := h.frame rfl rfl

theorem Keeps.park {t o cause} (h : Keeps s0 s) :
    Keeps s0 (Machine.park s t o cause) :=
  .ite h.setThread.raiseFault.forgetWaiter h.setThread.raiseFault

theorem Keeps.goTo {t o pa} (h : Keeps s0 s) :
    Keeps s0 (Machine.goTo s t o pa) := by
  rw [Machine.goTo]
  refine .ite h.takeException ?_
  split
  · exact h.writeMem
  · exact h.writeMem
  · exact .ite h h.setThread
  · exact .ite h h.setThread
  · exact h.setThread

theorem Keeps.startOp {t o n} (h : Keeps s0 s) :
    Keeps s0 (Machine.startOp s t o n) := by
  induction n generalizing s o with
  | zero => exact h
  | succ n ih =>
    rw [Machine.startOp]
    refine .ite h.acceptDesc ?_
    extract_lets
    split
    · exact h.setThread
    · next hc => exact (h.cachedAccess hc).park
    · next hc =>
      have served := h.cachedAccess hc
      exact .ite (ih served) (.ite served.setThread served.goTo)

theorem Keeps.settleThread {t} (h : Keeps s0 s) :
    Keeps s0 (Machine.settleThread s t) := h.haltAtBoundary.settleGrid

theorem Keeps.pageWalk {t} (h : Keeps s0 s) :
    Keeps s0 (Machine.pageWalk s t) := by
  rw [Machine.pageWalk]
  split
  · exact h
  · dsimp only
    split
    · exact h.walkAccess.park.settleThread
    · refine .ite h.walkAccess ?_
      exact .settleThread (.ite h.walkAccess.setThread.startOp h.walkAccess.setThread.goTo)

/-! Machine/LoadStore.lean -/

theorem Keeps.localLoad {minor n sext t f} (h : Keeps s0 s) :
    Keeps s0 (Machine.localLoad minor n sext t f s) := by
  rw [Machine.localLoad]
  refine h.issue (fun _ _ _ h' => ?_)
  dsimp only
  split
  · exact h'.raise
  · exact .ite .wait (.ite h'.readWindow.raise (.state h'.readWindow.setThread))

theorem Keeps.localStore {minor n t f} (h : Keeps s0 s) :
    Keeps s0 (Machine.localStore minor n t f s) := by
  rw [Machine.localStore]
  refine h.issue (fun _ _ _ h' => ?_)
  dsimp only
  split
  · exact h'.raise
  · exact .ite .wait (.state h'.setThread.writeWindow)

theorem Keeps.globalLoad {minor k n sext t f} (h : Keeps s0 s) :
    Keeps s0 (Machine.globalLoad minor k n sext t f s) := by
  rw [Machine.globalLoad]
  refine h.issue (fun _ _ _ h' => ?_)
  dsimp only
  split
  · exact h'.raise
  · exact .state h'.setThread.startOp

theorem Keeps.globalStore {minor k n t f} (h : Keeps s0 s) :
    Keeps s0 (Machine.globalStore minor k n t f s) := by
  rw [Machine.globalStore]
  refine h.issue (fun _ _ _ h' => ?_)
  dsimp only
  split
  · exact h'.raise
  · exact .state h'.setThread.startOp

theorem Keeps.execLdB {t f} (h : Keeps s0 s) :
    Next s0 (Machine.execLdB t f s) := .mk h.localLoad

theorem Keeps.execLdH {t f} (h : Keeps s0 s) :
    Next s0 (Machine.execLdH t f s) := .mk h.localLoad

theorem Keeps.execLdW {t f} (h : Keeps s0 s) :
    Next s0 (Machine.execLdW t f s) := .mk h.localLoad

theorem Keeps.execLdD {t f} (h : Keeps s0 s) :
    Next s0 (Machine.execLdD t f s) := .mk h.localLoad

theorem Keeps.execLdBu {t f} (h : Keeps s0 s) :
    Next s0 (Machine.execLdBu t f s) := .mk h.localLoad

theorem Keeps.execLdHu {t f} (h : Keeps s0 s) :
    Next s0 (Machine.execLdHu t f s) := .mk h.localLoad

theorem Keeps.execLdWu {t f} (h : Keeps s0 s) :
    Next s0 (Machine.execLdWu t f s) := .mk h.localLoad

theorem Keeps.execLdV {t f} (h : Keeps s0 s) :
    Next s0 (Machine.execLdV t f s) := by
  rw [Machine.execLdV]
  refine .mk (h.issue (fun _ _ _ h' => ?_))
  dsimp only
  split
  · exact h'.raise
  · exact .ite .wait (.ite h'.readWindow.raise (.state h'.readWindow.setThread))

theorem Keeps.execStB {t f} (h : Keeps s0 s) :
    Next s0 (Machine.execStB t f s) := .mk h.localStore

theorem Keeps.execStH {t f} (h : Keeps s0 s) :
    Next s0 (Machine.execStH t f s) := .mk h.localStore

theorem Keeps.execStW {t f} (h : Keeps s0 s) :
    Next s0 (Machine.execStW t f s) := .mk h.localStore

theorem Keeps.execStD {t f} (h : Keeps s0 s) :
    Next s0 (Machine.execStD t f s) := .mk h.localStore

theorem Keeps.execStV {t f} (h : Keeps s0 s) :
    Next s0 (Machine.execStV t f s) := by
  rw [Machine.execStV]
  refine .mk (h.issue (fun _ _ _ h' => ?_))
  dsimp only
  split
  · exact h'.raise
  · exact .ite .wait (.state h'.setThread.writeWindow)

theorem Keeps.execLdgB {t f} (h : Keeps s0 s) :
    Next s0 (Machine.execLdgB t f s) := .mk h.globalLoad

theorem Keeps.execLdgH {t f} (h : Keeps s0 s) :
    Next s0 (Machine.execLdgH t f s) := .mk h.globalLoad

theorem Keeps.execLdgW {t f} (h : Keeps s0 s) :
    Next s0 (Machine.execLdgW t f s) := .mk h.globalLoad

theorem Keeps.execLdgD {t f} (h : Keeps s0 s) :
    Next s0 (Machine.execLdgD t f s) := .mk h.globalLoad

theorem Keeps.execLdgBu {t f} (h : Keeps s0 s) :
    Next s0 (Machine.execLdgBu t f s) := .mk h.globalLoad

theorem Keeps.execLdgHu {t f} (h : Keeps s0 s) :
    Next s0 (Machine.execLdgHu t f s) := .mk h.globalLoad

theorem Keeps.execLdgWu {t f} (h : Keeps s0 s) :
    Next s0 (Machine.execLdgWu t f s) := .mk h.globalLoad

theorem Keeps.execLdgV {t f} (h : Keeps s0 s) :
    Next s0 (Machine.execLdgV t f s) := .mk h.globalLoad

theorem Keeps.execStgB {t f} (h : Keeps s0 s) :
    Next s0 (Machine.execStgB t f s) := .mk h.globalStore

theorem Keeps.execStgH {t f} (h : Keeps s0 s) :
    Next s0 (Machine.execStgH t f s) := .mk h.globalStore

theorem Keeps.execStgW {t f} (h : Keeps s0 s) :
    Next s0 (Machine.execStgW t f s) := .mk h.globalStore

theorem Keeps.execStgD {t f} (h : Keeps s0 s) :
    Next s0 (Machine.execStgD t f s) := .mk h.globalStore

theorem Keeps.execStgV {t f} (h : Keeps s0 s) :
    Next s0 (Machine.execStgV t f s) := .mk h.globalStore

theorem Keeps.execGlobalLoadResponse {t id} (h : Keeps s0 s) :
    Next s0 (Machine.execGlobalLoadResponse t id s) := by
  rw [Machine.execGlobalLoadResponse]
  refine .mk ?_
  dsimp only
  split
  · exact h
  · exact .ite h (.ite h.readMem.setThread h.readMem.setThread.settleThread)

theorem Keeps.execMvpost {t f} (h : Keeps s0 s) :
    Next s0 (Machine.execMvpost t f s) := by
  rw [Machine.execMvpost]
  refine .mk (h.issue (fun _ _ _ h' => .ite .wait ?_))
  split
  · exact h'.raise
  · exact .ite .wait (.ite h'.readWindow.raise (.state h'.readWindow.setThread.startOp))

theorem Keeps.execMvslots {t f} (h : Keeps s0 s) :
    Next s0 (Machine.execMvslots t f s) := .mk (h.issue (fun _ _ _ _ => .done))

theorem Keeps.execPageWalk {t} (h : Keeps s0 s) :
    Next s0 (Machine.execPageWalk t s) := .mk h.pageWalk

theorem Keeps.execDeferredException {t} (h : Keeps s0 s) :
    Next s0 (Machine.execDeferredException t s) := by
  rw [Machine.execDeferredException]
  refine .mk ?_
  dsimp only
  split
  · exact h
  · split
    · exact h
    · exact h.setThread.takeException

/-! Machine/SyncInsn.lean -/

theorem Keeps.syncIssue {i k t f arg limit} (h : Keeps s0 s) :
    Keeps s0 (Machine.syncIssue i k t f arg limit s) := by
  rw [Machine.syncIssue]
  refine h.issue (fun _ _ _ h' => ?_)
  dsimp only
  split
  · exact h'.raise
  · exact .state h'.setThread.startOp

theorem Keeps.execSig {t f} (h : Keeps s0 s) :
    Next s0 (Machine.execSig t f s) := .mk h.syncIssue

theorem Keeps.execWaitGe {t f} (h : Keeps s0 s) :
    Next s0 (Machine.execWaitGe t f s) := .mk h.syncIssue

theorem Keeps.execTake {t f} (h : Keeps s0 s) :
    Next s0 (Machine.execTake t f s) := .mk h.syncIssue

theorem Keeps.execSread {t f} (h : Keeps s0 s) :
    Next s0 (Machine.execSread t f s) := .mk h.syncIssue

theorem Keeps.execSignalAtHome {t id} (h : Keeps s0 s) :
    Next s0 (Machine.execSignalAtHome t id s) := by
  rw [Machine.execSignalAtHome]
  refine .mk ?_
  dsimp only
  split
  · exact h
  · refine .ite h ?_
    split
    · exact h.signalObj.setThread.settleThread
    · exact h.signalObj.setThread
    · exact h.signalObj.setThread.recordError.settleThread

theorem Keeps.execSreadResponse {t id} (h : Keeps s0 s) :
    Next s0 (Machine.execSreadResponse t id s) := by
  rw [Machine.execSreadResponse]
  refine .mk ?_
  dsimp only
  split
  · exact h
  · refine .ite h ?_
    split
    · exact h.readObj.setThread.settleThread
    · exact h.readObj.setThread

theorem Keeps.leaveSpin {t st} (h : Keeps s0 s) :
    Keeps s0 (Machine.leaveSpin s t st) := by
  rw [Machine.leaveSpin]
  split
  · exact h
  · exact h.setThread

theorem Keeps.retryTarget {t sp} (h : Keeps s0 s) :
    Keeps s0 (Machine.retryTarget s t sp).2 := by
  rw [Machine.retryTarget]
  refine .ite_snd h ?_
  dsimp only
  split
  · exact h.access.setThread.raiseFault
  · exact .ite_snd (.pair h.access.setThread) (.pair h.access.takeException)

theorem Keeps.retryResponse {t take} (h : Keeps s0 s) :
    Keeps s0 (Machine.retryResponse s t take) := by
  rw [Machine.retryResponse]
  split
  · exact h
  · refine .ite h ?_
    dsimp only
    split
    · exact h.retryTarget
    · split
      · exact h.retryTarget.retryObj.leaveSpin
      · exact h.retryTarget.retryObj.leaveSpin
      · exact h.retryTarget.retryObj
      · exact h.retryTarget.retryObj.takeException

theorem Keeps.execWaitRetryResponse {t} (h : Keeps s0 s) :
    Next s0 (Machine.execWaitRetryResponse t s) := .mk h.retryResponse

theorem Keeps.execTakeRetryResponse {t} (h : Keeps s0 s) :
    Next s0 (Machine.execTakeRetryResponse t s) := .mk h.retryResponse

theorem Keeps.execSpinLimitExpiry {t} (h : Keeps s0 s) :
    Next s0 (Machine.execSpinLimitExpiry t s) := by
  rw [Machine.execSpinLimitExpiry]
  refine .mk ?_
  split
  · exact h
  · exact .ite h.leaveSpin h

theorem Keeps.fence {i sc rd t} (h : Keeps s0 s) :
    Keeps s0 (Machine.fence i sc rd t s) := h.issue (fun _ _ _ _ => .done)

theorem Keeps.execFenceC {t f} (h : Keeps s0 s) :
    Next s0 (Machine.execFenceC t f s) := .mk h.fence

theorem Keeps.execFenceD {t f} (h : Keeps s0 s) :
    Next s0 (Machine.execFenceD t f s) := .mk h.fence

theorem Keeps.execFenceP {t f} (h : Keeps s0 s) :
    Next s0 (Machine.execFenceP t f s) := .mk h.fence

theorem Keeps.execFenceN {t f} (h : Keeps s0 s) :
    Next s0 (Machine.execFenceN t f s) := .mk h.fence

theorem Keeps.execFenceRetire {t} (h : Keeps s0 s) :
    Next s0 (Machine.execFenceRetire t s) := by
  rw [Machine.execFenceRetire]
  refine .mk ?_
  dsimp only
  split
  · exact h
  · exact .ite h h.setThread

/-! Machine/SystemInsn.lean -/

theorem Keeps.execNopInsn {t f} (h : Keeps s0 s) :
    Next s0 (Machine.execNopInsn t f s) := .mk h.issueReg

theorem Keeps.endThread {t} (h : Keeps s0 s) :
    Keeps s0 (Machine.endThread s t) := by
  rw [Machine.endThread]
  exact .settleGrid (.ite (.releaseGroup (.setThread (.frame h rfl rfl)))
      (.setThread (.frame h rfl rfl)))

theorem Keeps.finishThread {t} (h : Keeps s0 s) :
    Keeps s0 (Machine.finishThread s t) := by
  rw [Machine.finishThread]
  refine .ite h ?_
  split
  · exact h.takeException
  · exact h.endThread

theorem Keeps.execEnd {t f} (h : Keeps s0 s) :
    Next s0 (Machine.execEnd t f s) :=
  .mk (h.issue (fun _ _ _ h' => .state h'.setThread.finishThread))

theorem Keeps.execThreadEnd {t} (h : Keeps s0 s) :
    Next s0 (Machine.execThreadEnd t s) := .mk h.finishThread

theorem Keeps.execTrap {t f} (h : Keeps s0 s) :
    Next s0 (Machine.execTrap t f s) := .mk (h.issue (fun _ _ _ h' => h'.raise))

theorem Keeps.execBrk {t f} (h : Keeps s0 s) :
    Next s0 (Machine.execBrk t f s) := by
  rw [Machine.execBrk]
  exact .mk (h.issue
      (fun _ _ _ h' => .ite (.ite .wait (.state h'.setThread.dbgHaltEvent)) h'.raise))

theorem Keeps.execMfs {t f} (h : Keeps s0 s) :
    Next s0 (Machine.execMfs t f s) := .mk (h.issue (fun _ _ _ _ => .done))

/-! Machine/Vector.lean -/

theorem Keeps.vecLanes {major minor u fmts g t f} (h : Keeps s0 s) :
    Keeps s0 (Machine.vecLanes major minor u fmts g t f s) := h.issue (fun _ _ _ _ => .done)

theorem Keeps.vecInt {minor op t f} (h : Keeps s0 s) :
    Keeps s0 (Machine.vecInt minor op t f s) := h.vecLanes

theorem Keeps.vecLogic {minor op t f} (h : Keeps s0 s) :
    Keeps s0 (Machine.vecLogic minor op t f s) := h.vecLanes

theorem Keeps.vecAddSub {minor sub t f} (h : Keeps s0 s) :
    Keeps s0 (Machine.vecAddSub minor sub t f s) := h.vecLanes

theorem Keeps.vecFp2 {minor op t f} (h : Keeps s0 s) :
    Keeps s0 (Machine.vecFp2 minor op t f s) := h.vecLanes

theorem Keeps.vecFp1 {minor op t f} (h : Keeps s0 s) :
    Keeps s0 (Machine.vecFp1 minor op t f s) := h.vecLanes

theorem Keeps.vecFma {minor neg t f} (h : Keeps s0 s) :
    Keeps s0 (Machine.vecFma minor neg t f s) := h.vecLanes

theorem Keeps.vecCmp {minor op t f} (h : Keeps s0 s) :
    Keeps s0 (Machine.vecCmp minor op t f s) := h.issue (fun _ _ _ _ => .done)

theorem Keeps.vecReduce {minor comb t f} (h : Keeps s0 s) :
    Keeps s0 (Machine.vecReduce minor comb t f s) := h.issue (fun _ _ _ _ => .done)

theorem Keeps.execVaddInt {t f} (h : Keeps s0 s) :
    Next s0 (Machine.execVaddInt t f s) := .mk h.vecAddSub

theorem Keeps.execVsubInt {t f} (h : Keeps s0 s) :
    Next s0 (Machine.execVsubInt t f s) := .mk h.vecAddSub

theorem Keeps.execVmulInt {t f} (h : Keeps s0 s) :
    Next s0 (Machine.execVmulInt t f s) := .mk h.vecInt

theorem Keeps.execVadds {t f} (h : Keeps s0 s) :
    Next s0 (Machine.execVadds t f s) := .mk h.vecInt

theorem Keeps.execVsubs {t f} (h : Keeps s0 s) :
    Next s0 (Machine.execVsubs t f s) := .mk h.vecInt

theorem Keeps.execVminInt {t f} (h : Keeps s0 s) :
    Next s0 (Machine.execVminInt t f s) := .mk h.vecInt

theorem Keeps.execVmaxInt {t f} (h : Keeps s0 s) :
    Next s0 (Machine.execVmaxInt t f s) := .mk h.vecInt

theorem Keeps.execVand {t f} (h : Keeps s0 s) :
    Next s0 (Machine.execVand t f s) := .mk h.vecLogic

theorem Keeps.execVor {t f} (h : Keeps s0 s) :
    Next s0 (Machine.execVor t f s) := .mk h.vecLogic

theorem Keeps.execVxor {t f} (h : Keeps s0 s) :
    Next s0 (Machine.execVxor t f s) := .mk h.vecLogic

theorem Keeps.execVshl {t f} (h : Keeps s0 s) :
    Next s0 (Machine.execVshl t f s) := .mk h.vecLogic

theorem Keeps.execVshr {t f} (h : Keeps s0 s) :
    Next s0 (Machine.execVshr t f s) := .mk h.vecLogic

theorem Keeps.execVsar {t f} (h : Keeps s0 s) :
    Next s0 (Machine.execVsar t f s) := .mk h.vecInt

theorem Keeps.execVmov {t f} (h : Keeps s0 s) :
    Next s0 (Machine.execVmov t f s) := .mk h.vecLanes

theorem Keeps.execVsel {t f} (h : Keeps s0 s) :
    Next s0 (Machine.execVsel t f s) := .mk h.vecLanes

theorem Keeps.execVaddFp {t f} (h : Keeps s0 s) :
    Next s0 (Machine.execVaddFp t f s) := .mk h.vecFp2

theorem Keeps.execVsubFp {t f} (h : Keeps s0 s) :
    Next s0 (Machine.execVsubFp t f s) := .mk h.vecFp2

theorem Keeps.execVmulFp {t f} (h : Keeps s0 s) :
    Next s0 (Machine.execVmulFp t f s) := .mk h.vecFp2

theorem Keeps.execVfma {t f} (h : Keeps s0 s) :
    Next s0 (Machine.execVfma t f s) := .mk h.vecFma

theorem Keeps.execVfms {t f} (h : Keeps s0 s) :
    Next s0 (Machine.execVfms t f s) := .mk h.vecFma

theorem Keeps.execVminFp {t f} (h : Keeps s0 s) :
    Next s0 (Machine.execVminFp t f s) := .mk h.vecFp2

theorem Keeps.execVmaxFp {t f} (h : Keeps s0 s) :
    Next s0 (Machine.execVmaxFp t f s) := .mk h.vecFp2

theorem Keeps.execVabs {t f} (h : Keeps s0 s) :
    Next s0 (Machine.execVabs t f s) := .mk h.vecFp1

theorem Keeps.execVneg {t f} (h : Keeps s0 s) :
    Next s0 (Machine.execVneg t f s) := .mk h.vecFp1

theorem Keeps.execVdiv {t f} (h : Keeps s0 s) :
    Next s0 (Machine.execVdiv t f s) := .mk h.vecFp2

theorem Keeps.execVsqrt {t f} (h : Keeps s0 s) :
    Next s0 (Machine.execVsqrt t f s) := .mk h.vecFp1

theorem Keeps.execVrsqrt {t f} (h : Keeps s0 s) :
    Next s0 (Machine.execVrsqrt t f s) := .mk h.vecFp1

theorem Keeps.execVexp2 {t f} (h : Keeps s0 s) :
    Next s0 (Machine.execVexp2 t f s) := .mk h.vecFp1

theorem Keeps.vecConvert {minor u fa fb g t f} (h : Keeps s0 s) :
    Keeps s0 (Machine.vecConvert minor u fa fb g t f s) := by
  rw [Machine.vecConvert]
  exact h.issue (fun _ _ _ _ => .done)

theorem Keeps.execVcvt {t f} (h : Keeps s0 s) :
    Next s0 (Machine.execVcvt t f s) := .mk h.vecConvert

theorem Keeps.execVqmx {t f} (h : Keeps s0 s) :
    Next s0 (Machine.execVqmx t f s) := .mk (h.issue (fun _ _ _ _ => .done))

theorem Keeps.execVdqmx {t f} (h : Keeps s0 s) :
    Next s0 (Machine.execVdqmx t f s) := .mk (h.issue (fun _ _ _ _ => .done))

theorem Keeps.execVfoir {t f} (h : Keeps s0 s) :
    Next s0 (Machine.execVfoir t f s) := .mk h.vecConvert

theorem Keeps.execVufoir {t f} (h : Keeps s0 s) :
    Next s0 (Machine.execVufoir t f s) := .mk h.vecConvert

theorem Keeps.execVemax {t f} (h : Keeps s0 s) :
    Next s0 (Machine.execVemax t f s) := .mk (h.issue (fun _ _ _ _ => .done))

theorem Keeps.execVbcast {t f} (h : Keeps s0 s) :
    Next s0 (Machine.execVbcast t f s) := .mk h.vecLanes

theorem Keeps.execVext {t f} (h : Keeps s0 s) :
    Next s0 (Machine.execVext t f s) := .mk (h.issue (fun _ _ _ _ => .done))

theorem Keeps.execVins {t f} (h : Keeps s0 s) :
    Next s0 (Machine.execVins t f s) := .mk (h.issue (fun _ _ _ _ => .done))

theorem Keeps.execVperm {t f} (h : Keeps s0 s) :
    Next s0 (Machine.execVperm t f s) := .mk h.vecLanes

theorem Keeps.execVrot {t f} (h : Keeps s0 s) :
    Next s0 (Machine.execVrot t f s) := .mk h.vecLanes

theorem Keeps.execVredsum {t f} (h : Keeps s0 s) :
    Next s0 (Machine.execVredsum t f s) := .mk h.vecReduce

theorem Keeps.execVredmax {t f} (h : Keeps s0 s) :
    Next s0 (Machine.execVredmax t f s) := .mk h.vecReduce

theorem Keeps.execVredmin {t f} (h : Keeps s0 s) :
    Next s0 (Machine.execVredmin t f s) := .mk h.vecReduce

theorem Keeps.execVcmpEq {t f} (h : Keeps s0 s) :
    Next s0 (Machine.execVcmpEq t f s) := .mk h.vecCmp

theorem Keeps.execVcmpNe {t f} (h : Keeps s0 s) :
    Next s0 (Machine.execVcmpNe t f s) := .mk h.vecCmp

theorem Keeps.execVcmpLt {t f} (h : Keeps s0 s) :
    Next s0 (Machine.execVcmpLt t f s) := .mk h.vecCmp

theorem Keeps.execVcmpLe {t f} (h : Keeps s0 s) :
    Next s0 (Machine.execVcmpLe t f s) := .mk h.vecCmp

theorem Keeps.execVcmpGt {t f} (h : Keeps s0 s) :
    Next s0 (Machine.execVcmpGt t f s) := .mk h.vecCmp

theorem Keeps.execVcmpGe {t f} (h : Keeps s0 s) :
    Next s0 (Machine.execVcmpGe t f s) := .mk h.vecCmp

theorem Keeps.execVcmpr {t f} (h : Keeps s0 s) :
    Next s0 (Machine.execVcmpr t f s) := .mk h.vecLanes

theorem Keeps.execVexpd {t f} (h : Keeps s0 s) :
    Next s0 (Machine.execVexpd t f s) := .mk h.vecLanes

theorem Keeps.execVbspk {t f} (h : Keeps s0 s) :
    Next s0 (Machine.execVbspk t f s) := by
  rw [Machine.execVbspk]
  refine .mk (h.issue (fun _ _ _ h' => ?_))
  dsimp only
  split
  · exact h'.raise
  · exact .ite .wait (.state h'.setThread.writeWindow)

theorem Keeps.execVbsup {t f} (h : Keeps s0 s) :
    Next s0 (Machine.execVbsup t f s) := by
  rw [Machine.execVbsup]
  refine .mk (h.issue (fun _ _ _ h' => ?_))
  dsimp only
  split
  · exact h'.raise
  · refine .ite .wait ?_
    refine .ite h'.readWindow.raise ?_
    refine .ite h'.readWindow.raise ?_
    split
    · exact h'.readWindow.raise
    · refine .ite h'.readWindow.readWindow.raise ?_
      exact .state h'.readWindow.readWindow.setThread

/-! Machine/Tensor.lean -/

theorem Keeps.setOwner {th ta o} (h : Keeps s0 s) :
    Keeps s0 (Machine.setOwner s th ta o) := h.frame rfl rfl

theorem Keeps.accFill {base g n} (h : Keeps s0 s) :
    Keeps s0 (Machine.accFill s base g n) := by
  induction n generalizing s with
  | zero => exact h
  | succ n ih => exact .frame (ih h) rfl rfl

theorem Keeps.accWrite {e a g} (h : Keeps s0 s) :
    Keeps s0 (Machine.accWrite s e a g) := h.accFill

theorem Keeps.checkRanges {th l} (h : Keeps s0 s) :
    Keeps s0 (Machine.checkRanges s th l).2 := by
  induction l generalizing s with
  | nil => exact h
  | cons c cs ih =>
    obtain ⟨_, _⟩ := c
    exact ih h.checkWords

theorem Keeps.multiply {minor t f} (h : Keeps s0 s) :
    Keeps s0 (Machine.multiply minor t f s) := by
  rw [Machine.multiply]
  refine h.issue (fun _ _ _ h' => .ite .wait ?_)
  split
  · exact h'.raise
  · refine .ite h'.raise ?_
    refine .ite .wait ?_
    refine .ite h'.checkRanges.raise ?_
    exact .ite h'.checkRanges.raise (.state (.setThread (.frame h'.checkRanges rfl rfl)))

theorem Keeps.execTmma {t f} (h : Keeps s0 s) :
    Next s0 (Machine.execTmma t f s) := .mk h.multiply

theorem Keeps.execTmmaS24 {t f} (h : Keeps s0 s) :
    Next s0 (Machine.execTmmaS24 t f s) := .mk h.multiply

theorem Keeps.execTmmaS48 {t f} (h : Keeps s0 s) :
    Next s0 (Machine.execTmmaS48 t f s) := .mk h.multiply

theorem Keeps.execTmmak {t f} (h : Keeps s0 s) :
    Next s0 (Machine.execTmmak t f s) := .mk h.multiply

theorem Keeps.execTensorComplete {t id} (h : Keeps s0 s) :
    Next s0 (Machine.execTensorComplete t id s) := by
  rw [Machine.execTensorComplete]
  refine .mk ?_
  dsimp only
  split
  · exact h
  · refine .ite h ?_
    refine .settleThread (.setThread (.frame (.chargeThread (.takeFree ?_)) rfl rfl))
    split
    · exact h.accWrite
    · exact h

theorem Keeps.execTalloc {t f} (h : Keeps s0 s) :
    Next s0 (Machine.execTalloc t f s) := by
  rw [Machine.execTalloc]
  refine .mk (h.issue (fun _ _ _ h' => .ite h'.raise ?_))
  split
  · exact .done
  · exact .state h'.setOwner.setThread

theorem Keeps.execTfree {t f} (h : Keeps s0 s) :
    Next s0 (Machine.execTfree t f s) :=
  .mk (h.issue (fun _ _ _ h' => .ite h'.raise (.state h'.setOwner.setThread)))

theorem Keeps.execTzero {t f} (h : Keeps s0 s) :
    Next s0 (Machine.execTzero t f s) := by
  rw [Machine.execTzero]
  refine .mk (h.issue (fun _ _ _ h' => ?_))
  split
  · exact h'.raise
  · exact .ite h'.raise (.state h'.accWrite.setThread)

theorem Keeps.tileMove {minor k fmts t f} (h : Keeps s0 s) :
    Keeps s0 (Machine.tileMove minor k fmts t f s) := by
  rw [Machine.tileMove]
  refine h.issue (fun _ _ _ h' => .ite .wait ?_)
  split
  · exact h'.raise
  · refine .ite h'.raise ?_
    refine .ite (.ite .wait (.state h'.setThread)) ?_
    exact .ite h'.checkRanges.raise (.state h'.checkRanges.setThread)

theorem Keeps.execTld {t f} (h : Keeps s0 s) :
    Next s0 (Machine.execTld t f s) := .mk h.tileMove

theorem Keeps.execTst {t f} (h : Keeps s0 s) :
    Next s0 (Machine.execTst t f s) := .mk h.tileMove

theorem Keeps.execTileMoveComplete {t id} (h : Keeps s0 s) :
    Next s0 (Machine.execTileMoveComplete t id s) := by
  rw [Machine.execTileMoveComplete]
  refine .mk ?_
  dsimp only
  split
  · exact h
  · split
    · exact h.accWrite.chargeThread.setThread.settleThread
    · exact h.writeWindow.chargeThread.setThread.settleThread
    · exact h

end Sys2Proof.Machine
end

section
/-! SUPPORT. Preemption, the movers and the rings keep memory canonical and the version floor. -/

namespace Sys2Proof.Machine

variable {s0 s : State}

/-! Machine/PreemptOps.lean -/

theorem Keeps.resState {a r} (_ : Keeps s0 a) (hr : Next s0 r) :
    Keeps s0 (Machine.resState a r) := by
  cases hr with
  | mk h => exact h

theorem Keeps.drainOp {t o} (h : Keeps s0 s) :
    Keeps s0 (Machine.drainOp t s o) := by
  rw [Machine.drainOp]
  split
  · exact h.pageWalk
  · exact .resState h h.execGlobalLoadResponse
  · exact .resState h h.execGlobalLoadResponse
  · exact .resState h h.execSignalAtHome
  · exact .resState h h.execSreadResponse
  · exact .resState h h.execTensorComplete
  · exact .resState h h.execTileMoveComplete
  · exact .resState h h.execTileMoveComplete
  · exact h

theorem Keeps.drainThread {t} (h : Keeps s0 s) :
    Keeps s0 (Machine.drainThread s t) := by
  unfold Machine.drainThread
  extract_lets sFirst sDrained sDeferred sFenced
  have first : Keeps s0 sFirst := .foldl h fun _ _ h' => h'.drainOp
  have drained : Keeps s0 sDrained := .foldl first fun _ _ h' => h'.drainOp
  have deferred : Keeps s0 sDeferred := .resState drained drained.execDeferredException
  have fenced : Keeps s0 sFenced := .resState deferred deferred.execFenceRetire
  exact .resState fenced fenced.execThreadEnd

theorem Keeps.clearAcc {e a} (h : Keeps s0 s) :
    Keeps s0 (Machine.clearAcc s e a) := h.frame rfl rfl

theorem Keeps.loadAcc {e a w} (h : Keeps s0 s) :
    Keeps s0 (Machine.loadAcc s e a w) := h.frame rfl rfl

theorem Keeps.renameThread {a b} (h : Keeps s0 s) :
    Keeps s0 (Machine.renameThread s a b) := h.frame rfl rfl

theorem Keeps.unloadGroup {key} (h : Keeps s0 s) :
    Keeps s0 (Machine.unloadGroup s key) :=
  .frame (.foldl h fun _ _ h' => h'.setThread) rfl rfl

theorem Keeps.poisonWords {pa cs} (h : Keeps s0 s) :
    Keeps s0 (Machine.poisonWords s pa cs) := .foldl h fun _ _ h' => .ite h'.setCheck h'

theorem Keeps.saveGroup {key} (h : Keeps s0 s) :
    Keeps s0 (Machine.saveGroup s key) := by
  have drained {l : List Nat} : Keeps s0 (l.foldl Machine.drainThread s) :=
    .foldl h fun _ _ h' => h'.drainThread
  rw [Machine.saveGroup]
  refine .ite drained (.modGrid (.unloadGroup (.foldl (.ite drained.readMem.writeMem.poisonWords
    drained.readMem) fun _ _ h' => ?_)))
  split
  · exact h'.renameThread
  · exact h'

theorem Keeps.loadImage {gn c} (h : Keeps s0 s) :
    Keeps s0 (Machine.loadImage s gn c).2 := by
  rw [Machine.loadImage]
  split
  · exact .pair (.modGrid (.frame h rfl rfl))
  · split
    · exact .pair (.modGrid (.frame h rfl rfl))
    · dsimp only
      split
      · exact .pair h.readVa
      · exact .pair (.modGrid (.frame h.readVa rfl rfl))

theorem Keeps.abortGrid {gn st} (h : Keeps s0 s) :
    Keeps s0 (Machine.abortGrid s gn st) := h.stopGridThreads.modGrid.settleGrid

theorem Keeps.zeroMem {pa n} (h : Keeps s0 s) :
    Keeps s0 (Machine.zeroMem s pa n) :=
  ⟨fun hw => tableWf_filter 0 s.mem _ (h.canonical hw), h.floorLe, h.floorLt⟩

theorem Keeps.startGroup {gn e p} (h : Keeps s0 s) :
    Keeps s0 (Machine.startGroup s gn e p) := by
  rw [Machine.startGroup]
  exact .modGrid (.foldl (.foldl (.zeroMem (.frame h rfl rfl)) fun _ _ h' => h'.clearAcc)
      fun _ _ h' => h'.setThread)

theorem Keeps.replaceGroup {gn e p x} (h : Keeps s0 s) :
    Keeps s0 (Machine.replaceGroup s gn e p x) := by
  unfold Machine.replaceGroup
  extract_lets -lift key old g pa sZero sWindow sChecks sAccs sThreads
  have window : Keeps s0 sWindow := .poke (.zeroMem (.frame h rfl rfl))
  have checks : Keeps s0 sChecks := .foldl window fun _ _ h' => h'.setCheck
  have accs : Keeps s0 sAccs := .foldl checks fun _ _ h' => h'.loadAcc
  refine .modGrid (.foldl accs fun _ _ h' => ?_)
  have placed {a th b c} : Keeps s0 (Machine.renameThread (Machine.setThread _ a th) b c) :=
    h'.setThread.renameThread
  exact .ite placed.modThread.takeException placed

theorem Keeps.holdRings {p v} (h : Keeps s0 s) :
    Keeps s0 (Machine.holdRings s p v) := .foldl h fun _ _ h' => h'.modRing

theorem Keeps.preemptNow {p} (h : Keeps s0 s) :
    Keeps s0 (Machine.preemptNow s p) := by
  rw [Machine.preemptNow]
  exact .modPart (.holdRings (.foldl (.foldl h fun _ _ h' => h'.saveGroup)
      fun _ _ h' => h'.modGrid.modSched))

theorem Keeps.preemptPartition {p} (h : Keeps s0 s) :
    Keeps s0 (Machine.preemptPartition s p) := by
  rw [Machine.preemptPartition]
  refine .ite (.modPart (.holdRings (.foldl h fun _ _ h' => h'.drainThread))) ?_
  exact .preemptNow (.foldl h fun _ _ h' => h'.drainThread)

theorem Keeps.settlePreempts (h : Keeps s0 s) :
    Keeps s0 (Machine.settlePreempts s) := .foldl h fun _ _ h' => h'.preemptPartition

theorem Keeps.unholdPartition {p} (h : Keeps s0 s) :
    Keeps s0 (Machine.unholdPartition s p) := .ite h.holdRings.modPart h

/-! Machine/MoverOps.lean -/

theorem Keeps.setSavedCheck {d i c} (h : Keeps s0 s) :
    Keeps s0 (Machine.setSavedCheck s d i c) := h.frame rfl rfl

theorem Keeps.savedError {d code x i} (h : Keeps s0 s) :
    Keeps s0 (Machine.savedError s d code x i) := h.recordError

theorem Keeps.checkSaved {d x i} (h : Keeps s0 s) :
    Keeps s0 (Machine.checkSaved s d x i).2 := by
  rw [Machine.checkSaved]
  split
  · exact .pair h
  · exact .pair h
  · exact .pair h.setSavedCheck.bump.savedError
  · exact .pair h.setSavedCheck.bump.savedError

theorem Keeps.checkSavedWords {d x i n} (h : Keeps s0 s) :
    Keeps s0 (Machine.checkSavedWords s d x i n).2 := by
  induction n generalizing s i with
  | zero => exact h
  | succ n ih => exact ih h.checkSaved

theorem Keeps.windowRead {d off n} (h : Keeps s0 s) :
    Keeps s0 (Machine.windowRead s d off n).2.2 := by
  rw [Machine.windowRead]
  split
  · exact h.checkSavedWords
  · exact h.readMem

theorem Keeps.pokeSaved {d off bs} (h : Keeps s0 s) :
    Keeps s0 (Machine.pokeSaved s d off bs) := h.frame rfl rfl

theorem Keeps.writeSaved {d x off bs} (h : Keeps s0 s) :
    Keeps s0 (Machine.writeSaved s d x off bs) :=
  .ite h.setSavedCheck.pokeSaved (.ite h.checkSaved.savedError h.checkSaved.pokeSaved)

theorem Keeps.writeSavedWords {d x off bs n} (h : Keeps s0 s) :
    Keeps s0 (Machine.writeSavedWords s d x off bs n) := by
  induction n generalizing s off bs with
  | zero => exact h
  | succ n ih => exact ih h.writeSaved

theorem Keeps.windowWrite {d off bs} (h : Keeps s0 s) :
    Keeps s0 (Machine.windowWrite s d off bs) := by
  rw [Machine.windowWrite]
  split
  · exact h.writeSavedWords
  · exact h.writeMem

theorem Keeps.windowPoison {d off n} (h : Keeps s0 s) :
    Keeps s0 (Machine.windowPoison s d off n) := by
  rw [Machine.windowPoison]
  split
  · exact .foldl h fun _ _ h' => .setSavedCheck (.ite h' h'.bump)
  · exact h.poisonMem

theorem Keeps.poisonChunks {l} (h : Keeps s0 s) :
    Keeps s0 (Machine.poisonChunks s l) := by
  induction l generalizing s with
  | nil => exact h
  | cons c cs ih =>
    obtain ⟨_, _⟩ := c
    exact .ite (ih h.takeFree.poke) (ih h.poisonMem)

theorem Keeps.lineRead {d loc a n} (h : Keeps s0 s) :
    Keeps s0 (Machine.lineRead s d loc a n).2 := by
  rw [Machine.lineRead]
  refine .ite_snd h.windowRead ?_
  dsimp only
  split
  · exact h.readVa
  · exact h.readVa
  · exact h.readVa
  · exact h.readVa

theorem Keeps.lineWrite {d loc a n bs} (h : Keeps s0 s) :
    Keeps s0 (Machine.lineWrite s d loc a n bs).2 := by
  unfold Machine.lineWrite
  refine .ite_snd ?_ ?_
  · split
    · exact h.windowWrite
    · exact h.windowPoison
  · dsimp only
    split
    · exact h.chunks
    · exact h.chunks
    · split
      · exact h.chunks.writeChunks
      · exact h.chunks.poisonChunks

theorem Keeps.putDesc {c d} (h : Keeps s0 s) :
    Keeps s0 (Machine.putDesc s c d) := h.frame rfl rfl

theorem Keeps.descFault {c d cause va write} (h : Keeps s0 s) :
    Keeps s0 (Machine.descFault s c d cause va write) := h.putDesc.raiseFault

theorem Keeps.chargeLine {d} (h : Keeps s0 s) :
    Keeps s0 (Machine.chargeLine s d) := .ite h h.addCharge

theorem Keeps.descError {c d addr} (h : Keeps s0 s) :
    Keeps s0 (Machine.descError s c d addr).2 := .ite_snd h h.beginHandling

theorem Keeps.stopDesc {c d st} (h : Keeps s0 s) :
    Keeps s0 (Machine.stopDesc s c d st) := h.descError.putDesc

theorem Keeps.moveLines {c d n} (h : Keeps s0 s) :
    Keeps s0 (Machine.moveLines s c d n) := by
  induction n generalizing s d with
  | zero => exact h.putDesc
  | succ n ih =>
    rw [Machine.moveLines]
    refine .ite h.putDesc ?_
    dsimp only
    split
    · exact .descFault (.ite_snd h h.lineRead)
    · exact .stopDesc (.ite_snd h h.lineRead)
    · split
      · exact .descFault (.lineWrite (.ite_snd h h.lineRead))
      · exact .stopDesc (.lineWrite (.ite_snd h h.lineRead))
      · exact ih (.chargeLine (.ite_snd (.descError (.lineWrite (.ite_snd h h.lineRead)))
            (.lineWrite (.ite_snd h h.lineRead))))

theorem Keeps.recordDesc {c d st x} (h : Keeps s0 s) :
    Keeps s0 (Machine.recordDesc s c d st x) := h.recordContained

theorem Keeps.descStatus {c d st} (h : Keeps s0 s) :
    Keeps s0 (Machine.descStatus s c d st).2.2 := by
  rw [Machine.descStatus]
  refine .ite_snd_snd h ?_
  dsimp only
  split
  · exact .ite_snd h h.lineWrite
  · refine .ite_snd_snd ?_ (.ite_snd h h.lineWrite)
    refine .recordDesc ?_
    split
    · exact .ite_snd h h.lineWrite
    · exact .beginHandling (.ite_snd h h.lineWrite)

theorem Keeps.descSignal {c d} (h : Keeps s0 s) :
    Keeps s0 (Machine.descSignal s c d).2 := by
  rw [Machine.descSignal]
  refine .ite_snd h ?_
  split
  · exact h.access
  · exact h.signalVa

theorem Keeps.completeDesc {c d st} (h : Keeps s0 s) :
    Keeps s0 (Machine.completeDesc s c d st) := by
  rw [Machine.completeDesc]
  split
  · exact h.descStatus.descFault
  · dsimp only
    split
    · exact h.descStatus.descSignal.descFault
    · refine .setMover ?_
      split
      · exact h.descStatus.descSignal.endHandling
      · exact h.descStatus.descSignal

/-! Machine/RingSteps.lean -/

theorem Keeps.execRingPoll {r} (h : Keeps s0 s) :
    Next s0 (Machine.execRingPoll r s) := .mk (.ite h.modRing h)

theorem Keeps.readSlot {r i} (h : Keeps s0 s) :
    Keeps s0 (Machine.readSlot s r i).2 := h.readVa

theorem Keeps.prefetchSlots {r i n} (h : Keeps s0 s) :
    Keeps s0 (Machine.prefetchSlots s r i n) := by
  induction n generalizing s i with
  | zero => exact h
  | succ n ih =>
    rw [Machine.prefetchSlots]
    refine .ite h ?_
    refine .ite (ih h) ?_
    dsimp only
    split
    · exact h.readSlot.ringError
    · exact ih (.ite h.readSlot.modRing h.readSlot)

theorem Keeps.takeExts {r i n} (h : Keeps s0 s) :
    Keeps s0 (Machine.takeExts s r i n).2 := by
  induction n generalizing s i with
  | zero => exact h
  | succ n ih =>
    rw [Machine.takeExts]
    rcases hd : Machine.readSlot s r i with ⟨_ | _, s1⟩
    · exact (h.readSlot.snd_eq hd).ringError
    · have read := h.readSlot.snd_eq hd
      rcases hw : Machine.writeVa _ _ _ _ _ _ _ with ⟨_ | _, s2⟩
      · exact (read.writeVa.snd_eq hw).ringError
      · exact ih (read.writeVa.snd_eq hw).modRing

theorem Keeps.takeIn {r n} (h : Keeps s0 s) :
    Keeps s0 (Machine.takeIn s r n) := by
  induction n generalizing s with
  | zero => exact h
  | succ n ih =>
    rw [Machine.takeIn]
    split
    · exact h
    · refine .ite h ?_
      dsimp only
      split
      · exact h.setRing.takeExts
      · exact ih h.setRing.takeExts.modSched.modRing.wantEntry

theorem Keeps.pollResponse {r} (h : Keeps s0 s) :
    Keeps s0 (Machine.pollResponse s r) := by
  rw [Machine.pollResponse]
  refine .ite h ?_
  refine .ite h.setRing ?_
  dsimp only
  split
  · refine .ringError ?_
    split
    · exact h.setRing
    · exact h.setRing.readSlot
  · refine .ite ?_ ?_
    · refine .takeIn (.prefetchSlots (.modRing ?_))
      split
      · exact h.setRing
      · exact h.setRing.readSlot
    · refine .ite ?_ ?_
      · refine .headReport (.modRing ?_)
        split
        · exact h.setRing
        · exact h.setRing.readSlot
      · refine .modRing ?_
        split
        · exact h.setRing
        · exact h.setRing.readSlot

theorem Keeps.consumeHead {r} (h : Keeps s0 s) :
    Keeps s0 (Machine.consumeHead s r) := by
  rw [Machine.consumeHead]
  split
  · exact h
  · exact .ite h.setRing.headReport h.setRing

theorem Keeps.finishHead {r e st} (h : Keeps s0 s) :
    Keeps s0 (Machine.finishHead s r e st) := h.consumeHead.countMalf.completeEntry

theorem Keeps.consumeMalformed {r e} (h : Keeps s0 s) :
    Keeps s0 (Machine.consumeMalformed s r e) := h.finishHead

theorem Keeps.reportAgain {r} (h : Keeps s0 s) :
    Keeps s0 (Machine.reportAgain s r) := by
  rw [Machine.reportAgain]
  rcases hd : Machine.readReport s r with ⟨_ | _, s1⟩
  · exact h.readReport.snd_eq hd
  · exact (h.readReport.snd_eq hd).ringError

theorem Keeps.execConsumerReportRead {r} (h : Keeps s0 s) :
    Next s0 (Machine.execConsumerReportRead r s) := .mk (.ite h.reportAgain h)

theorem Keeps.execOverflowDrain {r} (h : Keeps s0 s) :
    Next s0 (Machine.execOverflowDrain r s) := .mk (.ite h.drainRing h)

theorem Keeps.ringRangeOk {p c typ log2sz base rpt} (h : Keeps s0 s) :
    Keeps s0 (Machine.ringRangeOk s p c typ log2sz base rpt).2 :=
  .ite_snd h.rangeOk (.ite_snd h.rangeOk h.rangeOk.rangeOk)

theorem Keeps.repostFaults {p} (h : Keeps s0 s) :
    Keeps s0 (Machine.repostFaults s p) := by
  rw [Machine.repostFaults]
  refine .foldl h fun _ _ h' => ?_
  split
  · exact h'.writeFq
  · exact h'

theorem Keeps.execRingStartPriv {r} (h : Keeps s0 s) :
    Next s0 (Machine.execRingStartPriv r s) := by
  rw [Machine.execRingStartPriv]
  refine .mk ?_
  split
  · exact h
  · refine .ite h ?_
    refine .ite h.setRing ?_
    refine .ite h.ringRangeOk.setRing ?_
    exact .ite h.ringRangeOk.setRing.repostFaults h.ringRangeOk.setRing

theorem Keeps.execRingFenceRead {r} (h : Keeps s0 s) :
    Next s0 (Machine.execRingFenceRead r s) := .mk (.frame h rfl rfl)

theorem Keeps.execNop {r} (h : Keeps s0 s) :
    Next s0 (Machine.execNop r s) := by
  rw [Machine.execNop]
  refine .mk ?_
  split
  · exact h
  · exact .ite (.ite h.mpTook.completeEntry h) h.completeEntry

end Sys2Proof.Machine
end

section
/-! SUPPORT. The transport keeps memory canonical and the version floor: sending, the mirror, and
what arrives. -/

namespace Sys2Proof.Machine

variable {s0 s : State}

/-! Machine/XptOps.lean -/

theorem Keeps.setQp {k q} (h : Keeps s0 s) :
    Keeps s0 (Machine.setQp s k q) := h.frame rfl rfl

theorem Keeps.modQp {k f} (h : Keeps s0 s) :
    Keeps s0 (Machine.modQp s k f) := h.frame rfl rfl

theorem Keeps.modPort {n f} (h : Keeps s0 s) :
    Keeps s0 (Machine.modPort s n f) := h.frame rfl rfl

theorem Keeps.setSlot {k x} (h : Keeps s0 s) :
    Keeps s0 (Machine.setSlot s k x) := h.frame rfl rfl

theorem Keeps.modSlot {k f} (h : Keeps s0 s) :
    Keeps s0 (Machine.modSlot s k f) := h.frame rfl rfl

theorem Keeps.setMemKey {p i e} (h : Keeps s0 s) :
    Keeps s0 (Machine.setMemKey s p i e) := h.frame rfl rfl

theorem Keeps.portCount {n k v} (h : Keeps s0 s) :
    Keeps s0 (Machine.portCount s n k v) := h.frame rfl rfl

theorem Keeps.queuePkt {k ctl ahead cls hdr payload tagged dst} (h : Keeps s0 s) :
    Keeps s0 (Machine.queuePkt s k ctl ahead cls hdr payload tagged dst) := h.frame rfl rfl

theorem Keeps.queueAnswer {k hdr payload} (h : Keeps s0 s) :
    Keeps s0 (Machine.queueAnswer s k hdr payload) := h.frame rfl rfl

theorem Keeps.sendAck {k echo} (h : Keeps s0 s) :
    Keeps s0 (Machine.sendAck s k echo) := h.frame rfl rfl

theorem Keeps.sendNak {k r echo} (h : Keeps s0 s) :
    Keeps s0 (Machine.sendNak s k r echo) := h.frame rfl rfl

theorem Keeps.sendRnr {k psn echo} (h : Keeps s0 s) :
    Keeps s0 (Machine.sendRnr s k psn echo) := h.frame rfl rfl

theorem Keeps.ackTriggers {k hdr d} (h : Keeps s0 s) :
    Keeps s0 (Machine.ackTriggers s k hdr d) :=
  .ite h.setQp.sendAck (.ite h.setQp.setQp.sendAck (.ite h.setQp.sendAck h.setQp))

theorem Keeps.refuse {k hdr n st} (h : Keeps s0 s) :
    Keeps s0 (Machine.refuse s k hdr n st) :=
  .ite h.bump (.ite h.sendNak.setQp.sendAck h.sendNak.setQp)

theorem Keeps.fkTouch {k} (h : Keeps s0 s) :
    Keeps s0 (Machine.fkTouch s k) := .ite (.frame h rfl rfl) h

theorem Keeps.missPacket {k p} (h : Keeps s0 s) :
    Keeps s0 (Machine.missPacket s k p) := .ite h.bump (.fkWant (.setReg (.frame h rfl rfl)))

theorem Keeps.pinAll {ks} (h : Keeps s0 s) :
    Keeps s0 (Machine.pinAll s ks) := .foldl (.frame h rfl rfl) fun _ _ h' => h'.fkWant

theorem Keeps.fkUnpin {ks} (h : Keeps s0 s) :
    Keeps s0 (Machine.fkUnpin s ks) := h.frame rfl rfl

theorem Keeps.tagFailure {k n} (h : Keeps s0 s) :
    Keeps s0 (Machine.tagFailure s k n) := .ite h.setSlot.post h.setSlot

theorem Keeps.checkTag {k hdr p tag} (h : Keeps s0 s) :
    Keeps s0 (Machine.checkTag s k hdr p tag).2 := by
  rw [Machine.checkTag]
  split
  · exact h
  · split
    · exact h.setSlot
    · exact h.bump.tagFailure
  · exact h.bump.tagFailure
  · exact h.bump

/-! Machine/XptSend.lean -/

theorem Keeps.qpDeliver {k r e st bytes d0 d1} (h : Keeps s0 s) :
    Keeps s0 (Machine.qpDeliver s k r e st bytes d0 d1) := .ite (.frame h rfl rfl) h.completeEntry

theorem Keeps.threadAnswer {t id st bs} (h : Keeps s0 s) :
    Keeps s0 (Machine.threadAnswer s t id st bs) := h.modAgent.settleGrid

theorem Keeps.finishOp {k o st} (h : Keeps s0 s) :
    Keeps s0 (Machine.finishOp s k o st) := by
  rw [Machine.finishOp]
  split
  · exact h
  · split
    · exact h
    · exact h.qpDeliver
  · exact h.threadAnswer
  · split
    · exact h
    · exact .ite h.putDesc h.stopDesc
  · exact .ite h (.frame h rfl rfl)

theorem Keeps.qpEvent {k code d0 d1} (h : Keeps s0 s) :
    Keeps s0 (Machine.qpEvent s k code d0 d1) := h.post

theorem Keeps.checkDrained {k} (h : Keeps s0 s) :
    Keeps s0 (Machine.checkDrained s k) := .ite h.setQp.qpEvent h

theorem Keeps.settleOps {k} (h : Keeps s0 s) :
    Keeps s0 (Machine.settleOps s k) :=
  .checkDrained (.foldl h.setQp fun _ _ h' => h'.finishOp)

theorem Keeps.failOp {k o st} (h : Keeps s0 s) :
    Keeps s0 (Machine.failOp s k o st) := h.finishOp.modQp.settleOps

theorem Keeps.putSend {k old new} (h : Keeps s0 s) :
    Keeps s0 (Machine.putSend s k old new) := h.frame rfl rfl

theorem Keeps.abortHeld {k} (h : Keeps s0 s) :
    Keeps s0 (Machine.abortHeld s k) := by
  rw [Machine.abortHeld]
  refine .foldl h fun _ _ h' => .ite ?_ h'
  split
  · exact h'.finishHead
  · exact h'

theorem Keeps.abortOps {k st} (h : Keeps s0 s) :
    Keeps s0 (Machine.abortOps s k st) := .foldl h.modQp fun _ _ h' => h'.finishOp

theorem Keeps.enterError {k code st} (h : Keeps s0 s) :
    Keeps s0 (Machine.enterError s k code st) := .frame h.abortOps.modQp.abortHeld.qpEvent rfl rfl

theorem Keeps.retryExceeded {k p} (h : Keeps s0 s) :
    Keeps s0 (Machine.retryExceeded s k p) := by
  rw [Machine.retryExceeded]
  refine .enterError ?_
  split
  · exact h.failOp
  · exact h

theorem Keeps.unbindSlot {k} (h : Keeps s0 s) :
    Keeps s0 (Machine.unbindSlot s k) := by
  rw [Machine.unbindSlot]
  split
  · exact .ite h.modSlot h
  · exact h

theorem Keeps.enterInit {k} (h : Keeps s0 s) :
    Keeps s0 (Machine.enterInit s k) :=
  .frame h.abortOps.unbindSlot.modQp.abortHeld rfl rfl

theorem Keeps.submit {k src op rkey roff laddr len imm ctx data} (h : Keeps s0 s) :
    Keeps s0 (Machine.submit s k src op rkey roff laddr len imm ctx data) := h.frame rfl rfl

theorem Keeps.opPayload {k o i} (h : Keeps s0 s) :
    Keeps s0 (Machine.opPayload s k o i).2 := by
  rw [Machine.opPayload]
  refine .ite_snd h ?_
  split
  · exact h
  · split
    · dsimp only
      split
      · exact h.lineRead
      · exact h.lineRead
      · exact h.lineRead
      · exact h.lineRead
    · dsimp only
      split
      · exact h.readVa
      · exact h.readVa
      · exact h.readVa
      · exact h.readVa

theorem Keeps.stallOp {k o c va write} (h : Keeps s0 s) :
    Keeps s0 (Machine.stallOp s k o c va write) := by
  rw [Machine.stallOp]
  split
  · split
    · exact h.putSend.descFault
    · exact h.putSend
  · exact h.putSend.raiseFault

theorem Keeps.checkRound {k} (h : Keeps s0 s) :
    Keeps s0 (Machine.checkRound s k) := by
  rw [Machine.checkRound]
  split
  · exact h
  · exact .ite h.setQp h

theorem Keeps.partRound {port cls} (h : Keeps s0 s) :
    Keeps s0 (Machine.partRound s port cls) := h.frame rfl rfl

theorem Keeps.partTurn {port cls p size n} (h : Keeps s0 s) :
    Keeps s0 (Machine.partTurn s port cls p size n).2 := by
  induction n generalizing s with
  | zero => exact h
  | succ n ih => exact .ite_snd (.pair h.modPort) (.ite_snd h (ih h.partRound))

theorem Keeps.loseP {k p} (h : Keeps s0 s) :
    Keeps s0 (Machine.loseP s k p) := .ite h (.ite h.retryExceeded h.setQp)

theorem Keeps.afterSend {k n size} (h : Keeps s0 s) :
    Keeps s0 (Machine.afterSend s k n size) := h.frame rfl rfl

theorem Keeps.sendNext {k n size} (h : Keeps s0 s) :
    Keeps s0 (Machine.sendNext s k n size) := by
  unfold Machine.sendNext
  dsimp only
  split
  · exact h.opPayload.stallOp
  · exact .ite h.opPayload.failOp.modQp.settleOps h.opPayload.failOp
  · exact .afterSend (.queuePkt (.ite h.opPayload.bump h.opPayload))

/-! Machine/TwinOps.lean -/

theorem Keeps.modTwin {f} (h : Keeps s0 s) :
    Keeps s0 (Machine.modTwin s f) := h.frame rfl rfl

theorem Keeps.sendTwin {kind seq payload} (h : Keeps s0 s) :
    Keeps s0 (Machine.sendTwin s kind seq payload) := .ite h h.modTwin

theorem Keeps.itemPayload {x} (h : Keeps s0 s) :
    Keeps s0 (Machine.itemPayload s x).2 := .ite_snd h.readMem h

theorem Keeps.sendItem {x} (h : Keeps s0 s) :
    Keeps s0 (Machine.sendItem s x) := h.itemPayload.sendTwin

theorem Keeps.flushItems (h : Keeps s0 s) :
    Keeps s0 (Machine.flushItems s) :=
  .ite h (.modTwin (.foldl h fun _ _ h' => h'.sendItem))

theorem Keeps.queueItem {kind payload pa ppa len entries} (h : Keeps s0 s) :
    Keeps s0 (Machine.queueItem s kind payload pa ppa len entries) := h.frame rfl rfl

theorem Keeps.putTmr {i bs} (h : Keeps s0 s) :
    Keeps s0 (Machine.putTmr s i bs) := by
  rw [Machine.putTmr]
  split
  · exact h.writeVa.ringError
  · exact h.writeVa

theorem Keeps.writeTmr {bs} (h : Keeps s0 s) :
    Keeps s0 (Machine.writeTmr s bs) := h.putTmr.modRing

theorem Keeps.queueDeltas {es counted n} (h : Keeps s0 s) :
    Keeps s0 (Machine.queueDeltas s es counted n) := by
  induction n generalizing s es with
  | zero => exact h
  | succ n ih => exact .ite h (ih h.queueItem)

theorem Keeps.joinEntry {e s1} (h : Keeps s0 s) (hj : Machine.joinEntry s e = some s1) :
    Keeps s0 s1 := by
  unfold Machine.joinEntry at hj
  split at hj
  · cases hj
  · obtain ⟨r, -, rfl⟩ := Option.map_eq_some_iff.mp hj
    extract_lets
    split
    · exact h.modTwin
    · exact h.modTwin.putTmr

theorem Keeps.mirrorEntries {es} (h : Keeps s0 s) :
    Keeps s0 (Machine.mirrorEntries s es) := by
  unfold Machine.mirrorEntries
  refine .queueDeltas (.foldl_fst h fun _ _ h' => ?_)
  split
  · next s1 hj => exact h'.joinEntry hj
  · exact h'.writeTmr

theorem Keeps.mirrorChanges {s'} (h : Keeps s0 s) :
    Keeps s0 (Machine.mirrorChanges s' s) := .ite h h.mirrorEntries

theorem Keeps.queueData {pa ppa len n} (h : Keeps s0 s) :
    Keeps s0 (Machine.queueData s pa ppa len n) := by
  induction n generalizing s pa len ppa with
  | zero => exact h
  | succ n ih => exact .ite h (ih h.queueItem)

theorem Keeps.mirrorData {pa len} (h : Keeps s0 s) :
    Keeps s0 (Machine.mirrorData s pa len) := by
  rw [Machine.mirrorData]
  refine .ite h ?_
  refine .foldl h fun _ _ h' => ?_
  split
  · exact h'
  · exact .ite h'.queueData h'

theorem Keeps.stampHold (h : Keeps s0 s) :
    Keeps s0 (Machine.stampHold s) := h.frame rfl rfl

theorem Keeps.deliverHeld {h₁} (h : Keeps s0 s) :
    Keeps s0 (Machine.deliverHeld s h₁) := by
  rw [Machine.deliverHeld]
  split
  · exact h.cqTake
  · exact .ite h.modRing h

theorem Keeps.releaseHeld (h : Keeps s0 s) :
    Keeps s0 (Machine.releaseHeld s) := .foldl h.modTwin fun _ _ h' => h'.deliverHeld

theorem Keeps.mirrorDone {s'} (h : Keeps s0 s) :
    Keeps s0 (Machine.mirrorDone s' s) := h.mirrorChanges.flushItems.stampHold.releaseHeld

theorem Keeps.completeMirrored {p r e st d0 d1} (h : Keeps s0 s) :
    Keeps s0 (Machine.completeMirrored s p r e st d0 d1) := .ite h.modRing.modTwin h.completeEntry

theorem Keeps.leavePair {new} (h : Keeps s0 s) :
    Keeps s0 (Machine.leavePair s new) := .releaseHeld (.frame h rfl rfl)

/-! Machine/XptArrive.lean -/

theorem Keeps.enterRts {k} (h : Keeps s0 s) :
    Keeps s0 (Machine.enterRts s k) := h.modQp.qpEvent

theorem Keeps.justDrop {n hdr bs} (h : Keeps s0 s) :
    Keeps s0 (Machine.justDrop s n hdr bs) := h.frame rfl rfl

theorem Keeps.processPkt {k p hdr payload tag f onBad}
    (hf : ∀ s x1 x2 x3 x4, Keeps s0 s → Keeps s0 (f s x1 x2 x3 x4))
    (honBad : ∀ s x1 x2 x3, Keeps s0 s → Keeps s0 (onBad s x1 x2 x3)) (h : Keeps s0 s) :
    Keeps s0 (Machine.processPkt s k p hdr payload tag f onBad) := by
  rw [Machine.processPkt]
  refine .ite (.ite (honBad _ _ _ _ h) h) ?_
  refine .ite h.bump ?_
  refine .ite (hf _ _ _ _ _ h.fkTouch) ?_
  refine .ite h.bump ?_
  refine .ite (honBad _ _ _ _ h.checkTag) ?_
  exact hf _ _ _ _ _ (.ite h.checkTag.fkTouch h.checkTag.fkTouch.enterRts)

theorem Keeps.arriveWith {op f onBad p}
    (hf : ∀ s x1 x2 x3 x4, Keeps s0 s → Keeps s0 (f s x1 x2 x3 x4))
    (honBad : ∀ s x1 x2 x3, Keeps s0 s → Keeps s0 (onBad s x1 x2 x3)) (h : Keeps s0 s) :
    Keeps s0 (Machine.arriveWith op f onBad p s) := by
  rw [Machine.arriveWith]
  split
  · exact h
  · refine .ite h ?_
    split
    · refine .ite h ?_
      refine .ite (.processPkt hf honBad (.frame h rfl rfl)) ?_
      exact .ite (.frame h rfl rfl) (.missPacket (.frame h rfl rfl))
    · exact .frame h rfl rfl

theorem Keeps.arrive {op f p}
    (hf : ∀ s x1 x2 x3 x4, Keeps s0 s → Keeps s0 (f s x1 x2 x3 x4)) (h : Keeps s0 s) :
    Keeps s0 (Machine.arrive op f p s) := h.arriveWith hf (fun _ _ _ _ h' => h'.justDrop)

theorem Keeps.placeChunks {l bs} (h : Keeps s0 s) :
    Keeps s0 (Machine.placeChunks s l bs) := by
  induction l generalizing s bs with
  | nil => exact h
  | cons c cs ih =>
    obtain ⟨_, _⟩ := c
    exact ih h.writeMem.mirrorData

theorem Keeps.place {p c va bs} (h : Keeps s0 s) :
    Keeps s0 (Machine.place s p c va bs).2 := by
  rw [Machine.place]
  split
  · exact h.chunks
  · exact h.chunks.placeChunks

theorem Keeps.recvEntry {k d} (h : Keeps s0 s) :
    Keeps s0 (Machine.recvEntry s k d) := .ite h h.cqTake

theorem Keeps.deliverRecv {k} (h : Keeps s0 s) :
    Keeps s0 (Machine.deliverRecv s k) := by
  rw [Machine.deliverRecv]
  exact .modQp (.foldl h fun _ _ h' => h'.recvEntry)

theorem Keeps.request {k hdr dup fresh}
    (hdup : ∀ s, Keeps s0 s → Keeps s0 (dup s))
    (hfresh : ∀ s, Keeps s0 s → Keeps s0 (fresh s)) (h : Keeps s0 s) :
    Keeps s0 (Machine.request s k hdr dup fresh) := by
  rw [Machine.request]
  split
  · exact h.bump
  · dsimp only
    split
    · exact h.bump.sendNak
    · exact hdup _ h.bump
  · exact .ite h.bump.sendRnr (hfresh _ h)

theorem Keeps.refuseReq {k hdr n st} (h : Keeps s0 s) :
    Keeps s0 (Machine.refuseReq s k hdr n st) := h.refuse.deliverRecv

theorem Keeps.acceptReq {k hdr} (h : Keeps s0 s) :
    Keeps s0 (Machine.acceptReq s k hdr) := by
  rw [Machine.acceptReq]
  exact h.modQp.deliverRecv.ackTriggers

theorem Keeps.placeReq {k hdr c va bs note} (h : Keeps s0 s) :
    Keeps s0 (Machine.placeReq s k hdr c va bs note) := by
  rw [Machine.placeReq]
  split
  · exact h.place
  · exact h.place.refuseReq
  · exact h.place.modQp.acceptReq

theorem Keeps.onWrite {imm k p hdr payload} (h : Keeps s0 s) :
    Keeps s0 (Machine.onWrite imm s k p hdr payload) := by
  rw [Machine.onWrite]
  refine h.request (fun _ h' => h'.sendAck) ?_
  intro s1 h'
  split
  · exact h'.refuseReq
  · split
    · dsimp only
      split
      · next hc => exact h'.chunks.snd_eq (Option.some.inj hc)
      · next hc => exact (h'.chunks.snd_eq (Option.some.inj hc)).refuseReq
      · next hc => exact (h'.chunks.snd_eq (Option.some.inj hc)).sendRnr
      · next hc => cases hc
    · exact h'.placeReq

theorem Keeps.readRelease {k} (h : Keeps s0 s) :
    Keeps s0 (Machine.readRelease s k) := by
  rw [Machine.readRelease]
  rcases hd : Machine.readVa _ _ _ _ _ _ _ with ⟨_ | _, s1⟩
  · exact h.readVa.snd_eq hd
  · exact (h.readVa.snd_eq hd).setQp

theorem Keeps.onSend {k p hdr payload} (h : Keeps s0 s) :
    Keeps s0 (Machine.onSend s k p hdr payload) := by
  rw [Machine.onSend]
  exact h.request (fun _ h' => h'.sendAck) (fun _ h' => .ite h'.refuseReq
      (.ite (.sendRnr (.ite h'.readRelease h')) (.placeReq (.ite h'.readRelease h'))))

theorem Keeps.sendReadResp {k r i} (h : Keeps s0 s) :
    Keeps s0 (Machine.sendReadResp s k r i) := by
  rw [Machine.sendReadResp]
  split
  · exact h.readVa.queueAnswer
  · exact h.readVa.queueAnswer
  · exact h.readVa.queueAnswer
  · exact h.readVa

theorem Keeps.sendReadFrom {k r i} (h : Keeps s0 s) :
    Keeps s0 (Machine.sendReadFrom s k r i) := .foldl h fun _ _ h' => h'.sendReadResp

theorem Keeps.onReadReq {k pkt hdr bs} (h : Keeps s0 s) :
    Keeps s0 (Machine.onReadReq s k pkt hdr bs) := by
  rw [Machine.onReadReq]
  refine h.request (fun _ h' => ?_) (fun _ h' => ?_)
  · split
    · exact h'.sendReadFrom
    · exact h'
  · dsimp only
    split
    · exact h'.refuseReq
    · split
      · exact h'.chunks
      · exact h'.chunks.refuseReq
      · exact h'.chunks.modQp.sendReadFrom.modQp.deliverRecv

theorem Keeps.sendAtomicResp {k a} (h : Keeps s0 s) :
    Keeps s0 (Machine.sendAtomicResp s k a) := h.frame rfl rfl

theorem Keeps.readLog {k f}
    (hf : ∀ s, Keeps s0 s → Keeps s0 (f s)) (h : Keeps s0 s) :
    Keeps s0 (Machine.readLog s k f) := .ite h (.ite h.readMem (hf _ h.readMem))

theorem Keeps.onAtomic {f k pkt hdr payload} (h : Keeps s0 s) :
    Keeps s0 (Machine.onAtomic f s k pkt hdr payload) := by
  rw [Machine.onAtomic]
  refine h.request (fun _ h' => ?_) (fun _ h' => ?_)
  · split
    · exact h'.readLog (fun _ h' => h'.sendAtomicResp)
    · exact h'
  · split
    · exact h'.refuseReq
    · refine .ite h'.frameOf.refuseReq ?_
      dsimp only
      split
      · exact h'.frameOf.access.refuseReq
      · exact .acceptReq
            (.sendAtomicResp
            (.modQp (.ite h'.frameOf.access.readMem h'.frameOf.access.readMem.writeMem.mirrorData)))

theorem Keeps.onSignal {k pkt hdr payload} (h : Keeps s0 s) :
    Keeps s0 (Machine.onSignal s k pkt hdr payload) := by
  rw [Machine.onSignal]
  refine h.request (fun _ h' => h'.sendAck) (fun _ h' => ?_)
  split
  · exact h'.refuseReq
  · dsimp only
    split
    · exact h'.access.refuseReq
    · refine .ite h'.access.refuseReq ?_
      exact .ite h'.access.signalObj.acceptReq h'.access.signalObj.refuseReq

theorem Keeps.onEnable {k pkt hdr bs} (h : Keeps s0 s) :
    Keeps s0 (Machine.onEnable s k pkt hdr bs) :=
  h.request (fun _ h' => h'.sendAck) (fun _ h' => .ite h'.refuseReq h'.modQp.acceptReq)

theorem Keeps.afterDone {k} (h : Keeps s0 s) :
    Keeps s0 (Machine.afterDone s k) := h.checkRound.settleOps

theorem Keeps.doneAt {k ps} (h : Keeps s0 s) :
    Keeps s0 (Machine.doneAt s k ps) := h.frame rfl rfl

theorem Keeps.sackLoss {k top} (h : Keeps s0 s) :
    Keeps s0 (Machine.sackLoss s k top) := .foldl h fun _ _ h' => .ite h'.modQp.loseP h'

theorem Keeps.takeAnswer {k hdr} (h : Keeps s0 s) :
    Keeps s0 (Machine.takeAnswer s k hdr) := by
  rw [Machine.takeAnswer]
  exact h.modQp.doneAt

theorem Keeps.onAck {k pkt hdr payload} (h : Keeps s0 s) :
    Keeps s0 (Machine.onAck s k pkt hdr payload) := by
  rw [Machine.onAck]
  refine .ite h.bump ?_
  dsimp only
  split
  · exact h.takeAnswer.doneAt.afterDone
  · exact h.takeAnswer.doneAt.afterDone.sackLoss

theorem Keeps.onNak {k pkt hdr bs} (h : Keeps s0 s) :
    Keeps s0 (Machine.onNak s k pkt hdr bs) := by
  rw [Machine.onNak]
  refine .ite h.bump ?_
  refine .afterDone (.doneAt (.foldl h.takeAnswer fun _ _ h' => ?_))
  split
  · exact .ite h' h'.failOp
  · exact h'

theorem Keeps.onRnr {k pkt hdr bs} (h : Keeps s0 s) :
    Keeps s0 (Machine.onRnr s k pkt hdr bs) := by
  rw [Machine.onRnr]
  refine .ite h.bump ?_
  refine .ite h.takeAnswer.afterDone ?_
  exact .ite h.takeAnswer.setQp.retryExceeded h.takeAnswer.setQp.afterDone

theorem Keeps.placeResp {k o at_ bs} (h : Keeps s0 s) :
    Keeps s0 (Machine.placeResp s k o at_ bs).2.1 := by
  rw [Machine.placeResp]
  split
  · exact h
  · split
    · exact h
    · exact h.lineWrite
  · exact .ite_snd_fst h h.writeVa

theorem Keeps.takeResp {k o p st at_ bs result} (h : Keeps s0 s) :
    Keeps s0 (Machine.takeResp s k o p st at_ bs result) := by
  rw [Machine.takeResp]
  refine .ite h ?_
  refine .ite h.doneAt.afterDone ?_
  refine .ite h.failOp.doneAt.afterDone ?_
  dsimp only
  split
  · exact h.placeResp.stallOp
  · exact h.placeResp.failOp.doneAt.afterDone
  · exact h.placeResp
  · exact h.placeResp.putSend.doneAt.afterDone.sackLoss

theorem Keeps.onReadResp {k pkt hdr payload} (h : Keeps s0 s) :
    Keeps s0 (Machine.onReadResp s k pkt hdr payload) := by
  rw [Machine.onReadResp]
  split
  · exact .ite h.takeResp h
  · exact h

theorem Keeps.onAtomicResp {k pkt hdr payload} (h : Keeps s0 s) :
    Keeps s0 (Machine.onAtomicResp s k pkt hdr payload) := by
  rw [Machine.onAtomicResp]
  split
  · exact .ite h.takeResp h
  · exact h

end Sys2Proof.Machine
end

section
/-! SUPPORT. Collectives and the carder keep memory canonical and the version floor. -/

namespace Sys2Proof.Machine

variable {s0 s : State}

/-! Machine/BushelOps.lean -/

theorem Keeps.setBsh {g x} (h : Keeps s0 s) :
    Keeps s0 (Machine.setBsh s g x) := h.frame rfl rfl

theorem Keeps.modBsh {g f} (h : Keeps s0 s) :
    Keeps s0 (Machine.modBsh s g f) := h.frame rfl rfl

theorem Keeps.bshSend {gid d op attempt axis phase step gen chunk payload} (h : Keeps s0 s) :
    Keeps s0 (Machine.bshSend s gid d op attempt axis phase step gen chunk payload) := by
  rw [Machine.bshSend]
  split
  · exact h
  · exact h.submit

theorem Keeps.bshSendAll {ds gid op attempt phase gen payload} (h : Keeps s0 s) :
    Keeps s0 (Machine.bshSendAll s ds gid op attempt phase gen payload) := .foldl h
        fun _ _ h' => h'.bshSend

theorem Keeps.modRun {gid f} (h : Keeps s0 s) :
    Keeps s0 (Machine.modRun s gid f) := h.frame rfl rfl

theorem Keeps.grantCredit {gid r} (h : Keeps s0 s) :
    Keeps s0 (Machine.grantCredit s gid r) := .foldl h fun _ _ h' => h'.bshSend

theorem Keeps.eatCredit {gid d n} (h : Keeps s0 s) :
    Keeps s0 (Machine.eatCredit s gid d n) := by
  rw [Machine.eatCredit]
  split
  · exact h
  · exact .ite h.modRun h.modRun.bshSend

theorem Keeps.bshCountUp {lo} (h : Keeps s0 s) :
    Keeps s0 (Machine.bshCountUp s lo) := h.frame rfl rfl

theorem Keeps.signalFor {r va n} (h : Keeps s0 s) :
    Keeps s0 (Machine.signalFor s r va n).2 := by
  rw [Machine.signalFor]
  refine .ite_snd h ?_
  dsimp only
  split
  · exact h.access
  · refine .ite_snd h.access ?_
    split
    · exact h.access.signalObj
    · exact h.access.signalObj
    · exact h.access.signalObj

theorem Keeps.bshSignal {g e} (h : Keeps s0 s) :
    Keeps s0 (Machine.bshSignal s g e).2 := h.signalFor

theorem Keeps.bshDeliver {g e gen st bytes orank reason expo} (h : Keeps s0 s) :
    Keeps s0 (Machine.bshDeliver s g e gen st bytes orank reason expo) := h.completeEntry

theorem Keeps.dropJobs {r} (h : Keeps s0 s) :
    Keeps s0 (Machine.dropJobs s r) :=
  .foldl h fun _ _ h' => .setGrid (.foldl h' fun _ _ h2 => h2.unloadGroup)

theorem Keeps.bshTell {gid gen reason} (h : Keeps s0 s) :
    Keeps s0 (Machine.bshTell s gid gen reason) := h.bshSendAll

theorem Keeps.bshEnd {gid st bytes orank reason expo} (h : Keeps s0 s) :
    Keeps s0 (Machine.bshEnd s gid st bytes orank reason expo) := by
  rw [Machine.bshEnd]
  split
  · exact h
  · refine .ite ?_ ?_
    · exact .bshDeliver (.ite_snd (.pair h.dropJobs.setBsh) h.dropJobs.setBsh.bshSignal)
    · refine .ite ?_ ?_
      · exact .bshTell
            (.bshCountUp (.bshDeliver (.ite_snd (.pair h.dropJobs.setBsh)
            h.dropJobs.setBsh.bshSignal)))
      · exact .bshDeliver (.ite_snd (.pair h.dropJobs.setBsh) h.dropJobs.setBsh.bshSignal)

theorem Keeps.bshAbort {gid st reason orank from_} (h : Keeps s0 s) :
    Keeps s0 (Machine.bshAbort s gid st reason orank from_) := by
  rw [Machine.bshAbort]
  split
  · exact h
  · exact h.bshCountUp.bshEnd.modBsh.bshSendAll

theorem Keeps.bshFailEntry {gid e st orank reason tell} (h : Keeps s0 s) :
    Keeps s0 (Machine.bshFailEntry s gid e st orank reason tell) := by
  rw [Machine.bshFailEntry]
  refine .ite ?_ (.bshCountUp (.bshDeliver (.ite h.setBsh.countMalf h.setBsh.bshSignal)))
  exact .bshTell (.bshCountUp (.bshDeliver (.ite h.setBsh.countMalf h.setBsh.bshSignal)))

theorem Keeps.readOper {e} (h : Keeps s0 s) :
    Keeps s0 (Machine.readOper s e).2 := .ite_snd h h.readMem

theorem Keeps.startJob {gid r k off inc loc combined s1} (h : Keeps s0 s)
    (hj : Machine.startJob s gid r k off inc loc combined = some s1) : Keeps s0 s1 := by
  unfold Machine.startJob at hj
  extract_lets g e c pa words none x n key sGrid param put at hj
  split at hj
  · cases hj
  · next en p _ =>
    extract_lets sGroup base sIn sExt sThread j at hj
    have grid : Keeps s0 sGrid := Keeps.setGrid (.frame h rfl rfl)
    have group : Keeps s0 sGroup := grid.loadImage.startGroup
    have inputs : Keeps s0 sIn := group.writeMem.writeMem
    have ext : Keeps s0 sExt := .ite inputs.writeMem inputs
    rw [← Option.some.inj hj]
    exact .modRun (.modThread ext)

theorem Keeps.consumed {gid k off bs} (h : Keeps s0 s) :
    Keeps s0 (Machine.consumed s gid k off bs) := h.frame rfl rfl

theorem Keeps.consumeChunk {gid k off len} (h : Keeps s0 s) :
    Keeps s0 (Machine.consumeChunk s gid k off len) := by
  rw [Machine.consumeChunk]
  split
  · exact h
  · split
    · exact h
    · have taken {f} : Keeps s0 (Machine.modRun s gid f) := h.modRun
      refine .ite h (.ite taken.eatCredit.consumed (.ite ?_ taken.eatCredit.consumed))
      split
      · exact h
      · next s1 hj => exact taken.startJob hj

theorem Keeps.collectJobs {gid} (h : Keeps s0 s) :
    Keeps s0 (Machine.collectJobs s gid) := by
  rw [Machine.collectJobs]
  split
  · exact h
  · exact .foldl h fun _ _ h' => .ite h' (.ite h'.recordError.bshAbort
        (.ite (.ite h'.readMem.bshAbort h'.readMem.setGrid.modRun.eatCredit.consumed) h'))

theorem Keeps.sendChunk {gid d k off len wireStep ready} (h : Keeps s0 s) :
    Keeps s0 (Machine.sendChunk s gid d k off len wireStep ready) := by
  rw [Machine.sendChunk]
  split
  · exact h
  · exact .ite h h.modBsh.bshSend

theorem Keeps.ringWork {gid a} (h : Keeps s0 s) :
    Keeps s0 (Machine.ringWork s gid a) := by
  rw [Machine.ringWork]
  split
  · exact h
  · refine .foldl (.foldl h fun _ _ h' => h'.consumeChunk) fun _ _ h' => ?_
    dsimp only
    split
    · exact h'
    · exact h'.sendChunk

theorem Keeps.sendDown {gid r phase v} (h : Keeps s0 s) :
    Keeps s0 (Machine.sendDown s gid r phase v) := h.bshSendAll

theorem Keeps.treeUp {gid} (h : Keeps s0 s) :
    Keeps s0 (Machine.treeUp s gid) := by
  rw [Machine.treeUp]
  split
  · exact h
  · refine .ite h ?_
    dsimp only
    split
    · exact h.modRun.bshSend
    · exact h.sendDown.modRun

theorem Keeps.castWork {gid} (h : Keeps s0 s) :
    Keeps s0 (Machine.castWork s gid) := by
  rw [Machine.castWork]
  split
  · exact h
  · refine .ite (.ite h.sendDown.modRun h) ?_
    dsimp only
    split
    · refine .foldl (.foldl h fun _ _ h' => ?_) fun _ _ h' => ?_
      · split
        · exact h'
        · split
          · exact h'
          · exact h'.modRun.eatCredit.consumed
      · split
        · exact h'
        · exact h'.sendChunk
    · refine .ite ?_ ?_
      · refine .modRun (.foldl (.foldl h fun _ _ h' => ?_) fun _ _ h' => ?_)
        · split
          · exact h'
          · split
            · exact h'
            · exact h'.modRun.eatCredit.consumed
        · split
          · exact h'
          · exact h'.sendChunk
      · refine .foldl (.foldl h fun _ _ h' => ?_) fun _ _ h' => ?_
        · split
          · exact h'
          · split
            · exact h'
            · exact h'.modRun.eatCredit.consumed
        · split
          · exact h'
          · exact h'.sendChunk

theorem Keeps.bshPreempt {gid} (h : Keeps s0 s) :
    Keeps s0 (Machine.bshPreempt s gid) := by
  rw [Machine.bshPreempt]
  split
  · exact h
  · exact .ite (.ite h.modRun h) (.ite h.modRun (.ite h.modRun h))

theorem Keeps.bshPump {gid n} (h : Keeps s0 s) :
    Keeps s0 (Machine.bshPump s gid n) := by
  induction n generalizing s with
  | zero => exact h
  | succ n ih =>
    rw [Machine.bshPump]
    split
    · exact h.collectJobs.bshPreempt
    · refine .ite h.collectJobs.bshPreempt ?_
      split
      · exact .ite (ih h.collectJobs.bshPreempt.treeUp) h.collectJobs.bshPreempt.treeUp
      · exact h.collectJobs.bshPreempt.treeUp
      · exact h.collectJobs.bshPreempt.castWork
      · exact .ite (ih h.collectJobs.bshPreempt.modRun) h.collectJobs.bshPreempt
      · exact h.collectJobs.bshPreempt
      · split
        · refine .ite h.collectJobs.bshPreempt.modRun.bshAbort ?_
          exact ih h.collectJobs.bshPreempt.modRun
        · dsimp only
          split
          · exact h.collectJobs.bshPreempt.ringWork
          · refine .ite (ih h.collectJobs.bshPreempt.ringWork.modRun) ?_
            exact h.collectJobs.bshPreempt.ringWork

theorem Keeps.bshGo {gid} (h : Keeps s0 s) :
    Keeps s0 (Machine.bshGo s gid) := h.bshPump

theorem Keeps.bshGoAll (h : Keeps s0 s) :
    Keeps s0 (Machine.bshGoAll s) := .foldl h fun _ _ h' => h'.bshGo

/-! Machine/BushelArrive.lean -/

theorem Keeps.bshInput {g e} (h : Keeps s0 s) :
    Keeps s0 (Machine.bshInput s g e).2 := by
  rw [Machine.bshInput]
  split
  · dsimp only
    split
    · exact h.readVa
    · exact h.readVa
    · exact h.readVa
  · refine .ite_snd h ?_
    dsimp only
    split
    · exact h.readVa
    · exact h.readVa
    · exact h.readVa
  · refine .ite_snd h ?_
    refine .ite_snd h ?_
    dsimp only
    split
    · exact h.readVa
    · exact h.readVa
    · exact h.readVa
  · refine .ite_snd h ?_
    dsimp only
    split
    · exact h.readVa
    · exact h.readVa
    · exact h.readVa
  · refine .ite_snd h ?_
    dsimp only
    split
    · exact h.readVa
    · exact h.readVa
    · exact h.readVa
  · exact h

theorem Keeps.sparseBlocks {g e map} (h : Keeps s0 s) :
    Keeps s0 (Machine.sparseBlocks s g e map).2 := by
  rw [Machine.sparseBlocks]
  refine .ite_snd h ?_
  dsimp only
  split
  · exact h.readVa
  · exact h.readVa
  · exact h.readVa

theorem Keeps.beginRun {gid e} (h : Keeps s0 s) :
    Keeps s0 (Machine.beginRun s gid e) := by
  rw [Machine.beginRun]
  refine .ite h.bshFailEntry ?_
  split
  · exact h.setBsh.bshFailEntry
  · refine .ite h.bshFailEntry ?_
    refine .ite h.bshFailEntry.modBsh ?_
    dsimp only
    split
    · exact h.bshInput.bshFailEntry
    · split
      · exact .bshFailEntry (.ite_snd h.bshInput.sparseBlocks h.bshInput)
      · split
        · exact .bshFailEntry (.readOper (.ite_snd h.bshInput.sparseBlocks h.bshInput))
        · exact .grantCredit (.setBsh (.readOper (.ite_snd h.bshInput.sparseBlocks h.bshInput)))

theorem Keeps.bshRnr {k hdr} (h : Keeps s0 s) :
    Keeps s0 (Machine.bshRnr s k hdr) := h.frame rfl rfl

theorem Keeps.heard {gid} (h : Keeps s0 s) :
    Keeps s0 (Machine.heard s gid) := h.frame rfl rfl

theorem Keeps.onTree {gid d hdr payload} (h : Keeps s0 s) :
    Keeps s0 (Machine.onTree s gid d hdr payload) := by
  rw [Machine.onTree]
  split
  · exact h
  · exact .ite h.bshAbort (.ite h.modRun h.sendDown.modRun)

theorem Keeps.onTaint {gid d hdr payload} (h : Keeps s0 s) :
    Keeps s0 (Machine.onTaint s gid d hdr payload) := by
  rw [Machine.onTaint]
  split
  · exact h
  · exact .ite h.bshSendAll.bshAbort h.bshSendAll.modRun

theorem Keeps.onAbortRun {gid d hdr payload} (h : Keeps s0 s) :
    Keeps s0 (Machine.onAbortRun s gid d hdr payload) := h.bshAbort

theorem Keeps.onControl {op gid d hdr payload} (h : Keeps s0 s) :
    Keeps s0 (Machine.onControl op s gid d hdr payload) := by
  rw [Machine.onControl]
  split
  · exact h.onTree
  · split
    · exact h.onTaint
    · exact h.onAbortRun

theorem Keeps.otherAbort {gid d hdr payload} (h : Keeps s0 s) :
    Keeps s0 (Machine.otherAbort s gid d hdr payload) := by
  rw [Machine.otherAbort]
  exact h.bshSendAll.modBsh

theorem Keeps.onBshControl {op k p hdr payload} (h : Keeps s0 s) :
    Keeps s0 (Machine.onBshControl op s k p hdr payload) := by
  rw [Machine.onBshControl]
  refine h.request (fun _ h' => h'.sendAck) (fun _ h' => ?_)
  dsimp only
  split
  · exact h'.bshRnr
  · refine .ite h'.acceptReq.heard.onControl.bshGo ?_
    refine .ite (.ite h'.bshRnr h'.acceptReq.otherAbort) ?_
    refine .ite (.ite h'.acceptReq.bshSendAll h'.acceptReq) ?_
    exact .ite h'.bshRnr h'.acceptReq.modBsh

theorem Keeps.onBshCredit {k pkt hdr bs} (h : Keeps s0 s) :
    Keeps s0 (Machine.onBshCredit s k pkt hdr bs) := by
  rw [Machine.onBshCredit]
  refine h.request (fun _ h' => h'.sendAck) (fun _ h' => ?_)
  dsimp only
  split
  · exact h'.bshRnr
  · exact .ite h'.acceptReq (.bshGo (.ite h'.acceptReq.modBsh.heard h'.acceptReq.modBsh))

theorem Keeps.taintRun {gid x} (h : Keeps s0 s) :
    Keeps s0 (Machine.taintRun s gid x) := by
  rw [Machine.taintRun]
  split
  · exact h
  · exact .ite h.bshAbort h.modRun.bshSendAll

theorem Keeps.bshCheckFailed {used k hdr bs} (h : Keeps s0 s) :
    Keeps s0 (Machine.bshCheckFailed used s k hdr bs) := by
  rw [Machine.bshCheckFailed]
  split
  · exact h
  · dsimp only
    split
    · exact h.bshCountUp
    · refine .ite h.bshCountUp ?_
      refine .ite h.bshCountUp.bshAbort ?_
      split
      · exact h.bshCountUp.taintRun
      · exact h.bshCountUp

theorem Keeps.onBshData {used k pkt hdr payload} (h : Keeps s0 s) :
    Keeps s0 (Machine.onBshData used s k pkt hdr payload) := by
  rw [Machine.onBshData]
  refine h.request (fun _ h' => h'.sendAck) (fun _ h' => .ite h'.bshCheckFailed ?_)
  split
  · exact h'.bshRnr
  · exact .ite h'.acceptReq h'.bshRnr
  · refine .ite h'.acceptReq ?_
    refine .ite h'.bshRnr ?_
    refine .ite h'.acceptReq ?_
    dsimp only
    split
    · exact h'.acceptReq.heard.bshAbort
    · exact .ite h'.acceptReq.heard.bshAbort h'.acceptReq.heard.modRun.bshGo

theorem Keeps.replayEarly {gid} (h : Keeps s0 s) :
    Keeps s0 (Machine.replayEarly s gid) := by
  rw [Machine.replayEarly]
  split
  · exact h
  · refine .foldl h.modBsh fun _ _ h' => ?_
    split
    · exact h'
    · split
      · exact h'
      · exact .ite h'.onControl h'

theorem Keeps.bshStart {op r} (h : Keeps s0 s) :
    Keeps s0 (Machine.bshStart op s r) := by
  rw [Machine.bshStart]
  split
  · exact h
  · refine .ite h ?_
    split
    · exact h.finishHead
    · exact .ite h h.consumeHead.beginRun.replayEarly.bshGo

theorem Keeps.bshEvent {e} (h : Keeps s0 s) :
    Keeps s0 (Machine.bshEvent s e) := by
  unfold Machine.bshEvent
  split
  · exact .foldl h fun _ _ h' => h'.bshAbort
  · exact .ite h (.ite h.bshAbort h.bshAbort)
  · exact h

theorem Keeps.writeRun {g r} (h : Keeps s0 s) :
    Keeps s0 (Machine.writeRun s g r).2 := by
  rw [Machine.writeRun]
  refine .foldl_snd h fun _ _ h' => ?_
  split
  · exact h'
  · exact h'.writeVa

theorem Keeps.rerun {gid} (h : Keeps s0 s) :
    Keeps s0 (Machine.rerun s gid) := by
  rw [Machine.rerun]
  split
  · exact h
  · dsimp only
    split
    · exact h.writeRun.bshInput.bshAbort
    · split
      · exact .bshAbort (.ite_snd h.writeRun.bshInput.sparseBlocks h.writeRun.bshInput)
      · exact .bshGo
            (.bshCountUp (.modRun (.ite_snd h.writeRun.bshInput.sparseBlocks h.writeRun.bshInput)))

theorem Keeps.bshFinish {gid} (h : Keeps s0 s) :
    Keeps s0 (Machine.bshFinish s gid) := by
  rw [Machine.bshFinish]
  split
  · exact h
  · dsimp only
    split
    · exact h.writeRun.bshAbort
    · exact h.writeRun.bshAbort
    · exact h.writeRun.bshEnd

/-! Machine/CarderOps.lean -/

theorem Keeps.setTag {t x} (h : Keeps s0 s) :
    Keeps s0 (Machine.setTag s t x) := h.frame rfl rfl

theorem Keeps.modTag {t f} (h : Keeps s0 s) :
    Keeps s0 (Machine.modTag s t f) := h.frame rfl rfl

theorem Keeps.crdRead {b va n} (h : Keeps s0 s) :
    Keeps s0 (Machine.crdRead s b va n).2 := h.readVa

theorem Keeps.crdReads {b va stride len n} (h : Keeps s0 s) :
    Keeps s0 (Machine.crdReads s b va stride len n).2 := by
  induction n generalizing s va with
  | zero => exact h
  | succ n ih =>
    rw [Machine.crdReads]
    split
    · exact h.crdRead
    · dsimp only
      split
      · exact ih h.crdRead
      · exact ih h.crdRead

theorem Keeps.crdWrite {b va bs} (h : Keeps s0 s) :
    Keeps s0 (Machine.crdWrite s b va bs).2 := .ite_snd h h.writeVa

theorem Keeps.crdSend {b src op rank t e share off first last bs n} (h : Keeps s0 s) :
    Keeps s0 (Machine.crdSend s b src op rank t e share off first last bs n) := by
  induction n generalizing s off first bs with
  | zero => exact h
  | succ n ih => exact .ite h.submit (ih h.submit)

theorem Keeps.failTag {t st} (h : Keeps s0 s) :
    Keeps s0 (Machine.failTag s t st) := h.frame rfl rfl

theorem Keeps.failOf {t w} (h : Keeps s0 s) :
    Keeps s0 (Machine.failOf s t w) := by
  unfold Machine.failOf
  split
  · exact h
  · exact h.failTag

theorem Keeps.countTag {b t} (h : Keeps s0 s) :
    Keeps s0 (Machine.countTag s b t) := by
  rw [Machine.countTag]
  refine .ite h ?_
  exact .foldl h.setTag fun _ _ h' => .ite h'.crdWrite.failOf h'.crdWrite.failOf.signalVa

theorem Keeps.applyDones {b t} (h : Keeps s0 s) :
    Keeps s0 (Machine.applyDones s b t) := .ite h h.setTag.countTag

theorem Keeps.crdRnr {k hdr} (h : Keeps s0 s) :
    Keeps s0 (Machine.crdRnr s k hdr) := h.frame rfl rfl

theorem Keeps.onCrdTok {k pkt hdr payload} (h : Keeps s0 s) :
    Keeps s0 (Machine.onCrdTok s k pkt hdr payload) := by
  rw [Machine.onCrdTok]
  refine h.request (fun _ h' => h'.sendAck) (fun _ h' => ?_)
  split
  · exact h'.refuseReq
  · refine .ite h'.crdRnr ?_
    refine .ite h'.refuseReq ?_
    dsimp only
    split
    · exact h'.writeVa
    · exact h'.writeVa.refuseReq
    · exact h'.writeVa.modTag.acceptReq

theorem Keeps.onCrdDone {k pkt hdr payload} (h : Keeps s0 s) :
    Keeps s0 (Machine.onCrdDone s k pkt hdr payload) := by
  rw [Machine.onCrdDone]
  refine h.request (fun _ h' => h'.sendAck) (fun _ h' => ?_)
  split
  · exact h'.refuseReq
  · exact .ite h'.crdRnr (.ite h'.refuseReq h'.modTag.acceptReq.applyDones)

theorem Keeps.sendExpert {b src t rank e cs tokens} (h : Keeps s0 s) :
    Keeps s0 (Machine.sendExpert s b src t rank e cs tokens) := .foldl h fun _ _ h' => h'.crdSend

theorem Keeps.sendDone {b src t rank count} (h : Keeps s0 s) :
    Keeps s0 (Machine.sendDone s b src t rank count) := h.crdSend

theorem Keeps.sendRank {b src t rank cs tokens} (h : Keeps s0 s) :
    Keeps s0 (Machine.sendRank s b src t rank cs tokens) :=
  .ite h (.sendDone (.foldl h fun _ _ h' => h'.sendExpert))

theorem Keeps.copyOwn {b t cs tokens} (h : Keeps s0 s) :
    Keeps s0 (Machine.copyOwn s b t cs tokens).2 := by
  rw [Machine.copyOwn]
  refine .countTag (.modTag (.foldl_snd h fun _ _ h' => ?_))
  split
  · exact h'
  · refine .foldl_snd h' fun _ _ h' => ?_
    split
    · exact h'
    · exact h'.crdWrite

theorem Keeps.crdSignal {b e} (h : Keeps s0 s) :
    Keeps s0 (Machine.crdSignal s b e).2 := h.signalFor

theorem Keeps.countFailed {n} (h : Keeps s0 s) :
    Keeps s0 (Machine.countFailed s n) := h.frame rfl rfl

theorem Keeps.markFailed {t f} (h : Keeps s0 s) :
    Keeps s0 (Machine.markFailed s t f) := h.frame rfl rfl

theorem Keeps.beginDispatch {b e} (h : Keeps s0 s) :
    Keeps s0 (Machine.beginDispatch s b e) := by
  rw [Machine.beginDispatch]
  split
  · exact h.consumeHead.crdReads.modTag.completeEntry
  · dsimp only
    split
    · exact h.consumeHead.crdReads.crdReads.modTag.completeEntry
    · exact .failOf
          (.copyOwn (.foldl h.consumeHead.crdReads.crdReads.takeFree.modTag.modTag.countFailed
          fun _ _ h' => h'.sendRank))

theorem Keeps.endDispatch {b t e} (h : Keeps s0 s) :
    Keeps s0 (Machine.endDispatch s b t e) :=
  h.crdWrite.crdSignal.bump.bump.modTag.completeEntry

theorem Keeps.sendReturns {b t e} (h : Keeps s0 s) :
    Keeps s0 (Machine.sendReturns s b t e) := by
  rw [Machine.sendReturns]
  refine .foldl h fun _ _ h' => .ite h' ?_
  dsimp only
  split
  · exact .ite h'.crdRead.failTag.markFailed h'.crdRead.failTag
  · exact .ite h'.crdRead.failTag.markFailed h'.crdRead.failTag
  · refine .ite ?_ h'.crdRead.crdSend
    split
    · exact .ite h'.crdRead.crdWrite.failTag.markFailed h'.crdRead.crdWrite.failTag
    · exact h'.crdRead.crdWrite.modTag

theorem Keeps.beginCombine {b e} (h : Keeps s0 s) :
    Keeps s0 (Machine.beginCombine s b e) := by
  rw [Machine.beginCombine]
  split
  · exact h.consumeHead.crdRead.setTag.completeEntry
  · exact h.consumeHead.crdRead.setTag.completeEntry
  · refine .ite h.consumeHead.crdRead.setTag.completeEntry ?_
    exact h.consumeHead.crdRead.modTag.markFailed.sendReturns

theorem Keeps.onCrdRet {k pkt hdr payload} (h : Keeps s0 s) :
    Keeps s0 (Machine.onCrdRet s k pkt hdr payload) := by
  rw [Machine.onCrdRet]
  refine h.request (fun _ h' => h'.sendAck) (fun _ h' => ?_)
  split
  · exact h'.refuseReq
  · refine .ite h'.refuseReq ?_
    split
    · exact h'.crdRnr
    · refine .ite h'.refuseReq ?_
      dsimp only
      split
      · exact h'.writeVa.failTag
      · exact h'.writeVa.refuseReq
      · exact h'.writeVa.modTag.acceptReq

theorem Keeps.tokenOuts {b e cs all} (h : Keeps s0 s) :
    Keeps s0 (Machine.tokenOuts s b e cs all).2 := by
  rw [Machine.tokenOuts]
  refine .foldl_snd h fun _ _ h' => ?_
  split
  · exact h'
  · exact h'.crdRead

theorem Keeps.writeOutputs {b e cs} (h : Keeps s0 s) :
    Keeps s0 (Machine.writeOutputs s b e cs).2 := by
  rw [Machine.writeOutputs]
  refine .foldl_snd h fun _ _ h' => ?_
  split
  · exact h'
  · dsimp only
    split
    · exact h'.tokenOuts
    · exact h'.tokenOuts.crdWrite

theorem Keeps.refreshRoute {b x e} (h : Keeps s0 s) :
    Keeps s0 (Machine.refreshRoute s b x e).2 := .ite_snd h.crdWrite h

theorem Keeps.endCombine {b t e} (h : Keeps s0 s) :
    Keeps s0 (Machine.endCombine s b t e) :=
  h.refreshRoute.writeOutputs.crdSignal.setTag.completeEntry

theorem Keeps.crdEvent {ev} (h : Keeps s0 s) :
    Keeps s0 (Machine.crdEvent s ev) := by
  unfold Machine.crdEvent
  split
  · split
    · exact h
    · exact .foldl h fun _ _ h' => .ite h' (.ite h'.setTag.markFailed h'.setTag)
  · split
    · exact h
    · exact .ite (.ite h.setTag h) (.ite h (.ite h.failTag h.markFailed))
  · exact h

theorem Keeps.crdSettle (h : Keeps s0 s) :
    Keeps s0 (Machine.crdSettle s) :=
  .foldl h fun _ _ h' => .foldl h' fun _ _ h2 => .ite h2 h2.applyDones

theorem Keeps.withdraw {b e} (h : Keeps s0 s) :
    Keeps s0 (Machine.withdraw s b e) := .foldl h fun _ _ h' => h'.modQp

theorem Keeps.stopDispatch {b t e} (h : Keeps s0 s) :
    Keeps s0 (Machine.stopDispatch s b t e) :=
  .completeEntry (.modTag (.foldl h.withdraw fun _ _ h' => h'.sendDone))

theorem Keeps.stopCombine {b t e} (h : Keeps s0 s) :
    Keeps s0 (Machine.stopCombine s b t e) := h.withdraw.setTag.completeEntry

theorem Keeps.stopCarder {b} (h : Keeps s0 s) :
    Keeps s0 (Machine.stopCarder s b) := by
  rw [Machine.stopCarder]
  refine .foldl h fun _ _ h' => ?_
  dsimp only
  split
  · refine .stopCombine ?_
    split
    · exact h'.stopDispatch
    · exact h'
  · split
    · exact h'.stopDispatch
    · exact h'

theorem Keeps.crdAbort {b st} (h : Keeps s0 s) :
    Keeps s0 (Machine.crdAbort s b st) :=
  .foldl h fun _ _ h' => .ite h' (.foldl h'.setTag fun _ _ h2 => h2.completeEntry)

/-! Machine/NetOps.lean -/

theorem Keeps.settleUnits (h : Keeps s0 s) :
    Keeps s0 (Machine.settleUnits s) :=
  .bshGoAll (.crdSettle (.foldl (.frame h rfl rfl) fun _ _ h' => h'.bshEvent.crdEvent))

theorem Keeps.xptDone {s'} (h : Keeps s0 s) :
    Keeps s0 (Machine.xptDone s' s) := h.settleUnits.mirrorDone

end Sys2Proof.Machine
end

section
/-! SUPPORT. Work requests, connections and the rows of the network keep memory canonical and the
version floor. -/

namespace Sys2Proof.Machine

variable {s0 s : State}

/-! Machine/XptSq.lean -/

theorem Keeps.sqSubmit {r e} (h : Keeps s0 s) :
    Keeps s0 (Machine.sqSubmit s r e) := by
  rw [Machine.sqSubmit]
  refine .ite h.consumeHead.fkTouch.submit ?_
  split
  · exact h.consumeHead.fkTouch.submit
  · exact h.consumeHead.fkTouch.submit
  · exact h.consumeHead.fkTouch.submit
  · exact h.consumeHead.fkTouch.submit
  · exact h.consumeHead.fkTouch.submit

theorem Keeps.markGated {r} (h : Keeps s0 s) :
    Keeps s0 (Machine.markGated s r) := h.frame rfl rfl

theorem Keeps.payGate {r e} (h : Keeps s0 s) :
    Keeps s0 (Machine.payGate s r e) := .ite h.modQp h

theorem Keeps.sqStart {op r} (h : Keeps s0 s) :
    Keeps s0 (Machine.sqStart op s r) := by
  rw [Machine.sqStart]
  split
  · exact h
  · refine .ite h ?_
    refine .ite h.consumeMalformed ?_
    split
    · exact h.finishHead
    · exact .ite h.fkWant h
    · refine .ite h ?_
      refine .ite h.sqSubmit ?_
      split
      · exact h.finishHead
      · exact h.markGated

theorem Keeps.gateStart {g r} (h : Keeps s0 s) :
    Keeps s0 (Machine.gateStart g s r) := by
  rw [Machine.gateStart]
  split
  · exact h
  · refine .ite h ?_
    refine .ite h.finishHead ?_
    split
    · exact h.finishHead
    · exact h
    · dsimp only
      split
      · exact h.finishHead
      · exact .ite h.fkWant h
      · exact h.payGate.sqSubmit

theorem Keeps.execSend {r} (h : Keeps s0 s) :
    Next s0 (Machine.execSend r s) := .mk h.sqStart.xptDone

theorem Keeps.execWrite {r} (h : Keeps s0 s) :
    Next s0 (Machine.execWrite r s) := .mk h.sqStart.xptDone

theorem Keeps.execWriteImm {r} (h : Keeps s0 s) :
    Next s0 (Machine.execWriteImm r s) := .mk h.sqStart.xptDone

theorem Keeps.execRead {r} (h : Keeps s0 s) :
    Next s0 (Machine.execRead r s) := .mk h.sqStart.xptDone

theorem Keeps.execAtomicFadd {r} (h : Keeps s0 s) :
    Next s0 (Machine.execAtomicFadd r s) := .mk h.sqStart.xptDone

theorem Keeps.execAtomicCas {r} (h : Keeps s0 s) :
    Next s0 (Machine.execAtomicCas r s) := .mk h.sqStart.xptDone

theorem Keeps.execSignal {r} (h : Keeps s0 s) :
    Next s0 (Machine.execSignal r s) := .mk h.sqStart.xptDone

theorem Keeps.execEnable {r} (h : Keeps s0 s) :
    Next s0 (Machine.execEnable r s) := .mk h.sqStart.xptDone

theorem Keeps.execEnableGateStart {r} (h : Keeps s0 s) :
    Next s0 (Machine.execEnableGateStart r s) := .mk h.gateStart.xptDone

theorem Keeps.execCountGateStart {r} (h : Keeps s0 s) :
    Next s0 (Machine.execCountGateStart r s) := .mk h.gateStart.xptDone

theorem Keeps.execGateTimeout {r} (h : Keeps s0 s) :
    Next s0 (Machine.execGateTimeout r s) := by
  rw [Machine.execGateTimeout]
  refine .mk (.xptDone ?_)
  split
  · exact h
  · exact .ite h.finishHead h

theorem Keeps.revokeGates {w} (h : Keeps s0 s) :
    Keeps s0 (Machine.revokeGates s w) := by
  rw [Machine.revokeGates]
  refine .foldl h fun _ _ h' => ?_
  split
  · exact h'
  · exact .ite h'.finishHead h'

theorem Keeps.execPacketTransmit {p n} (h : Keeps s0 s) :
    Next s0 (Machine.execPacketTransmit p n s) := by
  rw [Machine.execPacketTransmit]
  refine .mk ?_
  split
  · exact .ite h.partTurn.sendNext.xptDone h.partTurn
  · exact h

/-! Machine/XptConn.lean -/

theorem Keeps.sendConn {k op rqpn dst m} (h : Keeps s0 s) :
    Keeps s0 (Machine.sendConn s k op rqpn dst m) := h.frame rfl rfl

theorem Keeps.sendReq {k} (h : Keeps s0 s) :
    Keeps s0 (Machine.sendReq s k) := h.frame rfl rfl

theorem Keeps.sendRep {k} (h : Keeps s0 s) :
    Keeps s0 (Machine.sendRep s k) := h.frame rfl rfl

theorem Keeps.sendRtu {k} (h : Keeps s0 s) :
    Keeps s0 (Machine.sendRtu s k) := h.frame rfl rfl

theorem Keeps.sendRej {k rqpn dst connid st} (h : Keeps s0 s) :
    Keeps s0 (Machine.sendRej s k rqpn dst connid st) := h.frame rfl rfl

theorem Keeps.sendDisconnect {k} (h : Keeps s0 s) :
    Keeps s0 (Machine.sendDisconnect s k) := h.takeFree.sendConn

theorem Keeps.startResend {k} (h : Keeps s0 s) :
    Keeps s0 (Machine.startResend s k) := h.frame rfl rfl

theorem Keeps.sendMig {k op naddr mseq} (h : Keeps s0 s) :
    Keeps s0 (Machine.sendMig s k op naddr mseq) := h.frame rfl rfl

theorem Keeps.startMigrate {k} (h : Keeps s0 s) :
    Keeps s0 (Machine.startMigrate s k) := .ite h h.modQp

theorem Keeps.answerReq {k p c fresh} (h : Keeps s0 s) :
    Keeps s0 (Machine.answerReq s k p c fresh) := by
  rw [Machine.answerReq]
  split
  · exact h.sendRej
  · exact .startResend (.sendRep (.modQp (.ite_snd h.takeFree h)))

theorem Keeps.onConnReq {k p hdr payload} (h : Keeps s0 s) :
    Keeps s0 (Machine.onConnReq s k p hdr payload) := by
  rw [Machine.onConnReq]
  split
  · exact .ite (.ite h.sendRep h.sendRej) (.ite h.answerReq h.bump)
  · exact .ite (.ite h.sendRep h.sendRej) (.ite h.bump (.ite h.answerReq h))
  · exact .ite (.ite h.sendRep h.sendRej) h.sendRej
  · exact .ite (.ite h.sendRep h.sendRej) h.sendRej
  · exact h

theorem Keeps.onConnRep {k pkt hdr payload} (h : Keeps s0 s) :
    Keeps s0 (Machine.onConnRep s k pkt hdr payload) := by
  rw [Machine.onConnRep]
  refine .ite h ?_
  split
  · exact .ite h (.ite h.sendRej.enterError h.modQp.enterRts.sendRtu)
  · exact h.sendRtu
  · exact h.sendRtu
  · exact h

theorem Keeps.onConnRtu {k pkt hdr payload} (h : Keeps s0 s) :
    Keeps s0 (Machine.onConnRtu s k pkt hdr payload) := .ite h.enterRts h

theorem Keeps.onConnRej {k pkt hdr payload} (h : Keeps s0 s) :
    Keeps s0 (Machine.onConnRej s k pkt hdr payload) := .ite h.enterError h

theorem Keeps.onDisconnect {k pkt hdr payload} (h : Keeps s0 s) :
    Keeps s0 (Machine.onDisconnect s k pkt hdr payload) := .ite h.enterError h

theorem Keeps.loseAll {k ps} (h : Keeps s0 s) :
    Keeps s0 (Machine.loseAll s k ps) := .foldl h fun _ _ h' => .ite h'.loseP h'

theorem Keeps.onPathMigrate {k pkt hdr payload} (h : Keeps s0 s) :
    Keeps s0 (Machine.onPathMigrate s k pkt hdr payload) := .ite h.bump
        h.modQp.sendMig.loseAll.qpEvent

theorem Keeps.onPathMigrateAck {k pkt hdr payload} (h : Keeps s0 s) :
    Keeps s0 (Machine.onPathMigrateAck s k pkt hdr payload) := .ite h.setQp h.bump

theorem Keeps.againLater {k x} (h : Keeps s0 s) :
    Keeps s0 (Machine.againLater s k x) := h.frame rfl rfl

theorem Keeps.execConnectResend {p n} (h : Keeps s0 s) :
    Next s0 (Machine.execConnectResend p n s) := by
  rw [Machine.execConnectResend]
  refine .mk ?_
  split
  · exact h
  · refine .ite h ?_
    exact .ite h.enterError.xptDone (.xptDone (.againLater (.ite h.sendRep h.sendReq)))

theorem Keeps.execPathMigrateResend {p n} (h : Keeps s0 s) :
    Next s0 (Machine.execPathMigrateResend p n s) := by
  rw [Machine.execPathMigrateResend]
  refine .mk ?_
  split
  · exact h
  · refine .ite h ?_
    exact .ite h.setQp.xptDone (.xptDone (.sendMig (.ite h.startResend h.againLater)))

/-! Machine/XptTimers.lean -/

theorem Keeps.execAckTimer {p n} (h : Keeps s0 s) :
    Next s0 (Machine.execAckTimer p n s) := by
  rw [Machine.execAckTimer]
  refine .mk ?_
  split
  · exact h
  · exact .ite (.ite h.sendAck.xptDone h.fkWant) h

theorem Keeps.execRtoExpiry {p n} (h : Keeps s0 s) :
    Next s0 (Machine.execRtoExpiry p n s) := by
  rw [Machine.execRtoExpiry]
  refine .mk ?_
  split
  · exact h
  · exact .ite h (.xptDone (.ite h.loseP h.loseP.modQp))

theorem Keeps.execRnrPauseEnd {p n} (h : Keeps s0 s) :
    Next s0 (Machine.execRnrPauseEnd p n s) := by
  rw [Machine.execRnrPauseEnd]
  refine .mk ?_
  split
  · exact h
  · exact .ite h h.setQp.xptDone

theorem Keeps.execIdleTagAck {p n} (h : Keeps s0 s) :
    Next s0 (Machine.execIdleTagAck p n s) :=
  .mk (.ite (.ite h.sendAck.modQp.xptDone h.fkWant) h)

theorem Keeps.execPrevKeyExpiry {fn i} (h : Keeps s0 s) :
    Next s0 (Machine.execPrevKeyExpiry fn i s) := .mk (.ite h.setSlot h)

theorem Keeps.execTxload {fn i} (h : Keeps s0 s) :
    Next s0 (Machine.execTxload fn i s) := .mk (.ite h h.modSlot)

theorem Keeps.execRxload {fn i} (h : Keeps s0 s) :
    Next s0 (Machine.execRxload fn i s) := .mk (.ite h h.modSlot)

theorem Keeps.execKsClr {fn i} (h : Keeps s0 s) :
    Next s0 (Machine.execKsClr fn i s) := .mk (.ite h h.modSlot)

/-! Machine/XptAdmin.lean -/

theorem Keeps.xptCommand {op r f}
    (hf : ∀ s x1 x2, Keeps s0 s → Keeps s0 (f s x1 x2).state) (h : Keeps s0 s) :
    Keeps s0 (Machine.xptCommand op r f s) := by
  rw [Machine.xptCommand]
  split
  · exact h
  · exact .ite h (.xptDone (.completeMirrored (.mpTook (hf _ _ _ h))))

theorem Keeps.qpCreate {p e} (h : Keeps s0 s) :
    Keeps s0 (Machine.qpCreate s p e).state := by
  rw [Machine.qpCreate]
  refine .ite_aqState (.aqAnswer h) ?_
  refine .ite_aqState (.aqAnswer h) ?_
  refine .ite_aqState ?_ ?_
  · exact .ite_snd (.ite_snd h h.rangeOk) (.rangeOk (.ite_snd h h.rangeOk))
  · exact .setQp (.ite_snd (.ite_snd h h.rangeOk) (.rangeOk (.ite_snd h h.rangeOk)))

theorem Keeps.qpStartConn {p e listen} (h : Keeps s0 s) :
    Keeps s0 (Machine.qpStartConn s p e listen).state := by
  rw [Machine.qpStartConn]
  refine .ite_aqState (.aqAnswer h) ?_
  split
  · exact h
  · exact h
  · refine .ite (.ite h.takeFree.takeFree.modQp h.takeFree.takeFree.modQp.modSlot) ?_
    exact .startResend (.sendReq (.ite h.takeFree.takeFree.modQp h.takeFree.takeFree.modQp.modSlot))

theorem Keeps.qpModify {p e} (h : Keeps s0 s) :
    Keeps s0 (Machine.qpModify s p e).state := by
  rw [Machine.qpModify]
  refine .ite_aqState (.aqAnswer h) ?_
  refine .ite_aqState (.aqAnswer h) ?_
  refine .ite_aqState (.aqAnswer h) ?_
  refine .ite_aqState h.qpStartConn ?_
  refine .ite_aqState (.aqAnswer h) ?_
  split
  · exact h.setQp.checkDrained
  · exact h.setQp
  · exact h.sendDisconnect.enterInit
  · exact h.sendDisconnect.enterInit
  · exact h.enterInit
  · exact h.enterInit
  · exact h.enterInit
  · exact h

theorem Keeps.removeQp {k} (h : Keeps s0 s) :
    Keeps s0 (Machine.removeQp s k) := .frame h.abortOps.unbindSlot.abortHeld rfl rfl

theorem Keeps.qpDestroy {p e} (h : Keeps s0 s) :
    Keeps s0 (Machine.qpDestroy s p e).state := by
  rw [Machine.qpDestroy]
  refine .ite_aqState (.aqAnswer h) ?_
  split
  · exact h
  · exact h.sendDisconnect.removeQp
  · exact h.sendDisconnect.removeQp
  · exact h.removeQp

theorem Keeps.execQpCreate {r} (h : Keeps s0 s) :
    Next s0 (Machine.execQpCreate r s) := .mk (h.xptCommand (fun _ _ _ h' => h'.qpCreate))

theorem Keeps.execQpModify {r} (h : Keeps s0 s) :
    Next s0 (Machine.execQpModify r s) := .mk (h.xptCommand (fun _ _ _ h' => h'.qpModify))

theorem Keeps.execQpDestroy {r} (h : Keeps s0 s) :
    Next s0 (Machine.execQpDestroy r s) := .mk (h.xptCommand (fun _ _ _ h' => h'.qpDestroy))

theorem Keeps.syncRangeOk {p c va n} (h : Keeps s0 s) :
    Keeps s0 (Machine.syncRangeOk s p c va n).2 := by
  induction n generalizing s va with
  | zero => exact h
  | succ n ih =>
    rw [Machine.syncRangeOk]
    split
    · exact h.access
    · exact .ite_snd (ih h.access) h.access

theorem Keeps.keyRegister {p e} (h : Keeps s0 s) :
    Keeps s0 (Machine.keyRegister s p e).state := by
  rw [Machine.keyRegister]
  refine .ite_aqState (.aqAnswer h) ?_
  refine .ite_aqState (.aqAnswer h) ?_
  refine .ite_aqState (.aqAnswer h) ?_
  refine .ite_aqState (.aqAnswer (.ite_snd h.syncRangeOk h.rangeOk)) ?_
  exact .setMemKey (.ite_snd h.syncRangeOk h.rangeOk)

theorem Keeps.keyDeregister {p e} (h : Keeps s0 s) :
    Keeps s0 (Machine.keyDeregister s p e).state :=
  .ite_aqState (.aqAnswer h) (.ite_aqState (.aqAnswer h) (.aqAnswer h.setMemKey))

theorem Keeps.execKeyRegister {r} (h : Keeps s0 s) :
    Next s0 (Machine.execKeyRegister r s) :=
  .mk (h.xptCommand (fun _ _ _ h' => h'.keyRegister))

theorem Keeps.execKeyDeregister {r} (h : Keeps s0 s) :
    Next s0 (Machine.execKeyDeregister r s) :=
  .mk (h.xptCommand (fun _ _ _ h' => h'.keyDeregister))

/-! Machine/XptRows.lean -/

theorem Keeps.execSendArrival {p} (h : Keeps s0 s) :
    Next s0 (Machine.execSendArrival p s) :=
  .mk (.xptDone (h.arrive (fun _ _ _ _ _ h' => h'.onSend)))

theorem Keeps.execWriteArrival {p} (h : Keeps s0 s) :
    Next s0 (Machine.execWriteArrival p s) :=
  .mk (.xptDone (h.arrive (fun _ _ _ _ _ h' => h'.onWrite)))

theorem Keeps.execWriteImmArrival {p} (h : Keeps s0 s) :
    Next s0 (Machine.execWriteImmArrival p s) :=
  .mk (.xptDone (h.arrive (fun _ _ _ _ _ h' => h'.onWrite)))

theorem Keeps.execReadReq {p} (h : Keeps s0 s) :
    Next s0 (Machine.execReadReq p s) :=
  .mk (.xptDone (h.arrive (fun _ _ _ _ _ h' => h'.onReadReq)))

theorem Keeps.execReadResp {p} (h : Keeps s0 s) :
    Next s0 (Machine.execReadResp p s) :=
  .mk (.xptDone (h.arrive (fun _ _ _ _ _ h' => h'.onReadResp)))

theorem Keeps.execAtomicFaddArrival {p} (h : Keeps s0 s) :
    Next s0 (Machine.execAtomicFaddArrival p s) :=
  .mk (.xptDone (h.arrive (fun _ _ _ _ _ h' => h'.onAtomic)))

theorem Keeps.execAtomicCasArrival {p} (h : Keeps s0 s) :
    Next s0 (Machine.execAtomicCasArrival p s) :=
  .mk (.xptDone (h.arrive (fun _ _ _ _ _ h' => h'.onAtomic)))

theorem Keeps.execAtomicResp {p} (h : Keeps s0 s) :
    Next s0 (Machine.execAtomicResp p s) :=
  .mk (.xptDone (h.arrive (fun _ _ _ _ _ h' => h'.onAtomicResp)))

theorem Keeps.execSignalArrival {p} (h : Keeps s0 s) :
    Next s0 (Machine.execSignalArrival p s) :=
  .mk (.xptDone (h.arrive (fun _ _ _ _ _ h' => h'.onSignal)))

theorem Keeps.execEnableArrival {p} (h : Keeps s0 s) :
    Next s0 (Machine.execEnableArrival p s) :=
  .mk (.xptDone (h.arrive (fun _ _ _ _ _ h' => h'.onEnable)))

theorem Keeps.execAck {p} (h : Keeps s0 s) :
    Next s0 (Machine.execAck p s) :=
  .mk (.xptDone (h.arrive (fun _ _ _ _ _ h' => h'.onAck)))

theorem Keeps.execNak {p} (h : Keeps s0 s) :
    Next s0 (Machine.execNak p s) :=
  .mk (.xptDone (h.arrive (fun _ _ _ _ _ h' => h'.onNak)))

theorem Keeps.execRnr {p} (h : Keeps s0 s) :
    Next s0 (Machine.execRnr p s) :=
  .mk (.xptDone (h.arrive (fun _ _ _ _ _ h' => h'.onRnr)))

theorem Keeps.execConnectReq {p} (h : Keeps s0 s) :
    Next s0 (Machine.execConnectReq p s) :=
  .mk (.xptDone (h.arrive (fun _ _ _ _ _ h' => h'.onConnReq)))

theorem Keeps.execConnectRep {p} (h : Keeps s0 s) :
    Next s0 (Machine.execConnectRep p s) :=
  .mk (.xptDone (h.arrive (fun _ _ _ _ _ h' => h'.onConnRep)))

theorem Keeps.execConnectRtu {p} (h : Keeps s0 s) :
    Next s0 (Machine.execConnectRtu p s) :=
  .mk (.xptDone (h.arrive (fun _ _ _ _ _ h' => h'.onConnRtu)))

theorem Keeps.execConnectRej {p} (h : Keeps s0 s) :
    Next s0 (Machine.execConnectRej p s) :=
  .mk (.xptDone (h.arrive (fun _ _ _ _ _ h' => h'.onConnRej)))

theorem Keeps.execDisconnect {p} (h : Keeps s0 s) :
    Next s0 (Machine.execDisconnect p s) :=
  .mk (.xptDone (h.arrive (fun _ _ _ _ _ h' => h'.onDisconnect)))

theorem Keeps.execPathMigrate {p} (h : Keeps s0 s) :
    Next s0 (Machine.execPathMigrate p s) :=
  .mk (.xptDone (h.arrive (fun _ _ _ _ _ h' => h'.onPathMigrate)))

theorem Keeps.execPathMigrateAck {p} (h : Keeps s0 s) :
    Next s0 (Machine.execPathMigrateAck p s) :=
  .mk (.xptDone (h.arrive (fun _ _ _ _ _ h' => h'.onPathMigrateAck)))

theorem Keeps.execBshData {p used} (h : Keeps s0 s) :
    Next s0 (Machine.execBshData p used s) := by
  rw [Machine.execBshData]
  exact .mk (.xptDone (h.arriveWith (fun _ _ _ _ _ h' => h'.onBshData)
      (fun _ _ _ _ h' => h'.bshCheckFailed)))

theorem Keeps.execBshCredit {p} (h : Keeps s0 s) :
    Next s0 (Machine.execBshCredit p s) :=
  .mk (.xptDone (h.arrive (fun _ _ _ _ _ h' => h'.onBshCredit)))

theorem Keeps.execBshTree {p} (h : Keeps s0 s) :
    Next s0 (Machine.execBshTree p s) :=
  .mk (.xptDone (h.arrive (fun _ _ _ _ _ h' => h'.onBshControl)))

theorem Keeps.execBshTaint {p} (h : Keeps s0 s) :
    Next s0 (Machine.execBshTaint p s) :=
  .mk (.xptDone (h.arrive (fun _ _ _ _ _ h' => h'.onBshControl)))

theorem Keeps.execBshAbort {p} (h : Keeps s0 s) :
    Next s0 (Machine.execBshAbort p s) :=
  .mk (.xptDone (h.arrive (fun _ _ _ _ _ h' => h'.onBshControl)))

theorem Keeps.execCrdTok {p} (h : Keeps s0 s) :
    Next s0 (Machine.execCrdTok p s) :=
  .mk (.xptDone (h.arrive (fun _ _ _ _ _ h' => h'.onCrdTok)))

theorem Keeps.execCrdDone {p} (h : Keeps s0 s) :
    Next s0 (Machine.execCrdDone p s) :=
  .mk (.xptDone (h.arrive (fun _ _ _ _ _ h' => h'.onCrdDone)))

theorem Keeps.execCrdRet {p} (h : Keeps s0 s) :
    Next s0 (Machine.execCrdRet p s) :=
  .mk (.xptDone (h.arrive (fun _ _ _ _ _ h' => h'.onCrdRet)))

theorem Keeps.handlerOf {op n pkt hdr bs} (h : Keeps s0 s) :
    Keeps s0 (Machine.handlerOf op s n pkt hdr bs) := by
  unfold Machine.handlerOf
  split
  · exact h.onSend
  · exact h.onWrite
  · exact h.onWrite
  · exact h.onReadReq
  · exact h.onReadResp
  · exact h.onAtomic
  · exact h.onAtomic
  · exact h.onAtomicResp
  · exact h.onSignal
  · exact h.onEnable
  · exact h.onAck
  · exact h.onNak
  · exact h.onRnr
  · exact h.onConnReq
  · exact h.onConnRep
  · exact h.onConnRtu
  · exact h.onConnRej
  · exact h.onDisconnect
  · exact h.onPathMigrate
  · exact h.onPathMigrateAck
  · exact h.onBshData
  · exact h.onBshCredit
  · exact h.onBshControl
  · exact h.onBshControl
  · exact h.onBshControl
  · exact h.onCrdTok
  · exact h.onCrdDone
  · exact h.onCrdRet
  · exact h

theorem Keeps.writeBack {k} (h : Keeps s0 s) :
    Keeps s0 (Machine.writeBack s k) := .ite h.writeMem h

theorem Keeps.fkEvict {k} (h : Keeps s0 s) :
    Keeps s0 (Machine.fkEvict s k) :=
  .ite (.frame h.writeBack rfl rfl) (.fkWant (.frame h.writeBack rfl rfl))

theorem Keeps.execContextFetchStart {p n} (h : Keeps s0 s) :
    Next s0 (Machine.execContextFetchStart p n s) := by
  rw [Machine.execContextFetchStart]
  refine .mk ?_
  split
  · exact h
  · refine .ite (.bump (.frame h rfl rfl)) ?_
    split
    · exact h
    · exact .bump (.frame h.fkEvict rfl rfl)

theorem Keeps.takeMissed {k} (h : Keeps s0 s) :
    Keeps s0 (Machine.takeMissed s k).2 := .frame h rfl rfl

theorem Keeps.dropMissed {k} (h : Keeps s0 s) :
    Keeps s0 (Machine.dropMissed s k) := .foldl h.takeMissed fun _ _ h' => h'.bump

theorem Keeps.settleTaken {k} (h : Keeps s0 s) :
    Keeps s0 (Machine.settleTaken s k) :=
  .ite h (.ite h.setQp (.ite h.setQp.sendDisconnect.enterError h.setQp.modQp))

theorem Keeps.playMissed {k p} (h : Keeps s0 s) :
    Keeps s0 (Machine.playMissed k s p) := by
  rw [Machine.playMissed]
  split
  · exact h
  · refine h.processPkt (fun _ _ _ _ _ h' => h'.handlerOf) (fun _ _ _ _ h' => ?_)
    split
    · exact h'.bshCheckFailed
    · exact h'.justDrop

theorem Keeps.execContextFetchComplete {p n} (h : Keeps s0 s) :
    Next s0 (Machine.execContextFetchComplete p n s) := by
  have begun {f} : Keeps s0 { s with firkin := f } := h.frame rfl rfl
  have read {f pa n} : Keeps s0 (Machine.readMem { s with firkin := f } pa n).2.2 := begun.readMem
  have cached {f pa n g} :
      Keeps s0 { (Machine.readMem { s with firkin := f } pa n).2.2 with firkin := g } :=
    read.frame rfl rfl
  rw [Machine.execContextFetchComplete]
  refine .mk (.ite h (.ite begun.takeMissed.bump.xptDone (.ite begun.dropMissed ?_)))
  exact .ite read.dropMissed.enterError.xptDone 
    (.xptDone (.foldl cached.settleTaken.takeMissed fun _ _ h' => h'.playMissed))

/-! Machine/BushelSteps.lean -/

theorem Keeps.groupCreate {p e} (h : Keeps s0 s) :
    Keeps s0 (Machine.groupCreate s p e).2 :=
  .ite_snd h (.ite_snd h (.ite_snd h (.ite_snd h (.pair h.pinAll.setBsh))))

theorem Keeps.finishTaken {r st} (h : Keeps s0 s) :
    Keeps s0 (Machine.finishTaken s r st) := .foldl h fun _ _ h' => h'.finishHead

theorem Keeps.groupDestroy {p e} (h : Keeps s0 s) :
    Keeps s0 (Machine.groupDestroy s p e).2 :=
  .ite_snd h (.ite_snd h (.pair h.bshAbort.finishTaken.fkUnpin.setBsh))

theorem Keeps.unitCommand {op r f}
    (hf : ∀ s x1 x2, Keeps s0 s → Keeps s0 (f s x1 x2).2) (h : Keeps s0 s) :
    Keeps s0 (Machine.unitCommand op r f s) := by
  rw [Machine.unitCommand]
  split
  · exact h
  · refine .ite h ?_
    refine .ite (.xptDone (.completeEntry (.mpTook (hf _ _ _ h)))) ?_
    exact .foldl h fun _ _ h' => h'.fkWant

theorem Keeps.execGroupCreate {r} (h : Keeps s0 s) :
    Next s0 (Machine.execGroupCreate r s) :=
  .mk (h.unitCommand (fun _ _ _ h' => h'.groupCreate))

theorem Keeps.execGroupDestroy {r} (h : Keeps s0 s) :
    Next s0 (Machine.execGroupDestroy r s) :=
  .mk (h.unitCommand (fun _ _ _ h' => h'.groupDestroy))

theorem Keeps.execReduceScatter {r} (h : Keeps s0 s) :
    Next s0 (Machine.execReduceScatter r s) := .mk h.bshStart.xptDone

theorem Keeps.execAllGather {r} (h : Keeps s0 s) :
    Next s0 (Machine.execAllGather r s) := .mk h.bshStart.xptDone

theorem Keeps.execBroadcast {r} (h : Keeps s0 s) :
    Next s0 (Machine.execBroadcast r s) := .mk h.bshStart.xptDone

theorem Keeps.execBarrier {r} (h : Keeps s0 s) :
    Next s0 (Machine.execBarrier r s) := .mk h.bshStart.xptDone

theorem Keeps.execScalarReduce {r} (h : Keeps s0 s) :
    Next s0 (Machine.execScalarReduce r s) := .mk h.bshStart.xptDone

theorem Keeps.execQuiesce {r} (h : Keeps s0 s) :
    Next s0 (Machine.execQuiesce r s) := .mk h.bshStart.xptDone

theorem Keeps.execSparseAllGather {r} (h : Keeps s0 s) :
    Next s0 (Machine.execSparseAllGather r s) := .mk h.bshStart.xptDone

theorem Keeps.execBushelRerun {gid} (h : Keeps s0 s) :
    Next s0 (Machine.execBushelRerun gid s) := by
  rw [Machine.execBushelRerun]
  refine .mk ?_
  split
  · exact h
  · exact .ite h.rerun.xptDone h

theorem Keeps.execBushelComplete {gid} (h : Keeps s0 s) :
    Next s0 (Machine.execBushelComplete gid s) := by
  rw [Machine.execBushelComplete]
  refine .mk ?_
  split
  · exact h
  · exact .ite h.bshFinish.xptDone h

theorem Keeps.execBushelStallTimeout {gid} (h : Keeps s0 s) :
    Next s0 (Machine.execBushelStallTimeout gid s) := by
  rw [Machine.execBushelStallTimeout]
  refine .mk ?_
  split
  · exact h
  · exact .ite h.bshAbort.xptDone h

theorem Keeps.execBushelPreemptTimeout {gid} (h : Keeps s0 s) :
    Next s0 (Machine.execBushelPreemptTimeout gid s) := by
  rw [Machine.execBushelPreemptTimeout]
  refine .mk ?_
  split
  · exact h
  · split
    · exact h
    · exact .ite h.bshAbort.xptDone h

/-! Machine/Net.lean -/

theorem Keeps.netIssue {i k op align dst len data t f} (h : Keeps s0 s) :
    Keeps s0 (Machine.netIssue i k op align dst len data t f s) := by
  rw [Machine.netIssue]
  refine .xptDone (h.issue (fun _ _ _ h' => .ite h'.raise (.ite .wait ?_)))
  split
  · exact .exc h'
  · exact .ask (fun _ h' => h'.fkWant)
  · exact .state h'.setThread.fkTouch.submit

theorem Keeps.execPut {t f} (h : Keeps s0 s) :
    Next s0 (Machine.execPut t f s) := .mk h.netIssue

theorem Keeps.execGet {t f} (h : Keeps s0 s) :
    Next s0 (Machine.execGet t f s) := .mk h.netIssue

theorem Keeps.execAtomAdd {t f} (h : Keeps s0 s) :
    Next s0 (Machine.execAtomAdd t f s) := .mk h.netIssue

theorem Keeps.execAtomCas {t f} (h : Keeps s0 s) :
    Next s0 (Machine.execAtomCas t f s) := .mk h.netIssue

theorem Keeps.execSigR {t f} (h : Keeps s0 s) :
    Next s0 (Machine.execSigR t f s) := .mk h.netIssue

theorem Keeps.execNetResponse {t id} (h : Keeps s0 s) :
    Next s0 (Machine.execNetResponse t id s) := by
  rw [Machine.execNetResponse]
  refine .mk ?_
  dsimp only
  split
  · exact h
  · split
    · exact h
    · exact .ite h (.ite h.setThread h.setThread.settleThread)

theorem Keeps.startRemote {c d} (h : Keeps s0 s) :
    Keeps s0 (Machine.startRemote s c d) := by
  rw [Machine.startRemote]
  split
  · exact h.stopDesc
  · exact h.fkWant
  · exact h.putDesc.fkTouch.submit

theorem Keeps.execMoverDescriptorStart {c id} (h : Keeps s0 s) :
    Next s0 (Machine.execMoverDescriptorStart c id s) := by
  rw [Machine.execMoverDescriptorStart]
  refine .mk ?_
  split
  · exact h
  · refine .ite h ?_
    refine .ite h.stopDesc ?_
    exact .ite h.stopDesc (.ite h.startRemote.xptDone h.putDesc.moveLines)

theorem Keeps.execMoverComplete {c id} (h : Keeps s0 s) :
    Next s0 (Machine.execMoverComplete c id s) := by
  rw [Machine.execMoverComplete]
  refine .mk ?_
  split
  · exact h
  · split
    · exact h
    · exact .ite h h.completeDesc.settleGrid

/-! Machine/FaultSteps.lean -/

theorem Keeps.execFaultPostedHoldoffEnd {p} (h : Keeps s0 s) :
    Next s0 (Machine.execFaultPostedHoldoffEnd p s) := by
  rw [Machine.execFaultPostedHoldoffEnd]
  refine .mk (.ite h (.ite h.setFaults ?_))
  dsimp only
  split
  · exact h.setFaults.fqReport.ringError
  · exact .ite h.setFaults.fqReport.faultPosted h.setFaults.fqReport

theorem Keeps.assignFault {p} (h : Keeps s0 s) :
    Keeps s0 (Machine.assignFault s p) := by
  rw [Machine.assignFault]
  split
  · exact h
  · refine .ite h ?_
    dsimp only
    split
    · exact h.fqReady.setFaults.writeFq
    · exact h.fqReady

theorem Keeps.execFaultIdAssign {p} (h : Keeps s0 s) :
    Next s0 (Machine.execFaultIdAssign p s) := .mk h.assignFault

theorem Keeps.resolveOps {k hit fail} (h : Keeps s0 s) :
    Keeps s0 (Machine.resolveOps s k hit fail) := .ite (.foldl h fun _ _ h' => h'.failOp) h.modQp

theorem Keeps.resolveAgent {f fail a} (h : Keeps s0 s) :
    Keeps s0 (Machine.resolveAgent f fail s a) := by
  unfold Machine.resolveAgent
  split
  · exact .ite h (.ite h.modAgent (.ite h.takeException h.modAgent))
  · split
    · exact h
    · refine .ite h.putDesc ?_
      exact .ite h.putDesc.resolveOps (.ite h.stopDesc h.putDesc.moveLines)
  · exact h.resolveOps

theorem Keeps.resolveFaults {fs fail} (h : Keeps s0 s) :
    Keeps s0 (Machine.resolveFaults s fs fail) :=
  .foldl h fun _ _ h' => .foldl h' fun _ _ h2 => h2.resolveAgent

theorem Keeps.resolveFault {p fid fail} (h : Keeps s0 s) :
    Keeps s0 (Machine.resolveFault p fid fail s) := by
  rw [Machine.resolveFault]
  split
  · exact h
  · exact h.setFaults.resolveFaults.assignFault.xptDone

theorem Keeps.execFqRetry {p fid} (h : Keeps s0 s) :
    Next s0 (Machine.execFqRetry p fid s) := .mk (.ite h.resolveFault h)

theorem Keeps.execFqFail {p fid} (h : Keeps s0 s) :
    Next s0 (Machine.execFqFail p fid s) := .mk (.ite h.resolveFault h)

theorem Keeps.execFaultTimeout {p} (h : Keeps s0 s) :
    Next s0 (Machine.execFaultTimeout p s) := by
  rw [Machine.execFaultTimeout]
  refine .mk ?_
  split
  · exact h
  · exact h.setFaults.post.resolveFaults.assignFault.xptDone

/-! Machine/CarderSteps.lean -/

theorem Keeps.readTables {p c e} (h : Keeps s0 s) :
    Keeps s0 (Machine.readTables s p c e).2 := by
  unfold Machine.readTables
  extract_lets rd x q y
  have kept {s va n} (h : Keeps s0 s) : Keeps s0 (rd s va n).2 := by
    simp only [rd]
    split
    · exact .pair h.readVa
    · exact .pair h.readVa
  exact .pair (kept (kept (kept h)))

theorem Keeps.buffersOk {b} (h : Keeps s0 s) :
    Keeps s0 (Machine.buffersOk s b).2 :=
  .foldl_snd h fun _ _ h' => .foldl_snd h' fun _ _ h2 => .ite_snd h2 h2.rangeOk

theorem Keeps.carderBind {p e} (h : Keeps s0 s) :
    Keeps s0 (Machine.carderBind s p e).2 := by
  rw [Machine.carderBind]
  rcases hd : Machine.readTables _ _ _ _ with ⟨t, s1⟩
  have read := h.readTables.snd_eq hd
  refine .ite_snd (.pair read) (.ite_snd (.pair read) (.ite_snd (.pair read)
    (.ite_snd (.pair read) ?_)))
  rcases CrdTables.fail _ with _ | st
  · refine .ite_snd (.pair read.buffersOk) ?_
    extract_lets s2
    exact .pair (.frame (s := s2) read.buffersOk.pinAll rfl rfl)
  · exact .pair read

theorem Keeps.carderUnbind {p e} (h : Keeps s0 s) :
    Keeps s0 (Machine.carderUnbind s p e).2 := by
  rw [Machine.carderUnbind]
  split
  · exact h
  · exact .ite_snd h (.frame (.foldl h.fkUnpin fun _ _ h' => h'.setTag) rfl rfl)

theorem Keeps.execCarderBind {r} (h : Keeps s0 s) :
    Next s0 (Machine.execCarderBind r s) := by
  rw [Machine.execCarderBind]
  refine .mk ?_
  split
  · exact h
  · exact .ite h (h.unitCommand (fun _ _ _ h' => .ite_snd h' h'.carderBind))

theorem Keeps.execCarderUnbind {r} (h : Keeps s0 s) :
    Next s0 (Machine.execCarderUnbind r s) := by
  rw [Machine.execCarderUnbind]
  refine .mk ?_
  split
  · exact h
  · exact .ite h (h.unitCommand (fun _ _ _ h' => .ite_snd h' h'.carderUnbind))

theorem Keeps.dispatchHead {r e} (h : Keeps s0 s) :
    Keeps s0 (Machine.dispatchHead s r e) := by
  rw [Machine.dispatchHead]
  split
  · exact h.finishHead
  · refine .ite h.finishHead ?_
    exact .ite h.consumeMalformed (.ite h.finishHead (.ite h h.beginDispatch))

theorem Keeps.execDispatch {r} (h : Keeps s0 s) :
    Next s0 (Machine.execDispatch r s) := by
  rw [Machine.execDispatch]
  refine .mk ?_
  split
  · exact h
  · exact h.dispatchHead.xptDone

theorem Keeps.execDispatchComplete {r t} (h : Keeps s0 s) :
    Next s0 (Machine.execDispatchComplete r t s) := by
  rw [Machine.execDispatchComplete]
  refine .mk ?_
  split
  · exact .ite h.endDispatch.xptDone h
  · exact h

theorem Keeps.combineHead {r e} (h : Keeps s0 s) :
    Keeps s0 (Machine.combineHead s r e) := by
  rw [Machine.combineHead]
  split
  · exact h.finishHead
  · refine .ite h.finishHead ?_
    exact .ite h.finishHead (.ite h (.ite h.consumeMalformed h.beginCombine))

theorem Keeps.execCombine {r} (h : Keeps s0 s) :
    Next s0 (Machine.execCombine r s) := by
  rw [Machine.execCombine]
  refine .mk ?_
  split
  · exact h
  · exact h.combineHead.xptDone

theorem Keeps.execCombineComplete {r t} (h : Keeps s0 s) :
    Next s0 (Machine.execCombineComplete r t s) := by
  rw [Machine.execCombineComplete]
  refine .mk ?_
  split
  · exact .ite h.endCombine.xptDone h
  · exact h

theorem Keeps.execCarderStallTimeout {r t} (h : Keeps s0 s) :
    Next s0 (Machine.execCarderStallTimeout r t s) := by
  rw [Machine.execCarderStallTimeout]
  refine .mk ?_
  split
  · exact .ite h.setTag.markFailed h
  · exact h

end Sys2Proof.Machine
end

section
/-! SUPPORT. Scheduling, ring administration and partitions keep memory canonical and the version
floor. -/

namespace Sys2Proof.Machine

variable {s0 s : State}

/-! Machine/SchedSteps.lean -/

theorem Keeps.execLaunch {r} (h : Keeps s0 s) :
    Next s0 (Machine.execLaunch r s) := by
  rw [Machine.execLaunch]
  refine .mk ?_
  split
  · exact h
  · exact .ite h (.ite h.finishHead (.ite h.finishHead (.setGrid (.frame h rfl rfl))))

theorem Keeps.postPreempt {p what cls} (h : Keeps s0 s) :
    Keeps s0 (Machine.postPreempt s p what cls) := h.post

theorem Keeps.resumeEmpty {p} (h : Keeps s0 s) :
    Keeps s0 (Machine.resumeEmpty s p) := .ite h.unholdPartition.postPreempt h

theorem Keeps.admitGrid {n} (h : Keeps s0 s) :
    Keeps s0 (Machine.admitGrid s n) := by
  rw [Machine.admitGrid]
  refine .ite ?_ ?_
  · refine .ite ?_ h.abortGrid.resumeEmpty
    split
    · exact h.setGrid.finishHead
    · exact h
  · split
    · exact h
    · refine .ite ?_ (.ite h.modGrid.useCorrection.consumeHead h.modGrid)
      exact .postPreempt (.unholdPartition (.ite h.modGrid.useCorrection.consumeHead h.modGrid))

theorem Keeps.admitAll {n} (h : Keeps s0 s) :
    Keeps s0 (Machine.admitAll s n) := by
  induction n generalizing s with
  | zero => exact h
  | succ n ih =>
    rw [Machine.admitAll]
    refine .ite h ?_
    split
    · exact h
    · exact ih h.admitGrid

theorem Keeps.execAdmission (h : Keeps s0 s) :
    Next s0 (Machine.execAdmission s) := .mk h.admitAll

theorem Keeps.execGroupStart {gn e} (h : Keeps s0 s) :
    Next s0 (Machine.execGroupStart gn e s) := by
  rw [Machine.execGroupStart]
  refine .mk (.ite h (.ite h ?_))
  split
  · exact h
  · split
    · refine .ite h ?_
      dsimp only
      split
      · exact h.loadImage.abortGrid
      · exact h.loadImage.startGroup
    · dsimp only
      split
      · exact h.loadImage.abortGrid
      · exact h.loadImage.replaceGroup

theorem Keeps.closeWindow (h : Keeps s0 s) :
    Keeps s0 (Machine.closeWindow s) := by
  rw [Machine.closeWindow]
  exact .modSched (.frame h.takeFree rfl rfl)

theorem Keeps.applyBudgets (h : Keeps s0 s) :
    Keeps s0 (Machine.applyBudgets s) := h.frame rfl rfl

theorem Keeps.postPower {new old} (h : Keeps s0 s) :
    Keeps s0 (Machine.postPower s new old) := h.post

theorem Keeps.enterDoze (h : Keeps s0 s) :
    Keeps s0 (Machine.enterDoze s) := by
  rw [Machine.enterDoze]
  exact .modSched (.foldl h fun _ _ h' => h'.preemptPartition)

theorem Keeps.beginPower {p} (h : Keeps s0 s) :
    Keeps s0 (Machine.beginPower s p) := by
  unfold Machine.beginPower
  split
  · exact h.modSched
  · exact h.modSched
  · exact h.modSched
  · exact h.enterDoze
  · exact h.enterDoze
  · exact h.modSched
  · exact h

theorem Keeps.requestPower {p} (h : Keeps s0 s) :
    Keeps s0 (Machine.requestPower s p) := .ite h.modSched h.beginPower

theorem Keeps.arrivePower {new} (h : Keeps s0 s) :
    Keeps s0 (Machine.arrivePower s new) := by
  rw [Machine.arrivePower]
  split
  · exact h.modSched.postPower.beginPower
  · exact h.modSched.postPower

theorem Keeps.applyTrim (h : Keeps s0 s) :
    Keeps s0 (Machine.applyTrim s) := by
  rw [Machine.applyTrim]
  split
  · exact h.arrivePower
  · exact h.arrivePower
  · exact h

theorem Keeps.countSkipped (h : Keeps s0 s) :
    Keeps s0 (Machine.countSkipped s) := .bump (.foldl h fun _ _ h' => h'.modGrid)

theorem Keeps.preemptFor {g n} (h : Keeps s0 s) :
    Keeps s0 (Machine.preemptFor s g n) := by
  induction n generalizing s with
  | zero => exact h
  | succ n ih =>
    rw [Machine.preemptFor]
    refine .ite h.admitGrid ?_
    dsimp only
    split
    · exact h
    · exact ih h.preemptPartition.bump.postPreempt

theorem Keeps.preemptStarved (h : Keeps s0 s) :
    Keeps s0 (Machine.preemptStarved s) := by
  rw [Machine.preemptStarved]
  refine .ite h ?_
  split
  · exact h
  · exact h.preemptFor

theorem Keeps.openWindow (h : Keeps s0 s) :
    Keeps s0 (Machine.openWindow s) := h.frame rfl rfl

theorem Keeps.paceGrid {n} (h : Keeps s0 s) :
    Keeps s0 (Machine.paceGrid s n) := .foldl h.modGrid fun _ _ h' => h'.modThread

theorem Keeps.pacePart {p} (h : Keeps s0 s) :
    Keeps s0 (Machine.pacePart s p) :=
  .ite (.bump (.foldl h.modSched fun _ _ h' => h'.paceGrid)) h

theorem Keeps.paceOne {n} (h : Keeps s0 s) :
    Keeps s0 (Machine.paceOne s n) := .ite h.paceGrid.bump h

theorem Keeps.execGridPace {isPart n} (h : Keeps s0 s) :
    Next s0 (Machine.execGridPace isPart n s) := .mk (.ite h.pacePart h.paceOne)

theorem Keeps.paceDue (h : Keeps s0 s) :
    Keeps s0 (Machine.paceDue s) :=
  .foldl (.foldl h fun _ _ h' => h'.paceOne) fun _ _ h' => h'.pacePart

theorem Keeps.execCalFactorUpdate (h : Keeps s0 s) :
    Next s0 (Machine.execCalFactorUpdate s) := .mk (.ite h h.takeFree.modSched)

/-! Machine/RingAdmin.lean -/

theorem Keeps.answer {st} (h : Keeps s0 s) :
    Keeps s0 (Machine.answer st s).state := h

theorem Keeps.answerLater (h : Keeps s0 s) :
    Keeps s0 (Machine.answerLater s).state := h

theorem Keeps.markActed {r e} (h : Keeps s0 s) :
    Keeps s0 (Machine.markActed s r e) := h.frame rfl rfl

theorem Keeps.adminCommand {op r f}
    (hf : ∀ s x1 x2, Keeps s0 s → Keeps s0 (f s x1 x2).state) (h : Keeps s0 s) :
    Keeps s0 (Machine.adminCommand op r f s) := by
  rw [Machine.adminCommand]
  split
  · exact h
  · refine .ite h ?_
    refine .ite (.xptDone (.markActed (.mpTook (hf _ _ _ h)))) ?_
    exact .xptDone (.completeEntry (.mpTook (hf _ _ _ h)))

theorem Keeps.completeWaiting {by_ st d0} (h : Keeps s0 s) :
    Keeps s0 (Machine.completeWaiting s by_ st d0) := by
  unfold Machine.completeWaiting
  split
  · exact h
  · split
    · exact h
    · exact h.completeEntry

theorem Keeps.ringCreate {n e} (h : Keeps s0 s) :
    Keeps s0 (Machine.ringCreate s n e).state := by
  rw [Machine.ringCreate]
  refine .ite_state h.answer ?_
  refine .ite_state h.answer ?_
  exact .ite_state h.answer (.ite_state h.ringRangeOk.answer h.ringRangeOk.setRing.answer)

theorem Keeps.execRingCreate {r} (h : Keeps s0 s) :
    Next s0 (Machine.execRingCreate r s) :=
  .mk (h.adminCommand (fun _ _ _ h' => h'.ringCreate))

theorem Keeps.abortTaken {r} (h : Keeps s0 s) :
    Keeps s0 (Machine.abortTaken s r) := by
  rw [Machine.abortTaken]
  refine .foldl h fun _ _ h' => ?_
  split
  · exact h'.finishHead
  · exact h'.consumeHead.bshFailEntry

theorem Keeps.stopGrid {n} (h : Keeps s0 s) :
    Keeps s0 (Machine.stopGrid s n) := by
  rw [Machine.stopGrid]
  split
  · exact .abortGrid (.foldl h fun _ _ h' => h'.modThread)
  · exact .abortGrid (.foldl h fun _ _ h' => h'.modThread)
  · exact .settleGrid (.foldl h fun _ _ h' => h'.modThread)
  · exact h

theorem Keeps.abortStarted {r} (h : Keeps s0 s) :
    Keeps s0 (Machine.abortStarted s r) := by
  rw [Machine.abortStarted]
  refine .foldl ?_ fun _ _ h' => h'.completeEntry
  split
  · split
    · exact .foldl (.foldl h fun _ _ h' => h'.stopGrid)
          fun _ _ h' => .foldl h' fun _ _ h2 => h2.failOp
    · exact .stopCarder (.foldl (.foldl h fun _ _ h' => h'.stopGrid)
          fun _ _ h' => .foldl h' fun _ _ h2 => h2.failOp)
  · refine .bshAbort ?_
    split
    · exact .foldl (.foldl h fun _ _ h' => h'.stopGrid)
          fun _ _ h' => .foldl h' fun _ _ h2 => h2.failOp
    · exact .stopCarder (.foldl (.foldl h fun _ _ h' => h'.stopGrid)
          fun _ _ h' => .foldl h' fun _ _ h2 => h2.failOp)

theorem Keeps.stopOne {by_ r} (h : Keeps s0 s) :
    Keeps s0 (Machine.stopOne s by_ r) := by
  rw [Machine.stopOne]
  refine .ite ?_ ?_
  · refine .modRing (.abortStarted (.abortTaken ?_))
    split
    · exact h.modRing.setGrid
    · exact h.modRing
  · split
    · exact h.modRing.setGrid
    · exact h.modRing

theorem Keeps.stopRing {by_ r} (h : Keeps s0 s) :
    Keeps s0 (Machine.stopRing s by_ r) := .stopOne (.foldl h fun _ _ h' => h'.stopOne)

theorem Keeps.removeRing {r} (h : Keeps s0 s) :
    Keeps s0 (Machine.removeRing s r) := by
  rw [Machine.removeRing]
  refine .setRing ?_
  split
  · refine .frame (.foldl (.fkUnpin ?_) fun _ _ h' => h'.setTag) rfl rfl
    split
    · exact .setBsh (.fkUnpin (.revokeGates (.ite (.foldl h fun _ _ h' => .ite h'.modRing h') h)))
    · exact .revokeGates (.ite (.foldl h fun _ _ h' => .ite h'.modRing h') h)
  · split
    · exact .setBsh (.fkUnpin (.revokeGates (.ite (.foldl h fun _ _ h' => .ite h'.modRing h') h)))
    · exact .revokeGates (.ite (.foldl h fun _ _ h' => .ite h'.modRing h') h)

theorem Keeps.ringStop {aq e} (h : Keeps s0 s) :
    Keeps s0 (Machine.ringStop s aq e).state := by
  rw [Machine.ringStop]
  refine .ite_state h.answer ?_
  split
  · exact h.answer
  · exact .ite_state h.answer h.stopRing.answerLater

theorem Keeps.execRingStop {r} (h : Keeps s0 s) :
    Next s0 (Machine.execRingStop r s) := .mk (h.adminCommand (fun _ _ _ h' => h'.ringStop))

theorem Keeps.ringDestroy {aq e} (h : Keeps s0 s) :
    Keeps s0 (Machine.ringDestroy s aq e).state := by
  rw [Machine.ringDestroy]
  refine .ite_state h.answer ?_
  refine .ite_state h.answer ?_
  split
  · exact h.answer
  · exact .ite_state h.answer (.ite_state h.stopRing.answerLater h.removeRing.answer)

theorem Keeps.execRingDestroy {r} (h : Keeps s0 s) :
    Next s0 (Machine.execRingDestroy r s) := by
  rw [Machine.execRingDestroy]
  refine .mk ?_
  split
  · exact h.adminCommand (fun _ _ _ h' => h'.ringDestroy)
  · exact .ite h (h.adminCommand (fun _ _ _ h' => h'.ringDestroy))

theorem Keeps.execRingStopComplete {r} (h : Keeps s0 s) :
    Next s0 (Machine.execRingStopComplete r s) := by
  rw [Machine.execRingStopComplete]
  exact .mk (.ite h
      (.xptDone (.completeWaiting (.ite (.removeRing (.modRing (.ite h.headReport h)))
      (.modRing (.ite h.headReport h))))))

theorem Keeps.ringStart {n e} (h : Keeps s0 s) :
    Keeps s0 (Machine.ringStart s n e).state := by
  rw [Machine.ringStart]
  refine .ite_state h.answer ?_
  split
  · exact h.answer
  · exact .ite_state h.answer (.ite_state h.setRing.answer h.setRing.drainRing.answer)

theorem Keeps.execRingStart {r} (h : Keeps s0 s) :
    Next s0 (Machine.execRingStart r s) :=
  .mk (h.adminCommand (fun _ _ _ h' => h'.ringStart))

theorem Keeps.ringBind {n e} (h : Keeps s0 s) :
    Keeps s0 (Machine.ringBind s n e).state := by
  rw [Machine.ringBind]
  refine .ite_state h.answer ?_
  split
  · exact h.answer
  · exact .ite_state h.answer h.setRing.answer

theorem Keeps.execRingBind {r} (h : Keeps s0 s) :
    Next s0 (Machine.execRingBind r s) := .mk (h.adminCommand (fun _ _ _ h' => h'.ringBind))

theorem Keeps.ringResize {aq e} (h : Keeps s0 s) :
    Keeps s0 (Machine.ringResize s aq e).state := by
  rw [Machine.ringResize]
  refine .ite_state h.answer ?_
  split
  · exact h.answer
  · refine .ite_state h.answer ?_
    refine .ite_state h.answer ?_
    exact .ite_state h.ringRangeOk.answer h.ringRangeOk.modRing.answerLater

theorem Keeps.execRingResize {r} (h : Keeps s0 s) :
    Next s0 (Machine.execRingResize r s) :=
  .mk (h.adminCommand (fun _ _ _ h' => h'.ringResize))

theorem Keeps.resizeReady {r} (h : Keeps s0 s) :
    Keeps s0 (Machine.resizeReady s r).2 := by
  rw [Machine.resizeReady]
  refine .ite_snd (.ite_snd h (.ite_snd h ?_)) ?_
  · rcases hd : Machine.readSlot _ _ _ with ⟨_ | _, s1⟩
    · exact (h.readSlot.snd_eq hd).ringError
    · exact h.readSlot.snd_eq hd
  · rcases hd : Machine.readReport s r with ⟨_ | _, s1⟩
    · exact h.readReport.snd_eq hd
    · exact (h.readReport.snd_eq hd).ringError

theorem Keeps.execRingResizeSwitch {r} (h : Keeps s0 s) :
    Next s0 (Machine.execRingResizeSwitch r s) := by
  rw [Machine.execRingResizeSwitch]
  refine .mk ?_
  split
  · exact h
  · refine .ite h.resizeReady ?_
    exact .xptDone (.completeWaiting (.ite h.resizeReady.setRing.drainRing h.resizeReady.setRing))

theorem Keeps.checkRun {run} (h : Keeps s0 s) :
    Keeps s0 (Machine.checkRun s run) := .foldl h fun _ _ h' => h'.checkSync

theorem Keeps.syncGrant {aq e} (h : Keeps s0 s) :
    Keeps s0 (Machine.syncGrant s aq e).state := by
  rw [Machine.syncGrant]
  split
  · exact h.answer
  · refine .ite_state h.answer ?_
    refine .ite_state h.checkRun.answer ?_
    refine .ite_state h.checkRun.answer ?_
    exact .answer (.foldl h.checkRun fun _ _ h' => h'.setSync)

theorem Keeps.execSyncGrant {r} (h : Keeps s0 s) :
    Next s0 (Machine.execSyncGrant r s) :=
  .mk (h.adminCommand (fun _ _ _ h' => h'.syncGrant))

theorem Keeps.syncRevoke {n e} (h : Keeps s0 s) :
    Keeps s0 (Machine.syncRevoke s n e).state := by
  rw [Machine.syncRevoke]
  split
  · exact h.answer
  · refine .ite_state h.answer ?_
    exact .answer (.foldl h.checkRun fun _ _ h' => .ite h'.setSync h')

theorem Keeps.execSyncRevoke {r} (h : Keeps s0 s) :
    Next s0 (Machine.execSyncRevoke r s) :=
  .mk (h.adminCommand (fun _ _ _ h' => h'.syncRevoke))

theorem Keeps.releaseSpinner {run t} (h : Keeps s0 s) :
    Keeps s0 (Machine.releaseSpinner run s t) := by
  rw [Machine.releaseSpinner]
  split
  · exact h
  · exact .ite h (.ite h.leaveSpin h.setThread)

theorem Keeps.syncRelease {aq e} (h : Keeps s0 s) :
    Keeps s0 (Machine.syncRelease s aq e).state := by
  rw [Machine.syncRelease]
  split
  · exact h.answer
  · refine .ite_state h.answer ?_
    refine .ite_state h.checkRun.answer ?_
    exact .answer (.foldl (.foldl h.checkRun fun _ _ h' => h'.releaseSpinner)
        fun _ _ h' => h'.setSync)

theorem Keeps.execSyncRelease {r} (h : Keeps s0 s) :
    Next s0 (Machine.execSyncRelease r s) :=
  .mk (h.adminCommand (fun _ _ _ h' => h'.syncRelease))

theorem Keeps.execSyncWindowWrite {n i v} (h : Keeps s0 s) :
    Next s0 (Machine.execSyncWindowWrite n i v s) :=
  .mk (.ite h (.ite h.signalObj h.signalObj.recordError))

theorem Keeps.execSyncWindowRead {n i} (h : Keeps s0 s) :
    Next s0 (Machine.execSyncWindowRead n i s) :=
  .mk (.ite (.frame h rfl rfl) (.frame h.readObj rfl rfl))

/-! Machine/PartReset.lean -/

theorem Keeps.quietRings {p} (h : Keeps s0 s) :
    Keeps s0 (Machine.quietRings s p) := by
  rw [Machine.quietRings]
  exact .modTwin (.foldl h fun _ _ h' => h'.modRing)

theorem Keeps.dropGrids {p} (h : Keeps s0 s) :
    Keeps s0 (Machine.dropGrids s p) := by
  rw [Machine.dropGrids]
  exact .frame (.foldl (.foldl h fun _ _ h' => h'.drainThread) fun _ _ h' => h'.unloadGroup) rfl rfl

theorem Keeps.dropDescs {p} (h : Keeps s0 s) :
    Keeps s0 (Machine.dropDescs s p) :=
  .frame (.foldl h fun _ _ h' => h'.setMover) rfl rfl

theorem Keeps.dropUnits {p} (h : Keeps s0 s) :
    Keeps s0 (Machine.dropUnits s p) := by
  rw [Machine.dropUnits]
  exact .frame (.foldl (.foldl h fun _ _ h' => h'.bshAbort.fkUnpin.setBsh)
      fun _ _ h' => .foldl h'.fkUnpin fun _ _ h2 => h2.setTag) rfl rfl

theorem Keeps.dropQps {p frozen} (h : Keeps s0 s) :
    Keeps s0 (Machine.dropQps s p frozen) :=
  .frame (.foldl h fun _ _ h' => .removeQp (.ite h'.sendDisconnect h')) rfl rfl

theorem Keeps.dropSyncs {p} (h : Keeps s0 s) :
    Keeps s0 (Machine.dropSyncs s p) := .frame (.foldl h fun _ _ h' => h'.setSync) rfl rfl

theorem Keeps.wipeCore {c} (h : Keeps s0 s) :
    Keeps s0 (Machine.wipeCore s c) := .frame h.zeroMem rfl rfl

theorem Keeps.dropRings {p} (h : Keeps s0 s) :
    Keeps s0 (Machine.dropRings s p) :=
  .foldl (.frame (.foldl h fun _ _ h' => h'.errorReport) rfl rfl) fun _ _ h' => h'.wipeCore

theorem Keeps.dropVfRegs {p} (h : Keeps s0 s) :
    Keeps s0 (Machine.dropVfRegs s p) := .ite h (.frame h rfl rfl)

theorem Keeps.squashPartition {p} (h : Keeps s0 s) :
    Keeps s0 (Machine.squashPartition s p) := by
  rw [Machine.squashPartition]
  exact .foldl h.quietRings.dropUnits.dropGrids.dropDescs.dropQps.dropSyncs.dropRings.dropVfRegs
      fun _ _ h' => h'.completeWaiting

theorem Keeps.resetPartition {p st} (h : Keeps s0 s) :
    Keeps s0 (Machine.resetPartition s p st) :=
  .xptDone (.dropCorrections (.frame h.squashPartition rfl rfl))

theorem Keeps.completeFence {f} (h : Keeps s0 s) :
    Keeps s0 (Machine.completeFence s f) := h.resetPartition.mpPost

theorem Keeps.completeFences (h : Keeps s0 s) :
    Keeps s0 (Machine.completeFences s) := .ite h (.foldl h fun _ _ h' => h'.completeFence)

theorem Keeps.removeCore {c} (h : Keeps s0 s) :
    Keeps s0 (Machine.removeCore s c) :=
  .frame (.wipeCore (.foldl h fun _ _ h' => h'.saveGroup)) rfl rfl

theorem Keeps.resizeApply {p e} (h : Keeps s0 s) :
    Keeps s0 (Machine.resizeApply s p e) := by
  rw [Machine.resizeApply]
  split
  · exact .foldl h fun _ _ h' => .frame h'.wipeCore rfl rfl
  · exact .foldl h fun _ _ h' => h'.removeCore
  · exact h.modPart
  · exact h.modPart
  · exact h.modPart
  · exact h.modPart
  · exact h.modPart
  · exact h.modPart

theorem Keeps.partResize {n e} (h : Keeps s0 s) :
    Keeps s0 (Machine.partResize s n e).state := .answer (.ite h.resizeApply h)

theorem Keeps.execPartResize {r} (h : Keeps s0 s) :
    Next s0 (Machine.execPartResize r s) :=
  .mk (.ite (h.modSched.adminCommand (fun _ _ _ h' => h'.partResize)) h.modSched)

theorem Keeps.partReset {n e} (h : Keeps s0 s) :
    Keeps s0 (Machine.partReset s n e).state :=
  .ite_state h.answer (.ite_state h.answer h.resetPartition.answer)

theorem Keeps.execPartReset {r} (h : Keeps s0 s) :
    Next s0 (Machine.execPartReset r s) :=
  .mk (h.adminCommand (fun _ _ _ h' => h'.partReset))

theorem Keeps.execFunctionLevelReset {n} (h : Keeps s0 s) :
    Next s0 (Machine.execFunctionLevelReset n s) := .mk (.ite h h.resetPartition)

theorem Keeps.execVfEnable {n} (h : Keeps s0 s) :
    Next s0 (Machine.execVfEnable n s) := by
  rw [Machine.execVfEnable]
  exact .mk (.ite h (.frame (.foldl h fun _ _ h' => .ite (.ite h'.modPart h')
      (.ite h' h'.resetPartition)) rfl rfl))

/-! Machine/PartImage.lean -/

theorem Keeps.freezeRings {p} (h : Keeps s0 s) :
    Keeps s0 (Machine.freezeRings s p) := .foldl (.frame h rfl rfl) fun _ _ h' => h'.modRing

theorem Keeps.checkSyncs {p} (h : Keeps s0 s) :
    Keeps s0 (Machine.checkSyncs s p) := .foldl h fun _ _ h' => h'.checkSync

theorem Keeps.freezeUnits {p} (h : Keeps s0 s) :
    Keeps s0 (Machine.freezeUnits s p) := by
  rw [Machine.freezeUnits]
  exact .frame (.checkSyncs (.foldl (.foldl h fun _ _ h' => h'.bshAbort)
      fun _ _ h' => h'.crdAbort)) rfl rfl

theorem Keeps.freezeThreads {p} (h : Keeps s0 s) :
    Keeps s0 (Machine.freezeThreads s p) :=
  .frame (.foldl h fun _ _ h' => h'.saveGroup) rfl rfl

theorem Keeps.saveDescs {p} (h : Keeps s0 s) :
    Keeps s0 (Machine.saveDescs s p) :=
  .foldl h fun _ _ h' => .ite (.foldl h' fun _ _ h2 => h2.writeMem) h'

theorem Keeps.freezeFaults {p} (h : Keeps s0 s) :
    Keeps s0 (Machine.freezeFaults s p) := h.frame rfl rfl

theorem Keeps.freezePartition {p} (h : Keeps s0 s) :
    Keeps s0 (Machine.freezePartition s p) := by
  rw [Machine.freezePartition]
  have stopped :
      Keeps s0 (Machine.freezeUnits (Machine.freezeRings (Machine.drdyBusy s .freeze) p) p) :=
    h.drdyBusy.freezeRings.freezeUnits
  exact stopped.freezeThreads.saveDescs.freezeFaults.modPart.drdyDone

theorem Keeps.repostRecorded {p} (h : Keeps s0 s) :
    Keeps s0 (Machine.repostRecorded s p) := .foldl h.setFaults fun _ _ h' => h'.assignFault

theorem Keeps.thawPartition {p} (h : Keeps s0 s) :
    Keeps s0 (Machine.thawPartition s p) :=
  .repostRecorded (.modPart (.holdRings (.frame h rfl rfl)))

theorem Keeps.partFreeze {n e} (h : Keeps s0 s) :
    Keeps s0 (Machine.partFreeze s n e).state := by
  rw [Machine.partFreeze]
  refine .ite_state h.answer ?_
  refine .ite_state h.answer ?_
  refine .ite_state (.ite_state h.answer h.freezePartition.answer) ?_
  exact .ite_state h.answer h.thawPartition.answer

theorem Keeps.beginFreeze {p} (h : Keeps s0 s) :
    Keeps s0 (Machine.beginFreeze s p) :=
  .foldl h.drdyBusy.freezeRings.modPart fun _ _ h' => h'.drainThread

theorem Keeps.execPartFreeze {r} (h : Keeps s0 s) :
    Next s0 (Machine.execPartFreeze r s) := by
  rw [Machine.execPartFreeze]
  refine .mk ?_
  split
  · refine .ite h ?_
    exact .ite (.ite h.beginFreeze h) (h.adminCommand (fun _ _ _ h' => h'.partFreeze))
  · exact h

theorem Keeps.execPartThaw {r} (h : Keeps s0 s) :
    Next s0 (Machine.execPartThaw r s) := by
  rw [Machine.execPartThaw]
  refine .mk ?_
  split
  · exact .ite (h.adminCommand (fun _ _ _ h' => h'.partFreeze)) h
  · exact h

theorem Keeps.partSave {n e} (h : Keeps s0 s) :
    Keeps s0 (Machine.partSave s n e).state := .ite_state h.answer (.ite h.writeMem h)

theorem Keeps.execPartSave {r} (h : Keeps s0 s) :
    Next s0 (Machine.execPartSave r s) := .mk (h.adminCommand (fun _ _ _ h' => h'.partSave))

/-! Machine/DebugSteps.lean -/

theorem Keeps.debugHalt {t} (h : Keeps s0 s) :
    Keeps s0 (Machine.debugHalt s t) := h.drainThread.modThread.haltAtBoundary

theorem Keeps.execDbgHaltCmd (h : Keeps s0 s) :
    Next s0 (Machine.execDbgHaltCmd s) := by
  rw [Machine.execDbgHaltCmd]
  refine .mk ?_
  split
  · exact .ite h (.settleDebug (.frame (.foldl h fun _ _ h' => h'.debugHalt) rfl rfl))
  · exact h

theorem Keeps.execDbgResume (h : Keeps s0 s) :
    Next s0 (Machine.execDbgResume s) := by
  rw [Machine.execDbgResume]
  refine .mk ?_
  split
  · exact .ite h (.foldl h fun _ _ h' => h'.modThread)
  · exact h

theorem Keeps.execDbgStep (h : Keeps s0 s) :
    Next s0 (Machine.execDbgStep s) := by
  rw [Machine.execDbgStep]
  refine .mk ?_
  split
  · exact .ite h h.modThread
  · exact h

theorem Keeps.execDbgWindowWrite {off v} (h : Keeps s0 s) :
    Next s0 (Machine.execDbgWindowWrite off v s) := by
  rw [Machine.execDbgWindowWrite]
  refine .mk (.ite h ?_)
  split
  · refine .ite (.ite h.setThread h) ?_
    exact .ite (.ite h.writeMem h) (.ite (.ite (.frame h rfl rfl) h) h)
  · exact h

/-! Machine/PartRestore.lean -/

theorem Keeps.respin {g left th} (h : Keeps s0 s) :
    Keeps s0 (Machine.respin s g left th).2 := by
  rw [Machine.respin]
  rcases hd : Machine.readVa _ _ _ _ _ _ _ with ⟨_ | _, s1⟩
  · exact h.readVa.snd_eq hd
  · have read := h.readVa.snd_eq hd
    dsimp only
    refine .ite_snd read ?_
    rcases ha : Machine.access _ _ _ _ _ _ _ with ⟨_ | _, s2⟩
    · exact read.access.snd_eq ha
    · exact read.access.snd_eq ha

theorem Keeps.restoreRings {m d} (h : Keeps s0 s) :
    Keeps s0 (Machine.restoreRings s m d) :=
  .foldl (.foldl h fun _ _ h' => .ite h' h'.setRing) fun _ _ h' => h'.setSync

theorem Keeps.restoreGrids {m d} (h : Keeps s0 s) :
    Keeps s0 (Machine.restoreGrids s m d) := by
  rw [Machine.restoreGrids]
  refine .foldl h fun s i h' => ?_
  exact .setGrid (.foldl_fst (.pair_fst (.modSched (.modRing (.frame h' rfl rfl)))) fun _ _ h2 =>
    .pair_fst (.foldl_fst (.pair_fst h2) fun _ _ h3 =>
      .ite_fst (.pair_fst h3.respin) (.pair_fst h3)))

theorem Keeps.rebindSlot {k} (h : Keeps s0 s) :
    Keeps s0 (Machine.rebindSlot s k) := by
  rw [Machine.rebindSlot]
  split
  · exact h.modSlot
  · exact h

theorem Keeps.restoreQp {m d y} (h : Keeps s0 s) :
    Keeps s0 (Machine.restoreQp m d s y) := by
  rw [Machine.restoreQp]
  refine .ite ?_ ?_
  · refine .startMigrate (.rebindSlot (.setQp (.foldl h fun _ _ h' => ?_)))
    split
    · exact h'.modRing
    · exact h'
  · refine .rebindSlot (.setQp (.foldl h fun _ _ h' => ?_))
    split
    · exact h'.modRing
    · exact h'

theorem Keeps.restoreUnits {m d} (h : Keeps s0 s) :
    Keeps s0 (Machine.restoreUnits s m d) := by
  rw [Machine.restoreUnits]
  exact .foldl (.foldl (.foldl h fun _ _ h' => h'.setMemKey) fun _ _ h' => h'.pinAll.setBsh)
      fun _ _ h' => .frame h'.pinAll rfl rfl

theorem Keeps.restoreDescs {m d gids} (h : Keeps s0 s) :
    Keeps s0 (Machine.restoreDescs s m d gids) :=
  .foldl h fun _ _ h' => .ite h'.setMover.modQp h'.setMover

theorem Keeps.restoreFaults {m d gids} (h : Keeps s0 s) :
    Keeps s0 (Machine.restoreFaults s m d gids) := .foldl h.setFaults fun _ _ h' => h'.assignFault

theorem Keeps.restoreAll {m d} (h : Keeps s0 s) :
    Keeps s0 (Machine.restoreAll s m d) := by
  unfold Machine.restoreAll
  extract_lets sWiped gids sGrids sUnits
  have wiped : Keeps s0 sWiped := .foldl h fun _ _ h' => h'.wipeCore
  have grids : Keeps s0 sGrids := wiped.restoreRings.restoreGrids
  have units : Keeps s0 sUnits := .restoreUnits (.foldl grids fun _ _ h' => h'.restoreQp)
  exact units.restoreDescs.restoreFaults

theorem Keeps.partRestore {n e} (h : Keeps s0 s) :
    Keeps s0 (Machine.partRestore s n e).state := by
  rw [Machine.partRestore]
  refine .ite_state h.answer ?_
  dsimp only
  split
  · exact h.readMem.answer
  · refine .ite_state h.readMem.answer ?_
    exact .ite_state h.readMem.answer h.readMem.restoreAll.answer

theorem Keeps.execPartRestore {r} (h : Keeps s0 s) :
    Next s0 (Machine.execPartRestore r s) :=
  .mk (h.adminCommand (fun _ _ _ h' => h'.partRestore))

end Sys2Proof.Machine
end

section
/-! SUPPORT. The host, the ports and their frames keep memory canonical and the version floor. -/

namespace Sys2Proof.Machine

variable {s0 s : State}

/-! Machine/HostSteps.lean -/

theorem Keeps.writeRetention {reason} (h : Keeps s0 s) :
    Keeps s0 (Machine.writeRetention s reason) := by
  rw [Machine.writeRetention]
  split
  · exact h
  · exact .frame h.writeMem rfl rfl

theorem Keeps.losePath {r} (h : Keeps s0 s) :
    Keeps s0 (Machine.losePath s r) :=
  .ite h (.ite h.errorReport.setRing (.ite h.errorReport.modRing h))

theorem Keeps.loseQps (h : Keeps s0 s) :
    Keeps s0 (Machine.loseQps s) := .foldl h fun _ _ h' => h'.enterError

theorem Keeps.quiescePart {p} (h : Keeps s0 s) :
    Keeps s0 (Machine.quiescePart s p) := by
  rw [Machine.quiescePart]
  split
  · exact .modPart (.ite h.preemptPartition h.holdRings)
  · exact h.modPart
  · exact h

theorem Keeps.losePathSteps {reason} (h : Keeps s0 s) :
    Keeps s0 (Machine.losePathSteps s reason) := by
  unfold Machine.losePathSteps
  extract_lets sLost sQuiet
  have lost : Keeps s0 sLost := .loseQps (.foldl h fun _ _ h' => h'.losePath)
  have quiet : Keeps s0 sQuiet := .ite (.foldl lost fun _ _ h' => h'.quiescePart) lost
  exact quiet.modSched.writeRetention.xptDone

theorem Keeps.execPerstAssert (h : Keeps s0 s) :
    Next s0 (Machine.execPerstAssert s) := by
  rw [Machine.execPerstAssert]
  exact .mk (.ite h (.ite (.drdyBusy (.frame (.ite h.bump h) rfl rfl))
      (.foldl (.losePathSteps (.drdyBusy (.frame (.ite h.bump h) rfl rfl)))
      fun _ _ h' => h'.setReg)))

theorem Keeps.execPerstDeassert (h : Keeps s0 s) :
    Next s0 (Machine.execPerstDeassert s) := .mk (.ite h (.frame h rfl rfl))

theorem Keeps.execCxlLinkUp {proto width} (h : Keeps s0 s) :
    Next s0 (Machine.execCxlLinkUp proto width s) := .mk (.ite h (.drdyDone (.frame h rfl rfl)))

theorem Keeps.execCxlLinkDown (h : Keeps s0 s) :
    Next s0 (Machine.execCxlLinkDown s) := .mk (.ite h (.bump (.frame h rfl rfl)))

theorem Keeps.execHostPathRestored (h : Keeps s0 s) :
    Next s0 (Machine.execHostPathRestored s) := by
  rw [Machine.execHostPathRestored]
  refine .mk ?_
  split
  · exact h
  · exact .ite h (.post (.frame h rfl rfl))

theorem Keeps.execLinkDownTimeout (h : Keeps s0 s) :
    Next s0 (Machine.execLinkDownTimeout s) := by
  rw [Machine.execLinkDownTimeout]
  refine .mk ?_
  split
  · exact h
  · exact .ite h (.losePathSteps (.frame h rfl rfl))

theorem Keeps.execPolicyResume {v} (h : Keeps s0 s) :
    Next s0 (Machine.execPolicyResume v s) := by
  rw [Machine.execPolicyResume]
  exact .mk (.ite h (.foldl h.setReg fun _ _ h' => .ite (.unholdPartition
      (.modPart (.ite h'.holdRings h'))) h'))

theorem Keeps.pathFail {p st addr isVa c} (h : Keeps s0 s) :
    Keeps s0 (Machine.pathFail s p st addr isVa c) := h.bump.recordError

theorem Keeps.bar2Target {fn off write} (h : Keeps s0 s) :
    Keeps s0 (Machine.bar2Target s fn off write).2 := by
  rw [Machine.bar2Target]
  refine .ite_snd (.ite_snd h h) ?_
  refine .ite_snd h ?_
  refine .ite_snd h ?_
  dsimp only
  split
  · exact h.access
  · exact h.access

theorem Keeps.execBar2Read {fn off n} (h : Keeps s0 s) :
    Next s0 (Machine.execBar2Read fn off n s) := by
  rw [Machine.execBar2Read]
  refine .mk (.ite h ?_)
  dsimp only
  split
  · exact .frame h.bar2Target.pathFail rfl rfl
  · exact .frame h.bar2Target.pathFail rfl rfl
  · refine .ite (.frame h.bar2Target.readMem.pathFail rfl rfl) ?_
    exact .frame h.bar2Target.readMem rfl rfl

theorem Keeps.execBar2Write {fn off bs} (h : Keeps s0 s) :
    Next s0 (Machine.execBar2Write fn off bs s) := by
  rw [Machine.execBar2Write]
  refine .mk (.ite h ?_)
  dsimp only
  split
  · exact h.bar2Target.pathFail
  · exact h.bar2Target.pathFail
  · exact h.bar2Target.writeMem

theorem Keeps.hdmCheck {pa write} (h : Keeps s0 s) :
    Keeps s0 (Machine.hdmCheck s pa write).2 := .ite_snd h (.ite_snd h.ownerEntry h)

theorem Keeps.execHdmRead {pa n} (h : Keeps s0 s) :
    Next s0 (Machine.execHdmRead pa n s) := by
  rw [Machine.execHdmRead]
  exact .mk (.ite h (.ite (.frame h.hdmCheck.pathFail rfl rfl)
      (.ite (.frame h.hdmCheck.readMem.pathFail rfl rfl) (.frame h.hdmCheck.readMem rfl rfl))))

theorem Keeps.execHdmWrite {pa bs} (h : Keeps s0 s) :
    Next s0 (Machine.execHdmWrite pa bs s) :=
  .mk (.ite h (.ite h.hdmCheck.pathFail h.hdmCheck.writeMem))

theorem Keeps.execAttentionPulseEnd (h : Keeps s0 s) :
    Next s0 (Machine.execAttentionPulseEnd s) := .mk (.ite (.frame h rfl rfl) h)

theorem Keeps.execAttentionHoldoffEnd (h : Keeps s0 s) :
    Next s0 (Machine.execAttentionHoldoffEnd s) := .mk (.ite (.frame h rfl rfl) h)

theorem Keeps.execDrdyBusyMinimumEnd (h : Keeps s0 s) :
    Next s0 (Machine.execDrdyBusyMinimumEnd s) := .mk (.ite h.drdyRelease h)

theorem Keeps.execPostBusyAttention (h : Keeps s0 s) :
    Next s0 (Machine.execPostBusyAttention s) := .mk (.ite (.frame h rfl rfl) h)

/-! Machine/PortTx.lean -/

theorem Keeps.portEvent {n code d0 d1} (h : Keeps s0 s) :
    Keeps s0 (Machine.portEvent s n code d0 d1) := h.post

theorem Keeps.portDiscard {n} (h : Keeps s0 s) :
    Keeps s0 (Machine.portDiscard s n) := by
  have counted {m} : Keeps s0 (Machine.portCount s n 18 m) := h.portCount
  rw [Machine.portDiscard]
  exact counted.modPort

theorem Keeps.portDown {n reason} (h : Keeps s0 s) :
    Keeps s0 (Machine.portDown s n reason) :=
  .ite h.portDiscard h.portDiscard.modPort.portCount.portEvent

theorem Keeps.execPortModeWrite {n v} (h : Keeps s0 s) :
    Next s0 (Machine.execPortModeWrite n v s) := .mk (.ite h h.setReg.portDown)

theorem Keeps.execPortLinkUp {n} (h : Keeps s0 s) :
    Next s0 (Machine.execPortLinkUp n s) := .mk (.ite h h.modPort.portEvent)

theorem Keeps.execPortLinkDown {n} (h : Keeps s0 s) :
    Next s0 (Machine.execPortLinkDown n s) := .mk (.ite h.portDown h)

theorem Keeps.dwrrRound {n} (h : Keeps s0 s) :
    Keeps s0 (Machine.dwrrRound s n) := h.frame rfl rfl

theorem Keeps.dwrrChoose {n k} (h : Keeps s0 s) :
    Keeps s0 (Machine.dwrrChoose s n k).2 := by
  induction k generalizing s with
  | zero => exact h
  | succ k ih =>
    rw [Machine.dwrrChoose]
    split
    · exact .pair h.modPort
    · exact .ite_snd (ih h.dwrrRound) h

theorem Keeps.chargeSix {n size} (h : Keeps s0 s) :
    Keeps s0 (Machine.chargeSix s n size) := h.frame rfl rfl

theorem Keeps.chooseFrame {n} (h : Keeps s0 s) :
    Keeps s0 (Machine.chooseFrame s n).2 := by
  rw [Machine.chooseFrame]
  split
  · exact h
  · split
    · exact h.chargeSix
    · exact h.dwrrChoose

theorem Keeps.countTagged (h : Keeps s0 s) :
    Keeps s0 (Machine.countTagged s) := .ite (.frame h rfl rfl) (.bump (.frame h rfl rfl))

theorem Keeps.stampPacket {n x} (h : Keeps s0 s) :
    Keeps s0 (Machine.stampPacket s n x).2 := by
  rw [Machine.stampPacket]
  split
  · exact h
  · exact .pair h.countTagged.setSlot.modQp

theorem Keeps.frameBytes {n f} (h : Keeps s0 s) :
    Keeps s0 (Machine.frameBytes s n f).2 := by
  rw [Machine.frameBytes]
  split
  · exact h
  · exact h.stampPacket.takeFree

theorem Keeps.paceWire {n f} (h : Keeps s0 s) :
    Keeps s0 (Machine.paceWire s n f) := by
  rw [Machine.paceWire]
  split
  · exact h
  · exact .ite h.modQp h

theorem Keeps.startFrame {n f} (h : Keeps s0 s) :
    Keeps s0 (Machine.startFrame s n f) :=
  h.paceWire.frameBytes.modPort.portCount.portCount.portCount

theorem Keeps.goRaw {n} (h : Keeps s0 s) :
    Keeps s0 (Machine.goRaw s n) :=
  .ite h.modPort (.ite h.portCount.modPort (.ite h.modPort h.modPort))

theorem Keeps.afterRoom {n} (h : Keeps s0 s) :
    Keeps s0 (Machine.afterRoom s n) := .ite h.modPort.goRaw h.modPort

theorem Keeps.execRawTransmit {n v} (h : Keeps s0 s) :
    Next s0 (Machine.execRawTransmit n v s) := .mk (.ite h h.setReg.goRaw)

theorem Keeps.execFrameTransmit {n} (h : Keeps s0 s) :
    Next s0 (Machine.execFrameTransmit n s) := by
  rw [Machine.execFrameTransmit]
  refine .mk (.ite h ?_)
  dsimp only
  split
  · exact h.modPort.afterRoom.portCount
  · split
    · exact h.chooseFrame
    · exact h.chooseFrame.startFrame.afterRoom

theorem Keeps.execGclChange {n v} (h : Keeps s0 s) :
    Next s0 (Machine.execGclChange n v s) :=
  .mk (.ite h (.ite h.setReg.modPort.portEvent (.ite h.setReg.modPort h.setReg.modPort)))

theorem Keeps.execGclAbort {n v} (h : Keeps s0 s) :
    Next s0 (Machine.execGclAbort n v s) := .mk (.ite h (.ite h.modPort h.setReg))

theorem Keeps.execGclSwitch {n} (h : Keeps s0 s) :
    Next s0 (Machine.execGclSwitch n s) := by
  rw [Machine.execGclSwitch]
  refine .mk ?_
  split
  · exact .ite h h.modPort.portEvent
  · exact h

theorem Keeps.execGclEntryAdvance {n} (h : Keeps s0 s) :
    Next s0 (Machine.execGclEntryAdvance n s) := .mk (.ite h h.modPort)

theorem Keeps.execSyncArm {n} (h : Keeps s0 s) :
    Next s0 (Machine.execSyncArm n s) := .mk (.ite h h.modPort)

theorem Keeps.captureSync {n} (h : Keeps s0 s) :
    Keeps s0 (Machine.captureSync s n) := .ite h h.takeFree.modPort

theorem Keeps.execSyncInEdge (h : Keeps s0 s) :
    Next s0 (Machine.execSyncInEdge s) :=
  .mk (.ite h (.foldl h fun _ _ h' => h'.captureSync))

/-! Machine/PortRx.lean -/

theorem Keeps.rawDeliver {n bs flags} (h : Keeps s0 s) :
    Keeps s0 (Machine.rawDeliver s n bs flags) := by
  rw [Machine.rawDeliver]
  refine .ite h.portCount ?_
  dsimp only
  split
  · exact h.writeVa.portCount
  · exact h.writeVa.cqTake.modPort.portCount

theorem Keeps.execRxcqEnable {n v} (h : Keeps s0 s) :
    Next s0 (Machine.execRxcqEnable n v s) := .mk (.ite h h.setReg.modPort)

theorem Keeps.toTransport {n v} (h : Keeps s0 s) :
    Keeps s0 (Machine.toTransport s n v) := .ite h.bump (.ite h.bump (.frame h rfl rfl))

theorem Keeps.cutThrough {n e} (h : Keeps s0 s) :
    Keeps s0 (Machine.cutThrough s n e) := by
  rw [Machine.cutThrough]
  split
  · exact h
  · exact .ite (.frame h rfl rfl) h

theorem Keeps.lldpTake {n e} (h : Keeps s0 s) :
    Keeps s0 (Machine.lldpTake s n e) := by
  rw [Machine.lldpTake]
  refine .ite ?_ h
  split
  · exact h.modPort
  · exact h

theorem Keeps.classify {n bs e} (h : Keeps s0 s) :
    Keeps s0 (Machine.classify s n bs e) := by
  rw [Machine.classify]
  refine .ite (.ite h.portCount.rawDeliver h.portCount) ?_
  split
  · exact h.toTransport
  · exact .ite h.lldpTake.rawDeliver h.lldpTake.portCount

theorem Keeps.execFrameReceive {n bs badFcs corr uncorr syms} (h : Keeps s0 s) :
    Next s0 (Machine.execFrameReceive n bs badFcs corr uncorr syms s) := by
  rw [Machine.execFrameReceive]
  refine .mk (.ite h ?_)
  extract_lets sCounted
  have counted : Keeps s0 sCounted := h.portCount.portCount.portCount
  exact .ite (.ite counted.portCount.cutThrough counted.portCount) (.ite counted.portCount
    (.ite counted.portCount (.ite counted.portCount (.ite counted.portCount (.ite counted.portCount
      counted.portCount.portCount.classify)))))

theorem Keeps.execLpiEnter {n} (h : Keeps s0 s) :
    Next s0 (Machine.execLpiEnter n s) := .mk (.ite h.modPort.portCount h)

theorem Keeps.lpiAccrue {n} (h : Keeps s0 s) :
    Keeps s0 (Machine.lpiAccrue s n) := .ite h.portCount.modPort h

theorem Keeps.lpiLeave {n} (h : Keeps s0 s) :
    Keeps s0 (Machine.lpiLeave s n) := h.frame rfl rfl

theorem Keeps.execLpiWake {n} (h : Keeps s0 s) :
    Next s0 (Machine.execLpiWake n s) := .mk (.ite h.lpiLeave h)

theorem Keeps.execPrewake {n} (h : Keeps s0 s) :
    Next s0 (Machine.execPrewake n s) := .mk (.ite h.lpiLeave h)

theorem Keeps.execLldpduTransmit {n} (h : Keeps s0 s) :
    Next s0 (Machine.execLldpduTransmit n s) := .mk (.ite h.modPort h)

theorem Keeps.execLldpTlvExpiry {n} (h : Keeps s0 s) :
    Next s0 (Machine.execLldpTlvExpiry n s) := .mk (.ite h.modPort h)

end Sys2Proof.Machine
end

section
/-! SUPPORT. Power, thermal control, the twin link and errors keep memory canonical and the version
floor. -/

namespace Sys2Proof.Machine

variable {s0 s : State}

/-! Machine/PowerSteps.lean -/

theorem Keeps.darkState {p keepPa} (h : Keeps s0 s) :
    Keeps s0 (Machine.darkState s p keepPa) :=
  ⟨fun hw => tableWf_filter 0 s.mem _ (h.canonical hw), h.floorLe, h.floorLt⟩

theorem Keeps.standbyState (h : Keeps s0 s) :
    Keeps s0 (Machine.standbyState s) := by
  unfold Machine.standbyState
  extract_lets d
  have dark : Keeps s0 d := h.darkState
  exact ⟨dark.canonical, dark.floorLe, dark.floorLt⟩

theorem Keeps.enterStandby (h : Keeps s0 s) :
    Keeps s0 (Machine.enterStandby s) := .frame h.writeRetention.standbyState rfl rfl

theorem Keeps.enterWanted (h : Keeps s0 s) :
    Keeps s0 (Machine.enterWanted s) := .ite h.enterStandby h

theorem Keeps.execLedgerWindowBoundary (h : Keeps s0 s) :
    Next s0 (Machine.execLedgerWindowBoundary s) := by
  have budgeted : Keeps s0 (Machine.applyTrim (Machine.applyBudgets (Machine.closeWindow s))) :=
    h.closeWindow.applyBudgets.applyTrim
  rw [Machine.execLedgerWindowBoundary]
  exact .mk (.ite h budgeted.admitAll.openWindow.countSkipped.preemptStarved.enterWanted)

theorem Keeps.tripStandby {rule} (h : Keeps s0 s) :
    Keeps s0 (Machine.tripStandby s rule) := .frame h.recordError.enterStandby rfl rfl

theorem Keeps.bootRom (h : Keeps s0 s) :
    Keeps s0 (Machine.bootRom s) := by
  rw [Machine.bootRom]
  split
  · exact .frame h rfl rfl
  · exact .recordError (.frame h rfl rfl)

theorem Keeps.bootFromStandby (h : Keeps s0 s) :
    Keeps s0 (Machine.bootFromStandby s) := .ite (.frame h rfl rfl) h.bootRom

theorem Keeps.execPowerOn (h : Keeps s0 s) :
    Next s0 (Machine.execPowerOn s) := .mk (.ite h (.bootRom (.frame h rfl rfl)))

theorem Keeps.enterOff (h : Keeps s0 s) :
    Keeps s0 (Machine.enterOff s) := h.darkState

theorem Keeps.execPowerLoss (h : Keeps s0 s) :
    Next s0 (Machine.execPowerLoss s) := .mk (.ite h h.enterOff)

theorem Keeps.execOvervoltageDisconnect (h : Keeps s0 s) :
    Next s0 (Machine.execOvervoltageDisconnect s) := .mk (.ite h (.frame h.enterOff rfl rfl))

theorem Keeps.writeReq {code p} (h : Keeps s0 s) :
    Keeps s0 (Machine.writeReq s code p) := .ite h.setReg h.setReg.requestPower

theorem Keeps.execReqFull (h : Keeps s0 s) :
    Next s0 (Machine.execReqFull s) := .mk (.ite h.writeReq h)

theorem Keeps.execReqTrim (h : Keeps s0 s) :
    Next s0 (Machine.execReqTrim s) := .mk (.ite h.writeReq h)

theorem Keeps.execReqDoze (h : Keeps s0 s) :
    Next s0 (Machine.execReqDoze s) := .mk (.ite h.writeReq h)

theorem Keeps.execReqStandby (h : Keeps s0 s) :
    Next s0 (Machine.execReqStandby s) :=
  .mk (.ite h (.ite h.setReg.requestPower h.setReg.enterStandby))

theorem Keeps.execDozeGate (h : Keeps s0 s) :
    Next s0 (Machine.execDozeGate s) := .mk (.ite h h.modSched.arrivePower.enterWanted)

theorem Keeps.zeroLocal (h : Keeps s0 s) :
    Keeps s0 (Machine.zeroLocal s) := .frame h.zeroMem rfl rfl

theorem Keeps.resumeDozed {p} (h : Keeps s0 s) :
    Keeps s0 (Machine.resumeDozed s p) := .ite h h.unholdPartition

theorem Keeps.execDozeExitComplete (h : Keeps s0 s) :
    Next s0 (Machine.execDozeExitComplete s) := by
  rw [Machine.execDozeExitComplete]
  exact .mk (.ite h
      (.enterWanted (.arrivePower (.foldl h.zeroLocal.modSched fun _ _ h' => h'.resumeDozed))))

theorem Keeps.execSelfRefreshEntry (h : Keeps s0 s) :
    Next s0 (Machine.execSelfRefreshEntry s) := .mk (.ite h.modSched h)

theorem Keeps.wakePower (h : Keeps s0 s) :
    Keeps s0 (Machine.wakePower s) := .ite h (.ite h.requestPower h)

theorem Keeps.autoWake {s' r} (h : Keeps s0 s) :
    Keeps s0 (Machine.autoWake s' s r) := .ite h.wakePower h

theorem Keeps.execPollResponse {r} (h : Keeps s0 s) :
    Next s0 (Machine.execPollResponse r s) := .mk h.pollResponse.autoWake

theorem Keeps.execRefclk156Loss (h : Keeps s0 s) :
    Next s0 (Machine.execRefclk156Loss s) := by
  have down : Keeps s0 ((List.range 8).foldl (fun s n => Machine.portDown s n 0) s) :=
    .foldl h fun _ _ h' => h'.portDown
  exact .mk (.ite h (.frame down rfl rfl))

theorem Keeps.execRefclk156Restore (h : Keeps s0 s) :
    Next s0 (Machine.execRefclk156Restore s) := .mk (.frame h rfl rfl)

/-! Machine/GillSteps.lean -/

theorem Keeps.modGill {f} (h : Keeps s0 s) :
    Keeps s0 (Machine.modGill s f) := h.frame rfl rfl

theorem Keeps.setInput {d x} (h : Keeps s0 s) :
    Keeps s0 (Machine.setInput s d x) := h.frame rfl rfl

theorem Keeps.evalRule {i} (h : Keeps s0 s) :
    Keeps s0 (Machine.evalRule s i) := h.frame rfl rfl

theorem Keeps.evalRules {dig c} (h : Keeps s0 s) :
    Keeps s0 (Machine.evalRules s dig c) := .foldl h fun _ _ h' => .ite h'.evalRule h'

theorem Keeps.ruleEvent {i fired} (h : Keeps s0 s) :
    Keeps s0 (Machine.ruleEvent s i fired) :=
  .ite (.modGill (.ite h.takeFree h)) (.post (.ite h.takeFree h))

theorem Keeps.setFired {i v} (h : Keeps s0 s) :
    Keeps s0 (Machine.setFired s i v) := h.frame rfl rfl

theorem Keeps.gillWake (h : Keeps s0 s) :
    Keeps s0 (Machine.gillWake s) := .ite h.bootFromStandby h.wakePower

theorem Keeps.execGillRuleFire {i} (h : Keeps s0 s) :
    Next s0 (Machine.execGillRuleFire i s) := by
  rw [Machine.execGillRuleFire]
  refine .mk (.ite h ?_)
  dsimp only
  split
  · exact h.setFired.ruleEvent.gillWake
  · exact .ite h.setFired.ruleEvent h.setFired.ruleEvent.tripStandby
  · exact h.setFired.ruleEvent

theorem Keeps.execGillRuleRelease {i} (h : Keeps s0 s) :
    Next s0 (Machine.execGillRuleRelease i s) :=
  .mk (.ite h (.ite h.setFired.ruleEvent.bootFromStandby h.setFired.ruleEvent))

theorem Keeps.roundFree {a n} (h : Keeps s0 s) :
    Keeps s0 (Machine.roundFree s a n).2 := .ite_snd h h.takeFree

theorem Keeps.filterSample {filt param last hist} (h : Keeps s0 s) :
    Keeps s0 (Machine.filterSample s filt param last hist).2 := by
  unfold Machine.filterSample
  extract_lets f free r n
  have drawn : Keeps s0 free.2 := h.takeFree
  split
  · exact .pair h
  · exact .ite_snd drawn h.roundFree
  · exact .ite_snd drawn (.pair h.roundFree)
  · exact .ite_snd drawn (.pair h)

theorem Keeps.execGillSample {c x} (h : Keeps s0 s) :
    Next s0 (Machine.execGillSample c x s) := .mk (.ite h h.filterSample.modGill.evalRules)

theorem Keeps.inputEvent {d code} (h : Keeps s0 s) :
    Keeps s0 (Machine.inputEvent s d code) := .ite h.modGill h.post

theorem Keeps.noteHb {d level} (h : Keeps s0 s) :
    Keeps s0 (Machine.noteHb s d level) := .ite (.frame h rfl rfl) h

theorem Keeps.acceptChange {d} (h : Keeps s0 s) :
    Keeps s0 (Machine.acceptChange s d) :=
  .evalRules (.ite h.setInput.noteHb.inputEvent h.setInput.noteHb)

theorem Keeps.execGillInputChange {d level} (h : Keeps s0 s) :
    Next s0 (Machine.execGillInputChange d level s) :=
  .mk (.ite h (.ite h.setInput h.setInput.acceptChange))

theorem Keeps.execGillChatterEnd {d} (h : Keeps s0 s) :
    Next s0 (Machine.execGillChatterEnd d s) :=
  .mk (.ite h (.ite h.setInput.inputEvent h.setInput.inputEvent.acceptChange))

theorem Keeps.execGillInputStuck {d} (h : Keeps s0 s) :
    Next s0 (Machine.execGillInputStuck d s) := .mk (.ite h h.setInput.inputEvent.evalRules)

theorem Keeps.execGillStuckEnd {d} (h : Keeps s0 s) :
    Next s0 (Machine.execGillStuckEnd d s) := .mk (.ite h h.setInput.inputEvent.evalRules)

theorem Keeps.execGillSilent (h : Keeps s0 s) :
    Next s0 (Machine.execGillSilent s) :=
  .mk (.ite h h.modSched.modGill.bump.recordError.post)

theorem Keeps.execGillReportsResume (h : Keeps s0 s) :
    Next s0 (Machine.execGillReportsResume s) :=
  .mk (.ite h (.post (.foldl h.modSched fun _ _ h' => .ite h'.evalRule h')))

theorem Keeps.ruleWritten {i} (h : Keeps s0 s) :
    Keeps s0 (Machine.ruleWritten s i) := .ite h.modGill.evalRule h.modGill

theorem Keeps.writeRule {i isA v} (h : Keeps s0 s) :
    Keeps s0 (Machine.writeRule s i isA v) := .ite h h.setReg.ruleWritten

theorem Keeps.writeGl {off v} (h : Keeps s0 s) :
    Keeps s0 (Machine.writeGl s off v) :=
  .ite (.ite h.modGill h) (.ite h.setReg (.ite h.setReg (.ite h.writeRule h)))

theorem Keeps.execGillLock (h : Keeps s0 s) :
    Next s0 (Machine.execGillLock s) := .mk (.ite h.writeGl h)

theorem Keeps.execSmbusStatus (h : Keeps s0 s) :
    Next s0 (Machine.execSmbusStatus s) := .mk (.ite h (.frame h rfl rfl))

theorem Keeps.execSmbusRead {off} (h : Keeps s0 s) :
    Next s0 (Machine.execSmbusRead off s) := .mk (.ite h (.frame h rfl rfl))

theorem Keeps.execSmbusWrite {off v} (h : Keeps s0 s) :
    Next s0 (Machine.execSmbusWrite off v s) := .mk (.ite h h.writeGl)

theorem Keeps.execSmbusWake {v} (h : Keeps s0 s) :
    Next s0 (Machine.execSmbusWake v s) := by
  rw [Machine.execSmbusWake]
  exact .mk (.ite h (.ite h.bootFromStandby (.ite h.enterStandby.bootFromStandby
      (.ite h.wakePower h))))

/-! Machine/TwinSteps.lean -/

theorem Keeps.postTwin {new old} (h : Keeps s0 s) :
    Keeps s0 (Machine.postTwin s new old) := h.post

theorem Keeps.endPair {new} (h : Keeps s0 s) :
    Keeps s0 (Machine.endPair s new) :=
  .ite h.leavePair.postTwin.modTwin h.leavePair.postTwin

theorem Keeps.finishPair {st} (h : Keeps s0 s) :
    Keeps s0 (Machine.finishPair s st) := by
  rw [Machine.finishPair]
  split
  · exact h
  · exact .ite h.modTwin.completeEntry h.modTwin.completeEntry

theorem Keeps.failPair {st} (h : Keeps s0 s) :
    Keeps s0 (Machine.failPair s st) := h.modTwin.finishPair

theorem Keeps.failSync {st} (h : Keeps s0 s) :
    Keeps s0 (Machine.failSync s st) := h.endPair.finishPair

theorem Keeps.queueCopy (h : Keeps s0 s) :
    Keeps s0 (Machine.queueCopy s) := by
  rw [Machine.queueCopy]
  refine .flushItems (.modTwin (.foldl h.queueDeltas fun _ _ h' => ?_))
  split
  · exact h'.queueData
  · exact h'

theorem Keeps.tryPair (h : Keeps s0 s) :
    Keeps s0 (Machine.tryPair s) := by
  rw [Machine.tryPair]
  split
  · exact .ite h (.ite h.failPair h.modTwin.postTwin.queueCopy)
  · exact h

theorem Keeps.twinPair {aq e} (h : Keeps s0 s) :
    Keeps s0 (Machine.twinPair s aq e).state := by
  rw [Machine.twinPair]
  refine .ite_state h.answer ?_
  refine .ite_state h.answer ?_
  exact .ite_state h.answer h.takeFree.modTwin.queueItem.flushItems.tryPair.answerLater

theorem Keeps.execTwinPair {r} (h : Keeps s0 s) :
    Next s0 (Machine.execTwinPair r s) := .mk (h.adminCommand (fun _ _ _ h' => h'.twinPair))

theorem Keeps.execTwinSyncComplete (h : Keeps s0 s) :
    Next s0 (Machine.execTwinSyncComplete s) := .mk (.ite h h.modTwin.postTwin.finishPair.xptDone)

theorem Keeps.execTwinPairTimeout (h : Keeps s0 s) :
    Next s0 (Machine.execTwinPairTimeout s) := by
  rw [Machine.execTwinPairTimeout]
  refine .mk ?_
  split
  · exact .ite h h.failPair.xptDone
  · exact h

theorem Keeps.finishUnpair (h : Keeps s0 s) :
    Keeps s0 (Machine.finishUnpair s) := by
  rw [Machine.finishUnpair]
  split
  · exact h
  · exact h.modTwin.endPair.completeEntry

theorem Keeps.twinUnpair {aq e} (h : Keeps s0 s) :
    Keeps s0 (Machine.twinUnpair s aq e).state := by
  rw [Machine.twinUnpair]
  refine .ite_state h.answer ?_
  split
  · exact h.answer
  · exact h.answer
  · exact .ite_state h.answer h.modTwin.queueItem.flushItems.answerLater
  · exact h.endPair.answer

theorem Keeps.settleUnpair (h : Keeps s0 s) :
    Keeps s0 (Machine.settleUnpair s) := .ite h.finishUnpair h

theorem Keeps.execTwinUnpair {r} (h : Keeps s0 s) :
    Next s0 (Machine.execTwinUnpair r s) :=
  .mk (.xptDone (.settleUnpair (h.adminCommand (fun _ _ _ h' => h'.twinUnpair))))

theorem Keeps.takeTwinAck {a} (h : Keeps s0 s) :
    Keeps s0 (Machine.takeTwinAck s a) :=
  .ite h h.modTwin.modRing.releaseHeld.flushItems.settleUnpair

theorem Keeps.recvTwin {kind bs badFec} (h : Keeps s0 s) :
    Keeps s0 (Machine.recvTwin s kind bs badFec).2 := by
  rw [Machine.recvTwin]
  refine .ite_snd h ?_
  refine .ite_snd (.pair h.bump) ?_
  refine .ite_snd h ?_
  refine .ite_snd (.pair h.modTwin.takeTwinAck) ?_
  exact .ite_snd (.pair h.modTwin.takeTwinAck.modTwin) (.pair h.modTwin.takeTwinAck)

theorem Keeps.reportFrame {kind bs badFec} (h : Keeps s0 s) :
    Keeps s0 (Machine.reportFrame kind bs badFec s) := h.recvTwin.xptDone

theorem Keeps.execTwinHbFrame {bs badFec} (h : Keeps s0 s) :
    Next s0 (Machine.execTwinHbFrame bs badFec s) := .mk h.reportFrame

theorem Keeps.execTwinAck {bs badFec} (h : Keeps s0 s) :
    Next s0 (Machine.execTwinAck bs badFec s) := .mk h.reportFrame

theorem Keeps.applyEntry {e} (h : Keeps s0 s) :
    Keeps s0 (Machine.applyEntry s e) := by
  rw [Machine.applyEntry]
  refine .ite h ?_
  split
  · exact h.writeMem
  · exact h.writeMem
  · exact h.writeMem
  · exact h

theorem Keeps.execTwinDelta {bs badFec} (h : Keeps s0 s) :
    Next s0 (Machine.execTwinDelta bs badFec s) := by
  rw [Machine.execTwinDelta]
  refine .mk (.xptDone ?_)
  split
  · exact .ite (.foldl h.recvTwin fun _ _ h' => h'.applyEntry) h.recvTwin
  · exact h.recvTwin

theorem Keeps.execTwinData {bs badFec} (h : Keeps s0 s) :
    Next s0 (Machine.execTwinData bs badFec s) := by
  rw [Machine.execTwinData]
  refine .mk (.xptDone ?_)
  split
  · exact .ite h.recvTwin.writeMem h.recvTwin
  · exact h.recvTwin

theorem Keeps.execTwinPairFrame {bs badFec} (h : Keeps s0 s) :
    Next s0 (Machine.execTwinPairFrame bs badFec s) := by
  rw [Machine.execTwinPairFrame]
  refine .mk (.xptDone ?_)
  split
  · exact .ite h.recvTwin.modTwin.tryPair h.recvTwin
  · exact .ite h.recvTwin.failPair h.recvTwin

theorem Keeps.discardMirror {p} (h : Keeps s0 s) :
    Keeps s0 (Machine.discardMirror s p) := h.zeroMem.zeroMem

theorem Keeps.execTwinUnpairFrame {bs badFec} (h : Keeps s0 s) :
    Next s0 (Machine.execTwinUnpairFrame bs badFec s) := by
  rw [Machine.execTwinUnpairFrame]
  refine .mk (.xptDone ?_)
  split
  · dsimp only
    split
    · refine .ite (.finishUnpair (.foldl h.recvTwin fun _ _ h' => h'.discardMirror)) ?_
      exact .endPair (.foldl h.recvTwin fun _ _ h' => h'.discardMirror)
    · exact .failSync (.foldl h.recvTwin fun _ _ h' => h'.discardMirror)
    · exact h.recvTwin
  · exact h.recvTwin

theorem Keeps.execTwinLinkTrained (h : Keeps s0 s) :
    Next s0 (Machine.execTwinLinkTrained s) := .mk (.ite h h.modTwin)

theorem Keeps.execTwinHbSend (h : Keeps s0 s) :
    Next s0 (Machine.execTwinHbSend s) := .mk (.ite h h.sendTwin.modTwin)

theorem Keeps.execTwinAckTimer (h : Keeps s0 s) :
    Next s0 (Machine.execTwinAckTimer s) := .mk (.ite h h.sendTwin)

theorem Keeps.execTwinResend (h : Keeps s0 s) :
    Next s0 (Machine.execTwinResend s) :=
  .mk (.ite h (.ite h (.modTwin (.bump (.foldl h fun _ _ h' => h'.sendItem)))))

theorem Keeps.execTwinHbSilent (h : Keeps s0 s) :
    Next s0 (Machine.execTwinHbSilent s) := .mk (.ite h h.holdHb)

theorem Keeps.takePart {p} (h : Keeps s0 s) :
    Keeps s0 (Machine.takePart s p) :=
  .foldl (.foldl h fun _ _ h' => h'.setQp) fun _ _ h' => h'.setMemKey

theorem Keeps.announceOn {n e} (h : Keeps s0 s) :
    Keeps s0 (Machine.announceOn s n e) := .ite h h.modPort

theorem Keeps.announceAll (h : Keeps s0 s) :
    Keeps s0 (Machine.announceAll s) :=
  .foldl h fun _ _ h' => .foldl h' fun _ _ h2 => h2.announceOn

theorem Keeps.takeover (h : Keeps s0 s) :
    Keeps s0 (Machine.takeover s) := by
  unfold Machine.takeover
  extract_lets sTwin sHeld sEntries sParts sPosted
  have held : Keeps s0 sHeld := h.modTwin.modRing.releaseHeld
  have entries : Keeps s0 sEntries := .foldl held fun _ _ h' => h'.setReg
  have parts : Keeps s0 sParts := .postTwin (.foldl entries fun _ _ h' => h'.takePart)
  have posted : Keeps s0 sPosted := .foldl parts fun _ _ h' => h'.post
  exact .ite posted.announceAll.modTwin posted

theorem Keeps.pairFails {partner} (h : Keeps s0 s) :
    Keeps s0 (Machine.pairFails s partner) := by
  rw [Machine.pairFails]
  split
  · exact h.failSync
  · exact .ite h.finishUnpair (.ite h.takeover h.endPair)
  · exact h

theorem Keeps.execTwinFailureDetect (h : Keeps s0 s) :
    Next s0 (Machine.execTwinFailureDetect s) :=
  .mk (.ite h (.ite (.ite h.pairFails.xptDone h.post) (.ite h.pairFails.xptDone h)))

theorem Keeps.execTakeoverAnnounce (h : Keeps s0 s) :
    Next s0 (Machine.execTakeoverAnnounce s) := .mk (.ite h h.announceAll.modTwin)

theorem Keeps.execTwinKeyLoad (h : Keeps s0 s) :
    Next s0 (Machine.execTwinKeyLoad s) := .mk (.ite h h.modTwin)

theorem Keeps.execTwinKeyClr (h : Keeps s0 s) :
    Next s0 (Machine.execTwinKeyClr s) := .mk (.ite h h.modTwin)

/-! Machine/ErrSteps.lean -/

theorem Keeps.detectCorr {unit inst addr} (h : Keeps s0 s) :
    Keeps s0 (Machine.detectCorr s unit inst addr) := .recordError (.ite h.bump.setCheck h.bump)

theorem Keeps.detectWord {unit inst addr} (h : Keeps s0 s) :
    Keeps s0 (Machine.detectWord s unit inst addr) := h.setCheck.bump.recordError

theorem Keeps.detectContext {inst p n} (h : Keeps s0 s) :
    Keeps s0 (Machine.detectContext s inst p n) :=
  .ite h.recordError h.recordError.dropMissed.enterError

theorem Keeps.detectSync {i attr} (h : Keeps s0 s) :
    Keeps s0 (Machine.detectSync s i attr) := h.setSync.checkSync

theorem Keeps.detectFrame {unit n rx idx} (h : Keeps s0 s) :
    Keeps s0 (Machine.detectFrame s unit n rx idx) := by
  rw [Machine.detectFrame]
  refine .recordError (.ite ?_ h.modPort.afterRoom)
  split
  · exact .frame h rfl rfl
  · exact h

theorem Keeps.detectError {code unit inst part addr flag data0} (h : Keeps s0 s) :
    Keeps s0 (Machine.detectError s code unit inst part addr flag data0) := by
  unfold Machine.detectError
  split
  · exact h.detectCorr
  · exact .ite h.detectContext h.detectWord
  · exact h.detectSync
  · exact h.detectFrame
  · exact h.tripStandby
  · exact h.recordError

theorem Keeps.execErrorDetect {code unit inst part addr flag data0} (h : Keeps s0 s) :
    Next s0 (Machine.execErrorDetect code unit inst part addr flag data0 s) :=
        .mk (.ite h h.detectError.xptDone)

theorem Keeps.execFenceTimeout {p} (h : Keeps s0 s) :
    Next s0 (Machine.execFenceTimeout p s) := by
  rw [Machine.execFenceTimeout]
  refine .mk ?_
  split
  · exact h
  · exact .ite h h.recordError

theorem Keeps.execMpHang {h₁} (h : Keeps s0 s) :
    Next s0 (Machine.execMpHang h₁ s) := .mk (.ite h h.recordError)

theorem Keeps.execErrHeadWrite {v} (h : Keeps s0 s) :
    Next s0 (Machine.execErrHeadWrite v s) :=
  .mk (.ite h (.ite (.frame h rfl rfl) (.mpPost (.frame h rfl rfl))))

/-! Machine/XuSteps.lean -/

theorem Keeps.invDrop {i} (h : Keeps s0 s) :
    Keeps s0 (Machine.invDrop s i) := by
  rw [Machine.invDrop]
  split
  · exact .frame h rfl rfl
  · exact .frame h rfl rfl

theorem Keeps.revokeGone {i} (h : Keeps s0 s) :
    Keeps s0 (Machine.revokeGone s i) := .ite (.frame h rfl rfl) h

theorem Keeps.invBegin {i} (h : Keeps s0 s) :
    Keeps s0 (Machine.invBegin s i) := .frame h.invDrop.revokeGone rfl rfl

theorem Keeps.invStart {fn scope} (h : Keeps s0 s) :
    Keeps s0 (Machine.invStart s fn scope) := .ite h h.invBegin

theorem Keeps.execInvPage {fn} (h : Keeps s0 s) :
    Next s0 (Machine.execInvPage fn s) := .mk h.invStart

theorem Keeps.execInvCtx {fn} (h : Keeps s0 s) :
    Next s0 (Machine.execInvCtx fn s) := .mk h.invStart

theorem Keeps.execInvPart {fn} (h : Keeps s0 s) :
    Next s0 (Machine.execInvPart fn s) := .mk h.invStart

theorem Keeps.execInvOwner {fn} (h : Keeps s0 s) :
    Next s0 (Machine.execInvOwner fn s) := .mk h.invStart

theorem Keeps.execAtsInvalidate {p va} (h : Keeps s0 s) :
    Next s0 (Machine.execAtsInvalidate p va s) := .mk (.frame h.invDrop rfl rfl)

theorem Keeps.execInvalidationComplete {who} (h : Keeps s0 s) :
    Next s0 (Machine.execInvalidationComplete who s) := by
  rw [Machine.execInvalidationComplete]
  refine .mk ?_
  split
  · exact h
  · exact .ite (.frame h rfl rfl) h

theorem Keeps.execScrubLine {pa} (h : Keeps s0 s) :
    Next s0 (Machine.execScrubLine pa s) := .mk (.ite h.checkWords h)

end Sys2Proof.Machine
end

section
/-! SUPPORT. Registers, boot, resets and time passing keep memory canonical and the version
floor. -/

namespace Sys2Proof.Machine

variable {s0 s : State}

/-! Machine/RegSteps.lean -/

theorem Keeps.asRow {f}
    (hf : ∀ s, Keeps s0 s → Next s0 (f s)) (h : Keeps s0 s) :
    Keeps s0 (Machine.asRow f s) := .resState h (hf _ h)

theorem Keeps.plainWrite {key v} (h : Keeps s0 s) :
    Keeps s0 (Machine.plainWrite s key v) := by
  rw [Machine.plainWrite]
  split
  · exact h
  · exact h.setReg

theorem Keeps.pollWrite {r v} (h : Keeps s0 s) :
    Keeps s0 (Machine.pollWrite s r v) := h.frame rfl rfl

theorem Keeps.setupWrite {r off v} (h : Keeps s0 s) :
    Keeps s0 (Machine.setupWrite s r off v) := by
  unfold Machine.setupWrite
  refine .ite h ?_
  split
  · exact h.modRing
  · exact h.modRing
  · exact h.modRing
  · exact h.modRing
  · exact h

theorem Keeps.ringWrite {r off v} (h : Keeps s0 s) :
    Keeps s0 (Machine.ringWrite s r off v) := by
  rw [Machine.ringWrite]
  refine .ite h.pollWrite ?_
  exact .ite (.ite (h.asRow (fun _ h' => h'.execRingStartPriv)) h) h.setupWrite

theorem Keeps.ksCtlWrite {fn i v} (h : Keeps s0 s) :
    Keeps s0 (Machine.ksCtlWrite s fn i v) := by
  rw [Machine.ksCtlWrite]
  refine .ite ?_ ?_
  · exact .asRow (fun _ h' => h'.execKsClr) (.ite (.asRow (fun _ h' => h'.execRxload)
        (.ite (h.modSlot.asRow (fun _ h' => h'.execTxload)) h.modSlot))
        (.ite (h.modSlot.asRow (fun _ h' => h'.execTxload)) h.modSlot))
  · refine .ite ?_ (.ite (h.modSlot.asRow (fun _ h' => h'.execTxload)) h.modSlot)
    exact .asRow (fun _ h' => h'.execRxload) (.ite (h.modSlot.asRow (fun _ h' => h'.execTxload))
        h.modSlot)

theorem Keeps.keyPageWrite {fn off v} (h : Keeps s0 s) :
    Keeps s0 (Machine.keyPageWrite s fn off v) :=
  .ite h.modSlot (.ite h.modSlot (.ite h.ksCtlWrite h))

theorem Keeps.rxrelWrite {n v} (h : Keeps s0 s) :
    Keeps s0 (Machine.rxrelWrite s n v) := h.frame rfl rfl

theorem Keeps.rawWindowWrite {n off v} (h : Keeps s0 s) :
    Keeps s0 (Machine.rawWindowWrite s n off v) := .ite h h.modPort

theorem Keeps.lpiWrite {n v} (h : Keeps s0 s) :
    Keeps s0 (Machine.lpiWrite s n v) := .ite h.plainWrite h.plainWrite.modPort

theorem Keeps.gclWrite {n off v} (h : Keeps s0 s) :
    Keeps s0 (Machine.gclWrite s n off v) := .ite h h.plainWrite

theorem Keeps.portWrite {n off v} (h : Keeps s0 s) :
    Keeps s0 (Machine.portWrite s n off v) := by
  unfold Machine.portWrite
  refine .ite h.rawWindowWrite ?_
  refine .ite h.gclWrite ?_
  split
  · exact h.asRow (fun _ h' => h'.execPortModeWrite)
  · exact .ite (h.asRow (fun _ h' => h'.execRxcqEnable)) h.plainWrite
  · exact h.rxrelWrite
  · exact .ite (h.asRow (fun _ h' => h'.execRawTransmit)) (.ite h h.plainWrite)
  · exact h.lpiWrite
  · exact .ite (h.asRow (fun _ h' => h'.execSyncArm)) h
  · refine .ite (h.asRow (fun _ h' => h'.execGclAbort)) ?_
    exact .ite (h.asRow (fun _ h' => h'.execGclChange)) h.gclWrite
  · exact h.gclWrite
  · exact h.gclWrite
  · exact h.plainWrite

theorem Keeps.haRetWrite {v} (h : Keeps s0 s) :
    Keeps s0 (Machine.haRetWrite s v) := .ite h.plainWrite.setReg h.plainWrite

theorem Keeps.mboxWrite {off v} (h : Keeps s0 s) :
    Keeps s0 (Machine.mboxWrite s off v) :=
  .ite h (.ite (.frame h.plainWrite rfl rfl) h.plainWrite)

theorem Keeps.twinWrite {off v} (h : Keeps s0 s) :
    Keeps s0 (Machine.twinWrite s off v) := by
  rw [Machine.twinWrite]
  refine .ite h.modTwin ?_
  refine .ite ?_ (.ite h (.ite h.plainWrite.setReg h.plainWrite))
  refine .ite ?_ (.ite (h.modTwin.asRow (fun _ h' => h'.execTwinKeyLoad)) h.modTwin)
  exact .asRow (fun _ h' => h'.execTwinKeyClr) (.ite (h.modTwin.asRow
      (fun _ h' => h'.execTwinKeyLoad)) h.modTwin)

theorem Keeps.reqWrite {v} (h : Keeps s0 s) :
    Keeps s0 (Machine.reqWrite s v) := by
  rw [Machine.reqWrite]
  split
  · exact h.asRow (fun _ h' => h'.execReqFull)
  · exact h.asRow (fun _ h' => h'.execReqTrim)
  · exact h.asRow (fun _ h' => h'.execReqDoze)
  · exact h.asRow (fun _ h' => h'.execReqStandby)
  · exact h

theorem Keeps.invWrite {fn key v} (h : Keeps s0 s) :
    Keeps s0 (Machine.invWrite s fn key v) := by
  rw [Machine.invWrite]
  refine .ite h ?_
  refine .ite ?_ h.plainWrite
  split
  · exact h.plainWrite.asRow (fun _ h' => h'.execInvPage)
  · exact h.plainWrite.asRow (fun _ h' => h'.execInvCtx)
  · exact h.plainWrite.asRow (fun _ h' => h'.execInvPart)
  · exact h.plainWrite.asRow (fun _ h' => h'.execInvOwner)

theorem Keeps.resolveWrite {v} (h : Keeps s0 s) :
    Keeps s0 (Machine.resolveWrite s v) := by
  rw [Machine.resolveWrite]
  split
  · exact h.asRow (fun _ h' => h'.execFqRetry)
  · exact h.asRow (fun _ h' => h'.execFqFail)
  · exact h

theorem Keeps.vfmapWrite {p v} (h : Keeps s0 s) :
    Keeps s0 (Machine.vfmapWrite s p v) := .ite h h.plainWrite

theorem Keeps.partWrite {off v} (h : Keeps s0 s) :
    Keeps s0 (Machine.partWrite s off v) := by
  rw [Machine.partWrite]
  obtain ⟨m, hm⟩ : ∃ m, (off - 0x0601000) % 256 = m := ⟨_, rfl⟩
  rw [hm]
  refine .ite (.ite h.setReg h.plainWrite) ?_
  dsimp only
  split
  · exact .ite h h.plainWrite
  · exact .ite h (.frame h.plainWrite rfl rfl)
  · exact h.vfmapWrite
  · exact h.plainWrite

theorem Keeps.dbgWrite {off v} (h : Keeps s0 s) :
    Keeps s0 (Machine.dbgWrite s off v) := by
  rw [Machine.dbgWrite]
  refine .ite ?_ (.ite (.ite h h.plainWrite) (h.asRow (fun _ h' => h'.execDbgWindowWrite)))
  refine .ite ?_ ?_
  · exact .asRow (fun _ h' => h'.execDbgStep) (.ite (.asRow (fun _ h' => h'.execDbgResume)
        (.ite (h.asRow (fun _ h' => h'.execDbgHaltCmd)) h))
        (.ite (h.asRow (fun _ h' => h'.execDbgHaltCmd)) h))
  · refine .ite ?_ (.ite (h.asRow (fun _ h' => h'.execDbgHaltCmd)) h)
    exact .asRow (fun _ h' => h'.execDbgResume) (.ite (h.asRow (fun _ h' => h'.execDbgHaltCmd)) h)

theorem Keeps.pf0Write {off v} (h : Keeps s0 s) :
    Keeps s0 (Machine.pf0Write s off v) := by
  rw [Machine.pf0Write]
  refine .ite (.ite (h.asRow (fun _ h' => h'.execPolicyResume)) h.plainWrite) ?_
  refine .ite h.haRetWrite ?_
  refine .ite h.mboxWrite ?_
  refine .ite h.reqWrite ?_
  refine .ite h.writeGl ?_
  refine .ite (h.asRow (fun _ h' => h'.execErrHeadWrite)) ?_
  refine .ite h.twinWrite ?_
  refine .ite h.portWrite ?_
  refine .ite (.foldl h.plainWrite fun _ _ h' => h'.afterRoom) ?_
  refine .ite h.keyPageWrite ?_
  refine .ite h.invWrite ?_
  refine .ite h.resolveWrite ?_
  exact .ite h.partWrite (.ite h.ringWrite (.ite h.dbgWrite h.plainWrite))

theorem Keeps.vfWrite {n off v} (h : Keeps s0 s) :
    Keeps s0 (Machine.vfWrite s n off v) := by
  rw [Machine.vfWrite]
  refine .ite h.invWrite ?_
  refine .ite h.keyPageWrite ?_
  refine .ite (h.asRow (fun _ h' => h'.execSyncWindowWrite)) ?_
  split
  · exact h.ringWrite
  · exact h.plainWrite

theorem Keeps.regWrite {fn off v} (h : Keeps s0 s) :
    Keeps s0 (Machine.regWrite s fn off v) :=
  .ite h (.ite (.ite h.pf0Write h) (.ite h.vfWrite h))

/-! Machine/RegViews.lean -/

theorem Keeps.dbgLocal {o r} (h : Keeps s0 s) (hr : Machine.dbgLocal s o = some r) :
    Keeps s0 r.2 := by
  unfold Machine.dbgLocal at hr
  split at hr
  · cases hr
  · split at hr
    · cases hr
      split
      · exact h.readMem
      · exact h.readMem
    · cases hr

theorem Keeps.clearPlain {key} (h : Keeps s0 s) :
    Keeps s0 (Machine.clearPlain s key) := by
  rw [Machine.clearPlain]
  split
  · exact h
  · exact .ite h h.setReg

theorem Keeps.clearRing {r off} (h : Keeps s0 s) :
    Keeps s0 (Machine.clearRing s r off) := .ite h.modRing h

theorem Keeps.clearSlot {fn off} (h : Keeps s0 s) :
    Keeps s0 (Machine.clearSlot s fn off) := .ite h.modSlot h

theorem Keeps.clearRead {fn off} (h : Keeps s0 s) :
    Keeps s0 (Machine.clearRead s fn off) := by
  rw [Machine.clearRead]
  refine .ite (.ite h.clearRing (.ite h.clearSlot h.clearPlain)) ?_
  refine .ite h.clearSlot ?_
  split
  · exact h.clearRing
  · exact h

theorem Keeps.execReadClearRegister {fn off} (h : Keeps s0 s) :
    Next s0 (Machine.execReadClearRegister fn off s) := by
  refine .mk (.ite h (.ite (.frame h rfl rfl) ?_))
  split
  · next r hr =>
    split at hr
    · exact .frame (h.dbgLocal hr) rfl rfl
    · cases hr
  · exact .frame h.clearRead rfl rfl

/-! Machine/BootSteps.lean -/

theorem Keeps.readFirmware {pa n} (h : Keeps s0 s) :
    Keeps s0 (Machine.readFirmware s pa n).2 := h.readMem

theorem Keeps.slotMatches {pa n digest} (h : Keeps s0 s) :
    Keeps s0 (Machine.slotMatches s pa n digest).2 := by
  unfold Machine.slotMatches
  split
  · next hr => exact h.readFirmware.snd_eq hr
  · next hr => exact h.readFirmware.snd_eq hr

theorem Keeps.recheckBlocks {base m} (h : Keeps s0 s) :
    Keeps s0 (Machine.recheckBlocks s base m).2 := .foldl_snd h fun _ _ h' => h'.slotMatches

theorem Keeps.checkComps {base m} (h : Keeps s0 s) :
    Keeps s0 (Machine.checkComps s base m).2 := .foldl_snd h fun _ _ h' => h'.slotMatches

theorem Keeps.mbDone {st info} (h : Keeps s0 s) :
    Keeps s0 (Machine.mbDone s st info) := h.frame rfl rfl

theorem Keeps.mailbox {op f}
    (hf : ∀ s, Keeps s0 s → Keeps s0 (f s)) (h : Keeps s0 s) :
    Keeps s0 (Machine.mailbox op f s) := .ite h (hf _ h.setReg)

theorem Keeps.emptySlot (h : Keeps s0 s) :
    Keeps s0 (Machine.emptySlot s) := h.frame rfl rfl

theorem Keeps.manifestOp (h : Keeps s0 s) :
    Keeps s0 (Machine.manifestOp s) := by
  unfold Machine.manifestOp
  refine .ite h.mbDone (.ite h.emptySlot.mbDone (.ite h.emptySlot.mbDone ?_))
  split
  · next hr => exact (h.emptySlot.readFirmware.snd_eq hr).mbDone
  · next hr =>
    have read := h.emptySlot.readFirmware.snd_eq hr
    exact .ite read.mbDone (.mbDone (.frame read rfl rfl))

theorem Keeps.execManifest (h : Keeps s0 s) :
    Next s0 (Machine.execManifest s) := .mk (h.mailbox (fun _ h' => h'.manifestOp))

theorem Keeps.takeBlocks {m i off n} (h : Keeps s0 s) :
    Keeps s0 (Machine.takeBlocks s m i off n) := by
  induction n generalizing s i off with
  | zero => exact h.mbDone
  | succ n ih =>
    rw [Machine.takeBlocks]
    split
    · next hr => exact (h.readFirmware.snd_eq hr).mbDone
    · next hr =>
      have read := h.readFirmware.snd_eq hr
      exact .ite read.mbDone (ih (.frame read.writeMem rfl rfl))

theorem Keeps.blocksOp (h : Keeps s0 s) :
    Keeps s0 (Machine.blocksOp s) := by
  rw [Machine.blocksOp]
  refine .ite h.mbDone ?_
  refine .ite h.mbDone ?_
  split
  · exact h.mbDone
  · exact .ite h.mbDone (.ite h.mbDone h.takeBlocks)

theorem Keeps.execBlocks (h : Keeps s0 s) :
    Next s0 (Machine.execBlocks s) := .mk (h.mailbox (fun _ h' => h'.blocksOp))

theorem Keeps.discardOp (h : Keeps s0 s) :
    Keeps s0 (Machine.discardOp s) := .ite h.mbDone h.emptySlot.mbDone

theorem Keeps.execDiscard (h : Keeps s0 s) :
    Next s0 (Machine.execDiscard s) := .mk (h.mailbox (fun _ h' => h'.discardOp))

theorem Keeps.applyRecords {b i skipped applied n} (h : Keeps s0 s) :
    Keeps s0 (Machine.applyRecords s b i skipped applied n).2.2 := by
  induction n generalizing s i skipped applied with
  | zero => exact h
  | succ n ih =>
    rw [Machine.applyRecords]
    exact .ite_snd_snd (ih h.regWrite) (ih h)

theorem Keeps.applySettings {setfmt} (h : Keeps s0 s) :
    Keeps s0 (Machine.applySettings s setfmt).2 :=
  .ite_snd (.frame h rfl rfl) (.ite_snd h h.applyRecords)

theorem Keeps.settingsRead (h : Keeps s0 s) :
    Keeps s0 (Machine.settingsRead s) := by
  rw [Machine.settingsRead]
  exact .ite h.mbDone h.writeMem.mbDone

theorem Keeps.execSettingsRead (h : Keeps s0 s) :
    Next s0 (Machine.execSettingsRead s) := .mk (h.mailbox (fun _ h' => h'.settingsRead))

theorem Keeps.settingsWrite (h : Keeps s0 s) :
    Keeps s0 (Machine.settingsWrite s) := by
  unfold Machine.settingsWrite
  refine .ite h.mbDone ?_
  split
  · next hr => exact (h.readFirmware.snd_eq hr).mbDone
  · next hr =>
    have read := h.readFirmware.snd_eq hr
    exact .ite read.mbDone (.ite read.mbDone (.mbDone (.frame read rfl rfl)))

theorem Keeps.execSettingsWrite (h : Keeps s0 s) :
    Next s0 (Machine.execSettingsWrite s) := .mk (h.mailbox (fun _ h' => h'.settingsWrite))

theorem leNat_lt (bs : List Byte) : leNat bs < 2 ^ (8 * bs.length) := by
  induction bs with
  | nil => simp [leNat]
  | cons b bs ih =>
    have hb := b.isLt
    simp only [leNat, List.length_cons, Nat.mul_add, pow_add]
    omega

theorem manifestSvn_lt (m : List Byte) : manifestSvn m < 2 ^ 16 :=
  (leNat_lt _).trans_le (Nat.pow_le_pow_right (by omega) (by simp; omega))

/-- The floor rises only, to the number of a manifest. -/
theorem Keeps.raiseFloor {m} (h : Keeps s0 s) :
    Keeps s0 (Machine.raiseFloor s m) := by
  unfold Machine.raiseFloor
  split
  · next raises =>
    have above : s.boot.floor < manifestSvn m := by
      simp only [raisesFloor, Bool.and_eq_true, decide_eq_true_eq] at raises
      exact raises.2
    exact ⟨h.canonical, h.floorLe.trans above.le, fun _ => manifestSvn_lt m⟩
  · exact h

theorem Keeps.startFails (h : Keeps s0 s) :
    Keeps s0 (Machine.startFails s) := h.frame rfl rfl

theorem Keeps.takeService {retained m info} (h : Keeps s0 s) :
    Keeps s0 (Machine.takeService s retained m info) := by
  have started {b : Boot} (hb : b.floor = s.boot.floor) : Keeps s0 { s with boot := b } :=
    h.frame rfl hb
  rw [Machine.takeService]
  refine .mbDone (.modTwin (.drdyDone (started ?_)))
  split
  · rfl
  · rfl

theorem Keeps.finishStart (h : Keeps s0 s) :
    Keeps s0 (Machine.finishStart s) := by
  rw [Machine.finishStart]
  split
  · exact h
  · refine .ite h ?_
    split
    · exact h.startFails
    · refine .ite h.applySettings ?_
      exact .ite h.applySettings.startFails h.applySettings.raiseFloor.takeService

theorem Keeps.recheckRetained {m} (h : Keeps s0 s) :
    Keeps s0 (Machine.recheckRetained s m).2 := .ite_snd h (.ite_snd h h.recheckBlocks)

theorem Keeps.beginStart {ret ready eeprom m} (h : Keeps s0 s) :
    Keeps s0 (Machine.beginStart s ret ready eeprom m) := by
  rw [Machine.beginStart]
  refine .ite h.checkComps.startFails ?_
  exact .ite h.checkComps.startFails (.finishStart (.frame h.checkComps rfl rfl))

theorem Keeps.bootStart {ready eeprom} (h : Keeps s0 s) :
    Keeps s0 (Machine.bootStart ready eeprom s) := by
  rw [Machine.bootStart]
  refine .ite h.mbDone ?_
  refine .ite h.mbDone ?_
  refine .ite ?_ ?_
  · split
    · exact h.mbDone
    · exact .ite (.mbDone (.frame h.recheckRetained rfl rfl)) h.recheckRetained.beginStart
  · split
    · exact h.mbDone
    · exact .ite h.mbDone h.beginStart

theorem Keeps.execStart {ready eeprom} (h : Keeps s0 s) :
    Next s0 (Machine.execStart ready eeprom s) := .mk (h.mailbox (fun _ h' => h'.bootStart))

theorem Keeps.execZerofillComplete (h : Keeps s0 s) :
    Next s0 (Machine.execZerofillComplete s) := .mk (.ite h (.finishStart (.frame h rfl rfl)))

theorem Keeps.programBytes {addr size} (h : Keeps s0 s) :
    Keeps s0 (Machine.programBytes s addr size).2 := h.readFirmware

theorem Keeps.carderDigest (h : Keeps s0 s) :
    Keeps s0 (Machine.carderDigest s).2 := .ite_snd h.programBytes h

theorem Keeps.operatorDigest (h : Keeps s0 s) :
    Keeps s0 (Machine.operatorDigest s).2 :=
  .foldl_snd h fun _ _ h' => .ite_snd h'.programBytes h'

theorem Keeps.attestOp (h : Keeps s0 s) :
    Keeps s0 (Machine.attestOp s) := by
  rw [Machine.attestOp]
  refine .ite h.mbDone ?_
  refine .ite h.mbDone ?_
  split
  · exact h.mbDone
  · dsimp only
    split
    · exact h.readFirmware.carderDigest.operatorDigest.takeFree.writeMem.mbDone
    · exact h.readFirmware.carderDigest.operatorDigest.mbDone

theorem Keeps.execAttest (h : Keeps s0 s) :
    Next s0 (Machine.execAttest s) := .mk (h.mailbox (fun _ h' => h'.attestOp))

theorem Keeps.pauseBushel (h : Keeps s0 s) :
    Keeps s0 (Machine.pauseBushel s) := .foldl h fun _ _ h' => .ite h' h'.bshAbort

theorem Keeps.finishTag {b t} (h : Keeps s0 s) :
    Keeps s0 (Machine.finishTag s b t) := by
  rw [Machine.finishTag]
  split
  · exact .ite h h.endDispatch
  · exact .ite h h.endCombine
  · exact h

theorem Keeps.pauseCarder (h : Keeps s0 s) :
    Keeps s0 (Machine.pauseCarder s) :=
  .foldl h fun _ _ h' => .crdAbort (.foldl h' fun _ _ h2 => h2.finishTag)

theorem Keeps.activatePause {m} (h : Keeps s0 s) :
    Keeps s0 (Machine.activatePause s m) :=
  .frame h.pauseBushel.pauseCarder.raiseFloor rfl rfl

theorem Keeps.activate {ready eeprom n e} (h : Keeps s0 s) :
    Keeps s0 (Machine.activate ready eeprom s n e).state := by
  rw [Machine.activate]
  refine .ite_state h.answer ?_
  split
  · exact h.answer
  · refine .ite_state h.answer ?_
    refine .ite_state h.answer ?_
    refine .ite_state h.recheckBlocks.checkComps.answer ?_
    refine .ite_state ?_ h.recheckBlocks.checkComps.drdyBusy.activatePause.drdyDone.answer
    exact h.recheckBlocks.checkComps.drdyBusy.pauseBushel.pauseCarder.drdyDone.answer

theorem Keeps.execActivate {r ready eeprom} (h : Keeps s0 s) :
    Next s0 (Machine.execActivate r ready eeprom s) := .mk (h.adminCommand
        (fun _ _ _ h' => h'.activate))

theorem Keeps.mailboxRow {op} (h : Keeps s0 s) :
    Keeps s0 (Machine.mailboxRow op s) := by
  unfold Machine.mailboxRow
  split
  · exact h.asRow (fun _ h' => h'.execManifest)
  · exact h.asRow (fun _ h' => h'.execBlocks)
  · exact h.asRow (fun _ h' => h'.execStart)
  · exact h.asRow (fun _ h' => h'.execDiscard)
  · exact h.asRow (fun _ h' => h'.execAttest)
  · exact h.asRow (fun _ h' => h'.execSettingsRead)
  · exact h.asRow (fun _ h' => h'.execSettingsWrite)
  · exact h

theorem Keeps.execRegisterWrite {fn off v} (h : Keeps s0 s) :
    Next s0 (Machine.execRegisterWrite fn off v s) := .mk (.ite h.regWrite.mailboxRow h.regWrite)

/-! Machine/ConsumeSteps.lean -/

theorem Keeps.rejectHead {r e} (h : Keeps s0 s) :
    Keeps s0 (Machine.rejectHead s r e) := by
  rw [Machine.rejectHead]
  split
  · exact h.consumeMalformed
  · exact h.consumeHead.bshFailEntry

theorem Keeps.execEntryConsume {r} (h : Keeps s0 s) :
    Next s0 (Machine.execEntryConsume r s) := by
  rw [Machine.execEntryConsume]
  refine .mk ?_
  split
  · exact h
  · exact .ite h (.ite h.rejectHead.xptDone (.ite h h.consumeHead))

/-! Machine/PfReset.lean -/

theorem Keeps.flrParts (h : Keeps s0 s) :
    Keeps s0 (Machine.flrParts s) := .foldl h fun _ _ h' => .ite h' h'.resetPartition

theorem Keeps.flrPorts (h : Keeps s0 s) :
    Keeps s0 (Machine.flrPorts s) := by
  rw [Machine.flrPorts]
  have down : Keeps s0 ((List.range 8).foldl (fun s n => Machine.portDown s n 0) s) :=
    .foldl h fun _ _ h' => h'.portDown
  generalize (List.range 8).foldl (fun s n => Machine.portDown s n 0) s = s1 at down ⊢
  exact .frame down rfl rfl

theorem Keeps.flrUnits (h : Keeps s0 s) :
    Keeps s0 (Machine.flrUnits s) := h.frame rfl rfl

theorem Keeps.execPf0Flr (h : Keeps s0 s) :
    Next s0 (Machine.execPf0Flr s) :=
  .mk (.ite h (.ite (.frame h rfl rfl) h.flrParts.flrPorts.flrUnits))

/-! Machine/Tick.lean -/

theorem Keeps.advanceClock {d} (h : Keeps s0 s) :
    Keeps s0 (Machine.advanceClock s d) := .frame h.takeFree rfl rfl

theorem Keeps.chargeSpin {e n} (h : Keeps s0 s) :
    Keeps s0 (Machine.chargeSpin s e n) := .foldl h fun _ _ h' => h'.addCharge

theorem Keeps.chargeSpins {s'} (h : Keeps s0 s) :
    Keeps s0 (Machine.chargeSpins s' s) := .foldl h fun _ _ h' => h'.chargeSpin

theorem Keeps.postEvents (h : Keeps s0 s) :
    Keeps s0 (Machine.postEvents s) := .foldl (.frame h rfl rfl) fun _ _ h' => h'.post

theorem Keeps.postKept (h : Keeps s0 s) :
    Keeps s0 (Machine.postKept s) := .ite (.frame h rfl rfl) h

theorem Keeps.settleIdle (h : Keeps s0 s) :
    Keeps s0 (Machine.settleIdle s) := by
  rw [Machine.settleIdle]
  refine .ite ?_ (.ite h.postEvents h)
  exact h.postKept.postEvents.completeFences.postEvents.bshGoAll.settlePreempts.settleUnpair.xptDone

theorem Keeps.lpiFollow {n} (h : Keeps s0 s) :
    Keeps s0 (Machine.lpiFollow s n) := .ite h.modPort h

theorem Keeps.idleTick (h : Keeps s0 s) :
    Keeps s0 (Machine.idleTick s) := by
  rw [Machine.idleTick]
  exact .settleIdle (.paceDue (.foldl (.chargeSpins (.foldl h fun _ _ h' => h'.advanceClock))
      fun _ _ h' => h'.lpiAccrue.lpiFollow))

end Sys2Proof.Machine
end

section
/-! SUPPORT. Every command and every step keeps memory canonical and the version floor. -/

namespace Sys2Proof.Machine

/-- Every command keeps memory canonical and the version floor, arm by arm. -/
theorem Keeps.exec {s0 s : State} {c} (h : Keeps s0 s) : Next s0 (Machine.exec c s) :=
  match c with
  | .add .. => h.execAdd
  | .sub .. => h.execSub
  | .and .. => h.execAnd
  | .or .. => h.execOr
  | .xor .. => h.execXor
  | .shl .. => h.execShl
  | .shr .. => h.execShr
  | .sar .. => h.execSar
  | .min .. => h.execMin
  | .max .. => h.execMax
  | .minu .. => h.execMinu
  | .maxu .. => h.execMaxu
  | .slt .. => h.execSlt
  | .sltu .. => h.execSltu
  | .popc .. => h.execPopc
  | .clz .. => h.execClz
  | .ctz .. => h.execCtz
  | .addi .. => h.execAddi
  | .subi .. => h.execSubi
  | .andi .. => h.execAndi
  | .ori .. => h.execOri
  | .xori .. => h.execXori
  | .shli .. => h.execShli
  | .shri .. => h.execShri
  | .sari .. => h.execSari
  | .mini .. => h.execMini
  | .maxi .. => h.execMaxi
  | .minui .. => h.execMinui
  | .maxui .. => h.execMaxui
  | .slti .. => h.execSlti
  | .sltui .. => h.execSltui
  | .mul .. => h.execMul
  | .mulh .. => h.execMulh
  | .mulhu .. => h.execMulhu
  | .madd .. => h.execMadd
  | .div .. => h.execDiv
  | .divu .. => h.execDivu
  | .rem .. => h.execRem
  | .remu .. => h.execRemu
  | .movi .. => h.execMovi
  | .movh .. => h.execMovh
  | .cmpEq .. => h.execCmpEq
  | .cmpNe .. => h.execCmpNe
  | .cmpLt .. => h.execCmpLt
  | .cmpGe .. => h.execCmpGe
  | .cmpLtu .. => h.execCmpLtu
  | .cmpGeu .. => h.execCmpGeu
  | .cmpiEq .. => h.execCmpiEq
  | .cmpiNe .. => h.execCmpiNe
  | .cmpiLt .. => h.execCmpiLt
  | .cmpiGe .. => h.execCmpiGe
  | .cmpiLtu .. => h.execCmpiLtu
  | .cmpiGeu .. => h.execCmpiGeu
  | .beq .. => h.execBeq
  | .bne .. => h.execBne
  | .blt .. => h.execBlt
  | .bge .. => h.execBge
  | .bltu .. => h.execBltu
  | .bgeu .. => h.execBgeu
  | .br .. => h.execBr
  | .jal .. => h.execJal
  | .jr .. => h.execJr
  | .jalr .. => h.execJalr
  | .ldB .. => h.execLdB
  | .ldH .. => h.execLdH
  | .ldW .. => h.execLdW
  | .ldD .. => h.execLdD
  | .ldBu .. => h.execLdBu
  | .ldHu .. => h.execLdHu
  | .ldWu .. => h.execLdWu
  | .ldV .. => h.execLdV
  | .stB .. => h.execStB
  | .stH .. => h.execStH
  | .stW .. => h.execStW
  | .stD .. => h.execStD
  | .stV .. => h.execStV
  | .ldgB .. => h.execLdgB
  | .ldgH .. => h.execLdgH
  | .ldgW .. => h.execLdgW
  | .ldgD .. => h.execLdgD
  | .ldgBu .. => h.execLdgBu
  | .ldgHu .. => h.execLdgHu
  | .ldgWu .. => h.execLdgWu
  | .ldgV .. => h.execLdgV
  | .stgB .. => h.execStgB
  | .stgH .. => h.execStgH
  | .stgW .. => h.execStgW
  | .stgD .. => h.execStgD
  | .stgV .. => h.execStgV
  | .globalLoadResponse .. => h.execGlobalLoadResponse
  | .mvpost .. => h.execMvpost
  | .mvslots .. => h.execMvslots
  | .vaddInt .. => h.execVaddInt
  | .vsubInt .. => h.execVsubInt
  | .vmulInt .. => h.execVmulInt
  | .vadds .. => h.execVadds
  | .vsubs .. => h.execVsubs
  | .vminInt .. => h.execVminInt
  | .vmaxInt .. => h.execVmaxInt
  | .vand .. => h.execVand
  | .vor .. => h.execVor
  | .vxor .. => h.execVxor
  | .vshl .. => h.execVshl
  | .vshr .. => h.execVshr
  | .vsar .. => h.execVsar
  | .vmov .. => h.execVmov
  | .vsel .. => h.execVsel
  | .vaddFp .. => h.execVaddFp
  | .vsubFp .. => h.execVsubFp
  | .vmulFp .. => h.execVmulFp
  | .vfma .. => h.execVfma
  | .vfms .. => h.execVfms
  | .vminFp .. => h.execVminFp
  | .vmaxFp .. => h.execVmaxFp
  | .vabs .. => h.execVabs
  | .vneg .. => h.execVneg
  | .vdiv .. => h.execVdiv
  | .vsqrt .. => h.execVsqrt
  | .vrsqrt .. => h.execVrsqrt
  | .vexp2 .. => h.execVexp2
  | .vcvt .. => h.execVcvt
  | .vqmx .. => h.execVqmx
  | .vdqmx .. => h.execVdqmx
  | .vfoir .. => h.execVfoir
  | .vufoir .. => h.execVufoir
  | .vemax .. => h.execVemax
  | .vbcast .. => h.execVbcast
  | .vext .. => h.execVext
  | .vins .. => h.execVins
  | .vperm .. => h.execVperm
  | .vrot .. => h.execVrot
  | .vredsum .. => h.execVredsum
  | .vredmax .. => h.execVredmax
  | .vredmin .. => h.execVredmin
  | .vcmpEq .. => h.execVcmpEq
  | .vcmpNe .. => h.execVcmpNe
  | .vcmpLt .. => h.execVcmpLt
  | .vcmpLe .. => h.execVcmpLe
  | .vcmpGt .. => h.execVcmpGt
  | .vcmpGe .. => h.execVcmpGe
  | .pand .. => h.execPand
  | .por .. => h.execPor
  | .pxor .. => h.execPxor
  | .pandn .. => h.execPandn
  | .pnot .. => h.execPnot
  | .pmov .. => h.execPmov
  | .pget .. => h.execPget
  | .ppopc .. => h.execPpopc
  | .pfirst .. => h.execPfirst
  | .vcmpr .. => h.execVcmpr
  | .vexpd .. => h.execVexpd
  | .vbspk .. => h.execVbspk
  | .vbsup .. => h.execVbsup
  | .tmma .. => h.execTmma
  | .tmmaS24 .. => h.execTmmaS24
  | .tmmaS48 .. => h.execTmmaS48
  | .tmmak .. => h.execTmmak
  | .tensorComplete .. => h.execTensorComplete
  | .talloc .. => h.execTalloc
  | .tfree .. => h.execTfree
  | .tzero .. => h.execTzero
  | .tld .. => h.execTld
  | .tst .. => h.execTst
  | .tileMoveComplete .. => h.execTileMoveComplete
  | .sig .. => h.execSig
  | .waitGe .. => h.execWaitGe
  | .take .. => h.execTake
  | .sread .. => h.execSread
  | .signalAtHome .. => h.execSignalAtHome
  | .waitRetryResponse .. => h.execWaitRetryResponse
  | .takeRetryResponse .. => h.execTakeRetryResponse
  | .spinLimitExpiry .. => h.execSpinLimitExpiry
  | .fenceC .. => h.execFenceC
  | .fenceD .. => h.execFenceD
  | .fenceP .. => h.execFenceP
  | .fenceN .. => h.execFenceN
  | .fenceRetire .. => h.execFenceRetire
  | .put .. => h.execPut
  | .get .. => h.execGet
  | .atomAdd .. => h.execAtomAdd
  | .atomCas .. => h.execAtomCas
  | .sigR .. => h.execSigR
  | .netResponse .. => h.execNetResponse
  | .nopInsn .. => h.execNopInsn
  | .end_ .. => h.execEnd
  | .threadEnd .. => h.execThreadEnd
  | .trap .. => h.execTrap
  | .brk .. => h.execBrk
  | .mfs .. => h.execMfs
  | .deferredException .. => h.execDeferredException
  | .groupStart .. => h.execGroupStart
  | .launch .. => h.execLaunch
  | .admission => h.execAdmission
  | .ledgerWindowBoundary => h.execLedgerWindowBoundary
  | .gridPace .. => h.execGridPace
  | .calFactorUpdate => h.execCalFactorUpdate
  | .dbgHaltCmd => h.execDbgHaltCmd
  | .dbgResume => h.execDbgResume
  | .dbgStep => h.execDbgStep
  | .dbgWindowWrite .. => h.execDbgWindowWrite
  | .pageWalk .. => h.execPageWalk
  | .faultPostedHoldoffEnd .. => h.execFaultPostedHoldoffEnd
  | .faultIdAssign .. => h.execFaultIdAssign
  | .faultTimeout .. => h.execFaultTimeout
  | .fqRetry .. => h.execFqRetry
  | .fqFail .. => h.execFqFail
  | .invPage .. => h.execInvPage
  | .invCtx .. => h.execInvCtx
  | .invPart .. => h.execInvPart
  | .invOwner .. => h.execInvOwner
  | .invalidationComplete .. => h.execInvalidationComplete
  | .atsInvalidate .. => h.execAtsInvalidate
  | .scrubLine .. => h.execScrubLine
  | .moverDescriptorStart .. => h.execMoverDescriptorStart
  | .moverComplete .. => h.execMoverComplete
  | .ringPoll .. => h.execRingPoll
  | .pollResponse .. => h.execPollResponse
  | .entryConsume .. => h.execEntryConsume
  | .consumerReportRead .. => h.execConsumerReportRead
  | .overflowDrain .. => h.execOverflowDrain
  | .ringStartPriv .. => h.execRingStartPriv
  | .ringFenceRead .. => h.execRingFenceRead
  | .readClearRegister .. => h.execReadClearRegister
  | .registerWrite .. => h.execRegisterWrite
  | .nop .. => h.execNop
  | .ringCreate .. => h.execRingCreate
  | .ringDestroy .. => h.execRingDestroy
  | .ringResize .. => h.execRingResize
  | .ringResizeSwitch .. => h.execRingResizeSwitch
  | .ringStop .. => h.execRingStop
  | .ringStopComplete .. => h.execRingStopComplete
  | .ringStart .. => h.execRingStart
  | .ringBind .. => h.execRingBind
  | .syncGrant .. => h.execSyncGrant
  | .syncRevoke .. => h.execSyncRevoke
  | .syncRelease .. => h.execSyncRelease
  | .syncWindowWrite .. => h.execSyncWindowWrite
  | .syncWindowRead .. => h.execSyncWindowRead
  | .send .. => h.execSend
  | .write .. => h.execWrite
  | .writeImm .. => h.execWriteImm
  | .read .. => h.execRead
  | .atomicFadd .. => h.execAtomicFadd
  | .atomicCas .. => h.execAtomicCas
  | .signal .. => h.execSignal
  | .enable .. => h.execEnable
  | .enableGateStart .. => h.execEnableGateStart
  | .countGateStart .. => h.execCountGateStart
  | .gateTimeout .. => h.execGateTimeout
  | .packetTransmit .. => h.execPacketTransmit
  | .sendArrival .. => h.execSendArrival
  | .writeArrival .. => h.execWriteArrival
  | .writeImmArrival .. => h.execWriteImmArrival
  | .readReq .. => h.execReadReq
  | .readResp .. => h.execReadResp
  | .atomicFaddArrival .. => h.execAtomicFaddArrival
  | .atomicCasArrival .. => h.execAtomicCasArrival
  | .atomicResp .. => h.execAtomicResp
  | .signalArrival .. => h.execSignalArrival
  | .enableArrival .. => h.execEnableArrival
  | .ack .. => h.execAck
  | .nak .. => h.execNak
  | .rnr .. => h.execRnr
  | .ackTimer .. => h.execAckTimer
  | .rtoExpiry .. => h.execRtoExpiry
  | .rnrPauseEnd .. => h.execRnrPauseEnd
  | .contextFetchStart .. => h.execContextFetchStart
  | .contextFetchComplete .. => h.execContextFetchComplete
  | .qpCreate .. => h.execQpCreate
  | .qpModify .. => h.execQpModify
  | .qpDestroy .. => h.execQpDestroy
  | .keyRegister .. => h.execKeyRegister
  | .keyDeregister .. => h.execKeyDeregister
  | .connectReq .. => h.execConnectReq
  | .connectRep .. => h.execConnectRep
  | .connectRtu .. => h.execConnectRtu
  | .connectRej .. => h.execConnectRej
  | .disconnect .. => h.execDisconnect
  | .connectResend .. => h.execConnectResend
  | .pathMigrate .. => h.execPathMigrate
  | .pathMigrateAck .. => h.execPathMigrateAck
  | .pathMigrateResend .. => h.execPathMigrateResend
  | .idleTagAck .. => h.execIdleTagAck
  | .prevKeyExpiry .. => h.execPrevKeyExpiry
  | .txload .. => h.execTxload
  | .rxload .. => h.execRxload
  | .ksClr .. => h.execKsClr
  | .groupCreate .. => h.execGroupCreate
  | .groupDestroy .. => h.execGroupDestroy
  | .reduceScatter .. => h.execReduceScatter
  | .allGather .. => h.execAllGather
  | .broadcast .. => h.execBroadcast
  | .barrier .. => h.execBarrier
  | .scalarReduce .. => h.execScalarReduce
  | .quiesce .. => h.execQuiesce
  | .sparseAllGather .. => h.execSparseAllGather
  | .bshData .. => h.execBshData
  | .bshCredit .. => h.execBshCredit
  | .bshTree .. => h.execBshTree
  | .bshTaint .. => h.execBshTaint
  | .bshAbort .. => h.execBshAbort
  | .bushelRerun .. => h.execBushelRerun
  | .bushelComplete .. => h.execBushelComplete
  | .bushelStallTimeout .. => h.execBushelStallTimeout
  | .bushelPreemptTimeout .. => h.execBushelPreemptTimeout
  | .carderBind .. => h.execCarderBind
  | .carderUnbind .. => h.execCarderUnbind
  | .dispatch .. => h.execDispatch
  | .dispatchComplete .. => h.execDispatchComplete
  | .combine .. => h.execCombine
  | .combineComplete .. => h.execCombineComplete
  | .carderStallTimeout .. => h.execCarderStallTimeout
  | .crdTok .. => h.execCrdTok
  | .crdDone .. => h.execCrdDone
  | .crdRet .. => h.execCrdRet
  | .portModeWrite .. => h.execPortModeWrite
  | .portLinkUp .. => h.execPortLinkUp
  | .portLinkDown .. => h.execPortLinkDown
  | .frameReceive .. => h.execFrameReceive
  | .frameTransmit .. => h.execFrameTransmit
  | .rawTransmit .. => h.execRawTransmit
  | .rxcqEnable .. => h.execRxcqEnable
  | .gclChange .. => h.execGclChange
  | .gclAbort .. => h.execGclAbort
  | .gclSwitch .. => h.execGclSwitch
  | .gclEntryAdvance .. => h.execGclEntryAdvance
  | .syncArm .. => h.execSyncArm
  | .syncInEdge => h.execSyncInEdge
  | .lpiEnter .. => h.execLpiEnter
  | .lpiWake .. => h.execLpiWake
  | .prewake .. => h.execPrewake
  | .lldpduTransmit .. => h.execLldpduTransmit
  | .lldpTlvExpiry .. => h.execLldpTlvExpiry
  | .cxlLinkUp .. => h.execCxlLinkUp
  | .cxlLinkDown => h.execCxlLinkDown
  | .hostPathRestored => h.execHostPathRestored
  | .linkDownTimeout => h.execLinkDownTimeout
  | .bar2Read .. => h.execBar2Read
  | .bar2Write .. => h.execBar2Write
  | .hdmRead .. => h.execHdmRead
  | .hdmWrite .. => h.execHdmWrite
  | .perstAssert => h.execPerstAssert
  | .perstDeassert => h.execPerstDeassert
  | .policyResume .. => h.execPolicyResume
  | .attentionPulseEnd => h.execAttentionPulseEnd
  | .attentionHoldoffEnd => h.execAttentionHoldoffEnd
  | .vfEnable .. => h.execVfEnable
  | .functionLevelReset .. => h.execFunctionLevelReset
  | .pf0Flr => h.execPf0Flr
  | .partResize .. => h.execPartResize
  | .partReset .. => h.execPartReset
  | .partFreeze .. => h.execPartFreeze
  | .partThaw .. => h.execPartThaw
  | .partSave .. => h.execPartSave
  | .partRestore .. => h.execPartRestore
  | .reqFull => h.execReqFull
  | .reqTrim => h.execReqTrim
  | .reqDoze => h.execReqDoze
  | .reqStandby => h.execReqStandby
  | .dozeGate => h.execDozeGate
  | .gillSample .. => h.execGillSample
  | .gillInputChange .. => h.execGillInputChange
  | .gillInputStuck .. => h.execGillInputStuck
  | .gillChatterEnd .. => h.execGillChatterEnd
  | .gillRuleFire .. => h.execGillRuleFire
  | .gillRuleRelease .. => h.execGillRuleRelease
  | .gillSilent => h.execGillSilent
  | .gillLock => h.execGillLock
  | .twinPair .. => h.execTwinPair
  | .twinSyncComplete => h.execTwinSyncComplete
  | .twinPairTimeout => h.execTwinPairTimeout
  | .twinUnpair .. => h.execTwinUnpair
  | .twinHbFrame .. => h.execTwinHbFrame
  | .twinDelta .. => h.execTwinDelta
  | .twinData .. => h.execTwinData
  | .twinAck .. => h.execTwinAck
  | .twinPairFrame .. => h.execTwinPairFrame
  | .twinUnpairFrame .. => h.execTwinUnpairFrame
  | .twinHbSend => h.execTwinHbSend
  | .twinAckTimer => h.execTwinAckTimer
  | .twinResend => h.execTwinResend
  | .twinHbSilent => h.execTwinHbSilent
  | .twinFailureDetect => h.execTwinFailureDetect
  | .takeoverAnnounce => h.execTakeoverAnnounce
  | .twinKeyLoad => h.execTwinKeyLoad
  | .twinKeyClr => h.execTwinKeyClr
  | .manifest => h.execManifest
  | .blocks => h.execBlocks
  | .start .. => h.execStart
  | .discard => h.execDiscard
  | .attest => h.execAttest
  | .settingsRead => h.execSettingsRead
  | .settingsWrite => h.execSettingsWrite
  | .activate .. => h.execActivate
  | .powerOn => h.execPowerOn
  | .zerofillComplete => h.execZerofillComplete
  | .powerLoss => h.execPowerLoss
  | .overvoltageDisconnect => h.execOvervoltageDisconnect
  | .refclk156Loss => h.execRefclk156Loss
  | .refclk156Restore => h.execRefclk156Restore
  | .errorDetect .. => h.execErrorDetect
  | .fenceTimeout .. => h.execFenceTimeout
  | .mpHang .. => h.execMpHang
  | .errHeadWrite .. => h.execErrHeadWrite
  | .smbusStatus => h.execSmbusStatus
  | .smbusRead .. => h.execSmbusRead
  | .smbusWrite .. => h.execSmbusWrite
  | .smbusWake .. => h.execSmbusWake
  | .sreadResponse .. => h.execSreadResponse
  | .gillReportsResume => h.execGillReportsResume
  | .gillStuckEnd .. => h.execGillStuckEnd
  | .twinLinkTrained => h.execTwinLinkTrained
  | .drdyBusyMinimumEnd => h.execDrdyBusyMinimumEnd
  | .postBusyAttention => h.execPostBusyAttention
  | .dozeExitComplete => h.execDozeExitComplete
  | .selfRefreshEntry => h.execSelfRefreshEntry

/-- Every step keeps memory canonical and the version floor: the front command does, and so does
time passing. -/
theorem keeps_of_step {s s' : State} (hs : step s = .next s') : Keeps s s' := by
  have next : Next s (step s) := by
    cases hp : s.pending with
    | nil =>
      rw [step_of_pending_nil hp]
      exact .mk (Keeps.refl s).idleTick
    | cons c cs =>
      rw [step_of_pending_cons hp]
      exact Keeps.exec ((Keeps.refl s).frame rfl rfl)
  rw [hs] at next
  cases next with
  | mk h => exact h

/-- Settles O5, from what every step keeps. -/
theorem stepsKeepMemoryCanonical : Obligations.steps_keep_memory_canonical :=
  fun _ _ canonical hs => (keeps_of_step hs).canonical canonical

end Sys2Proof.Machine
end

section
/-! SUPPORT. What the home of a sync object answers: `sread`, the retries of a thread in SPIN, and the
spin limit (R75, R120, R140, R143 to R145, R150, R152). -/

namespace Sys2Proof.Machine

/-! Answers of the home (R140, R143 to R145, R152). -/

section
variable {s : State} {p k : Nat} {c : BitVec 20} {target : Word}

/-- Object `k` has intact words and lets context `c` of partition `p` wait on it, take from it and read
it. -/
structure LetsWait (s : State) (p : Nat) (c : BitVec 20) (k : Nat) : Prop where
  attr : (syncObj s k).badAttr = .good
  count : (syncObj s k).badCount = .good
  passes : syncPasses (syncObj s k) p c false false = true

variable (h : LetsWait s p c k)
include h

theorem LetsWait.checkSync_eq : checkSync s k = s := checkSync_intact h.attr h.count

theorem LetsWait.readObj_eq : readObj s p c false k =
    (some (if (syncObj s k).state = .revoked then 0 else (syncObj s k).count), s) := by
  simp [readObj, h.checkSync_eq, h.passes]

theorem LetsWait.retryObj_revoked {take : Bool} (hs : (syncObj s k).state = .revoked) :
    retryObj s p c k take target = (.revoked, s) := by
  simp [retryObj, h.checkSync_eq, h.passes, h.attr, wordLost, hs]

variable (hs : (syncObj s k).state = .live) (hp : (syncObj s k).part.toNat = p)
include hs hp

theorem LetsWait.retryObj_wait_reached (hc : target.toNat ≤ (syncObj s k).count.toNat) :
    retryObj s p c k false target = (.satisfied, s) := by
  simp [retryObj, h.checkSync_eq, h.passes, h.attr, wordLost, hs, hp, hc]

theorem LetsWait.retryObj_wait_below (hc : (syncObj s k).count.toNat < target.toNat) :
    retryObj s p c k false target = (.again, s) := by
  simp [retryObj, h.checkSync_eq, h.passes, h.attr, wordLost, hs, hp, hc]

theorem LetsWait.retryObj_take_positive (hc : (syncObj s k).count ≠ 0) :
    retryObj s p c k true target = (.satisfied,
      setSync s k { syncObj s k with count := (syncObj s k).count - 1 }) := by
  simpa [retryObj, h.checkSync_eq, h.passes, h.attr, wordLost, hs, hp] using hc

theorem LetsWait.retryObj_take_zero (hc : (syncObj s k).count = 0) :
    retryObj s p c k true target = (.again, s) := by
  simp [retryObj, h.checkSync_eq, h.passes, h.attr, wordLost, hs, hp, hc]

end

/-- Settles O31: the home answers, and the operation of the thread has ended. -/
theorem sreadResult : Obligations.sread_result := by
  intro t id s o found kind flight whole th g x attr count passes
  have home : LetsWait s g.part g.ctx (syncIndex o.pa) := ⟨attr, count, passes⟩
  simp [execSreadResponse, found, kind, flight, whole, home.readObj_eq, th, g, x]

/-! Retries (R75, R120, R143, R144, R148, R152). -/

section
variable {s s1 : State} {t : Nat} {sp : Spin}

theorem retryTarget_fresh (h : sp.stale = false) : retryTarget s t sp = (some sp.pa, s) := by
  simp [retryTarget, h]

/-- A retry whose translation was dropped, and that finds an object, goes on at the new address. -/
theorem retryTarget_stale {pa : Nat} (h : sp.stale = true)
    (ha : access s .sync (clusterOf (engineOf t)) (gridOf s (thread s t)).part
      (gridOf s (thread s t)).ctx sp.va.toNat sp.take = (.ok pa, s1))
    (hr : regionOf pa = .syncObj) : retryTarget s t sp = (some pa, setThread s1 t
      { thread s t with spin := some { sp with pa := pa, stale := false } }) := by
  simp [retryTarget, h, ha, hr]

theorem leaveSpin_of_spin (h : (thread s t).spin = some sp) (st : Word) : leaveSpin s t st =
    setThread s t (writeS { thread s t with state := .ready, spin := none } sp.dst st) := by
  simp [leaveSpin, h]

/-- What becomes of a thread in SPIN by the home's answer. -/
def afterRetry (t : Nat) (sp : Spin) : RetryAnswer × State → State
  | (.satisfied, s) => leaveSpin s t 0x00
  | (.revoked, s) => leaveSpin s t 0x09
  | (.again, s) => s
  | (.notSync, s) => takeException s t sp.pc sp.word sp.va .notsync (excStatus .notsync)

/-- A thread in SPIN whose retry is answered now, at the address it has. -/
structure Retries (s : State) (t : Nat) (sp : Spin) : Prop where
  spin : (thread s t).spin = some sp
  state : (thread s t).state = .spin
  running : s.err.fatal = false
  unpaced : pacedNow s (gridOf s (thread s t)) = false
  within : spinOver s t sp = false
  fresh : sp.stale = false

variable {a : RetryAnswer × State} (h : Retries s t sp)
include h

theorem Retries.response_eq (ha : retryObj s (gridOf s (thread s t)).part (gridOf s (thread s t)).ctx
    (syncIndex sp.pa) sp.take sp.target = a) :
    retryResponse s t sp.take = afterRetry t sp a := by
  obtain ⟨answer, s1⟩ := a
  cases answer <;>
    simp [retryResponse, h.spin, h.state, h.running, h.unpaced, h.within,
      retryTarget_fresh h.fresh, ha, afterRetry]

theorem Retries.exec_wait (ht : sp.take = false)
    (ha : retryObj s (gridOf s (thread s t)).part (gridOf s (thread s t)).ctx (syncIndex sp.pa) false
      sp.target = a) : exec (.waitRetryResponse t) s = .next (afterRetry t sp a) := by
  rw [exec_waitRetryResponse, execWaitRetryResponse, ← h.response_eq (ht ▸ ha), ht]

theorem Retries.exec_take (ht : sp.take = true)
    (ha : retryObj s (gridOf s (thread s t)).part (gridOf s (thread s t)).ctx (syncIndex sp.pa) true
      sp.target = a) : exec (.takeRetryResponse t) s = .next (afterRetry t sp a) := by
  rw [exec_takeRetryResponse, execTakeRetryResponse, ← h.response_eq (ht ▸ ha), ht]

end

/-! The spin limit (R75, R150). -/

section
variable {s : State} {t : Nat} {sp : Spin} (hsp : (thread s t).spin = some sp)
include hsp

theorem spinLimitExpiry_expired (hs : (thread s t).state = .spin)
    (expired : sp.since + sp.left ≤ engineNow s t) (running : s.err.fatal = false)
    (unpaced : pacedNow s (gridOf s (thread s t)) = false) :
    exec (.spinLimitExpiry t) s = .next (setThread s t
      (writeS { thread s t with state := .ready, spin := none } sp.dst 0x0E)) := by
  simp [execSpinLimitExpiry, hsp, hs, spinOver, expired, running, unpaced, leaveSpin_of_spin hsp]

theorem spinLimitExpiry_within (within : engineNow s t < sp.since + sp.left) :
    exec (.spinLimitExpiry t) s = .next s := by
  simp [execSpinLimitExpiry, hsp, spinOver, Nat.not_le.mpr within]

end

/-- Settles O32: the home answers by the condition of the object, and the thread goes on by the
answer. -/
theorem spinResults : Obligations.spin_results := by
  refine ⟨⟨fun t s sp spin state running unpaced within fresh => ?_,
    fun s t sp pa s1 => retryTarget_stale⟩,
    fun t s sp spin state => ⟨spinLimitExpiry_expired spin state, spinLimitExpiry_within spin⟩⟩
  intro th g k x ended attr count passes
  have retries : Retries s t sp := ⟨spin, state, running, unpaced, within, fresh⟩
  have home : LetsWait s g.part g.ctx k := ⟨attr, count, passes⟩
  have leaves (st : Word) : leaveSpin s t st = ended s st := leaveSpin_of_spin spin st
  have takes : leaveSpin (setSync s k { x with count := x.count - 1 }) t 0 =
      ended (setSync s k { x with count := x.count - 1 }) 0 :=
    leaveSpin_of_spin (s := setSync s k { x with count := x.count - 1 }) spin 0
  refine ⟨fun wait live owner => ⟨fun reached => ?_, fun below => ?_⟩,
    fun take live owner => ⟨fun positive => ?_, fun zero => ?_⟩,
    fun wait revoked => ?_, fun take revoked => ?_⟩
  · rw [retries.exec_wait wait (home.retryObj_wait_reached live owner reached), afterRetry, leaves]
  · rw [retries.exec_wait wait (home.retryObj_wait_below live owner below), afterRetry]
  · rw [retries.exec_take take (home.retryObj_take_positive live owner positive), afterRetry, takes]
  · rw [retries.exec_take take (home.retryObj_take_zero live owner zero), afterRetry]
  · rw [retries.exec_wait wait (home.retryObj_revoked revoked), afterRetry, leaves]
  · rw [retries.exec_take take (home.retryObj_revoked revoked), afterRetry, leaves]

end Sys2Proof.Machine
end

section
/-! SUPPORT. Sync objects by AQ and through the host's window, and the owners of rings, which no error
record changes (R139, R141, R142, R145, R155, R342, R453, R458). -/

namespace Sys2Proof.Machine

/-! The owners of rings: what an error does to a ring leaves it with its partition. -/

/-- A field that a change of a map's values leaves alone. -/
theorem tget_map_field {α β : Type} (field : α → β) (d : α) (f : Nat × α → Nat × α)
    (hk : ∀ x, (f x).1 = x.1) (hf : ∀ x, field (f x).2 = field x.2) (m : Table α) (k : Nat) :
    field (tget d (m.map f) k) = field (tget d m k) := by
  induction m with
  | nil => rfl
  | cons e m ih =>
    have head : tget d (f e :: m.map f) k = if k = e.1 then (f e).2 else tget d (m.map f) k := by
      rw [← hk e]
      rfl
    rw [List.map_cons, head]
    by_cases h : k = e.1 <;> simp [tget, h, hf, ih]

/-- Every ring belongs to the same partition in `s'` as in `s`. -/
def SameOwners (s s' : State) : Prop := ∀ r, (ring s' r).part = (ring s r).part

@[simp] theorem writeRecord_rings (s : State) (r : ErrRec) : (writeRecord s r).rings = s.rings := by
  simp only [writeRecord]
  cases r.part <;> simp [apply_ite State.rings, keepFatal]

@[simp] theorem recordCorrected_rings (s : State) (i : ErrInfo) :
    (recordCorrected s i).rings = s.rings := by
  simp only [recordCorrected]
  split <;> simp [apply_ite State.rings]

section
variable {s s1 : State}

theorem SameOwners.refl (s : State) : SameOwners s s := fun _ => rfl

theorem SameOwners.ite {c : Prop} [Decidable c] {s2 : State} (h : SameOwners s s1)
    (h2 : SameOwners s s2) : SameOwners s (if c then s1 else s2) := by
  split
  · exact h
  · exact h2

variable (h : SameOwners s s1)
include h

/-- Changes elsewhere. -/
theorem SameOwners.elsewhere {s2 : State} (hr : s2.rings = s1.rings) : SameOwners s s2 :=
  fun r => by rw [ring, hr, ← ring, h r]

theorem SameOwners.foldl {α : Type} {f : State → α → State} {l : List α}
    (hf : ∀ s1 x, SameOwners s s1 → SameOwners s (f s1 x)) : SameOwners s (l.foldl f s1) := by
  induction l generalizing s1 with
  | nil => exact h
  | cons x l ih => exact ih (hf s1 x h)

theorem SameOwners.bump {k lo n c : Nat} : SameOwners s (Machine.bump s1 k lo n c) := h.elsewhere rfl

theorem SameOwners.setSync {i : Nat} {o : SyncObj} : SameOwners s (Machine.setSync s1 i o) :=
  h.elsewhere rfl

theorem SameOwners.releaseWaiters {i : Nat} : SameOwners s (Machine.releaseWaiters s1 i) :=
  h.elsewhere rfl

theorem SameOwners.keepFatal {r : ErrRec} : SameOwners s (Machine.keepFatal s1 r) := h.elsewhere rfl

theorem SameOwners.enterFatal : SameOwners s (Machine.enterFatal s1) := h.elsewhere rfl

theorem SameOwners.writeRecord {r : ErrRec} : SameOwners s (Machine.writeRecord s1 r) :=
  h.elsewhere (writeRecord_rings s1 r)

theorem SameOwners.recordCorrected {i : ErrInfo} : SameOwners s (Machine.recordCorrected s1 i) :=
  h.elsewhere (recordCorrected_rings s1 i)

/-- The fence of a partition holds its rings and unbinds them. -/
theorem SameOwners.startFence {p n : Nat} : SameOwners s (Machine.startFence s1 p n) :=
  fun r => (tget_map_field Ring.part Ring.idle _ (fun x => by dsimp only; split <;> rfl)
    (fun x => by dsimp only; split <;> rfl) s1.rings r).trans (h r)

theorem SameOwners.recordContained {i : ErrInfo} {x : Detected} :
    SameOwners s (Machine.recordContained s1 i x) := by
  unfold Machine.recordContained
  extract_lets
  split
  · exact h.bump.writeRecord
  · exact .ite h.bump.writeRecord.keepFatal.enterFatal
      (h.bump.writeRecord.foldl fun _ _ h1 => h1.startFence)

theorem SameOwners.recordError {i : ErrInfo} : SameOwners s (Machine.recordError s1 i) :=
  .ite h.recordCorrected (.ite h.bump.writeRecord.enterFatal h.recordContained)

theorem SameOwners.syncWordCorrected {i : Nat} {owner : Option Nat} {c : WordCheck} :
    SameOwners s (Machine.syncWordCorrected s1 i owner c) := .ite h.bump.recordError h

theorem SameOwners.checkSync {i : Nat} : SameOwners s (Machine.checkSync s1 i) :=
  .ite h.setSync.releaseWaiters.recordError (.ite h.setSync.recordError
    (.ite h.setSync.syncWordCorrected.syncWordCorrected h))

theorem SameOwners.checkRun {run : List Nat} : SameOwners s (Machine.checkRun s1 run) :=
  h.foldl fun _ _ h1 => h1.checkSync

end

/-! The AQ's commands (R141). -/

/-- An AQ command that answers at once completes its entry. -/
theorem adminCommand_of_answer {f : State → Nat → RingEntry → AdminAnswer} {s s' : State}
    {op r : Nat} {e : RingEntry} {st : BitVec 8} (turn : AqTurn s r op e)
    (h : f s r e = answer st s') : adminCommand op r f s = aqEnds s s' r e st 0 := by
  obtain ⟨started, serves⟩ := turn
  simp [adminCommand, started, serves, h, answer, aqEnds]

section
variable {s : State} {aq : Nat} {e : RingEntry} {run : List Nat} (hr : syncRun e = some run)
include hr

theorem syncGrant_of_free (ha : attrBad (ring s aq).part (entryWord e 0x18) = false)
    (hz : zeroField e 0x28 24 = true)
    (free : ∀ i ∈ run, (syncObj (checkRun s run) i).state = .free)
    (quota : syncUsed (checkRun s run) (bits (entryWord e 0x18) 40 7) + run.length ≤
      (partition (checkRun s run) (bits (entryWord e 0x18) 40 7)).syncQ) :
    syncGrant s aq e = answer 0 (run.foldl
      (fun s i => setSync s i (syncOfAttr (entryWord e 0x18) (entryWord e 0x20)))
      (checkRun s run)) := by
  have noneUsed : (run.any fun i => (syncObj (checkRun s run) i).state != .free) = false := by
    simpa [List.any_eq_false] using free
  simp [syncGrant, hr, ha, hz, noneUsed, Nat.not_lt.mpr quota]

theorem syncRevoke_of_run (hz : zeroField e 0x18 40 = true) :
    syncRevoke s aq e = answer 0 (run.foldl (fun s i =>
      if (syncObj s i).state = .live ∨ (syncObj s i).state = .frozen then
        setSync s i (revokeObj (syncObj s i)) else s) (checkRun s run)) := by
  simp [syncRevoke, hr, hz]

/-- PF0's AQ releases the objects of every partition. -/
theorem syncRelease_of_pf0 (hz : zeroField e 0x18 40 = true) (hp : (ring s aq).part = 0) :
    let s1 := checkRun s run
    let used := run.filter fun i => (syncObj s1 i).state != .free
    syncRelease s aq e = answer 0 (used.foldl (fun s i => setSync s i SyncObj.free)
      ((s1.threads.map Prod.fst).foldl (releaseSpinner used) s1)) := by
  have owner : (ring (checkRun s run) aq).part = 0 := ((SameOwners.refl s).checkRun aq).trans hp
  simp [syncRelease, hr, hz, owner]

end

/-! The host's window (R142, R145, R342). -/

section
variable {s : State} {n i : Nat} (hn : 1 ≤ n) (hn' : n ≤ 64) (hi : i < 32768)
include hn hn' hi

theorem syncWindowWrite_applied {v : Word} (hb : bar0 s = true)
    (applied : (signalObj s n 0 true (vfSwbase s n + i) v).1 = .applied) :
    exec (.syncWindowWrite n i v) s = .next (signalObj s n 0 true (vfSwbase s n + i) v).2 := by
  have inside : ¬((!bar0 s) = true ∨ n = 0 ∨ 64 < n ∨ 32768 ≤ i) := by
    simp only [hb, Bool.not_true, Bool.false_eq_true, false_or]
    omega
  simp only [exec_syncWindowWrite, execSyncWindowWrite, if_neg inside, if_pos applied]

theorem syncWindowRead_eq : exec (.syncWindowRead n i) s = .next
    { (readObj s n 0 true (vfSwbase s n + i)).2 with
      readData := leBytes 8 ((readObj s n 0 true (vfSwbase s n + i)).1.getD 0).toNat } := by
  have inside : ¬(n = 0 ∨ 64 < n ∨ 32768 ≤ i) := by omega
  simp only [exec_syncWindowRead, execSyncWindowRead, if_neg inside]

end

/-- Settles O45, command by command. -/
theorem syncAdminEffects : Obligations.sync_admin_effects :=
  ⟨fun _ _ => ⟨rfl, rfl, rfl, rfl⟩,
    fun _ _ _ _ turn hr ha hz free quota => congrArg Host.Outcome.next
      (adminCommand_of_answer turn (syncGrant_of_free hr ha hz free quota)),
    fun _ _ _ _ turn hr hz => congrArg Host.Outcome.next
      (adminCommand_of_answer turn (syncRevoke_of_run hr hz)),
    fun _ _ _ _ turn hr hz hp => congrArg Host.Outcome.next
      (adminCommand_of_answer turn (syncRelease_of_pf0 hr hz hp)),
    fun _ _ _ _ hb hn hn' hi => syncWindowWrite_applied hn hn' hi hb,
    fun _ _ _ => syncWindowRead_eq⟩

end Sys2Proof.Machine
end

section
/-! SUPPORT. An entry leaves the prefetch store (R174), and the index that CONS passes in a ring that
goes on in new memory (R160, R185). -/

namespace Sys2Proof.Machine

/-- A ring with an entry started is not as at reset, and so reads as it was put back. -/
theorem ring_setRing_of_started (s : State) (r : Nat) {x : Ring} (h : x.started ≠ []) :
    ring (setRing s r x) r = x :=
  tget_tset_same Ring.idle s.rings r x fun idle => h (congrArg Ring.started idle)

/-- With no report word a head report writes nothing. -/
theorem headReport_silent {s : State} {r : Nat} (h : (ring s r).rpt = 0) :
    headReport s r = setRing s r { ring s r with reported := (ring s r).cons } := by
  simp [headReport, h]

/-- As an entry leaves, CONS moves on from where it stands, by the entry's slots (R174). -/
theorem ring_consumeHead_cons {s : State} {r : Nat} {e : RingEntry} {es : List RingEntry}
    (head : (ring s r).taken = e :: es) (silent : (ring s r).rpt = 0) :
    (ring (consumeHead s r) r).cons =
      (ring s r).cons + BitVec.ofNat 32 (e.bytes.length / 64) := by
  simp only [consumeHead, head]
  split <;> simp [headReport_silent, ring_setRing_of_started, silent]

/-- SQ 0x200 as RING_RESIZE_SWITCH leaves it where PROD was 1: both indices 0, and the entries to come
counted on from 1 (R185). A first entry, a `nop` of this lap, stands in the prefetch store. -/
def switchedSq : State :=
  setRing State.reset 0x200 { Ring.idle with
    typ := 1, state := .run, log2sz := 4, shift := 1
    prefetch := [(0, [0x02, 0x01] ++ List.replicate 62 0)] }

/-- The entry as this ring takes it in. -/
def switchedEntry : RingEntry :=
  { index := 1, bytes := [0x02, 0x01] ++ List.replicate 62 0, gated := false, gateAt := 0
    order := 0 }

/-- Its index counts on from the old memory, where CONS is that of the new one. -/
theorem takeIn_switchedSq :
    (ring (takeIn switchedSq 0x200 1) 0x200).taken = [switchedEntry] ∧
      (ring (takeIn switchedSq 0x200 1) 0x200).rpt = 0 ∧
      (ring (takeIn switchedSq 0x200 1) 0x200).cons = 0 :=
  ⟨rfl, rfl, rfl⟩

/-- Refutes O43, by its clause that puts CONS behind the index of the entry that leaves: after
RING_RESIZE CONS starts at 0 again while the indices of entries count on (R185), so that the entry of
index 1 makes CONS 1 where the clause asks for 2. -/
theorem not_ringResults : ¬ Obligations.ring_results := by
  rintro ⟨-, -, -, -, passes, -⟩
  obtain ⟨head, silent, cons⟩ := takeIn_switchedSq
  obtain ⟨-, -, stated⟩ := passes _ _ _ _ head silent
  rw [ring_consumeHead_cons head silent, cons] at stated
  exact absurd stated (by decide)

end Sys2Proof.Machine
end

section
/-! SUPPORT. The commands of an AQ (R15, R179), and those of rings: what each answers in the state it
finds, and what ends a stop and a resize (R181, R182, R184, R185). -/

namespace Sys2Proof.Machine

/-! Commands of an AQ (R15, R179). -/

section
variable {s s' : State} {op r : Nat} {e : RingEntry} {f : State → Nat → RingEntry → AdminAnswer}

/-- With no such entry, or while another function's AQ is next, nothing happens. -/
theorem adminCommand_idle (h : startedOp s r op = none ∨ mpServes s r = false) :
    adminCommand op r f s = s := by
  unfold adminCommand
  split
  · rfl
  case h_2 e started =>
    obtain absent | serves := h
    · rw [absent] at started
      contradiction
    · simp [serves]

section
variable {c : Instr} {s0 : State} (runs : exec c s0 = .next (adminCommand op r f s))
  (turn : AqTurn s r op e)
include runs turn

/-- An effect that ends at once completes its entry; the entry of one that goes on is kept, and is not
acted on again. -/
theorem exec_of_effect : let a := f s r e
    (a.wait = false → exec c s0 = .next (aqEnds s a.state r e a.st a.d0)) ∧
    (a.wait = true →
      exec c s0 = .next (xptDone s (markActed (mpTook a.state r a.st) r e))) := by
  obtain ⟨started, serves⟩ := turn
  constructor <;> intro wait <;> simp [runs, adminCommand, started, serves, wait, aqEnds]

theorem exec_of_answer {st : BitVec 8} (h : f s r e = answer st s') :
    exec c s0 = .next (aqEnds s s' r e st 0) := by
  rw [runs, adminCommand_of_answer turn h]

theorem exec_of_answerLater (h : f s r e = answerLater s') :
    exec c s0 = .next (aqHolds s s' r e) := by
  rw [(exec_of_effect runs turn).2 (congrArg AdminAnswer.wait h), h]
  rfl

end

section
variable (turn : AqTurn s r op e)
include turn

theorem xptCommand_of_turn {f : State → Nat → RingEntry → AqAnswer}
    (room : mirrorFull s (aqPart e) = false) : xptCommand op r f s =
      aqMirrors s (f s (aqPart e) e).state r e (f s (aqPart e) e).st (f s (aqPart e) e).d0 := by
  obtain ⟨started, serves⟩ := turn
  simp [xptCommand, started, serves, room, aqMirrors]

/-- A command that pins contexts has its effect once Firkin holds them all (R25). -/
theorem unitCommand_of_turn {f : State → Nat → RingEntry → BitVec 8 × State} :
    let a := f s (aqPart e) e
    let new := a.2.firkin.pinned.drop s.firkin.pinned.length
    unitCommand op r f s = if new.all (fkCached s) then aqEnds s a.2 r e a.1 0
      else new.foldl (fun s k => fkWant s k 8) s := by
  obtain ⟨started, serves⟩ := turn
  simp [unitCommand, started, serves, aqEnds]

end

end

/-! The tables of AQ commands, row by row. -/

section
variable (r : Nat) (s : State)

theorem exec_of_adminRow {row : (Nat → Instr) × Nat × (State → Nat → RingEntry → AdminAnswer)}
    (h : AdminRow row) : exec (row.1 r) s = .next (adminCommand row.2.1 r row.2.2 s) := by
  simp only [AdminRow, List.mem_cons, List.not_mem_nil, or_false] at h
  obtain rfl | rfl | rfl | rfl | rfl | rfl | rfl | rfl | rfl | rfl | rfl | rfl | rfl := h <;> rfl

theorem exec_of_unitRow {row : (Nat → Instr) × Nat × (State → Nat → RingEntry → BitVec 8 × State)}
    (h : UnitRow row) : exec (row.1 r) s = .next (unitCommand row.2.1 r row.2.2 s) := by
  simp only [UnitRow, List.mem_cons, List.not_mem_nil, or_false] at h
  obtain rfl | rfl := h <;> rfl

theorem exec_of_xptRow {row : (Nat → Instr) × Nat × (State → Nat → RingEntry → AqAnswer)}
    (h : XptRow row) : exec (row.1 r) s = .next (xptCommand row.2.1 r row.2.2 s) := by
  simp only [XptRow, List.mem_cons, List.not_mem_nil, or_false] at h
  obtain rfl | rfl | rfl | rfl | rfl := h <;> rfl

end

/-! Commands that look at their entry first. -/

section
variable {s : State} {r : Nat} {e : RingEntry}

/-- ACTIVATE answers at once, whatever it finds (R447, R448). -/
theorem activate_wait (ready eeprom : Bool) : (activate ready eeprom s r e).wait = false := by
  unfold activate
  cases s.boot.staged <;> simp only [apply_ite AdminAnswer.wait, answer, ite_self]

theorem partFreeze_wait : (partFreeze s r e).wait = false := by
  simp only [partFreeze, apply_ite AdminAnswer.wait, answer, ite_self]

theorem exec_freezeOrThaw (turn : AqTurn s r 0x62 e) (drained : freezeWaits s e = false) :
    exec (if entryByte e 0x10 = 1 then .partThaw r else .partFreeze r) s =
      .next (adminCommand 0x62 r partFreeze s) := by
  split
  case isTrue thaw => simp [execPartThaw, turn.1, thaw]
  case isFalse freeze => simp [execPartFreeze, turn.1, freeze, drained]

theorem exec_partResize_of_drained (drained : resizeWaits s r = []) : exec (.partResize r) s =
    .next (adminCommand 0x60 r partResize (modSched s fun z => { z with moving := [] })) := by
  rw [exec_partResize, execPartResize, drained]
  rfl

/-- TWIN_UNPAIR also ends an unpairing whose wait is over (R422). -/
theorem exec_twinUnpair_of_turn (turn : AqTurn s r 0x6A e) : let a := twinUnpair s r e
    (a.wait = false → exec (.twinUnpair r) s =
      .next (xptDone s (settleUnpair (aqEnds s a.state r e a.st a.d0)))) ∧
    (a.wait = true → exec (.twinUnpair r) s =
      .next (xptDone s (settleUnpair (xptDone s (markActed (mpTook a.state r a.st) r e))))) := by
  obtain ⟨started, serves⟩ := turn
  constructor <;> intro wait <;>
    simp [execTwinUnpair, adminCommand, started, serves, wait, aqEnds]

theorem exec_bindOrUnbind (turn : AqTurn s r 0x5A e) :
    let a := if cbBad e then (0x02, s)
      else if cbUnbind e then carderUnbind s (aqPart e) e else carderBind s (aqPart e) e
    let new := a.2.firkin.pinned.drop s.firkin.pinned.length
    exec (if cbUnbind e then .carderUnbind r else .carderBind r) s =
      .next (if new.all (fkCached s) then aqEnds s a.2 r e a.1 0
        else new.foldl (fun s k => fkWant s k 8) s) := by
  cases unbind : cbUnbind e <;>
    simp [execCarderBind, execCarderUnbind, turn.1, unbind, unitCommand_of_turn turn]

end

/-! Rings by AQ (R181, R182, R185). -/

section
variable {s s1 : State} {aq r : Nat} {e : RingEntry}

theorem ringCreate_bad (h : createBad e = true) : ringCreate s aq e = answer 0x02 s := by
  simp [ringCreate, h]

theorem ringCreate_of_idle (good : createBad e = false)
    (own : ringIdOk s (aqPart e) (entryField e 0x10 2) = true)
    (idle : (ring s (entryField e 0x10 2)).state = .idle) (unbound : entryByte e 0x36 = 0)
    (quota : ringsUsed s (aqPart e) < (partition s (aqPart e)).ringQ)
    (range : ringRangeOk s (aqPart e) (BitVec.ofNat 20 (rcCfg e)) (rcType e) (entryByte e 0x13)
      (entryWord e 0x18) (entryWord e 0x20) = (true, s1)) :
    ringCreate s aq e = answer 0 (setRing s1 (entryField e 0x10 2)
      { createdRing (aqPart e) e with held := partHeld s (aqPart e) }) := by
  simp [ringCreate, good, own, idle, unbound, range, Nat.not_le.mpr quota]

/-- The ring that a command names is set up. -/
theorem idleRing_of_named (named : namedRing s e = some r) : idleRing s e = false := by
  unfold namedRing at named
  extract_lets at named
  split at named
  case isTrue h =>
    obtain ⟨-, inUse, -⟩ := h
    simpa [idleRing] using fun _ idle => absurd idle inUse
  case isFalse => contradiction

section
variable (zero : zeroField e 0x12 46 = true) (named : namedRing s e = some r)
include zero named

theorem ringStop_of_run (h : (ring s r).state = .run) :
    ringStop s aq e = answerLater (stopRing s (some (aq, e.index)) r) := by
  simp [ringStop, zero, named, h]

theorem ringStop_of_not_run (h : (ring s r).state ≠ .run) : ringStop s aq e = answer 0x04 s := by
  simp [ringStop, zero, named, h]

theorem ringDestroy_of_bound (cq : (ring s r).typ = 2) (bound : boundRings s r ≠ []) :
    ringDestroy s aq e = answer 0x04 s := by
  simp [ringDestroy, zero, named, idleRing_of_named named, cq, bound]

theorem ringDestroy_of_stopped (h : (ring s r).state = .stopped) (notCq : (ring s r).typ ≠ 2)
    (done : ringBusy s r = false) : ringDestroy s aq e = answer 0 (removeRing s r) := by
  simp [ringDestroy, zero, named, idleRing_of_named named, h, notCq, done]

theorem ringDestroy_of_run (h : (ring s r).state = .run) (notCq : (ring s r).typ ≠ 2) :
    ringDestroy s aq e = answerLater (stopRing s (some (aq, e.index)) r) := by
  simp [ringDestroy, zero, named, idleRing_of_named named, h, notCq]

theorem ringStart_consumed (h : (ring s r).state = .stopped)
    (consumed : ringConsumed (ring s r) = true) (empty : (ring s r).taken = []) :
    ringStart s aq e = answer 0 (setRing s r { ring s r with
      state := .run, prod := (ring s r).cons, prefetch := [], curK := pollK (ring s r)
      emptyRun := 0 }) := by
  simp [ringStart, zero, named, h, consumed, empty]

theorem ringStart_produced (h : (ring s r).state = .stopped)
    (produced : ringConsumed (ring s r) = false) : ringStart s aq e =
      answer 0 (drainRing (setRing s r { ring s r with state := .run }) r) := by
  simp [ringStart, zero, named, h, produced]

end

/-- RING_DESTROY of a ring that no command is stopping has its effect. -/
theorem exec_ringDestroy_of_turn (turn : AqTurn s aq 0x41 e)
    (settled : ∀ q, namedRing s e = some q → (ring s q).state ≠ .stopping) :
    exec (.ringDestroy aq) s = .next (adminCommand 0x41 aq ringDestroy s) := by
  cases named : namedRing s e with
  | none => simp [execRingDestroy, turn.1, named]
  | some q => simp [execRingDestroy, turn.1, named, settled q named]

theorem ringBind_on (on : entryByte e 0x16 = 1) (zero : zeroField e 0x12 2 = true)
    (zero' : zeroField e 0x17 41 = true) (named : namedRing s e = some r)
    (ok : bindOk s (ring s r).part (ring s r).typ (entryField e 0x14 2) = true) :
    ringBind s aq e = answer 0 (setRing s r { ring s r with
      bindEn := true, target := entryField e 0x14 2
      fetchStopped :=
        ringConsumed (ring s r) && !(ring s (entryField e 0x14 2)).unitHeld.isEmpty }) := by
  simp [ringBind, on, zero, zero', named, ok]

theorem ringResize_checked (zero : zeroField e 0x12 1 = true) (zero' : zeroField e 0x14 4 = true)
    (zero'' : zeroField e 0x20 32 = true) (least : 4 ≤ entryByte e 0x13)
    (most : entryByte e 0x13 ≤ 20) (canonical : (entryWord e 0x18).toNat < 2 ^ 57)
    (named : namedRing s e = some r) (state : (ring s r).state = .run ∨ (ring s r).state = .stopped)
    (fields : ringFieldsOk (ring s r).typ (entryByte e 0x13) (entryWord e 0x18)
      (ring s r).rpt = true)
    (range : ringRangeOk s (ring s r).part (ring s r).ctx (ring s r).typ (entryByte e 0x13)
      (entryWord e 0x18) (ring s r).rpt = (true, s1)) :
    ringResize s aq e = answerLater (modRing s1 r fun y => { y with
      resize := some (entryByte e 0x13, entryWord e 0x18, aq, e.index) }) := by
  have goes : ¬((ring s r).state ≠ .run ∧ (ring s r).state ≠ .stopped) := fun h =>
    state.elim h.1 h.2
  simp [-Nat.reducePow, ringResize, zero, zero', zero'', Nat.not_lt.mpr least, Nat.not_lt.mpr most,
    Nat.not_le.mpr canonical, named, goes, fields, range]

end

/-! The end of a stop and of a resize (R184, R185). -/

section
variable {s s1 : State} {r aq : Nat} {i : BitVec 32} {e : RingEntry} (running : s.err.fatal = false)
include running

theorem ringStopComplete_produced (ends : stopEnds s r = true) (stopper : (ring s r).stopBy = none)
    (produced : ringConsumed (ring s r) = false) : exec (.ringStopComplete r) s =
      .next (xptDone s (modRing s r fun y => { y with
        state := if y.state = .error then .error else .stopped, stopBy := none })) := by
  simp [execRingStopComplete, ends, running, stopper, produced, completeWaiting]

theorem ringStopComplete_consumed (ends : stopEnds s r = true)
    (stopper : (ring s r).stopBy = some (aq, i)) (started : startedAt s aq i = some e)
    (stop : entryOpcode e = 0x43) (consumed : ringConsumed (ring s r) = true) :
    exec (.ringStopComplete r) s = .next (xptDone s (completeWaiting
      (modRing (headReport s r) r fun y => { y with
        state := if y.state = .error then .error else .stopped, stopBy := none })
      (some (aq, i)) 0 ((ring s r).cons.setWidth 64))) := by
  simp [execRingStopComplete, ends, running, stopper, started, stop, consumed]

theorem ringResizeSwitch_consumed {l : Nat} {base : Word}
    (asked : (ring s r).resize = some (l, base, aq, i)) (ready : resizeReady s r = (true, s1))
    (consumed : ringConsumed (ring s1 r) = true) (run : (ring s1 r).state = .run) :
    let s2 := setRing s1 r { ring s1 r with
      resize := none, log2sz := l, base := base, prod := 0, cons := 0, reported := 0, prefetch := []
      shift := (ring s1 r).shift + (ring s1 r).prod }
    exec (.ringResizeSwitch r) s = .next (xptDone s (completeWaiting
      (if ringProduced (ring s1 r) then drainRing s2 r else s2) (some (aq, i)) 0
      ((ring s1 r).prod.setWidth 64))) := by
  simp [execRingResizeSwitch, running, asked, ready, consumed, run]

end

/-- Settles O44: commands of an AQ by how the entry ends, those of rings by the state of the ring. -/
theorem adminCommandsComplete : Obligations.admin_commands_complete := by
  refine ⟨⟨?rows, ?idle, ?activate, fun _ _ _ => exec_twinUnpair_of_turn, ?destroy, ?freeze,
      ?resize, ?units, fun _ _ _ => exec_bindOrUnbind, ?transport⟩,
    ?create, ?createBad, fun _ _ => ⟨rfl, rfl, rfl, rfl, rfl, rfl, rfl, rfl⟩, ?named, ?bind,
    ?newMemory, ?stopEnds, fun _ _ _ _ _ _ _ running => ringResizeSwitch_consumed running⟩
  case rows => exact fun row h r s e => exec_of_effect (exec_of_adminRow r s h)
  case idle =>
    intro row h r s idle
    rw [exec_of_adminRow r s h, adminCommand_idle idle]
  case activate =>
    intro ready eeprom r s e turn
    have answers := activate_wait (s := s) (r := r) (e := e) ready eeprom
    exact ⟨answers, (exec_of_effect (exec_activate r ready eeprom s) turn).1 answers⟩
  case destroy =>
    exact fun r s e turn settled => exec_of_effect (exec_ringDestroy_of_turn turn settled) turn
  case freeze =>
    exact fun r s e turn drained =>
      ⟨partFreeze_wait, (exec_of_effect (exec_freezeOrThaw turn drained) turn).1 partFreeze_wait⟩
  case resize =>
    exact fun r s e drained turn =>
      ⟨rfl, (exec_of_effect (exec_partResize_of_drained drained) turn).1 rfl⟩
  case units =>
    intro row h r s e turn
    rw [exec_of_unitRow r s h, unitCommand_of_turn turn]
  case transport =>
    intro row h r s e turn room
    rw [exec_of_xptRow r s h, xptCommand_of_turn turn room]
  case create =>
    exact fun s a e s1 turn good own idle unbound quota range =>
      exec_of_answer (exec_ringCreate a s) turn
        (ringCreate_of_idle good own idle unbound quota range)
  case createBad =>
    exact fun s a e turn bad => exec_of_answer (exec_ringCreate a s) turn (ringCreate_bad bad)
  case named =>
    intro s aq e r zero named
    have destroys (turn : AqTurn s aq 0x41 e) (settled : (ring s r).state ≠ .stopping) :=
      exec_ringDestroy_of_turn turn fun q hq => by
        rwa [← Option.some.inj (named.symm.trans hq)]
    refine ⟨?stop, ?stopLate, ?destroyBound, ?destroyStopped, ?destroyRun, ?startConsumed,
      ?startProduced⟩
    case stop =>
      exact fun turn run => exec_of_answerLater (exec_ringStop aq s) turn
        (ringStop_of_run zero named run)
    case stopLate =>
      exact fun turn notRun => exec_of_answer (exec_ringStop aq s) turn
        (ringStop_of_not_run zero named notRun)
    case destroyBound =>
      exact fun turn settled cq bound => exec_of_answer (destroys turn settled) turn
        (ringDestroy_of_bound zero named cq bound)
    case destroyStopped =>
      exact fun turn stopped notCq done => exec_of_answer (destroys turn (by simp [stopped])) turn
        (ringDestroy_of_stopped zero named stopped notCq done)
    case destroyRun =>
      exact fun turn run notCq => exec_of_answerLater (destroys turn (by simp [run])) turn
        (ringDestroy_of_run zero named run notCq)
    case startConsumed =>
      exact fun turn stopped consumed empty => exec_of_answer (exec_ringStart aq s) turn
        (ringStart_consumed zero named stopped consumed empty)
    case startProduced =>
      exact fun turn stopped produced => exec_of_answer (exec_ringStart aq s) turn
        (ringStart_produced zero named stopped produced)
  case bind =>
    exact fun s aq e r turn on zero zero' named ok =>
      exec_of_answer (exec_ringBind aq s) turn (ringBind_on on zero zero' named ok)
  case newMemory =>
    exact fun s aq e r s1 turn zero zero' zero'' least most canonical named state fields range =>
      exec_of_answerLater (exec_ringResize aq s) turn
        (ringResize_checked zero zero' zero'' least most canonical named state fields range)
  case stopEnds =>
    exact fun r s ends running => ⟨ringStopComplete_produced running ends,
      fun _ _ _ stopper started => ringStopComplete_consumed running ends stopper started⟩

end Sys2Proof.Machine
end

section
/-! SUPPORT. Queue pairs and memory keys by AQ: what each command answers in the state it finds
(R197, R198, R200, R204 to R206). -/

namespace Sys2Proof.Machine

section
variable {s : State} {p r : Nat} {e : RingEntry}

/-- A command of the transport answers what its effect answers, once the mirror ring has room
(R418). -/
theorem exec_of_aqAnswer {c : Instr} {op : Nat} {f : State → Nat → RingEntry → AqAnswer}
    {st : BitVec 8} {d0 : Word} {s' : State}
    (runs : exec c s = .next (xptCommand op r f s)) (turn : AqTurn s r op e)
    (room : mirrorFull s (aqPart e) = false)
    (answers : f s (aqPart e) e = { st := st, d0 := d0, state := s' }) :
    exec c s = .next (aqMirrors s s' r e st d0) := by
  rw [runs, xptCommand_of_turn turn room, answers]

/-! Queue pairs (R197, R198, R200). -/

theorem qpCreate_bad (bad : qpCreateBad e = true) :
    qpCreate s p e = { st := 0x02, d0 := 0, state := s } := by
  simp [qpCreate, bad]

/-- A queue pair without a receive area is created in INIT (R197). -/
theorem qpCreate_without_area (good : qpCreateBad e = false) (primary : standbyBusy s p = false)
    (new : (qp s (qpKey p (entryField e 0x10 4))).state = .none)
    (named : entryField e 0x10 4 ≠ 0x3FFFFF)
    (quota : entryField e 0x10 4 < (partition s p).qpQ)
    (sqTyp : (ring s (entryField e 0x14 2)).typ = 1)
    (sqLive : (ring s (entryField e 0x14 2)).state ≠ .idle)
    (sqOwn : (ring s (entryField e 0x14 2)).part = p) (cqTyp : (ring s (entryField e 0x16 2)).typ = 2)
    (cqLive : (ring s (entryField e 0x16 2)).state ≠ .idle)
    (cqOwn : (ring s (entryField e 0x16 2)).part = p) (noArea : entryField e 0x18 8 = 0) :
    qpCreate s p e =
      { st := 0, d0 := 0
        state := setQp s (qpKey p (entryField e 0x10 4)) { Qp.none with
          state := .init, sq := entryField e 0x14 2, rcq := entryField e 0x16 2
          rlog2n := entryByte e 0x20, rlog2sz := entryByte e 0x21
          ctx := BitVec.ofNat 20 (entryField e 0x24 4), rrpt := entryField e 0x28 8
          sport := sportOf (qpKey p (entryField e 0x10 4)) 0 } } := by
  simp [qpCreate, good, primary, new, named, Nat.not_le.mpr quota, sqTyp, sqLive, sqOwn, cqTyp, cqLive,
    cqOwn, noArea, Qp.none]

section
variable {k : Nat} (key : qpKey p (entryField e 0x10 4 % 2 ^ 22) = k)
  (zero : zeroField e 0x14 44 = true)
include key zero

theorem qpModify_resume (target : entryField e 0x10 4 / 2 ^ 22 = 4 * 4)
    (drain : (qp s k).state = .drain) :
    let s1 := setQp s k { freshRate s (qp s k) with state := .rts }
    qpModify s p e = { st := 0, d0 := qpDetail s1 k, state := s1 } := by
  have code : entryField e 0x10 4 / 2 ^ 24 = 4 := by omega
  have rest : entryField e 0x10 4 / 2 ^ 22 % 4 = 0 := by omega
  simp [qpModify, -Nat.reducePow, key, zero, code, rest, drain, qpStateCode]

theorem qpModify_drain (target : entryField e 0x10 4 / 2 ^ 22 = 5 * 4)
    (rts : (qp s k).state = .rts) :
    let s1 := checkDrained (setQp s k { qp s k with state := .drain, drained := false }) k
    qpModify s p e = { st := 0, d0 := qpDetail s1 k, state := s1 } := by
  have code : entryField e 0x10 4 / 2 ^ 24 = 5 := by omega
  have rest : entryField e 0x10 4 / 2 ^ 22 % 4 = 0 := by omega
  simp [qpModify, -Nat.reducePow, key, zero, code, rest, rts, qpStateCode]

end

section
variable {k : Nat} (key : qpKey p (entryField e 0x10 4) = k) (number : entryField e 0x10 4 < 2 ^ 22)
  (zero : zeroField e 0x14 44 = true)
include key number zero

theorem qpDestroy_of_init (init : (qp s k).state = .init) :
    qpDestroy s p e = { st := 0, d0 := 0, state := removeQp s k } := by
  simp [qpDestroy, -Nat.reducePow, key, Nat.not_le.mpr number, zero, init]

/-- A connected queue pair takes leave of its peer first (R200). -/
theorem qpDestroy_of_rts (rts : (qp s k).state = .rts) :
    qpDestroy s p e = { st := 0, d0 := 0, state := removeQp (sendDisconnect s k) k } := by
  simp [qpDestroy, -Nat.reducePow, key, Nat.not_le.mpr number, zero, rts]

end

/-! Memory keys (R204 to R206). -/

/-- A key of an area that is not of sync objects takes the next generation of its index (R204,
R205). -/
theorem keyRegister_of_free {s1 : State} {i : Nat} (index : entryField e 0x10 4 = i)
    (good : keyRegisterBad e = false) (quota : i < (partition s p).keyQ)
    (free : (memKey s p i).live = false) (primary : standbyBusy s p = false)
    (plain : entryByte e 0x28 < 8)
    (range : rangeOk s p (BitVec.ofNat 20 (entryField e 0x14 4)) (entryField e 0x18 8)
      (entryField e 0x20 8)
      ((BitVec.ofNat 4 (entryByte e 0x28)).getLsbD 1 || (BitVec.ofNat 4 (entryByte e 0x28)).getLsbD 2) =
        (true, s1)) :
    keyRegister s p e =
      { st := 0, d0 := BitVec.ofNat 64 (nextGen (memKey s p i).gen * 2 ^ 24 + i)
        state := setMemKey s1 p i
          { live := true, gen := nextGen (memKey s p i).gen
            ctx := BitVec.ofNat 20 (entryField e 0x14 4), base := entryField e 0x18 8
            length := entryField e 0x20 8, rights := BitVec.ofNat 4 (entryByte e 0x28)
            bound := if 2 ^ 31 ≤ entryField e 0x2C 4 then some (entryField e 0x2C 4 % 2 ^ 22)
              else none } } := by
  have rights : BitVec.ofNat 4 (entryByte e 0x28) ≠ 8 := by
    intro same
    have value := congrArg BitVec.toNat same
    rw [BitVec.toNat_ofNat, Nat.mod_eq_of_lt (by omega)] at value
    exact absurd value (Nat.ne_of_lt plain)
  simp only [keyRegister, index, good, Nat.not_le.mpr quota, free, primary, rights, range,
    Bool.false_eq_true, or_self, if_false, Bool.not_true]

theorem keyDeregister_of_live {i : Nat} (index : entryField e 0x10 4 = i) (small : i < 2 ^ 24)
    (zero : zeroField e 0x14 44 = true) (live : (memKey s p i).live = true) :
    keyDeregister s p e =
      { st := 0, d0 := 0, state := setMemKey s p i { memKey s p i with live := false } } := by
  simp [keyDeregister, -Nat.reducePow, index, Nat.not_le.mpr small, zero, live]

end

/-- Settles O47: each command of the transport answers what its effect answers in that state. -/
theorem queuePairAndKeyEffects : Obligations.queue_pair_and_key_effects := by
  refine ⟨?create, ?createBad, ?modify, ?destroy, ?register, ?deregister⟩
  case create =>
    exact fun r s e turn room good primary new named quota sqTyp sqLive sqOwn cqTyp cqLive cqOwn
        noArea =>
      exec_of_aqAnswer (exec_qpCreate r s) turn room
        (qpCreate_without_area good primary new named quota sqTyp sqLive sqOwn cqTyp cqLive cqOwn
          noArea)
  case createBad =>
    exact fun r s e turn room bad => exec_of_aqAnswer (exec_qpCreate r s) turn room (qpCreate_bad bad)
  case modify =>
    exact fun r s e turn room zero =>
      ⟨fun target drain => exec_of_aqAnswer (exec_qpModify r s) turn room
        (qpModify_resume rfl zero target drain),
      fun target rts => exec_of_aqAnswer (exec_qpModify r s) turn room
        (qpModify_drain rfl zero target rts)⟩
  case destroy =>
    exact fun r s e turn room number zero =>
      ⟨fun init => exec_of_aqAnswer (exec_qpDestroy r s) turn room
        (qpDestroy_of_init rfl number zero init),
      fun rts => exec_of_aqAnswer (exec_qpDestroy r s) turn room
        (qpDestroy_of_rts rfl number zero rts)⟩
  case register =>
    exact fun r s e s1 turn room good quota free primary plain range =>
      exec_of_aqAnswer (exec_keyRegister r s) turn room
        (keyRegister_of_free rfl good quota free primary plain range)
  case deregister =>
    exact fun r s e turn room small zero live => exec_of_aqAnswer (exec_keyDeregister r s) turn room
      (keyDeregister_of_live rfl small zero live)

end Sys2Proof.Machine
end

section
/-! SUPPORT. The head of an SQ of the transport: how its entry starts, waits at its gate or ends, and
the packets that go out (R195, R208 to R210, R215, R218, R219, R239, R243). -/

namespace Sys2Proof.Machine

theorem exec_of_sqRow {row : (Nat → Instr) × Nat} (h : SqRow row) (r : Nat) (s : State) :
    exec (row.1 r) s = .next (xptDone s (sqStart row.2 s r)) := by
  simp only [SqRow, List.mem_cons, List.not_mem_nil, or_false] at h
  obtain rfl | rfl | rfl | rfl | rfl | rfl | rfl | rfl := h <;> rfl

/-! An entry that is not gated yet (R208 to R210, R239). -/

section
variable {s : State} {r op : Nat} {e : RingEntry} (head : AtHead s r e) (kind : entryOpcode e = op)
  (sq : (ring s r).typ = 1) (fresh : e.gated = false)
include head kind sq fresh

theorem sqStart_malformed (bad : sqBad e = true) : sqStart op s r = consumeMalformed s r e := by
  obtain ⟨first, ready, header⟩ := head
  obtain ⟨rest, taken⟩ := List.head?_eq_some_iff.mp first
  simp [sqStart, -not_and, taken, kind, sq, ready, header, fresh, bad]

section
variable (good : sqBad e = false)
include good

theorem sqStart_submitted (takes : qpTakes s (sqQp s r e) (wireOp op) = .take)
    (reads : ¬(entryRfence e = true ∧ readsWait (qp s (sqQp s r e)) = true))
    (ungated : entryGate e = 0) : sqStart op s r = sqSubmit s r e := by
  obtain ⟨first, ready, header⟩ := head
  obtain ⟨rest, taken⟩ := List.head?_eq_some_iff.mp first
  simp [sqStart, -not_and, taken, kind, sq, ready, header, fresh, good, takes, reads, ungated]

section
variable (counts : ¬(entryGate e = 2 ∧ (qp s (sqQp s r e)).state ≠ .none ∧
  (qp s (sqQp s r e)).mode = 0))
include counts

theorem sqStart_failed {st : BitVec 8} (fails : qpTakes s (sqQp s r e) (wireOp op) = .fail st) :
    sqStart op s r = finishHead s r e st := by
  obtain ⟨first, ready, header⟩ := head
  obtain ⟨rest, taken⟩ := List.head?_eq_some_iff.mp first
  simp only [sqStart, taken, kind, sq, ready, header, fresh, good, counts, fails, ne_self_iff_false,
    Bool.not_true, Bool.false_eq_true, or_self, if_false]

theorem sqStart_uncached (waits : qpTakes s (sqQp s r e) (wireOp op) = .wait)
    (rts : (qp s (sqQp s r e)).state = .rts) : sqStart op s r = fkWant s (sqQp s r e) 8 := by
  obtain ⟨first, ready, header⟩ := head
  obtain ⟨rest, taken⟩ := List.head?_eq_some_iff.mp first
  simp only [sqStart, taken, kind, sq, ready, header, fresh, good, counts, waits,
    ne_self_iff_false, Bool.not_true, Bool.false_eq_true, or_self, if_false]
  exact if_pos rts

/-- An entry with a gate waits at the head, even where its gate is open (R218). -/
theorem sqStart_gated (takes : qpTakes s (sqQp s r e) (wireOp op) = .take)
    (reads : ¬(entryRfence e = true ∧ readsWait (qp s (sqQp s r e)) = true)) (gate : entryGate e ≠ 0)
    (stands : ∀ st, gateState s r e ≠ .fail st) : sqStart op s r = markGated s r := by
  obtain ⟨first, ready, header⟩ := head
  obtain ⟨rest, taken⟩ := List.head?_eq_some_iff.mp first
  simp only [sqStart, taken, kind, sq, ready, header, fresh, good, counts, takes, reads, gate,
    ne_self_iff_false, Bool.not_true, Bool.false_eq_true, or_self, if_false]

end

end

end

/-! Gated entries (R218, R219). -/

section
variable {s : State} {r : Nat} {e : RingEntry} (first : (ring s r).taken.head? = some e)
  (ready : headReady s r e = true)
include first ready

/-- A gated entry whose gate is open pays for it and starts (R218, R219). -/
theorem gateStart_open {g : Nat} (gate : entryGate e = g) (gated : e.gated = true)
    (within : gateExpired s e = false) (open_ : gateState s r e = .open_)
    (takes : qpTakes s (sqQp s r e) (wireOp (entryOpcode e)) = .take) :
    gateStart g s r = sqSubmit (payGate s r e) r e := by
  obtain ⟨rest, taken⟩ := List.head?_eq_some_iff.mp first
  simp [gateStart, taken, ready, gate, gated, within, open_, takes]

theorem exec_gateTimeout_expired (expired : gateExpired s e = true) :
    exec (.gateTimeout r) s = .next (xptDone s (finishHead s r e 0x0E)) := by
  obtain ⟨rest, taken⟩ := List.head?_eq_some_iff.mp first
  simp [execGateTimeout, taken, ready, expired]

end

theorem gateExpired_iff {s : State} {e : RingEntry} {t : Nat} (gated : e.gated = true)
    (units : bits (gateWord e) 48 16 = t) (limited : t ≠ 0) :
    gateExpired s e = true ↔ e.gateAt + t * 24000 ≤ fdTime s := by
  simp [gateExpired, gated, units, limited]

/-- A packet that may go out and whose partition's turn it is leaves (R243, R374). -/
theorem exec_packetTransmit_turn {p n size : Nat} {s s1 : State} {x : NextPkt}
    (ready : readyLen s (qpKey p n) = some size) (next : nextPkt s (qpKey p n) = some x)
    (turn : partTurn s (qp s (qpKey p n)).port (qp s (qpKey p n)).tc p size 64 = (true, s1)) :
    exec (.packetTransmit p n) s = .next (xptDone s (sendNext s1 (qpKey p n) x size)) := by
  simp [execPacketTransmit, ready, next, turn]

/-- Settles O48: for every opcode of an SQ by the cases of its head entry. -/
theorem sqCommandResults : Obligations.sq_command_results := by
  refine ⟨?entries, ?gates, ?timeout, ?expiry, ?transmit⟩
  case entries =>
    intro row h r s e head kind sq fresh
    rw [exec_of_sqRow h r s]
    refine ⟨?malformed, fun good mode => ?wellFormed⟩
    case malformed => exact fun bad => by rw [sqStart_malformed head kind sq fresh bad]
    have counts : ¬(entryGate e = 2 ∧ (qp s (sqQp s r e)).state ≠ .none ∧
        (qp s (sqQp s r e)).mode = 0) := fun bad => mode bad.1 bad.2.2
    refine ⟨?failed, ?uncached, ?taken⟩
    case failed => exact fun st fails => by rw [sqStart_failed head kind sq fresh good counts fails]
    case uncached =>
      exact fun waits rts => by rw [sqStart_uncached head kind sq fresh good counts waits rts]
    case taken =>
      intro takes ordered
      have reads : ¬(entryRfence e = true ∧ readsWait (qp s (sqQp s r e)) = true) := fun waits =>
        absurd waits.2 (Bool.eq_false_iff.mp (ordered waits.1))
      refine ⟨fun ungated => ?_, fun gate stands => ?_⟩
      · rw [sqStart_submitted head kind sq fresh good takes reads ungated]
      · rw [sqStart_gated head kind sq fresh good counts takes reads gate stands]
  case gates =>
    intro r s e first ready gated within open_ takes
    refine ⟨fun gate => ?_, fun gate => ?_⟩
    · rw [exec_enableGateStart, execEnableGateStart,
        gateStart_open first ready gate gated within open_ takes, payGate, if_pos gate]
    · rw [exec_countGateStart, execCountGateStart,
        gateStart_open first ready gate gated within open_ takes, payGate, if_neg (by omega)]
  case timeout => exact fun r s e first ready expired => exec_gateTimeout_expired first ready expired
  case expiry => exact fun s e t => gateExpired_iff
  case transmit => exact fun p n s size x s1 => exec_packetTransmit_turn

end Sys2Proof.Machine
end

section
/-! SUPPORT. The steps of R189 for an arriving packet, the classes of a request (R224), and Firkin's
fetches (R195, R232, R239, R240). -/

namespace Sys2Proof.Machine

/-! A packet leaves the receive buffer (R189, R195, R240). -/

/-- An arrival command finds its packet, intact and for queue pair `k`, and no rule holds it back: no
answer is ahead of an answer (R232), and the mirror ring has room (R418). -/
structure PacketDue (s : State) (p : Packet) (op part k : Nat) (a : Arrival) (h : Pth)
    (payload tag : List Byte) : Prop where
  found : s.arrived.find? (fun x => x.toPacket == p) = some a
  intact : a.bad = false
  alive : s.err.fatal = false
  parsed : parsePth p.bytes = some (h, payload, tag)
  target : targetPart s p = some part
  key : qpKey part h.qpn = k
  opcode : h.op = op
  ordered : isAnswerOp h.op = true → answerAhead s k a = false
  room : answerWaits s k h = false

section
variable {s s1 : State} {p : Packet} {op part k : Nat} {a : Arrival} {h : Pth}
  {payload tag : List Byte} {f : Handler} {onBad : BadHandler}

theorem PacketDue.packet_eq (due : PacketDue s p op part k a h payload tag) : a.toPacket = p := by
  simpa using List.find?_some due.found

/-- With its queue pair's context on the die the packet is checked, and else it waits (R240). -/
theorem PacketDue.arriveWith_eq (due : PacketDue s p op part k a h payload tag) :
    let s1 := { s with arrived := s.arrived.erase a }
    arriveWith op f onBad p s =
      if fkCached s k then processPkt s1 k a h payload tag f onBad else missPacket s1 k a := by
  obtain ⟨found, intact, alive, parsed, target, rfl, rfl, ordered, room⟩ := due
  simp +contextual [arriveWith, found, alive, parsed, target, ordered, room, intact, fkCached]

/-! Steps 3 to 5 of R189. -/

section
variable (intact : a.bad = false)
include intact

theorem processPkt_unaccepted (refused : stateAccepts (qp s k) h = false) :
    processPkt s k a h payload tag f onBad = bump s xptDrop 32 16 1 := by
  simp [processPkt, intact, refused]

section
variable (accepts : stateAccepts (qp s k) h = true)
include accepts

theorem processPkt_connection (conn : isConnOp h.op = true) :
    processPkt s k a h payload tag f onBad = f (fkTouch s k) k a h payload := by
  simp [processPkt, intact, accepts, conn]

theorem processPkt_otherVersion (plain : isConnOp h.op = false) (other : h.ver ≠ (qp s k).version) :
    processPkt s k a h payload tag f onBad = bump s xptDrop 16 16 1 := by
  simp [processPkt, intact, accepts, plain, other]

/-- A packet whose tag verifies reaches its handler; the first one of a connection brings RTS (R202). -/
theorem processPkt_verified (plain : isConnOp h.op = false) (version : h.ver = (qp s k).version)
    (verified : checkTag s k h a.toPacket tag = (true, s1)) :
    let s2 := fkTouch s1 k
    processPkt s k a h payload tag f onBad =
      f (if (qp s2 k).state = .rts ∨ (qp s2 k).state = .drain then s2 else enterRts s2 k) k a h
        payload := by
  simp [processPkt, intact, accepts, plain, version, verified]

end

end

/-! Arrivals whose packet is due. -/

theorem PacketDue.arriveWith_uncached (due : PacketDue s p op part k a h payload tag)
    (away : fkCached s k = false) : arriveWith op f onBad p s =
      missPacket { s with arrived := s.arrived.erase a } k a := by
  rw [due.arriveWith_eq, away]
  rfl

theorem PacketDue.arriveWith_cached (due : PacketDue s p op part k a h payload tag)
    (cached : fkCached s k = true) : arriveWith op f onBad p s =
      processPkt { s with arrived := s.arrived.erase a } k a h payload tag f onBad := by
  rw [due.arriveWith_eq, if_pos cached]

theorem PacketDue.arriveWith_unaccepted (due : PacketDue s p op part k a h payload tag)
    (cached : fkCached s k = true) (refused : stateAccepts (qp s k) h = false) :
    arriveWith op f onBad p s = bump { s with arrived := s.arrived.erase a } xptDrop 32 16 1 :=
  (due.arriveWith_cached cached).trans (processPkt_unaccepted due.intact refused)

theorem PacketDue.arriveWith_otherVersion (due : PacketDue s p op part k a h payload tag)
    (cached : fkCached s k = true) (accepts : stateAccepts (qp s k) h = true)
    (plain : isConnOp h.op = false) (other : h.ver ≠ (qp s k).version) :
    arriveWith op f onBad p s = bump { s with arrived := s.arrived.erase a } xptDrop 16 16 1 :=
  (due.arriveWith_cached cached).trans (processPkt_otherVersion due.intact accepts plain other)

/-- A packet that passes the steps of R189 reaches its handler. -/
theorem arriveWith_of_arrives (arrives : Arrives s p op k a h payload s1) :
    arriveWith op f onBad p s = f s1 k a h payload := by
  obtain ⟨tag, part, s2, found, intact, alive, parsed, target, rfl, rfl, ordered, room, cached,
    accepts, checks⟩ := arrives
  have due : PacketDue s p h.op part _ a h payload tag :=
    ⟨found, intact, alive, parsed, target, rfl, rfl, ordered, room⟩
  rw [due.arriveWith_cached cached]
  by_cases conn : isConnOp h.op = true
  · rw [if_pos conn] at checks
    rw [checks]
    exact processPkt_connection intact accepts conn
  · rw [if_neg conn] at checks
    obtain ⟨version, verified, rfl⟩ := checks
    rw [← due.packet_eq] at verified
    exact processPkt_verified intact accepts (Bool.eq_false_iff.mpr conn) version verified

/-- The command of an arriving packet does what its handler does. -/
theorem exec_of_arrives {c : Instr}
    (runs : exec c s = .next (xptDone s (arriveWith op f onBad p s)))
    (arrives : Arrives s p op k a h payload s1) :
    exec c s = .next (xptDone s (f s1 k a h payload)) := by
  rw [runs, arriveWith_of_arrives arrives]

theorem exec_of_handled {c : Instr} {s' : State}
    (runs : exec c s = .next (xptDone s (arriveWith op f onBad p s)))
    (arrives : Arrives s p op k a h payload s1) (handles : f s1 k a h payload = s') :
    exec c s = .next (xptDone s s') := by
  rw [exec_of_arrives runs arrives, handles]

theorem exec_of_arrivalRow {row : (Packet → Instr) × Nat × Handler} (h : ArrivalRow row) :
    ∃ onBad : BadHandler, ∀ p s,
      exec (row.1 p) s = .next (xptDone s (arriveWith row.2.1 row.2.2 onBad p s)) := by
  simp only [ArrivalRow, List.mem_cons, List.not_mem_nil, or_false] at h
  obtain rfl | rfl | rfl | rfl | rfl | rfl | rfl | rfl | rfl | rfl | rfl | rfl | rfl | rfl | rfl | rfl |
    rfl | rfl | rfl | rfl | rfl | rfl | rfl | rfl | rfl | rfl | rfl | rfl | rfl := h <;>
    exact ⟨_, fun _ _ => rfl⟩

end

/-! Classes of a request (R224). -/

section
variable {s : State} {k : Nat} {h : Pth} {dup fresh : State → State}

theorem request_outside (cls : psnClass (qp s k) h.psn = .outside) :
    request s k h dup fresh = bump s xptSrstat 8 8 1 := by
  simp [request, cls]

/-- A new request for which the mirror ring has no room draws RNR (R418). -/
theorem request_full (cls : psnClass (qp s k) h.psn = .new)
    (full : mirrorFull s (qpPart k) = true) :
    request s k h dup fresh = sendRnr (bump s twinStat 16 16 1) k h.psn h.ts := by
  simp [request, cls, full]

theorem request_new (new : NewRequest s k h) : request s k h dup fresh = fresh s := by
  obtain ⟨cls, room⟩ := new
  simp [request, cls, room]

theorem request_dup (cls : psnClass (qp s k) h.psn = .dup) (unrefused : (qp s k).refusals = []) :
    request s k h dup fresh = dup (bump s xptSrstat 16 16 1) := by
  simp [request, cls, unrefused]

end

/-! Fetches (R239 to R241). -/

section
variable {p n : Nat} {s : State}

theorem exec_contextFetchStart_of_room {x : Nat × Nat}
    (wanted : s.firkin.wanted.find? (fun x => x.1 == qpKey p n) = some x)
    (way : fkWays s (fkSet (qpKey p n)) < 16) :
    exec (.contextFetchStart p n) s = .next (bump { s with firkin := { s.firkin with
      wanted := s.firkin.wanted.filter fun y => y.1 != qpKey p n
      fetching := s.firkin.fetching ++ [x] } } fkStat 32 32 1) := by
  simp only [exec_contextFetchStart, execContextFetchStart, wanted, way, if_true]

/-- A context read without poison is installed, and the packets queued for it act (R240). -/
theorem exec_contextFetchComplete_of_read {bs : List Byte} {s2 : State}
    (fetching : s.firkin.fetching.any (fun x => x.1 == qpKey p n) = true)
    (present : (qp s (qpKey p n)).state ≠ .none)
    (reachable : regionOf (qpStore s p + 512 * n) = .hostMem → s.linkUp = true)
    (read : readMem { s with firkin := { s.firkin with
      fetching := s.firkin.fetching.filter fun y => y.1 != qpKey p n } } (qpStore s p + 512 * n) 256 =
        (false, bs, s2)) :
    let s3 := settleTaken { s2 with
      firkin := { s2.firkin with cached := qpKey p n :: s2.firkin.cached } } (qpKey p n)
    exec (.contextFetchComplete p n) s = .next (xptDone s
      ((takeMissed s3 (qpKey p n)).1.foldl (playMissed (qpKey p n)) (takeMissed s3 (qpKey p n)).2)) := by
  have near : ¬(regionOf (qpStore s p + 512 * n) = .hostMem ∧ (!s.linkUp) = true) := by
    rintro ⟨host, down⟩
    simp [reachable host] at down
  simp only [exec_contextFetchComplete, execContextFetchComplete, fetching, present, near, read,
    Bool.not_true, Bool.false_eq_true, if_false]

end

/-- Settles O49: a packet that is due goes through the steps of R189, whichever its command. -/
theorem arrivalResults : Obligations.arrival_results := by
  refine ⟨⟨?checked, ?handled, ?classes⟩, ?start, ?complete⟩
  case checked =>
    intro row h p s a hd payload tag part found intact alive parsed target opcode s1 k ordered room
    have due : PacketDue s p row.2.1 part k a hd payload tag :=
      ⟨found, intact, alive, parsed, target, rfl, opcode, ordered, room⟩
    obtain ⟨onBad, runs⟩ := exec_of_arrivalRow h
    rw [runs p s]
    refine ⟨fun away => ?_, fun cached refused => ?_, fun cached accepts plain other => ?_⟩
    · rw [due.arriveWith_uncached away]
    · rw [due.arriveWith_unaccepted cached refused]
    · rw [due.arriveWith_otherVersion cached accepts plain other]
  case handled =>
    intro row h p s k a hd payload s1 arrives
    obtain ⟨onBad, runs⟩ := exec_of_arrivalRow h
    exact exec_of_arrives (runs p s) arrives
  case classes => exact fun s k h dup fresh => ⟨request_outside, request_full, request_dup⟩
  case start => exact fun p n s x => exec_contextFetchStart_of_room
  case complete => exact fun p n s bs s2 => exec_contextFetchComplete_of_read

end Sys2Proof.Machine
end

section
/-! SUPPORT. Requests at their target, and responses and answers at their sender (R207, R212 to R216,
R218, R224, R230, R232, R236, R237). -/

namespace Sys2Proof.Machine

/-! New requests that pass their checks (R207, R212 to R214, R218, R224). -/

section
variable {s s2 : State} {k : Nat} {a : Arrival} {h : Pth} {payload : List Byte}

theorem placeReq_placed {c : BitVec 20} {va : Nat} {bs : List Byte} {note : Qp → Qp}
    (placed : place s (qpPart k) c va bs = (.ok (), s2)) :
    placeReq s k h c va bs note = acceptReq (modQp s2 k note) k h := by
  simp only [placeReq, placed]

section
variable (new : NewRequest s k h)
include new

/-- A SEND goes into the slot of its message number (R214). -/
theorem onSend_placed (area : (qp s k).rbase ≠ 0)
    (fits : h.off.toNat + payload.length ≤ 2 ^ (qp s k).rlog2sz)
    (free : slotBusy (qp s k) h.key = false) (room : cqBlocked s (qp s k).rcq = false)
    (placed : place s (qpPart k) (qp s k).ctx ((qp s k).rbase +
      h.key.toNat % 2 ^ (qp s k).rlog2n * 2 ^ (qp s k).rlog2sz + h.off.toNat) payload = (.ok (), s2)) :
    onSend s k a h payload = acceptReq (modQp s2 k fun q =>
      if h.last then { q with recvDone := q.recvDone ++ [{ psn := h.psn, kind := 1
                                                           cookie := h.key.toNat
                                                           stop := h.off.toNat + payload.length
                                                           imm := h.aux, ts := a.time }] }
      else q) k h := by
  simp only [onSend, request_new new, area, Nat.not_lt.mpr fits, free, room, or_self, if_false,
    Bool.false_eq_true, placeReq_placed placed]

/-- A WRITE goes where its key allows; one with an immediate leaves a receive entry (R207, R212). -/
theorem onWrite_placed {imm : Bool} {e : KeyEntry} (key : keyCheck s k h 1 payload.length = .ok e)
    (room : imm = true → cqBlocked s (qp s k).rcq = false)
    (placed : place s (qpPart k) e.ctx (e.base + h.off.toNat) payload = (.ok (), s2)) :
    onWrite imm s k a h payload = acceptReq (modQp s2 k fun q =>
      if imm then
        { q with
          imms := if h.first then q.imms ++ [(h.psn, h.off.toNat)] else q.imms
          recvDone := if h.last then q.recvDone ++ [{ psn := h.psn, kind := 2, cookie := 0
                                                      stop := h.off.toNat + payload.length
                                                      imm := h.aux, ts := a.time }]
            else q.recvDone }
      else q) k h := by
  have unblocked : ¬(imm = true ∧ cqBlocked s (qp s k).rcq = true) := by
    rintro ⟨writes, full⟩
    simp [room writes] at full
  simp only [onWrite, request_new new, key, unblocked, if_false, placeReq_placed placed]

/-- A READ is kept, and answered from its first packet on (R224, R237). -/
theorem onReadReq_answered {e : KeyEntry} {cs : List (Nat × Nat)} {n : Nat} {r : ReadRec}
    (key : keyCheck s k h 0 h.aux.toNat = .ok e)
    (packets : max 1 ((h.aux.toNat + (qp s k).mtu - 1) / (qp s k).mtu) = n)
    (kept : { first := h.psn, count := n, ctx := e.ctx, va := e.base + h.off.toNat
              len := h.aux.toNat } = r)
    (readable : chunks s .fabric fabricUnit (qpPart k) e.ctx r.va r.len false (pageSpan r.va r.len) =
      (.ok cs, s2)) :
    onReadReq s k a h payload = deliverRecv (modQp
      (sendReadFrom (modQp s2 k fun q => { q with reads := q.reads ++ [r] }) k r 0) k
      fun q => acceptPsns q h.psn n) k := by
  subst kept packets
  simp only [onReadReq, request_new new, key, readable]

/-- An atomic on a word that reads without poison changes it and is logged (R213, R226). -/
theorem onAtomic_applied {f : List Byte → Word → Word} {e : KeyEntry} {fr : Option Nat} {pa : Nat}
    {bs : List Byte} {s3 s4 : State} {r : AtomicRec} (key : keyCheck s k h 2 8 = .ok e)
    (frame : frameOf s fabricUnit (qpPart k) e.ctx (e.base + h.off.toNat) = (fr, s2))
    (device : fr.any (fun x => regionOf x == .hostMem) = false)
    (granted : access s2 .fabric fabricUnit (qpPart k) e.ctx (e.base + h.off.toNat) true =
      (.ok pa, s3))
    (read : readMem s3 pa 8 = (false, bs, s4))
    (logged : { psn := h.psn, status := 0, prior := BitVec.ofNat 64 (leNat bs) } = r) :
    onAtomic f s k a h payload = acceptReq (sendAtomicResp (modQp (mirrorData
      (writeMem s4 pa (leBytes 8 (f payload (BitVec.ofNat 64 (leNat bs))).toNat)) pa 8) k
      fun q => logAtomic q r) k r) k h := by
  subst logged
  simp only [onAtomic, request_new new, key, frame, device, granted, read, Bool.false_eq_true, if_false]

theorem onSignal_applied {e : KeyEntry} {pa : Nat} {s3 : State} (key : keyCheck s k h 3 8 = .ok e)
    (granted : access s .sync fabricUnit (qpPart k) e.ctx (e.base + h.off.toNat) true = (.ok pa, s2))
    (object : regionOf pa = .syncObj)
    (applied : signalObj s2 (qpPart k) e.ctx false (syncIndex pa)
      (BitVec.ofNat 64 (beField payload 0 8)) = (.applied, s3)) :
    onSignal s k a h payload = acceptReq s3 k h := by
  simp [onSignal, request_new new, key, granted, object, applied]

theorem onEnable_counted (fits : (qp s k).enable + h.aux.toNat ≤ 65535) :
    onEnable s k a h payload =
      acceptReq (modQp s k fun q => { q with enable := q.enable + h.aux.toNat }) k h := by
  simp only [onEnable, request_new new, Nat.not_lt.mpr fits, if_false]

end

/-! Responses at the requester (R213, R215, R237). -/

section
variable {o o2 : SendOp}

/-- A response that is awaited is placed, and ends its PSN. -/
theorem takeResp_placed {p : BitVec 32} {at_ : Nat} {bs : List Byte} {v : Word}
    (runs : o.stalled = false) (awaited : psnDone (qp s k) p = false) (known : o.src ≠ .none)
    (placed : placeResp s k o at_ bs = (.ok (), s2, o2)) :
    takeResp s k o p 0 at_ bs v = sackLoss (afterDone (doneAt (putSend s2 k o { o2 with
      got := insertNat (p - o.first.getD p).toNat o.got, result := v }) k [p]) k) k p := by
  simp [takeResp, runs, awaited, known, placed]

theorem onReadResp_of_owner (owner : ownerOp (qp s k) h.psn = some o) (kind : o.op = 0x04) :
    onReadResp s k a h payload = takeResp s k o h.psn (h.aux.setWidth 8) h.off.toNat
      (payload.take (o.len - h.off.toNat)) 0 := by
  simp only [onReadResp, owner, kind, if_true]

/-- A thread takes an atomic's result without bytes in memory (R217). -/
theorem onAtomicResp_of_owner (owner : ownerOp (qp s k) h.psn = some o)
    (kind : o.op = 0x06 ∨ o.op = 0x07) :
    let v : Word := BitVec.ofNat 64 (beField payload 0 8)
    onAtomicResp s k a h payload = takeResp s k o h.psn (h.aux.setWidth 8) 0
      (match o.src with | .thread _ _ => [] | _ => leBytes 8 v.toNat) v := by
  unfold onAtomicResp
  rw [owner]
  exact if_pos kind

end

/-! Answers at the sender (R230 to R232, R236). -/

theorem onAck_without_blocks (blocks : sackBlocks h payload = [])
    (within : answerBad (qp s k) h.key (sackBlocks h payload) = false) :
    onAck s k a h payload = afterDone (doneAt (takeAnswer s k h) k []) k := by
  rw [blocks] at within
  simp [onAck, blocks, within]

/-- The PSNs of a SACK block are done, but for those that only a response ends (R229, R237). -/
theorem onAck_of_block {b : Nat × Nat} (blocks : sackBlocks h payload = [b])
    (within : answerBad (qp s k) h.key (sackBlocks h payload) = false) :
    let s1 := takeAnswer s k h
    onAck s k a h payload = sackLoss (afterDone (doneAt s1 k
      ((psnRun (h.key + BitVec.ofNat 32 b.1) b.2).filter fun x =>
        !needsResponse (qp s1 k) x && decide (0 ≤ psnDiff x (qp s1 k).una))) k) k
      (h.key + BitVec.ofNat 32 (b.1 + b.2 - 1)) := by
  rw [blocks] at within
  simp [onAck, blocks, within]

theorem psnRun_one (x : BitVec 32) : psnRun x 1 = [x] := by
  simp [psnRun]

/-- The refused PSN's operation fails with the status that the NAK tells (R230). -/
theorem onNak_of_one {x : BitVec 32} {o : SendOp} (one : bits h.off 32 16 = 1)
    (psn : h.key + BitVec.ofNat 32 (bits h.off 48 16) = x)
    (within : answerBad (qp s k) h.key [(bits h.off 48 16, 1)] = false)
    (awaited : psnDone (qp (takeAnswer s k h) k) x = false)
    (owner : ownerOp (qp (takeAnswer s k h) k) x = some o) (known : o.src ≠ .none) :
    onNak s k a h payload = afterDone
      (doneAt (failOp (takeAnswer s k h) k o (BitVec.ofNat 8 (bits h.off 24 8))) k [x]) k := by
  simp [onNak, one, within, psn, psnRun_one, awaited, owner, known]

/-- The queue pair pauses, while its retries last (R236). -/
theorem onRnr_pauses {x : BitVec 32} {n : Nat}
    (psn : h.key + BitVec.ofNat 32 (bits h.off 48 16) = x)
    (refusals : (((qp (takeAnswer s k h) k).rnrs.find? fun y => y.1 == x).map Prod.snd).getD 0 + 1 = n)
    (within : answerBad (qp s k) h.key [(bits h.off 48 16, 1)] = false)
    (awaited : psnDone (qp (takeAnswer s k h) k) x = false)
    (sends : (qp (takeAnswer s k h) k).rnrUntil = none)
    (lasts : bits (reg (takeAnswer s k h) xptRnr) 16 8 = 0 ∨
      n < bits (reg (takeAnswer s k h) xptRnr) 16 8) :
    let s2 := takeAnswer s k h
    let q := qp s2 k
    onRnr s k a h payload = afterDone (setQp s2 k { q with
      rnrPsn := x, rnrCount := n, rnrs := (x, n) :: q.rnrs.filter fun y => y.1 != x
      rnrUntil := some (max (portTime s2 q.port + usTicks (max 1 (bits h.off 0 16))) 0) }) k := by
  have more : ¬(bits (reg (takeAnswer s k h) xptRnr) 16 8 ≠ 0 ∧
      bits (reg (takeAnswer s k h) xptRnr) 16 8 ≤ n) := by omega
  simp only [onRnr, psn, refusals, within, awaited, sends, more, Bool.false_eq_true, if_false,
    Option.isSome_none, false_and, Option.getD_none]

end

end Sys2Proof.Machine
end

section
/-! SUPPORT. The messages of a connection and of a migration (R202, R220, R245). -/

namespace Sys2Proof.Machine

section
variable {s : State} {k : Nat} {a : Arrival} {h : Pth} {payload : List Byte}

/-! Connections (R202). -/

/-- A request that matches in LISTEN is answered with REP, from a fresh initial PSN. -/
theorem onConnReq_of_listen {c : ConnMsg} {v : Nat} (message : connOf payload = c)
    (listen : (qp s k).state = .listen) (first : (qp s k).repSent = false)
    (matches_ : listenMatches (qp s k) a c = true) (answer : answerOf (qp s k) c = .ok v) :
    onConnReq s k a h payload = startResend (sendRep (modQp (takeFree s).2 k fun q =>
      { agree q v c with
        passive := true, repSent := true, ipsn := (takeFree s).1.setWidth 32, rqpn := c.sqpn
        raddr := a.src, laddr := a.dst }) k) k := by
  simp only [onConnReq, message, listen, first, matches_, answerReq, answer, Bool.false_eq_true,
    if_false, if_true]

section
variable {c : ConnMsg} (message : connOf payload = c) (same : (qp s k).connid = c.connid)
include message same

/-- A REP of a version that the queue pair has brings RTS and RTU. -/
theorem onConnRep_of_connecting (state : (qp s k).state = .connecting)
    (active : (qp s k).passive = false) (least : 1 ≤ c.version) (most : c.version ≤ 3)
    (known : (qp s k).vmask.getLsbD c.version = true)
    (keyed : ((qp s k).tagReq || c.tag) = true → (qp s k).ikey ≠ 0xFFFF) :
    onConnRep s k a h payload = sendRtu (enterRts (modQp s k fun q => agree q c.version c) k) k := by
  have able : ¬(((qp s k).tagReq || c.tag) = true ∧ (qp s k).ikey = 0xFFFF) := fun both =>
    keyed both.1 both.2
  simp only [onConnRep, message, same, active, state, least, most, known, able, ne_eq,
    not_true_eq_false, Bool.false_eq_true, or_self, and_self, decide_true, Bool.and_self,
    Bool.not_true, if_false]

theorem onConnRtu_of_rep (out : repOut (qp s k) = true) : onConnRtu s k a h payload = enterRts s k := by
  simp only [onConnRtu, message, same, out, and_self, if_true]

theorem onConnRej_of_connecting (state : (qp s k).state = .connecting) :
    onConnRej s k a h payload = enterError s k 0x21 c.reason := by
  simp only [onConnRej, message, same, state, true_or, and_self, if_true]

theorem onDisconnect_of_live (live : (qp s k).state = .rts ∨ (qp s k).state = .drain) :
    onDisconnect s k a h payload = enterError s k 0x22 0x06 := by
  simp only [onDisconnect, message, same, live, and_self, if_true]

end

/-! Migration (R220). -/

section
variable (matches_ : migMatches (qp s k) payload = true)
include matches_

/-- A later migration than those known changes the peer's address, is answered, and what is not
acknowledged is sent again. -/
theorem onPathMigrate_of_later {m : BitVec 32} {addr : BitVec 128}
    (number : BitVec.ofNat 32 (beField payload 24 4) = m)
    (address : BitVec.ofNat 128 (beField payload 0 16) = addr)
    (later : (qp s k).mseqIn.toNat < m.toNat) :
    let s2 := modQp s k fun q =>
      { freshRate s q with raddr := addr, sport := sportOf k m.toNat, mseqIn := m }
    onPathMigrate s k a h payload =
      qpEvent (loseAll (sendMig s2 k 0x29 addr m) k (unacked (qp s2 k))) k 0x24 0 m.toNat := by
  simp only [onPathMigrate, matches_, number, address, Nat.not_le.mpr later, Bool.not_true,
    Bool.false_eq_true, or_self, if_false]

theorem onPathMigrateAck_of_pending (pending : (qp s k).migrating = true)
    (number : beField payload 24 4 = (qp s k).mseq.toNat) :
    onPathMigrateAck s k a h payload =
      setQp s k { freshRate s (qp s k) with migrating := false, connTimer := none } := by
  simp only [onPathMigrateAck, matches_, pending, number, and_self, if_true]

end

end

end Sys2Proof.Machine
end

section
/-! SUPPORT. The packets of Bushel and Carder at a member (R263, R264, R267, R268, R282, R285). -/

namespace Sys2Proof.Machine

section
variable {s s2 : State} {k : Nat} {a : Arrival} {h : Pth} {payload : List Byte}

/-! Bushel (R263, R264, R267, R268). -/

section
variable {gid d : Nat} {r : BshRun} (new : NewRequest s k h) (member : ForRun s k h gid d r)
include new member

/-- A chunk whose checksum and length fit is staged (R264, R267). -/
theorem onBshData_staged {used : Bool} {x : BshKey × Nat × Nat} (intact : crc32c payload = bpCrc h)
    (attempt : bpAttempt h = r.attempt) (fits : dataPlace s (bshGroup s gid) r d h = some x)
    (length : x.2.2 = payload.length) :
    onBshData used s k a h payload = bshGo (modRun (heard (acceptReq s k h) gid) gid fun r =>
      { r with staged := r.staged.filter (fun y => y.1 != x.1) ++ [(x.1, payload)] }) gid := by
  obtain ⟨rfl, own, side, run, gen⟩ := member
  simp [onBshData, request_new new, intact, own, side, run, gen, attempt, fits, length]

theorem onBshCredit_added :
    onBshCredit s k a h payload = bshGo (heard (modBsh (acceptReq s k h) gid fun x =>
      { x with credit := tset 0 x.credit (creditKey r.gen d)
                           (tget 0 x.credit (creditKey r.gen d) + bpChunk h) }) gid) gid := by
  obtain ⟨rfl, own, side, run, gen⟩ := member
  simp [onBshCredit, request_new new, own, side, run, gen]

/-- A control packet of the running generation acts at once (R263, R267, R268). -/
theorem onBshControl_of_run {op : Nat} : onBshControl op s k a h payload =
    bshGo (onControl op (heard (acceptReq s k h) gid) gid d h payload) gid := by
  obtain ⟨rfl, own, side, run, gen⟩ := member
  simp [onBshControl, request_new new, own, side, run, gen]

end

section
variable {gid d : Nat} {g : BshGroup} {r : BshRun} (group : bshGroup s gid = g) (run : g.run = some r)
include group run

/-- A result from below is kept (R263). -/
theorem onTree_up (fits : treeBad g r d h payload = false) (below : fromBelow g r d h = true) :
    onTree s gid d h payload = modRun s gid fun r => { r with
      ups := r.ups ++ [{ dir := d, covered := treeCovers g r d true, value := treeValue payload }] } := by
  simp only [onTree, group, run, fits, below, Bool.false_eq_true, if_false, if_true]

/-- A result from above is passed on and taken (R263). -/
theorem onTree_down (fits : treeBad g r d h payload = false) (above : fromBelow g r d h = false) :
    onTree s gid d h payload = modRun (sendDown s gid r (treePhase r false) (treeValue payload)) gid
      fun r => treeResult g r (treeValue payload) := by
  simp only [onTree, group, run, fits, above, Bool.false_eq_true, if_false]

/-- In a first run a taint marks the run and is passed on (R267). -/
theorem onTaint_marks (first : r.attempt ≠ 1) :
    onTaint s gid d h payload = modRun
      (bshSendAll s ((bshTree g 0 g.rank).filter fun x => x != d) gid 0x33 0 (bpPhase h) r.gen payload)
      gid fun r => { r with
        tainted := true, orank := beField payload 0 2
        taints := r.taints ++ [(spanBytes (bshWire r.entry) (beField payload 4 8),
          spanBytes (bshWire r.entry) (beField payload 12 4))] } := by
  simp only [onTaint, group, run, first, if_false]

end

/-! Carder (R282, R285). -/

section
variable {b : CrdBind} {t e : Nat} (new : NewRequest s k h) (member : qpBind s k = some b)
  (names : cpTag h = t) (own : crdTagOk b t = true)
include new member names own

/-- Tokens go into the share of their source (R282). -/
theorem onCrdTok_taken (expert : cpExpert h = e) (valid : (crdExp b e).valid = true)
    (here : (crdExp b e).erank = b.rank) (free : bufferHeld s b t e = false)
    (runs : (crdTag s t).ranksDone.contains (qpRank b k) = false)
    (fits : cpOff h + payload.length ≤ shareLen b e) (share : cpShare h ≤ shareLen b e)
    (written : writeVa s .fabric fabricUnit b.part b.ctx (shareVa b t e (qpRank b k) + cpOff h)
      payload = (.ok (), s2)) :
    onCrdTok s k a h payload =
      acceptReq (modTag s2 t fun x => { x with holds := true, sq := b.sq }) k h := by
  simp [onCrdTok, -List.contains_eq_mem, request_new new, member, names, own, expert, valid, here,
    free, runs, fits, share, written]

/-- Counts for experts of this member, none above its capacity, are kept and then taken (R282). -/
theorem onCrdDone_taken (free : ∀ e ∈ hostedAt b b.rank, bufferHeld s b t e = false)
    (runs : (crdTag s t).ranksDone.contains (qpRank b k) = false)
    (fits : ∀ c ∈ doneCounts payload, c.1 ∈ hostedAt b b.rank ∧ c.2 ≤ (crdExp b c.1).cap) :
    onCrdDone s k a h payload = applyDones (acceptReq (modTag s t fun x => { x with
      dones := x.dones ++ [{ qp := k, psn := h.psn, rank := qpRank b k, last := h.last
                             counts := doneCounts payload }]
      holds := true, sq := b.sq }) k h) b t := by
  have unheld : (hostedAt b b.rank).any (fun e => bufferHeld s b t e) = false := by
    simpa using free
  have counted : (doneCounts payload).any (fun c => !(hostedAt b b.rank).contains c.1 ||
      decide ((crdExp b c.1).cap < c.2)) = false := by
    simpa using fits
  simp only [onCrdDone, request_new new, member, names, own, unheld, runs, counted,
    Bool.false_eq_true, or_self, and_false, Bool.not_true, if_false]

/-- Outputs of an expert of the sender go where COMBINE wants them (R285). -/
theorem onCrdRet_taken {c : RingEntry} (expert : cpExpert h = e) (used : (crdTag s t).inUse = true)
    (combine : (crdTag s t).comb = some c) (sender : (crdExp b e).erank = qpRank b k)
    (fits : cpOff h + payload.length ≤ countFor (crdTag s t).choices e * crdRec b)
    (written : writeVa s .fabric fabricUnit b.part b.ctx (entryField c 0x18 8 +
      prefixOf (crdTag s t).choices e * crdRec b + cpOff h) payload = (.ok (), s2)) :
    onCrdRet s k a h payload = acceptReq (modTag s2 t fun x => { x with
      got := x.got ++ [(e, cpOff h, payload.length)] }) k h := by
  simp [onCrdRet, request_new new, member, names, own, expert, used, combine, sender, fits, written]

end

end

end Sys2Proof.Machine
end

section
/-! SUPPORT. What each kind of packet does, put together (R202, R207, R212 to R216, R218, R220, R224,
R230, R232, R236, R237, R245, R263, R264, R267, R268, R282, R285). -/

namespace Sys2Proof.Machine

/-- Settles O50: each packet reaches its handler, and the handler's lemma says what it does. -/
theorem arrivalEffects : Obligations.arrival_effects := by
  refine ⟨⟨?send, ?write, ?readReq, ?atomic, ?signal, ?enable, ?response, ?ack, ?nak, ?rnr⟩,
    ⟨?connReq, ?conn, ?migrate⟩, ?bushel, ?carder⟩
  case send =>
    exact fun p s k a h payload s1 s2 arrives new area fits free room placed =>
      exec_of_handled (exec_sendArrival p s) arrives (onSend_placed new area fits free room placed)
  case write =>
    intro p s k a h payload s1 s2 e key new placed
    refine ⟨fun arrives => ?_, fun arrives room => ?_⟩
    · exact exec_of_handled (exec_writeArrival p s) arrives
        (onWrite_placed (imm := false) new key nofun placed)
    · exact exec_of_handled (exec_writeImmArrival p s) arrives
        (onWrite_placed (imm := true) new key (fun _ => room) placed)
  case readReq =>
    exact fun p s k a h payload s1 s2 e cs arrives new key readable =>
      exec_of_handled (exec_readReq p s) arrives (onReadReq_answered new key rfl rfl readable)
  case atomic =>
    intro row listed p s k a h payload s1 s2 s3 s4 e fr pa bs arrives new key frame device granted read
    have applied := onAtomic_applied (a := a) (f := row.2.2) (payload := payload) new key frame
      device granted read rfl
    simp only [List.mem_cons, List.not_mem_nil, or_false] at listed
    obtain rfl | rfl := listed
    · exact exec_of_handled (exec_atomicFaddArrival p s) arrives applied
    · exact exec_of_handled (exec_atomicCasArrival p s) arrives applied
  case signal =>
    exact fun p s k a h payload s1 s2 s3 e pa arrives new key granted object applied =>
      exec_of_handled (exec_signalArrival p s) arrives
        (onSignal_applied new key granted object applied)
  case enable =>
    exact fun p s k a h payload s1 arrives new fits =>
      exec_of_handled (exec_enableArrival p s) arrives (onEnable_counted new fits)
  case response =>
    intro p s k a h payload s1 o owner runs awaited known good i
    refine ⟨fun s2 o2 arrives kind placed => ?_, fun s2 o2 arrives kind placed => ?_⟩
    · refine exec_of_handled (exec_readResp p s) arrives ?_
      rw [onReadResp_of_owner owner kind, good]
      exact takeResp_placed runs awaited known placed
    · refine exec_of_handled (exec_atomicResp p s) arrives ?_
      rw [onAtomicResp_of_owner owner kind, good]
      exact takeResp_placed runs awaited known placed
  case ack =>
    exact fun p s k a h payload s1 arrives within =>
      ⟨fun blocks => exec_of_handled (exec_ack p s) arrives (onAck_without_blocks blocks within),
        fun b blocks => exec_of_handled (exec_ack p s) arrives (onAck_of_block blocks within)⟩
  case nak =>
    exact fun p s k a h payload s1 o arrives one within awaited owner known =>
      exec_of_handled (exec_nak p s) arrives (onNak_of_one one rfl within awaited owner known)
  case rnr =>
    exact fun p s k a h payload s1 arrives within awaited sends lasts =>
      exec_of_handled (exec_rnr p s) arrives (onRnr_pauses rfl rfl within awaited sends lasts)
  case connReq =>
    exact fun p s k a h payload s1 v arrives listen first matches_ answer =>
      exec_of_handled (exec_connectReq p s) arrives
        (onConnReq_of_listen rfl listen first matches_ answer)
  case conn =>
    intro p s k a h payload s1 c q same
    refine ⟨fun arrives state active least most known keyed => ?_, fun arrives out => ?_,
      fun arrives state => ?_, fun arrives live => ?_⟩
    · exact exec_of_handled (exec_connectRep p s) arrives
        (onConnRep_of_connecting rfl same state active least most known keyed)
    · exact exec_of_handled (exec_connectRtu p s) arrives (onConnRtu_of_rep rfl same out)
    · exact exec_of_handled (exec_connectRej p s) arrives (onConnRej_of_connecting rfl same state)
    · exact exec_of_handled (exec_disconnect p s) arrives (onDisconnect_of_live rfl same live)
  case migrate =>
    intro p s k a h payload s1 q m addr matches_
    refine ⟨fun arrives later => ?_, fun arrives pending number => ?_⟩
    · exact exec_of_handled (exec_pathMigrate p s) arrives
        (onPathMigrate_of_later matches_ rfl rfl later)
    · exact exec_of_handled (exec_pathMigrateAck p s) arrives
        (onPathMigrateAck_of_pending matches_ pending number)
  case bushel =>
    intro p s k a h payload s1 gid d r new member s2
    refine ⟨fun used x arrives intact attempt fits length => ?data, fun arrives => ?credit,
      fun r2 arrives run fits => ⟨fun below => ?up, fun above => ?down⟩,
      fun r2 arrives run first => ?taint, fun arrives => ?abort⟩
    case data =>
      exact exec_of_handled (exec_bshData p used s) arrives
        (onBshData_staged new member intact attempt fits length)
    case credit =>
      exact exec_of_handled (exec_bshCredit p s) arrives (onBshCredit_added new member)
    case up =>
      exact exec_of_handled (exec_bshTree p s) arrives ((onBshControl_of_run new member).trans
        (congrArg (bshGo · gid) (onTree_up rfl run fits below)))
    case down =>
      exact exec_of_handled (exec_bshTree p s) arrives ((onBshControl_of_run new member).trans
        (congrArg (bshGo · gid) (onTree_down rfl run fits above)))
    case taint =>
      exact exec_of_handled (exec_bshTaint p s) arrives ((onBshControl_of_run new member).trans
        (congrArg (bshGo · gid) (onTaint_marks rfl run first)))
    case abort =>
      exact exec_of_handled (exec_bshAbort p s) arrives (onBshControl_of_run new member)
  case carder =>
    intro p s k a h payload s1 b new member own t r
    refine ⟨fun s2 arrives valid here free runs fits share written => ?tokens,
      fun arrives free runs fits => ?counts,
      fun c s2 arrives used combine sender fits written => ?outputs⟩
    case tokens =>
      exact exec_of_handled (exec_crdTok p s) arrives
        (onCrdTok_taken new member rfl own rfl valid here free runs fits share written)
    case counts =>
      exact exec_of_handled (exec_crdDone p s) arrives
        (onCrdDone_taken new member rfl own free runs fits)
    case outputs =>
      exact exec_of_handled (exec_crdRet p s) arrives
        (onCrdRet_taken new member rfl own rfl used combine sender fits written)

end Sys2Proof.Machine
end

section
/-! SUPPORT. The acknowledgement of a queue pair that has sent nothing tagged for 2^30 ticks, whose
context Firkin has let go (R239, R324). -/

namespace Sys2Proof.Machine

/-- While the context is away it is asked for, and no acknowledgement goes out yet (R239). -/
theorem exec_idleTagAck_uncached {p n : Nat} {s : State} (live : qpLive (qp s (qpKey p n)) = true)
    (tagged : (qp s (qpKey p n)).tag = true) (ready : txKeyReady s (qpKey p n) = true)
    (idle : (qp s (qpKey p n)).lastTagged + 2 ^ 30 ≤ portTime s (qp s (qpKey p n)).port + 1)
    (away : fkCached s (qpKey p n) = false) :
    exec (.idleTagAck p n) s = .next (fkWant s (qpKey p n) 8) := by
  simp only [exec_idleTagAck, execIdleTagAck, live, tagged, ready, idle, away, and_self, if_true,
    Bool.false_eq_true, if_false]

/-- Queue pair 0 in RTS, tagged, with a transmit key and nothing on the die, at port tick 2^30. -/
def evictedSender : State :=
  { State.reset with
    qps := [(0, { Qp.none with state := .rts, tag := true, ikey := 0 })]
    slots := [(0, { KeySlot.empty with tx := some { k256 := false, bytes := [] } })]
    clocks := [(8, 2 ^ 30)] }

/-- The acknowledgement is due, and the context is away. -/
theorem evictedSender_idle :
    let q := qp evictedSender (qpKey 0 0)
    qpLive q = true ∧ q.tag = true ∧ txKeyReady evictedSender (qpKey 0 0) = true ∧
      q.lastTagged + 2 ^ 30 ≤ portTime evictedSender q.port + 1 ∧
      fkCached evictedSender (qpKey 0 0) = false := by
  decide

/-- Asking for the context leaves a mark that sending the acknowledgement does not. -/
theorem evictedSender_wanted :
    (fkWant evictedSender (qpKey 0 0) 8).firkin.wanted = [(0, 8)] ∧
      (xptDone evictedSender (modQp (sendAck evictedSender (qpKey 0 0) 0) (qpKey 0 0)
        fun y => { y with lastTagged := portTime evictedSender y.port + 1 })).firkin.wanted = [] :=
  ⟨rfl, rfl⟩

/-- Refutes O51, by its clause of the idle tagged acknowledgement (R324), which does not ask that the
context is on the die: in `evictedSender` Firkin is asked for the context first (R239), and nothing is
sent. -/
theorem not_queuePairTimerResults : ¬ Obligations.queue_pair_timer_results := by
  rintro ⟨⟨-, -, -, sends, -⟩, -⟩
  obtain ⟨live, tagged, ready, idle, away⟩ := evictedSender_idle
  have stated := sends 0 0 evictedSender live tagged ready idle
  rw [exec_idleTagAck_uncached live tagged ready idle away] at stated
  obtain ⟨wanted, unasked⟩ := evictedSender_wanted
  have same := congrArg (fun s => s.firkin.wanted) (Host.Outcome.next.inj stated)
  exact absurd (wanted.symm.trans (same.trans unasked)) (by decide)

end Sys2Proof.Machine
end

section
/-! SUPPORT. Bushel's commands: the entry at the head of a CMQ, the creation and the end of groups, and
what ends a run (R249 to R251, R258 to R261, R265, R267 to R269). -/

namespace Sys2Proof.Machine

theorem exec_of_cmqRow {row : (Nat → Instr) × Nat} (h : CmqRow row) (r : Nat) (s : State) :
    exec (row.1 r) s = .next (xptDone s (bshStart row.2 s r)) := by
  simp only [CmqRow, List.mem_cons, List.not_mem_nil, or_false] at h
  obtain rfl | rfl | rfl | rfl | rfl | rfl | rfl := h <;> rfl

/-! The head of a CMQ (R250, R251, R258 to R261, R264, R269). -/

section
variable {s : State} {r op : Nat} {e : RingEntry} (head : AtHead s r e) (kind : entryOpcode e = op)
  (cmq : (ring s r).typ = 6)
include head kind cmq

/-- An entry on a CMQ without a group fails (R250). -/
theorem bshStart_ungrouped (alone : cmqGroup s r = none) :
    bshStart op s r = finishHead s r e 0x04 := by
  obtain ⟨first, ready, header⟩ := head
  obtain ⟨rest, taken⟩ := List.head?_eq_some_iff.mp first
  simp [bshStart, taken, kind, cmq, ready, header, alone]

/-- An entry whose group is idle leaves the ring and begins (R251). -/
theorem bshStart_begins {gid : Nat} (group : cmqGroup s r = some gid)
    (idle : (bshGroup s gid).run = none) (room : bshRunning s < 8)
    (goes : (partition s (ring s r).part).state ≠ .preempted) :
    bshStart op s r = bshGo (replayEarly (beginRun (consumeHead s r) gid e) gid) gid := by
  obtain ⟨first, ready, header⟩ := head
  obtain ⟨rest, taken⟩ := List.head?_eq_some_iff.mp first
  have starts : ¬ ((bshGroup s gid).run.isSome ∨ 8 ≤ bshRunning s ∨
      (partition s (ring s r).part).state = .preempted) := by
    simp [idle, room, goes]
  simp [bshStart, -not_or, taken, kind, cmq, ready, header, group, starts]

end

/-- An entry that passes its checks, and whose input, blocks and operator can be read, becomes its group's
next generation (R251, R264). -/
theorem beginRun_of_input {s s1 s2 s3 : State} {gid : Nat} {g : BshGroup} {e : RingEntry}
    {bs blocks : List Byte} {oper : Option (Word × List Word)} (group : bshGroup s gid = g)
    (whole : g.broken = false) (kept : g.aborted.find? (fun x => x.1 == g.gen) = none)
    (good : bshBad s g e = false) (up : bshQpsUp s g = true)
    (input : bshInput s g e = (.ok bs, s1)) :
    let map := if entryOpcode e = 0x26 then clearTail (bshCount e) bs else bs
    (if entryOpcode e = 0x26 then sparseBlocks s1 g e map else (.ok [], s1)) = (.ok blocks, s2) →
    readOper s2 e = (.ok oper, s3) →
    let run := newRun s g e oper map blocks
    beginRun s gid e = grantCredit
      (setBsh s3 gid { g with run := some run, gen := g.gen + 1, last := lastOf e }) gid run := by
  intro map read operator
  simp [beginRun, group, whole, kept, good, up, input, map, read, operator]

/-! Groups (R249, R250). -/

section
variable {s : State} {p gid : Nat} {e : RingEntry} {g : BshGroup}

/-- A group of free parts pins its contexts and stands in the table (R249). -/
theorem groupCreate_of_free (asked : gcGroup p e = g) (fits : gcBad e g = false)
    (free : bshGroup s (entryField e 0x10 2) = BshGroup.none) (cmq : (ring s g.cmq).typ = 6)
    (runs : (ring s g.cmq).state = .run) (own : (ring s g.cmq).part = p)
    (unserved : cmqGroup s g.cmq = none)
    (joined : ∀ q, some q ∈ g.qps → (qp s (qpKey p q)).state = .rts ∧
      (qp s (qpKey p q)).tc = bits (reg s bshCtl) 8 3 ∧ 3 ≤ (qp s (qpKey p q)).version)
    (room : fkCanPin s (g.qps.filterMap fun o => o.map (qpKey p)) = true) :
    groupCreate s p e = (0, setBsh (pinAll s (g.qps.filterMap fun o => o.map (qpKey p)))
      (entryField e 0x10 2) g) := by
  have members : ∀ k ∈ g.qps.filterMap fun o => o.map (qpKey p), (qp s k).state = .rts ∧
      (qp s k).tc = bits (reg s bshCtl) 8 3 ∧ 3 ≤ (qp s k).version := by
    simp only [List.mem_filterMap, Option.map_eq_some_iff]
    rintro _ ⟨_, listed, q, rfl, rfl⟩
    exact joined q listed
  have ready : (g.qps.filterMap fun o => o.map (qpKey p)).any (fun k =>
      (qp s k).state != .rts || (qp s k).tc != bits (reg s bshCtl) 8 3) = false :=
    List.any_eq_false.mpr fun k member => by
      obtain ⟨rts, tc, -⟩ := members k member
      simp [rts, tc]
  have current : (g.qps.filterMap fun o => o.map (qpKey p)).any (fun k =>
      decide ((qp s k).version < 3)) = false :=
    List.any_eq_false.mpr fun k member => by simpa using (members k member).2.2
  simp [groupCreate, -List.any_eq_true, asked, fits, free, cmq, runs, own, unserved, ready, current,
    room]

/-- A group's own partition destroys it: its run aborts, its waiting entries end and its contexts are let
go (R250). -/
theorem groupDestroy_of_own (named : entryField e 0x10 2 = gid) (group : bshGroup s gid = g)
    (small : gid < 4096) (zero : zeroField e 0x12 46 = true) (exists_ : g ≠ BshGroup.none)
    (own : g.part = p) :
    groupDestroy s p e = (0, setBsh (fkUnpin (finishTaken (bshAbort s gid 0x01 7 g.rank none) g.cmq 0x01)
      (g.qps.filterMap fun o => o.map (qpKey p))) gid BshGroup.none) := by
  simp [groupDestroy, named, group, Nat.not_le.mpr small, zero, exists_, own]

end

/-- A command of Bushel on an AQ whose effect pins only contexts on the die completes its entry (R25). -/
theorem exec_of_unitEffect {row : (Nat → Instr) × Nat × (State → Nat → RingEntry → BitVec 8 × State)}
    {s s1 : State} {r : Nat} {e : RingEntry} {st : BitVec 8} (h : UnitRow row)
    (turn : AqTurn s r row.2.1 e) (effect : row.2.2 s (aqPart e) e = (st, s1))
    (held : (s1.firkin.pinned.drop s.firkin.pinned.length).all (fkCached s) = true) :
    exec (row.1 r) s = .next (aqEnds s s1 r e st 0) := by
  rw [exec_of_unitRow r s h, unitCommand_of_turn turn, effect, if_pos held]

/-! The end of a run (R265, R267 to R269). -/

section
variable {s : State} {gid : Nat} {r : BshRun} (run : (bshGroup s gid).run = some r)
include run

section
variable (finished : r.phase = 8) (goes : r.paused = false)
include finished goes

theorem exec_bushelRerun_of_tainted (tainted : r.tainted = true) (first : r.attempt = 0) :
    exec (.bushelRerun gid) s = .next (xptDone s (rerun s gid)) := by
  simp [execBushelRerun, run, finished, goes, tainted, first]

theorem exec_bushelComplete_of_settled (settled : r.tainted = false ∨ r.attempt = 1) :
    exec (.bushelComplete gid) s = .next (xptDone s (bshFinish s gid)) := by
  simp [execBushelComplete, run, finished, goes, settled]

end

theorem exec_bushelStallTimeout_of_quiet
    (quiet : r.lastRx + (bshGroup s gid).stall * 1500000 ≤ fdTime s) :
    exec (.bushelStallTimeout gid) s =
      .next (xptDone s (bshAbort s gid 0x0A 4 (bshGroup s gid).rank none)) := by
  simp [execBushelStallTimeout, run, quiet]

theorem exec_bushelPreemptTimeout_of_late {t : Nat} (asked : r.preAt = some t)
    (goes : r.paused = false) (late : t + 300000 ≤ fdTime s) :
    exec (.bushelPreemptTimeout gid) s =
      .next (xptDone s (bshAbort s gid 0x0A 3 (bshGroup s gid).rank none)) := by
  simp [execBushelPreemptTimeout, run, asked, goes, late]

end

/-- Settles O52: an entry at the head of a CMQ by what its group is doing, GROUP_CREATE and GROUP_DESTROY
by their effects, and a run by what ends it. -/
theorem bushelResults : Obligations.bushel_results := by
  refine ⟨?entries, ?create, ?destroy, ?ends⟩
  case entries =>
    rintro ⟨c, op⟩ h r s e head kind cmq
    subst kind
    rw [exec_of_cmqRow h r s]
    refine ⟨fun alone => ?ungrouped, fun gid group idle room goes => ?begins, ?started⟩
    case ungrouped => rw [bshStart_ungrouped head rfl cmq alone]
    case begins => rw [bshStart_begins head rfl cmq group idle room goes]
    case started =>
      intro gid bs s1 blocks s2 oper s3 group idle room goes s0 g map whole kept good up input read
        operator run
      rw [bshStart_begins head rfl cmq group idle room goes,
        beginRun_of_input rfl whole kept good up input read operator]
  case create =>
    intro s r e p g turn fits free cmq runs own unserved joined room s1 held
    exact exec_of_unitEffect (row := (.groupCreate, 0x58, groupCreate)) (by simp [UnitRow]) turn
      (groupCreate_of_free rfl fits free cmq runs own unserved joined room) held
  case destroy =>
    intro s r e p g turn small zero exists_ own s1 held
    exact exec_of_unitEffect (row := (.groupDestroy, 0x59, groupDestroy)) (by simp [UnitRow]) turn
      (groupDestroy_of_own rfl rfl small zero exists_ own) held
  case ends =>
    intro gid s r run
    exact ⟨exec_bushelRerun_of_tainted run, exec_bushelComplete_of_settled run,
      exec_bushelStallTimeout_of_quiet run, fun t => exec_bushelPreemptTimeout_of_late run⟩

end Sys2Proof.Machine
end

section
/-! SUPPORT. Carder's commands: the entry at the head of an SQ, the ends of DISPATCH and COMBINE, and
bindings (R272 to R276, R283, R284, R286, R287). -/

namespace Sys2Proof.Machine

/-! The head of an SQ (R275, R276, R284). -/

section
variable {s : State} {r : Nat} {e : RingEntry}

theorem crdHead_of_head {op : Nat} (head : AtHead s r e) (sq : (ring s r).typ = 1)
    (kind : entryOpcode e = op) : crdHead s r op = some e := by
  obtain ⟨first, ready, header⟩ := head
  obtain ⟨rest, taken⟩ := List.head?_eq_some_iff.mp first
  simp [crdHead, taken, kind, sq, ready, header]

theorem exec_dispatch_of_head (head : AtHead s r e) (sq : (ring s r).typ = 1)
    (kind : entryOpcode e = 0x30) :
    exec (.dispatch r) s = .next (xptDone s (dispatchHead s r e)) := by
  rw [exec_dispatch, execDispatch, crdHead_of_head head sq kind]

theorem exec_combine_of_head (head : AtHead s r e) (sq : (ring s r).typ = 1)
    (kind : entryOpcode e = 0x31) :
    exec (.combine r) s = .next (xptDone s (combineHead s r e)) := by
  rw [exec_combine, execCombine, crdHead_of_head head sq kind]

theorem dispatchHead_unbound (unbound : sqBind s r = none) :
    dispatchHead s r e = finishHead s r e 0x04 := by
  rw [dispatchHead, unbound]

theorem combineHead_unbound (unbound : sqBind s r = none) :
    combineHead s r e = finishHead s r e 0x04 := by
  rw [combineHead, unbound]

section
variable {b : CrdBind} (bound : sqBind s r = some b) (installed : crdInstalled s = true)
  (tag : crdTagOk b (crdTagOf e) = true) (room : crdRunning s < 16) (goes : crdHeld s b = false)
include bound installed tag room goes

/-- A DISPATCH of a free tag begins once every receive buffer of its own has left its earlier use
(R276, R288). -/
theorem dispatchHead_begins (good : dispatchBad b e = false)
    (free : (crdTag s (crdTagOf e)).inUse = false)
    (empty : ∀ x ∈ hostedAt b b.rank, bufferHeld s b (crdTagOf e) x = false) :
    dispatchHead s r e = beginDispatch s b e := by
  have buffers : (hostedAt b b.rank).any (bufferHeld s b (crdTagOf e)) = false :=
    List.any_eq_false.mpr fun x hosted => by simp [empty x hosted]
  simp [dispatchHead, -List.any_eq_true, bound, installed, tag, goes, good, free, buffers,
    Nat.not_le.mpr room]

/-- A COMBINE begins where a finished DISPATCH holds its tag (R275, R284). -/
theorem combineHead_begins (held : (crdTag s (crdTagOf e)).inUse = true)
    (alone : (crdTag s (crdTagOf e)).comb = none) (finished : (crdTag s (crdTagOf e)).disp = none)
    (good : combineBad b e ((crdTag s (crdTagOf e)).ntok, (crdTag s (crdTagOf e)).route) = false) :
    combineHead s r e = beginCombine s b e := by
  simp [combineHead, bound, installed, tag, goes, held, alone, finished, good, Nat.not_le.mpr room]

end

end

/-! The ends of a tag's operation (R283, R286, R287). -/

section
variable {s : State} {r t : Nat} {b : CrdBind} {e : RingEntry} (bound : sqBind s r = some b)
  (tag : crdTagOk b t = true)
include bound tag

theorem exec_dispatchComplete_of_settled (runs : (crdTag s t).disp = some e)
    (settled : crdOutstanding s b e = false) :
    exec (.dispatchComplete r t) s = .next (xptDone s (endDispatch s b t e)) := by
  simp [execDispatchComplete, bound, tag, runs, settled]

section
variable (runs : (crdTag s t).comb = some e)
include runs

theorem exec_combineComplete_of_settled (settled : crdOutstanding s b e = false)
    (arrived : missing b (crdTag s t) = []) :
    exec (.combineComplete r t) s = .next (xptDone s (endCombine s b t e)) := by
  simp [execCombineComplete, bound, tag, runs, settled, arrived]

theorem exec_carderStallTimeout_of_missing (awaits : missing b (crdTag s t) ≠ [])
    (late : (crdTag s t).startedAt + b.stall * 1500000 ≤ fdTime s) :
    exec (.carderStallTimeout r t) s = .next (markFailed
      (setTag s t { crdTag s t with timeout := true }) t (missing b (crdTag s t)).contains) := by
  simp [execCarderStallTimeout, bound, tag, runs, awaits, late]

end

end

/-! Bindings (R272 to R274). -/

section
variable {s s1 s2 : State} {p r : Nat} {e : RingEntry}

/-- A binding of readable tables, free queue pairs and writable buffers pins its contexts and joins the
others (R274). -/
theorem carderBind_of_free {x : Ring} {t : CrdTables} {b : CrdBind}
    (named : ring s (entryField e 0x10 2) = x) (read : readTables s p x.ctx e = (t, s1))
    (built : cbBind p x.ctx e (t.xs.getD []) (t.qs.getD []) (t.hs.getD []) = b)
    (whole : t.fail = none) (ranked : t.qs.isSome = true) (good : tablesBad e b t = false)
    (sq : x.typ = 1) (runs : x.state = .run) (own : x.part = p)
    (unbound : sqBind s (entryField e 0x10 2) = none)
    (apart : s.binds.any (tagsOverlap (entryField e 0x16 2) (entryField e 0x18 2)) = false)
    (joined : ∀ k ∈ bindQps b, (qp s k).state = .rts ∧ (qp s k).tc = bits (reg s crdCtl) 8 3 ∧
      3 ≤ (qp s k).version ∧ qpBound s k = false)
    (pins : fkCanPin s (bindQps b) = true) (room : s.binds.length < 16)
    (writable : buffersOk s1 b = (true, s2)) :
    carderBind s p e = (0, { pinAll s2 (bindQps b) with
      binds := (pinAll s2 (bindQps b)).binds ++ [b] }) := by
  have ready : (bindQps b).any (fun k => (qp s k).state != .rts ||
      (qp s k).tc != bits (reg s crdCtl) 8 3 || qpBound s k) = false :=
    List.any_eq_false.mpr fun k member => by
      obtain ⟨rts, tc, -, free⟩ := joined k member
      simp [rts, tc, free]
  have current : (bindQps b).any (fun k => decide ((qp s k).version < 3)) = false :=
    List.any_eq_false.mpr fun k member => by
      obtain ⟨-, -, version, -⟩ := joined k member
      simpa using version
  simp [carderBind, -List.any_eq_true, named, read, built, whole, ranked, good, sq, runs, own, unbound,
    apart, ready, current, pins, writable, Nat.not_le.mpr room]

/-- A partition's own binding, none of whose tags is in use, ends with its contexts let go and its tags
free (R274). -/
theorem carderUnbind_of_idle {n : Nat} {b : CrdBind} (named : entryField e 0x10 2 = n)
    (bound : sqBind s n = some b) (own : b.part = p)
    (idle : ∀ t ∈ bindTags b, (crdTag s t).inUse = false)
    (freed : (bindTags b).foldl (fun s t => setTag s t CrdTag.free) (fkUnpin s (bindQps b)) = s1) :
    carderUnbind s p e = (0, { s1 with binds := s1.binds.filter fun x => x.sq != n }) := by
  have unused : (bindTags b).any (fun t => (crdTag s t).inUse) = false :=
    List.any_eq_false.mpr fun t listed => by simp [idle t listed]
  simp [carderUnbind, -List.any_eq_true, named, bound, own, unused, freed]

section
variable {st : BitVec 8} (turn : AqTurn s r 0x5A e) (good : cbBad e = false)
  (held : (s1.firkin.pinned.drop s.firkin.pinned.length).all (fkCached s) = true)
include turn good held

theorem exec_carderBind_of_effect (binds : cbUnbind e = false)
    (effect : carderBind s (aqPart e) e = (st, s1)) :
    exec (.carderBind r) s = .next (aqEnds s s1 r e st 0) := by
  simpa [good, binds, effect, held, -List.all_eq_true] using exec_bindOrUnbind turn

theorem exec_carderUnbind_of_effect (unbinds : cbUnbind e = true)
    (effect : carderUnbind s (aqPart e) e = (st, s1)) :
    exec (.carderUnbind r) s = .next (aqEnds s s1 r e st 0) := by
  simpa [good, unbinds, effect, held, -List.all_eq_true] using exec_bindOrUnbind turn

end

end

/-- Settles O53: a head entry by its opcode and its SQ's binding, a running one by what ends it, and BIND
and UNBIND by their effects. -/
theorem carderResults : Obligations.carder_results := by
  refine ⟨?heads, ?dispatched, ?combined, ?bind, ?unbind⟩
  case heads =>
    refine fun r s e head sq => ⟨fun kind => ?dispatch, fun kind => ?combine⟩
    case dispatch =>
      rw [exec_dispatch_of_head head sq kind]
      refine ⟨fun unbound => ?_, fun b bound installed good tag free room empty goes => ?_⟩
      · rw [dispatchHead_unbound unbound]
      · rw [dispatchHead_begins bound installed tag room goes good free empty]
    case combine =>
      rw [exec_combine_of_head head sq kind]
      refine ⟨fun unbound => ?_,
        fun b bound installed tag held alone finished room goes good => ?_⟩
      · rw [combineHead_unbound unbound]
      · rw [combineHead_begins bound installed tag room goes held alone finished good]
  case dispatched =>
    exact fun r t s b e bound runs tag => exec_dispatchComplete_of_settled bound tag runs
  case combined =>
    exact fun r t s b e bound runs tag => ⟨exec_combineComplete_of_settled bound tag runs,
      exec_carderStallTimeout_of_missing bound tag runs⟩
  case bind =>
    intro r s e t s1 s2 p x b turn fields binds read whole ranked good sq runs own unbound apart joined
      pins room writable s3 held
    exact exec_carderBind_of_effect turn fields held binds (carderBind_of_free rfl read rfl whole ranked
      good sq runs own unbound apart joined pins room writable)
  case unbind =>
    intro r s e b n turn fields unbinds bound own idle s1 s2 held
    exact exec_carderUnbind_of_effect turn fields held unbinds
      (carderUnbind_of_idle rfl bound own idle rfl)

end Sys2Proof.Machine
end

section
/-! SUPPORT. The version floor: at reset, and along every step (R439). -/

namespace Sys2Proof.Machine

/-- At reset the floor is what the module EEPROM holds, a 16-bit field. -/
theorem floor_reset_lt : State.reset.boot.floor < 2 ^ 16 :=
  Config.eepromFloor.isLt

/-- Settles O4: no byte is listed at reset, and the floor is the EEPROM's 16-bit field. -/
theorem resetHasTheInvariant : Obligations.reset_has_the_invariant :=
  ⟨rfl, floor_reset_lt⟩

/-- Settles O6, from what every step keeps. -/
theorem versionFloorNeverDecreases : Obligations.version_floor_never_decreases :=
  fun _ _ floorLt hs => ⟨(keeps_of_step hs).floorLe, (keeps_of_step hs).floorLt floorLt⟩

end Sys2Proof.Machine
end

section
/-! SUPPORT. Ports: their link, what they send, and their gate lists (R292, R300, R305, R307 to R310,
R316, R317). -/

namespace Sys2Proof.Machine

variable {s : State} {n : Nat}

/-! The link (R292, R316, R317). -/

theorem portModeWrite_stores {v : Word} (hb : bar0 s = true) (hn : n < 8) (hm : bits v 0 4 ≤ 7) :
    exec (.portModeWrite n v) s = .next (portDown (setReg s (portReg n 8)
      (setBits (v &&& BitVec.ofNat 64 (fieldMask 31 16 + fieldMask 9 8)) 0 4 (bits v 0 4))) n 1) := by
  simp [execPortModeWrite, hb, Nat.not_le.mpr hn, Nat.not_lt.mpr hm]

theorem portLinkUp_trains (down : (portOf s n).link = false) (mode : portMode s n ≠ 0)
    (runs : portRuns s = true) (hf : s.err.fatal = false) (hn : n < 8) :
    exec (.portLinkUp n) s = .next (portEvent (modPort s n fun p => { p with
      link := true, actMode := portMode s n, idleSince := portTime s n }) n 0x30 (portMode s n)
        (portTime s n)) := by
  simp [execPortLinkUp, down, mode, runs, hf, hn]

theorem portLinkDown_of_link (up : (portOf s n).link = true) :
    exec (.portLinkDown n) s = .next (portDown s n 0) := by
  simp [execPortLinkDown, up]

theorem portDown_of_link (reason : Nat) (up : (portOf s n).link = true) :
    portDown s n reason = portEvent (portCount (modPort (portDiscard s n) n fun p => { p with
      link := false, actMode := 0, lpiTx := false, lpiRx := false, wakeAt := none }) n 22 1) n 0x31
      reason (portTime s n) := by
  simp [portDown, up]

theorem portDown_of_noLink (reason : Nat) (down : (portOf s n).link = false) :
    portDown s n reason = portDiscard s n := by
  simp [portDown, down]

/-! What is sent (R300, R305, R308). -/

theorem frameTransmit_drops {f : TxFrame} (may : mayTransmit s n = true)
    (unfit : (portOf s n).txq.find? (fun f => fitsNoRun (portOf s n) f) = some f) :
    exec (.frameTransmit n) s = .next (portCount (afterRoom (modPort s n fun p =>
      { p with txq := p.txq.erase f, idleSince := portTime s n }) n) n 19 1) := by
  simp [execFrameTransmit, may, unfit]

theorem frameTransmit_waits {s1 : State} (may : mayTransmit s n = true)
    (fit : (portOf s n).txq.find? (fun f => fitsNoRun (portOf s n) f) = none)
    (chosen : chooseFrame s n = (none, s1)) : exec (.frameTransmit n) s = .next s1 := by
  rw [exec_frameTransmit, execFrameTransmit, if_neg (by simp [may])]
  simp only [fit, chosen]

theorem frameTransmit_starts {f : TxFrame} {s1 : State} (may : mayTransmit s n = true)
    (fit : (portOf s n).txq.find? (fun f => fitsNoRun (portOf s n) f) = none)
    (chosen : chooseFrame s n = (some f, s1)) :
    exec (.frameTransmit n) s = .next (afterRoom (startFrame s1 n f) n) := by
  rw [exec_frameTransmit, execFrameTransmit, if_neg (by simp [may])]
  simp only [fit, chosen]

/-- R305: class 7 goes before the others. -/
theorem chooseFrame_of_seven {f : TxFrame}
    (head : (classHead s n 7).filter (gateAllows (portOf s n) (portTime s n)) = some f) :
    chooseFrame s n = (some f, s) := by
  rw [chooseFrame, head]

theorem rawTransmit_goes (v : Word) (hb : bar0 s = true) (hn : n < 8)
    (idle : (portOf s n).rawGo = false) : exec (.rawTransmit n v) s = .next (goRaw (setReg s
      (txrawReg n) (v &&& BitVec.ofNat 64 (fieldMask 22 20 + fieldMask 17 16 + fieldMask 13 0))) n) := by
  simp [execRawTransmit, hb, hn, idle]

/-! Gate lists (R307, R309, R310). -/

section
variable (v : Word) {s1 : State} (hb : bar0 s = true) (hn : n < 8)
  (idle : (portOf s n).gclSwitch = none)
  (stored : s1 = setReg s (gclCtl n) (v &&& BitVec.ofNat 64 (fieldMask 16 16 + fieldMask 6 0)))
include hb hn idle stored

theorem gclChange_of_invalid (invalid : adminValid s1 n = false) :
    exec (.gclChange n v) s = .next (portEvent (modPort s1 n fun p => { p with gclErr := true })
      n 0x33 0 0) := by
  subst stored
  simp [execGclChange, hb, hn, idle, invalid]

theorem gclChange_at_time (valid : adminValid s1 n = true) (alone : v.getLsbD 16 = false) :
    exec (.gclChange n v) s = .next (modPort s1 n fun p => { p with
      gclErr := false, gclSwitch := some (some (switchTime (portTime s n)
        (reg s (gclBase n)).toNat (bits (reg s (gclCycle n)) 0 21))) }) := by
  subst stored
  simp [-BitVec.getLsbD_eq_getElem, execGclChange, hb, Nat.not_le.mpr hn, idle, valid, alone]

theorem gclChange_at_sync (valid : adminValid s1 n = true) (sync : v.getLsbD 16 = true) :
    exec (.gclChange n v) s = .next (modPort s1 n fun p => { p with
      gclErr := false, gclSwitch := some none, syncArm := true, syncValid := false }) := by
  subst stored
  simp [execGclChange, hb, hn, idle, valid, sync]

end

theorem gclAbort_of_pending (v : Word) {x : Option Nat} (hb : bar0 s = true) (hn : n < 8)
    (waits : (portOf s n).gclSwitch = some x) :
    exec (.gclAbort n v) s = .next (modPort s n fun p => { p with gclSwitch := none }) := by
  simp [execGclAbort, hb, hn, waits]

theorem switchTime_of_ahead {now base : Nat} (cycle : Nat) (ahead : now + 64 ≤ base) :
    switchTime now base cycle = base :=
  if_pos ahead

/-- A base that is too near is put off by the least number of cycles that suffices. -/
theorem switchTime_of_near {now base cycle : Nat} (hc : 0 < cycle) (near : base < now + 64) :
    ∃ k, switchTime now base cycle = base + k * cycle ∧
      now + 64 ≤ base + k * cycle ∧ base + k * cycle < now + 64 + cycle := by
  refine ⟨(now + 64 - base + cycle - 1) / cycle, ?_, ?_⟩
  · rw [switchTime, if_neg (by omega), if_neg (by omega)]
  · have split := Nat.div_add_mod' (now + 64 - base + cycle - 1) cycle
    have rest := Nat.mod_lt (now + 64 - base + cycle - 1) hc
    omega

theorem switchTime_near_bounds {now base cycle : Nat} (hc : 0 < cycle) (near : base < now + 64) :
    now + 64 ≤ switchTime now base cycle ∧ switchTime now base cycle < now + 64 + cycle ∧
      (switchTime now base cycle - base) % cycle = 0 := by
  obtain ⟨k, time, lower, upper⟩ := switchTime_of_near hc near
  rw [time]
  exact ⟨lower, upper, by simp⟩

theorem gclSwitch_of_time {t : Nat} (waits : (portOf s n).gclSwitch = some (some t))
    (due : t ≤ portTime s n) (hp : powered s = true) :
    exec (.gclSwitch n) s = .next (portEvent (modPort s n fun p => { p with
      gclOper := adminList s n, gclCur := 0
      gclEnd := t + ((adminList s n).head?.map GclEntry.interval).getD 0
      gclSwitch := none, gclSwt := t }) n 0x32 t (adminList s n).length) := by
  simp [execGclSwitch, waits, due, hp]

theorem gclEntryAdvance_of_end (inForce : (portOf s n).gclOper ≠ [])
    (due : (portOf s n).gclEnd ≤ portTime s n) (hp : powered s = true) :
    let p := portOf s n
    let i := (p.gclCur + 1) % p.gclOper.length
    exec (.gclEntryAdvance n) s = .next (setPort s n { p with
      gclCur := i, gclEnd := p.gclEnd + (p.gclOper[i]?.map GclEntry.interval).getD 0 }) := by
  simp [execGclEntryAdvance, inForce, due, hp, modPort]

theorem syncArm_arms (hb : bar0 s = true) (hn : n < 8) :
    exec (.syncArm n) s =
      .next (setPort s n { portOf s n with syncArm := true, syncValid := false }) := by
  simp [execSyncArm, hb, hn, modPort]

theorem syncInEdge_captures (runs : portRuns s = true) :
    exec .syncInEdge s = .next ((List.range 8).foldl captureSync s) := by
  simp [execSyncInEdge, runs]

/-- R480: the capture takes two ticks or three, by the free value. -/
theorem captureSync_of_arm (armed : (portOf s n).syncArm = true) :
    ∃ s1 c, captureSync s n = modPort s1 n (fun p => { p with
        syncArm := false, syncValid := true, syncCap := c
        gclSwitch := if p.gclSwitch = some none then
          some (some (c + max 64 (reg s (gclBase n)).toNat)) else p.gclSwitch }) ∧
      s1.ports = s.ports ∧ portTime s n + 2 ≤ c ∧ c ≤ portTime s n + 3 := by
  refine ⟨(takeFree s).2, portTime s n + 2 + (if (takeFree s).1.getLsbD 0 then 1 else 0), ?_, rfl,
    Nat.le_add_right .., ?_⟩
  · simp [captureSync, armed]
  · split <;> omega

/-- Settles O54, from the results of the link, of the transmit side and of the gate lists. -/
theorem portLinkAndTransmitResults : Obligations.port_link_and_transmit_results := by
  refine ⟨⟨?_, ?_, ?_, ?_, fun _ _ => rfl⟩, ⟨?_, ?_, ?_, ?_, ?_, ?_, ?_, ?_, ?_, ?_, ?_, ?_⟩⟩
  · exact fun _ _ _ => portModeWrite_stores
  · exact fun _ _ => portLinkUp_trains
  · exact fun _ _ => portLinkDown_of_link
  · exact fun _ _ reason => ⟨portDown_of_link reason, portDown_of_noLink reason⟩
  · exact fun _ _ may => ⟨fun _ => frameTransmit_drops may, fun fit =>
      ⟨fun _ => frameTransmit_waits may fit, fun _ _ => frameTransmit_starts may fit⟩⟩
  · exact fun _ _ _ => chooseFrame_of_seven
  · exact fun _ v _ => rawTransmit_goes v
  · exact fun _ v _ hb hn idle => ⟨gclChange_of_invalid v hb hn idle rfl,
      gclChange_at_time v hb hn idle rfl, gclChange_at_sync v hb hn idle rfl⟩
  · exact fun _ v _ _ => gclAbort_of_pending v
  · exact fun _ _ => switchTime_of_ahead
  · exact fun _ _ _ => switchTime_near_bounds
  · exact fun _ _ _ => gclSwitch_of_time
  · exact fun _ _ => gclEntryAdvance_of_end
  · exact fun _ _ => syncArm_arms
  · exact fun _ => syncInEdge_captures
  · exact fun _ _ => captureSync_of_arm

end Sys2Proof.Machine
end

section
/-! SUPPORT. Ports: the frames they receive, low-power idle and the LLDP agent (R301, R304, R312 to
R315). -/

namespace Sys2Proof.Machine

variable {s : State} {n : Nat}

/-! Arrival (R301, R304). -/

section
variable {bs : List Byte} {c u y : Nat} {s0 : State} (up : (portOf s n).link = true)
  (hf : s.err.fatal = false) (hn : n < 8)
  (counted : s0 = portCount (portCount (portCount s n 15 c) n 16 u) n 17 y)
include up hf hn counted

/-- A frame with a bad FCS is counted; Bushel sees it where the filters let it pass. -/
theorem frameReceive_of_badFcs : exec (.frameReceive n bs true c u y) s = .next
    (if macAccepts s n (ethView bs) = true ∧ vlanAccepts s n (ethView bs) = true then
      cutThrough (portCount s0 n 4 1) n (ethView bs) else portCount s0 n 4 1) := by
  subst counted
  simp [execFrameReceive, up, hf, Nat.not_le.mpr hn]

theorem frameReceive_of_short (good : u = 0) (short : bs.length < 60) :
    exec (.frameReceive n bs false c u y) s = .next (portCount s0 n 5 1) := by
  subst counted good
  simp [execFrameReceive, up, hf, Nat.not_le.mpr hn, short]

/-- A frame that every check of R301 passes is counted with its FCS and classified. -/
theorem frameReceive_of_good (good : u = 0) (long : 60 ≤ bs.length) (fits : bs.length + 4 ≤ maxFrm s n)
    (room : rxHeld s n + bs.length ≤ 1048576) (mac : macAccepts s n (ethView bs) = true)
    (vlan : vlanAccepts s n (ethView bs) = true) (noPause : (ethView bs).etype ≠ 0x8808) :
    exec (.frameReceive n bs false c u y) s = .next (classify
      (portCount (portCount s0 n 0 1) n 1 (bs.length + 4)) n bs (ethView bs)) := by
  subst counted good
  have min : ¬ bs.length + 4 < 64 := by omega
  simp [execFrameReceive, up, hf, Nat.not_le.mpr hn, min, Nat.not_lt.mpr fits,
    Nat.not_lt.mpr room, mac, vlan, noPause]

end

theorem rxcqEnable_restarts (v : Word) (hb : bar0 s = true) (hn : n < 8) :
    exec (.rxcqEnable n v) s = .next (modPort (setReg s (rxcqReg n)
      (v &&& BitVec.ofNat 64 (fieldMask 32 32 + fieldMask 19 0))) n fun p =>
        { p with delivered := 0, rel := 0 }) := by
  simp [execRxcqEnable, hb, hn]

/-! Low-power idle (R312, R313, R315). -/

theorem lpiEnter_of_idle (up : (portOf s n).link = true) (awake : (portOf s n).lpiTx = false)
    (on : lpiOn s n = true) (empty : (portOf s n).txq = []) (runs : portRuns s = true)
    (hf : s.err.fatal = false)
    (idle : (portOf s n).idleSince + max 1 (bits (reg s (lpiReg n)) 8 8) * 1000 ≤ portTime s n) :
    exec (.lpiEnter n) s = .next (portCount (modPort s n fun p => { p with
      lpiTx := true, idleSince := portTime s n, wakeAt := none }) n 20 1) := by
  simp [execLpiEnter, up, awake, on, empty, runs, hf, idle]

theorem lpiWake_of_frame (asleep : (portOf s n).lpiTx = true) (runs : portRuns s = true)
    (hf : s.err.fatal = false) (queued : (portOf s n).txq ≠ []) :
    exec (.lpiWake n) s = .next (lpiLeave s n) := by
  simp [execLpiWake, asleep, runs, hf, queued]

theorem prewake_of_near (asleep : (portOf s n).lpiTx = true) (runs : portRuns s = true)
    (hf : s.err.fatal = false) (on : (reg s (lpiReg n)).getLsbD 2 = true)
    (listed : (portOf s n).gclOper ≠ [])
    (near : ∃ x ∈ entryStarts (portOf s n), x.2.open7 = true ∧
      x.1 ≤ portTime s n + usTicks (txtwNow s n)) :
    exec (.prewake n) s = .next (lpiLeave s n) := by
  simp [-BitVec.getLsbD_eq_getElem, -Prod.exists, execPrewake, asleep, runs, hf, on, listed, near]

/-! The LLDP agent (R314). -/

theorem lldpduTransmit_of_due {f : TxFrame}
    (frame : f = rawTx s n 0
      (lldpFrame (portMac s n) (txtwNow s n) (rxtwOf s n) 0 (portOf s n).partnerTw))
    (up : (portOf s n).link = true) (agent : (reg s (lpiReg n)).getLsbD 3 = true)
    (serves : inService s = true) (hf : s.err.fatal = false) (due : (portOf s n).lldpDue = true)
    (room : txRoom s n 0 f.size = true) :
    exec (.lldpduTransmit n) s = .next (modPort s n fun p => { p with
      txq := p.txq ++ [f], lldpAt := portTime s n, lldpDue := false }) := by
  subst frame
  simp [-BitVec.getLsbD_eq_getElem, execLldpduTransmit, up, agent, serves, hf, due, room]

theorem lldpTlvExpiry_of_old (known : (portOf s n).neg = true)
    (old : (portOf s n).tlvAt + usTicks 120000000 ≤ portTime s n) :
    exec (.lldpTlvExpiry n) s = .next (setPort s n { portOf s n with neg := false }) := by
  simp [execLldpTlvExpiry, known, old, modPort]

/-- Settles O55, from the results of an arriving frame, of low-power idle and of the LLDP agent. -/
theorem portReceiveResults : Obligations.port_receive_results := by
  refine ⟨?arrival, ?_, ?_, ?_, ?_, ?_⟩
  case arrival =>
    refine fun n bs c u y s up hf hn => ⟨frameReceive_of_badFcs up hf hn rfl,
      frameReceive_of_short up hf hn rfl rfl, fun long fits room mac vlan noPause => ?_⟩
    exact frameReceive_of_good up hf hn rfl rfl long fits room mac vlan noPause
  · exact fun _ v _ => rxcqEnable_restarts v
  · exact fun _ _ => lpiEnter_of_idle
  · exact fun _ _ asleep runs hf =>
      ⟨lpiWake_of_frame asleep runs hf, prewake_of_near asleep runs hf⟩
  · exact fun _ _ => lldpduTransmit_of_due rfl
  · exact fun _ _ => lldpTlvExpiry_of_old

end Sys2Proof.Machine
end

section
/-! SUPPORT. Faults: how they are resolved, time out and take their ids, and the rate interval of
FAULT_POSTED (R352 to R355). -/

namespace Sys2Proof.Machine

variable {s : State} {p : Nat}

/-! FQ_RESOLVE (R354). -/

/-- A resolved fault leaves the table with all that joined it, and its agents hear of it. -/
theorem resolveFault_of_listed {fid : Nat} {f : FaultRec} (fail : Bool)
    (listed : (faultTable s p).faults.find? (fun f => f.fid == some fid) = some f) :
    let t := faultTable s p
    let s1 := setFaults s p { t with faults := t.faults.filter fun g => !sameFault f g }
    resolveFault p fid fail s =
      xptDone s (assignFault (resolveFaults s1 (t.faults.filter (sameFault f)) fail) p) := by
  simp only [resolveFault, listed]

section
variable {t : Nat} (resident : t < 2 ^ 24)
include resident

theorem agentThread_of_resident : agentThread s t = thread s t :=
  if_pos resident

theorem modAgent_of_resident (f : Thread → Thread) : modAgent s t f = modThread s t f :=
  if_pos resident

variable (f : FaultRec) (parked : (thread s t).state = .parked)
include parked

theorem resolveAgent_retry_thread : resolveAgent f false s (.thread t) =
    setThread s t { thread s t with state := .ready } := by
  simp [resolveAgent, agentThread_of_resident resident, modAgent_of_resident resident, modThread,
    parked]

theorem resolveAgent_fail_thread : resolveAgent f true s (.thread t) =
    takeException s t (thread s t).pc ((imageWord s t (thread s t).pc).getD 0) 0 .context 0x05 := by
  rw [resolveAgent, agentThread_of_resident resident, if_neg (not_not.mpr parked), if_neg (by simp),
    if_pos resident, excStatus]

end

/-! Timeouts and ids (R352, R353, R355). -/

/-- The only fault of a table ends alone, and nothing takes over its id. -/
theorem faultTimeout_of_only {f : FaultRec} (only : (faultTable s p).faults = [f])
    (first : f.joined = false) (thawed : (partition s p).state ≠ .frozen)
    (due : f.time + faultTmo s p ≤ fdTime s) :
    exec (.faultTimeout p) s = .next (xptDone s (assignFault (resolveFaults
      (post (setFaults s p { faultTable s p with faults := [] }) (eqOf 0) 0x51 (fqOf p)
        (BitVec.ofNat 64 (f.fid.getD 4096 + 2 ^ 32 * p)) (BitVec.ofNat 64 f.waiters.length))
      [f] true) p)) := by
  simp [execFaultTimeout, only, first, thawed, due, passFault]

theorem faultIdAssign_of_free {f : FaultRec} {fid : Nat} {s1 : State}
    (waits : (faultTable s p).faults.find? (fun f => f.fid.isNone && !f.joined) = some f)
    (thawed : (partition s p).state ≠ .frozen) (ready : fqReady s p = (true, s1))
    (lowest : lowestFid (faultTable s p) 0 4096 = some fid) :
    let f1 := { f with fid := some fid }
    let t1 := faultTable s1 p
    exec (.faultIdAssign p) s = .next (writeFq (setFaults s1 p
      { t1 with faults := t1.faults.map fun x => if x = f then f1 else x }) p fid f1) := by
  rw [exec_faultIdAssign, execFaultIdAssign, assignFault]
  simp only [waits, thawed, if_false, lowest, ready]

theorem faultPostedHoldoffEnd_of_none {s : State} (runs : (faultTable s p).holdoff = true)
    (none : (faultTable s p).withheld = false) (due : (faultTable s p).since + 15000 ≤ fdTime s) :
    exec (.faultPostedHoldoffEnd p) s = .next (setFaults s p
      { faultTable s p with holdoff := false, withheld := false, since := 0 }) := by
  simp [execFaultPostedHoldoffEnd, runs, none, due]

/-- Settles O37, from FQ_RESOLVE's effect on the table and on a thread, and from what the timers do. -/
theorem faultResults : Obligations.fault_results := by
  refine ⟨⟨?resolve, ?_, ?_⟩, ?_, ?_⟩
  case resolve =>
    intro p fid s f hb listed
    constructor
    · rw [exec_fqRetry, execFqRetry, if_pos hb, resolveFault_of_listed false listed]
    · rw [exec_fqFail, execFqFail, if_pos hb, resolveFault_of_listed true listed]
  · exact fun f _ _ resident parked =>
      ⟨resolveAgent_retry_thread resident f parked, resolveAgent_fail_thread resident f parked⟩
  · exact fun _ _ _ => faultTimeout_of_only
  · exact fun _ _ _ _ _ => faultIdAssign_of_free
  · exact fun _ _ => faultPostedHoldoffEnd_of_none

end Sys2Proof.Machine
end

section
/-! SUPPORT. The host link, PERST_N and RESUME, and the pulses of DRDY (R336, R359 to R363). -/

namespace Sys2Proof.Machine

variable {s : State}

/-! The host link (R336, R361). -/

theorem cxlLinkUp_trains {proto width : Nat} (down : s.linkUp = false) (high : s.host.perst = false)
    (hp : powered s = true) (p1 : 1 ≤ proto) (p3 : proto ≤ 3) (w2 : 2 ≤ width) (w4 : width ≤ 4) :
    exec (.cxlLinkUp proto width) s = .next (drdyDone { s with
      linkUp := true
      host := { s.host with
        proto := proto, width := width, speed := if proto = 1 then 64 else 32, timedOut := false
        downAt := s.host.downAt.map fun t => fdTime s - t } } .perst) := by
  have p0 : proto ≠ 0 := by omega
  simp [execCxlLinkUp, down, high, hp, p0, Nat.not_lt.mpr p3, Nat.not_lt.mpr w2, Nat.not_lt.mpr w4]

theorem cxlLinkDown_counts (up : s.linkUp = true) :
    exec .cxlLinkDown s = .next (bump { s with
      linkUp := false
      host := { s.host with downAt := some (fdTime s), timedOut := false, lost := 0 } }
        0x0008000 32 16 1) := by
  simp [execCxlLinkDown, up]

theorem hostPathRestored_told {d : Nat} (was : s.host.downAt = some d) (up : s.linkUp = true)
    (hf : s.err.fatal = false) :
    exec .hostPathRestored s = .next (post { s with host := { s.host with downAt := none } } (eqOf 0)
      0x52 0 (BitVec.ofNat 64 s.host.lost) (BitVec.ofNat 64 (d / 1500))) := by
  simp [execHostPathRestored, was, up, hf]

theorem linkDownTimeout_of_due {t : Nat} (since : s.host.downAt = some t) (down : s.linkUp = false)
    (high : s.host.perst = false) (first : s.host.timedOut = false) (hf : s.err.fatal = false)
    (hp : powered s = true) (due : t + max 1 (bits (reg s haPolicy) 16 16) * 1500000 ≤ fdTime s) :
    exec .linkDownTimeout s =
      .next (losePathSteps { s with host := { s.host with timedOut := true } } 3) := by
  simp [execLinkDownTimeout, since, down, high, first, hf, hp, Nat.not_lt.mpr due]

/-! PERST_N and RESUME (R359, R360). -/

theorem perstAssert_in_fatal (high : s.host.perst = false) (hp : powered s = true)
    (down : s.linkUp = false) (hf : s.err.fatal = true) :
    exec .perstAssert s = .next (drdyBusy { s with
      linkUp := false
      host := { s.host with perst := true, proto := 0, width := 0, speed := 0, downAt := none
                            timedOut := true } } .perst) := by
  simp [execPerstAssert, high, hp, down, hf]

theorem perstAssert_of_link (high : s.host.perst = false) (hp : powered s = true)
    (up : s.linkUp = true) (hf : s.err.fatal = false) :
    let s1 := bump s 0x0008000 32 16 1
    exec .perstAssert s = .next ((List.range 65).foldl
      (fun s n => setReg s (if n = 0 then haB2 else regKey n 8) 0)
      (losePathSteps (drdyBusy { s1 with
        linkUp := false
        host := { s1.host with perst := true, proto := 0, width := 0, speed := 0, downAt := none
                               timedOut := true, lost := 0 } } .perst) 1)) := by
  rw [exec_perstAssert, execPerstAssert, if_neg (by simp [high, hp])]
  simp only [up, hf, if_true, Bool.false_eq_true, if_false]

theorem perstDeassert_resets (low : s.host.perst = true) (hp : powered s = true) :
    exec .perstDeassert s = .next { s with host := { s.host with perst := false, vfs := 0 } } := by
  simp [execPerstDeassert, low, hp]

/-- Steps that find nothing to do change nothing. -/
theorem foldl_of_idle {α : Type} {f : State → α → State} {l : List α}
    (idle : ∀ x ∈ l, f s x = s) : l.foldl f s = s := by
  induction l with
  | nil => rfl
  | cons x l ih =>
    rw [List.foldl_cons, idle x List.mem_cons_self]
    exact ih fun y listed => idle y (List.mem_cons_of_mem x listed)

/-- RESUME of a device with no quiesced partition only stores the policy. -/
theorem policyResume_of_none {v : Word} {s1 : State}
    (stored : s1 = setReg s haPolicy (v &&& BitVec.ofNat 64 (fieldMask 31 16 + 1)))
    (hb : bar0 s = true) (none : ∀ p, p ≤ 64 → (partition s p).quiesced = false) :
    exec (.policyResume v) s = .next s1 := by
  have still : ∀ p ≤ 64, (partition s1 p).quiesced = false := stored ▸ none
  rw [exec_policyResume, execPolicyResume, if_neg (by simp [hb]), ← stored, foldl_of_idle]
  intro p listed
  simp [still p (Nat.lt_succ_iff.mp (List.mem_range.mp listed))]

/-! DRDY (R362, R363). -/

theorem attentionPulseEnd_of_due (pulse : s.drdy.state = .pulse) (due : s.drdy.since + 90 ≤ glTime s) :
    exec .attentionPulseEnd s =
      .next { s with drdy := { s.drdy with state := .holdoff, since := glTime s } } := by
  simp [execAttentionPulseEnd, pulse, due]

theorem attentionPulseEnd_of_noPulse (idle : s.drdy.state ≠ .pulse) :
    exec .attentionPulseEnd s = .next s := by
  simp [execAttentionPulseEnd, idle]

theorem attentionHoldoffEnd_of_due (holds : s.drdy.state = .holdoff)
    (due : s.drdy.since + 2400 ≤ glTime s) :
    exec .attentionHoldoffEnd s = .next { s with drdy := { s.drdy with
      state := if s.drdy.pending then .pulse else .ready, since := glTime s, pending := false } } := by
  simp [execAttentionHoldoffEnd, holds, due]

theorem drdyBusyMinimumEnd_of_free (busy : s.drdy.state = .busy) (free : s.drdy.causes = [])
    (due : s.drdy.since + 5000 ≤ glTime s) :
    exec .drdyBusyMinimumEnd s = .next { s with drdy := { s.drdy with
      state := if s.drdy.pending then .after else .ready, since := glTime s } } := by
  simp [execDrdyBusyMinimumEnd, busyLong, drdyRelease, busy, free, due]

theorem postBusyAttention_of_due (after : s.drdy.state = .after)
    (due : s.drdy.since + 500 ≤ glTime s) :
    exec .postBusyAttention s = .next { s with drdy := { s.drdy with
      state := .pulse, since := glTime s, pending := false } } := by
  simp [execPostBusyAttention, after, due]

theorem attention_of_ready (ready : s.drdy.state = .ready) :
    (attention s).drdy.state = .pulse ∧ (attention s).drdy.since = glTime s := by
  simp [attention, ready]

/-- Settles O56, from the results of the link, of PERST_N and RESUME, and of DRDY's timers. -/
theorem hostLinkAndAttentionResults : Obligations.host_link_and_attention_results := by
  refine ⟨⟨?_, ?_, ?_, ?_, ?_, ?_, ?_, ?_⟩, ⟨?_, ?_, ?_, ?_, ?_, ?_⟩⟩
  · exact fun _ _ _ => cxlLinkUp_trains
  · exact fun _ => cxlLinkDown_counts
  · exact fun _ _ => hostPathRestored_told
  · exact fun _ _ => linkDownTimeout_of_due
  · exact fun _ => perstAssert_in_fatal
  · exact fun _ => perstAssert_of_link
  · exact fun _ => perstDeassert_resets
  · exact fun _ _ => policyResume_of_none rfl
  · exact fun _ => attentionPulseEnd_of_due
  · exact fun _ => attentionHoldoffEnd_of_due
  · exact fun _ => drdyBusyMinimumEnd_of_free
  · exact fun _ => postBusyAttention_of_due
  · exact fun _ => attentionPulseEnd_of_noPulse
  · exact fun _ => attention_of_ready

end Sys2Proof.Machine
end

section
/-! SUPPORT. Partitions: their resizing, resets, freezing, saving and restoring (R369, R371, R379, R381 to
R383, R387). -/

namespace Sys2Proof.Machine

variable {s : State} {p r : Nat} {e : RingEntry}

/-! PART_RESIZE and PART_RESET (R371, R379). -/

/-- A PART_RESIZE that waits for no core acts in its own row, with no core on its way out. -/
theorem partResize_applies {s1 : State} (moved : s1 = modSched s fun z => { z with moving := [] })
    (none : resizeWaits s r = []) (turn : AqTurn s1 r 0x60 e) (good : resizeStatus s1 e = 0) :
    exec (.partResize r) s = .next (aqEnds s1 (resizeApply s1 (aqPart e) e) r e 0 0) := by
  have runs : exec (.partResize r) s = .next (adminCommand 0x60 r partResize s1) := by
    subst moved
    rw [exec_partResize, execPartResize, none]
    exact congrArg Host.Outcome.next (if_pos rfl)
  exact exec_of_answer runs turn (by simp [partResize, good])

theorem resizeApply_rings (res : rzRes e = 3) :
    resizeApply s p e = modPart s p fun x => { x with ringQ := rzValue e } := by
  simp [resizeApply, res]

theorem resizeApply_energy (res : rzRes e = 7) :
    resizeApply s p e = modPart s p fun x => { x with nextEnergy := rzValue e } := by
  simp [resizeApply, res]

theorem partReset_of_run (turn : AqTurn s r 0x61 e) (zero : zeroField e 0x10 48 = true)
    (p1 : 1 ≤ aqPart e) (p64 : aqPart e ≤ 64) (run : (partition s (aqPart e)).state = .run)
    (primary : standbyBusy s (aqPart e) = false) :
    exec (.partReset r) s = .next (aqEnds s (resetPartition s (aqPart e) .run) r e 0 0) :=
  exec_of_answer (exec_partReset r s) turn (by
    simp [partReset, zero, Nat.ne_of_gt p1, Nat.not_lt.mpr p64, run, primary])

theorem functionLevelReset_of_run {n : Nat} (n1 : 1 ≤ n) (n64 : n ≤ 64)
    (run : (partition s n).state = .run) (hp : powered s = true) (hf : s.err.fatal = false) :
    exec (.functionLevelReset n) s = .next (resetPartition s n .run) := by
  simp [execFunctionLevelReset, Nat.ne_of_gt n1, Nat.not_lt.mpr n64, run, hp, hf]

/-! VF Enable (R369). -/

theorem partition_modPart_ne (f : Partition → Partition) {q : Nat} (other : q ≠ p) :
    partition (modPart s p f) q = partition s q :=
  tget_tset_ne _ _ _ _ _ other

theorem partition_modPart_same {f : Partition → Partition} (live : f (partition s p) ≠ Partition.idle) :
    partition (modPart s p f) p = f (partition s p) :=
  tget_tset_same _ _ _ _ live

/-- A partition that runs. -/
def runPart (x : Partition) : Partition := { x with state := .run }

theorem runPart_ne_idle (x : Partition) : runPart x ≠ Partition.idle := fun same =>
  PartState.noConfusion (congrArg Partition.state same)

/-- Setting the number of VFs changes no partition. -/
theorem partition_setVfs (n q : Nat) :
    partition { s with host := { s.host with vfs := n } } q = partition s q := rfl

/-- Enabling one VF where none is enabled puts that one in RUN and leaves the others IDLE. -/
theorem vfEnable_first {s1 : State} (ran : s1 = modPart s 1 runPart) (hp : powered s = true)
    (hf : s.err.fatal = false) (idle : ∀ p, 1 ≤ p → p ≤ 64 → (partition s p).state = .idle) :
    exec (.vfEnable 1) s = .next { s1 with host := { s1.host with vfs := 1 } } := by
  have split : (List.range 64).map (· + 1) = 1 :: (List.range 63).map (· + 2) := by decide
  rw [exec_vfEnable, execVfEnable, if_neg (by simp [hp, hf]), split, List.foldl_cons,
    if_pos (le_refl 1), if_pos (idle 1 (by omega) (by omega))]
  dsimp only
  rw [show (modPart s 1 fun x => { x with state := .run }) = s1 from ran.symm, foldl_of_idle]
  intro p listed
  obtain ⟨i, small, rfl⟩ := List.mem_map.mp listed
  have bound := List.mem_range.mp small
  have still : (partition s1 (i + 2)).state = .idle := by
    rw [ran, partition_modPart_ne _ (by omega), idle _ (by omega) (by omega)]
  rw [if_neg (by omega), if_pos still]

/-! PART_FREEZE (R381, R382). -/

theorem partFreeze_freezes (turn : AqTurn s r 0x62 e) (op : entryByte e 0x10 = 0)
    (zero : zeroField e 0x11 47 = true) (p1 : 1 ≤ aqPart e) (p64 : aqPart e ≤ 64)
    (run : (partition s (aqPart e)).state = .run) (pre : preEnabled s = true)
    (alone : mirrored s (aqPart e) = false) (ready : freezeWaits s e = false) :
    exec (.partFreeze r) s = .next (aqEnds s (freezePartition s (aqPart e)) r e 0 0) := by
  have runs : exec (.partFreeze r) s = .next (adminCommand 0x62 r partFreeze s) := by
    simp [execPartFreeze, turn.1, op, ready]
  have taken : freezeRefused s (aqPart e) = false := by
    simp [freezeRefused, run, pre, alone]
  exact exec_of_answer runs turn (by
    simp [partFreeze, op, zero, Nat.ne_of_gt p1, Nat.not_lt.mpr p64, taken])

/-- Only an entry of FREEZE waits for answers. -/
theorem entryByte_of_freezeWaits (waits : freezeWaits s e = true) : entryByte e 0x10 = 0 := by
  simp only [freezeWaits, Bool.and_eq_true, beq_iff_eq] at waits
  tauto

theorem partFreeze_begins (turn : AqTurn s r 0x62 e) (waits : freezeWaits s e = true) :
    exec (.partFreeze r) s = .next (beginFreeze s (aqPart e)) := by
  obtain ⟨started, serves⟩ := turn
  simp [execPartFreeze, started, serves, entryByte_of_freezeWaits waits, waits]

theorem partThaw_thaws (turn : AqTurn s r 0x62 e) (op : entryByte e 0x10 = 1)
    (zero : zeroField e 0x11 47 = true) (p1 : 1 ≤ aqPart e) (p64 : aqPart e ≤ 64)
    (frozen : (partition s (aqPart e)).state = .frozen) :
    exec (.partThaw r) s = .next (aqEnds s (thawPartition s (aqPart e)) r e 0 0) := by
  have runs : exec (.partThaw r) s = .next (adminCommand 0x62 r partFreeze s) := by
    simp [execPartThaw, turn.1, op]
  exact exec_of_answer runs turn (by
    simp [partFreeze, op, zero, Nat.ne_of_gt p1, Nat.not_lt.mpr p64, frozen])

/-! PART_SAVE and PART_RESTORE (R383, R387). -/

theorem partSave_writes (turn : AqTurn s r 0x63 e) (zero : zeroField e 0x20 32 = true)
    (frozen : (partition s (aqPart e)).state = .frozen)
    (fits : (saveImage s (aqPart e)).length ≤ entryField e 0x18 8)
    (range : imageRangeOk s (entryField e 0x10 8) (saveImage s (aqPart e)).length = true) :
    exec (.partSave r) s =
      .next (aqEnds s (writeMem s (entryField e 0x10 8) (saveImage s (aqPart e))) r e 0
        (BitVec.ofNat 64 (saveImage s (aqPart e)).length)) := by
  have effect : partSave s r e =
      { wait := false, st := 0, d0 := BitVec.ofNat 64 (saveImage s (aqPart e)).length
        state := writeMem s (entryField e 0x10 8) (saveImage s (aqPart e)) } := by
    simp [partSave, zero, frozen, fits, range]
  rw [(exec_of_effect (exec_partSave r s) turn).1 (congrArg AdminAnswer.wait effect), effect]

theorem partRestore_restores {bs : List Byte} {s1 : State} {d : ImgData} {m : ImgMap}
    (map : m = { p := aqPart e, rbase := d.rbase
                 sdelta := (BitVec.ofNat 32 (entryField e 0x20 4)).toInt })
    (turn : AqTurn s r 0x64 e) (zero : zeroField e 0x24 28 = true) (p64 : aqPart e ≤ 64)
    (long : 256 ≤ entryField e 0x18 8)
    (range : imageRangeOk s (entryField e 0x10 8) (entryField e 0x18 8) = true)
    (read : readMem s (entryField e 0x10 8) (entryField e 0x18 8) = (false, bs, s1))
    (good : imgData bs = some d) (bounds : restoreBounds s1 m d = false)
    (quota : restoreQuota s1 m d = false) :
    exec (.partRestore r) s = .next (aqEnds s (restoreAll s1 m d) r e 0 0) := by
  subst map
  refine exec_of_answer (exec_partRestore r s) turn ?_
  rw [partRestore, if_neg (by simp [zero, Nat.not_lt.mpr p64, Nat.not_lt.mpr long, range])]
  simp only [read, Bool.false_eq_true, if_false, Option.bind_some, good, bounds, quota]

/-! The reset of PF0 (R379). -/

theorem pf0Flr_resets (hp : powered s = true) (hf : s.err.fatal = false) :
    exec .pf0Flr s = .next (flrUnits (flrPorts (flrParts s))) := by
  simp [execPf0Flr, hp, hf]

/-- Settles O46, command by command: each AQ command answers what its effect answers in that state. -/
theorem partitionEffects : Obligations.partition_effects := by
  refine ⟨?_, ?_, ?_, ?_, ?_, ?vfEnable, ?_, ?_, ?_, ?_, ?_, ?_, fun _ => ⟨rfl, rfl, rfl, rfl, rfl⟩⟩
  · exact fun _ _ _ => partResize_applies rfl
  · exact fun _ _ _ => resizeApply_rings
  · exact fun _ _ _ => resizeApply_energy
  · exact fun _ _ _ => partReset_of_run
  · exact fun _ _ => functionLevelReset_of_run
  case vfEnable =>
    refine fun s hp hf idle => ⟨_, vfEnable_first rfl hp hf idle, ?_, rfl, fun p other => ?_, rfl, rfl⟩
    · rw [partition_setVfs, partition_modPart_same (runPart_ne_idle _), runPart]
    · rw [partition_setVfs, partition_modPart_ne _ other]
  · exact fun _ _ _ => partFreeze_freezes
  · exact fun _ _ _ => partFreeze_begins
  · exact fun _ _ _ => partThaw_thaws
  · exact fun _ _ _ => partSave_writes
  · exact fun _ _ _ _ _ _ => partRestore_restores rfl
  · exact fun _ => pf0Flr_resets

end Sys2Proof.Machine
end

section
/-! SUPPORT. The energy ledger: the boundary of its window, pacing and the calibration factor (R390 to
R393, R398, R402). -/

namespace Sys2Proof.Machine

variable {s : State} {n : Nat}

/-! The window boundary (R390). -/

theorem ledgerWindowBoundary_of_passed {s1 : State}
    (closed : s1 = applyTrim (applyBudgets (closeWindow s)))
    (passed : s.sched.windowStart + 150000 ≤ fdTime s) :
    exec .ledgerWindowBoundary s = .next (enterWanted (preemptStarved (countSkipped (openWindow
      (admitAll s1 (candidates s1).length))))) := by
  subst closed
  simp [execLedgerWindowBoundary, windowOver, windowCycles, passed]

theorem ledgerWindowBoundary_of_running (runs : fdTime s < s.sched.windowStart + 150000) :
    exec .ledgerWindowBoundary s = .next s := by
  simp [execLedgerWindowBoundary, windowOver, windowCycles, Nat.not_le.mpr runs]

theorem enterWanted_of_other (other : s.sched.target ≠ some .standby) : enterWanted s = s :=
  if_neg other

/-- R393: what is charged to the module only lies within the fixed reserve. -/
theorem closeWindow_module (s : State) : ∃ x ≤ 7150, (closeWindow s).sched.moduleLast =
    sumList ([0, 1, 2, 3, 4].map fun d => grainsUp (tget 0 s.sched.dieCharge d) + idleOf s d) + x :=
  ⟨(takeFree s).1.toNat % (fixedReserve + 1), Nat.lt_succ_iff.mp (Nat.mod_lt _ (Nat.succ_pos _)), rfl⟩

theorem applyBudgets_die {d : Nat} (hd : d < 5) :
    tget 0 (applyBudgets s).sched.budget d = bits (reg s (pwrDie d)) 0 15 := by
  have listed : d = 0 ∨ d = 1 ∨ d = 2 ∨ d = 3 ∨ d = 4 := by omega
  obtain rfl | rfl | rfl | rfl | rfl := listed <;> rfl

/-- A partition whose new energy budget applies. -/
def nextBudget (x : Partition) : Partition := { x with energy := x.nextEnergy }

/-- R390: every partition's next energy budget applies; that of an IDLE one is its old one. -/
theorem partition_applyBudgets (s : State) (p : Nat) :
    partition (applyBudgets s) p = nextBudget (partition s p) :=
  tget_map_snd Partition.idle nextBudget rfl s.parts p

/-! Pacing (R398). -/

theorem gridPace_of_grid (runs : (grid s n).state = .running) (free : (grid s n).paced = false)
    (placed : (grid s n).shares ≠ [])
    (spent : gridReserve (grid s n) * unitsPerGrain ≤ (grid s n).charge) :
    exec (.gridPace false n) s = .next (bump (paceGrid s n) pwrStat 48 16 1) := by
  simp [execGridPace, paceOne, gridSpent, runs, free, placed, spent]

theorem gridPace_of_partition (spent : (partition s n).energy * unitsPerGrain ≤ partSpent s n)
    (free : s.sched.partPaced.contains n = false) :
    exec (.gridPace true n) s = .next (bump
      (((s.grids.filter fun e => e.2.part == n && e.2.state == .running).map Prod.fst).foldl paceGrid
        (modSched s fun z => { z with partPaced := n :: z.partPaced })) pwrStat 48 16 1) := by
  have due : partOverspent s n ∧ !s.sched.partPaced.contains n :=
    ⟨decide_eq_true spent, by rw [free]; rfl⟩
  rw [exec_gridPace, execGridPace, if_pos rfl, pacePart, if_pos due]

/-! The calibration factor (R391, R392). -/

theorem calFactorUpdate_of_due (due : s.sched.calNext ≤ fdTime s) :
    ∃ f, 96 ≤ f ∧ f ≤ 160 ∧ exec .calFactorUpdate s =
      .next (modSched (takeFree s).2 fun z => { z with calF := f, calNext := fdTime s + 1500000000 }) := by
  have small := Nat.mod_lt (takeFree s).1.toNat (show 65 > 0 by decide)
  refine ⟨96 + (takeFree s).1.toNat % 65, Nat.le_add_right .., by omega, ?_⟩
  simp [execCalFactorUpdate, secondCycles, Nat.not_lt.mpr due]

theorem calFactorUpdate_of_early (early : fdTime s < s.sched.calNext) :
    exec .calFactorUpdate s = .next s := by
  simp [execCalFactorUpdate, early]

/-- Settles O41, from the results of the boundary, of pacing and of the calibration factor. -/
theorem ledgerResults : Obligations.ledger_results := by
  refine ⟨⟨?_, ?_, ?_, ?_, ?_⟩, ⟨?_, ?_, ?_, ?_⟩⟩
  · exact fun _ => ledgerWindowBoundary_of_passed rfl
  · exact fun _ => ledgerWindowBoundary_of_running
  · exact fun _ => enterWanted_of_other
  · exact fun s => ⟨rfl, rfl, rfl, rfl, closeWindow_module s, rfl⟩
  · exact fun s => ⟨rfl, fun _ => applyBudgets_die,
      fun p _ _ => congrArg Partition.energy (partition_applyBudgets s p)⟩
  · exact fun _ _ => gridPace_of_grid
  · exact fun _ _ => gridPace_of_partition
  · exact fun _ => calFactorUpdate_of_due
  · exact fun _ => calFactorUpdate_of_early

end Sys2Proof.Machine
end

section
/-! SUPPORT. Power: requests, Standby, Doze, and the module's supplies and reference clock (R401 to R403,
R442, R460, R467, R468, R479). -/

namespace Sys2Proof.Machine

variable {s : State}

/-! Requests (R402). -/

theorem requestPower_of_still {s : State} (x : PowerState) (still : s.sched.target = none) :
    requestPower s x = beginPower s x := by
  simp [requestPower, still]

theorem requestPower_of_moving {s : State} {y : PowerState} (x : PowerState)
    (moving : s.sched.target = some y) :
    requestPower s x = modSched s fun z => { z with wanted := some x } := by
  simp [requestPower, moving]

theorem writeReq_of_running (code : Nat) (x : PowerState) (hf : s.err.fatal = false) :
    writeReq s code x = requestPower (setReg s pwrState (BitVec.ofNat 64 code)) x := by
  simp [writeReq, hf]

section
variable (hp : powered s = true) (hf : s.err.fatal = false)
include hp hf

theorem reqFull_requests : exec .reqFull s = .next (requestPower (setReg s pwrState 0) .full) := by
  rw [exec_reqFull, execReqFull, if_pos hp, writeReq_of_running 0 .full hf]
  rfl

theorem reqTrim_requests : exec .reqTrim s = .next (requestPower (setReg s pwrState 1) .trim) := by
  rw [exec_reqTrim, execReqTrim, if_pos hp, writeReq_of_running 1 .trim hf]
  rfl

theorem reqDoze_requests : exec .reqDoze s = .next (requestPower (setReg s pwrState 2) .doze) := by
  rw [exec_reqDoze, execReqDoze, if_pos hp, writeReq_of_running 2 .doze hf]
  rfl

theorem reqStandby_of_moving {x : PowerState} (moving : s.sched.target = some x) :
    exec .reqStandby s =
      .next (modSched (setReg s pwrState 3) fun z => { z with wanted := some .standby }) := by
  rw [exec_reqStandby, execReqStandby, if_neg (by simp [hp]), if_pos (by simp [moving, hf]),
    requestPower_of_moving .standby (s := setReg s pwrState 3) moving]

end

theorem beginPower_full_of_trim (s : State) (now : s.sched.power = .trim) :
    beginPower s .full = modSched s fun z => { z with target := some .full } := by
  simp [beginPower, now]

theorem beginPower_full_of_doze (s : State) (now : s.sched.power = .doze) :
    beginPower s .full = modSched s fun z => { z with target := some .full } := by
  simp [beginPower, now]

theorem beginPower_full_of_full (s : State) (now : s.sched.power = .full) : beginPower s .full = s := by
  simp [beginPower, now]

theorem beginPower_trim_of_full (s : State) (now : s.sched.power = .full) :
    beginPower s .trim = modSched s fun z => { z with target := some .trim } := by
  simp [beginPower, now]

theorem beginPower_doze (s : State) (now : s.sched.power = .full ∨ s.sched.power = .trim) :
    beginPower s .doze = enterDoze s := by
  obtain now | now := now <;> simp [beginPower, now]

/-! Standby (R403, R460). -/

theorem reqStandby_enters (hp : powered s = true) (h : s.sched.target = none ∨ s.err.fatal = true) :
    exec .reqStandby s = .next (enterStandby (setReg s pwrState 3)) := by
  have now : ¬ (s.sched.target.isSome ∧ !s.err.fatal) := by
    obtain still | fatal := h
    · simp [still]
    · simp [fatal]
  rw [exec_reqStandby, execReqStandby, if_neg (by simp [hp]), if_neg now]

theorem enterStandby_mem {x : Nat × Byte} (listed : x ∈ (enterStandby s).mem) :
    regionOf x.1 = .lpddr ∨ regionOf x.1 = .hostMem := by
  have kept := (List.mem_filter.mp listed).2
  simpa using kept

theorem enterStandby_regs {x : Nat × Word} (listed : x ∈ (enterStandby s).regs) :
    keepsStandby x.1 = true :=
  (List.mem_filter.mp listed).2

/-! Doze (R401, R402). -/

theorem dozeGate_gates (entry : s.sched.target = some .doze) (empty : computeGroups s = false)
    (hf : s.err.fatal = false) (hp : powered s = true) :
    exec .dozeGate s =
      .next (enterWanted (arrivePower (modSched s fun z => { z with gated := true }) .doze)) := by
  simp [execDozeGate, entry, empty, hf, hp]

theorem dozeExitComplete_arrives (doze : s.sched.power = .doze) (exit : s.sched.target = some .full)
    (hf : s.err.fatal = false) :
    exec .dozeExitComplete s = .next (enterWanted (arrivePower (s.sched.dozePre.foldl resumeDozed
      (modSched (zeroLocal s) fun z => { z with
        gated := false, selfRefresh := false, dozePre := [] })) .full)) := by
  simp [execDozeExitComplete, doze, exit, hf]

/-- An entry that is not kept reads the default. -/
theorem tget_filter_of_dropped {α : Type} (d : α) {f : Nat × α → Bool} {k : Nat}
    (dropped : ∀ v, f (k, v) = false) (m : Table α) : tget d (m.filter f) k = d := by
  induction m with
  | nil => rfl
  | cons x m ih =>
    obtain ⟨q, v⟩ := x
    by_cases here : k = q
    · subst here
      rw [List.filter_cons, dropped v]
      exact ih
    · rw [List.filter_cons]
      split
      · simpa [tget, here] using ih
      · exact ih

/-- R401: every byte of a local store of the compute dies reads zero. -/
theorem memByte_zeroLocal {pa : Nat} (low : localPa 0 0 ≤ pa) (high : pa < localPa 16384 0) :
    memByte (zeroLocal s) pa = 0 := by
  have inside : localPa 0 0 ≤ pa ∧ pa < localPa 0 0 + 32768 * 16384 := ⟨low, high⟩
  exact tget_filter_of_dropped 0 (fun _ => by rw [decide_eq_true inside]; rfl) s.mem

theorem selfRefreshEntry_of_doze (doze : s.sched.power = .doze) (still : s.sched.target = none) :
    exec .selfRefreshEntry s = .next (modSched s fun z => { z with selfRefresh := true }) := by
  simp [execSelfRefreshEntry, doze, still]

/-! Supplies (R442, R467, R468) and the reference clock (R479). -/

theorem powerOn_boots (off : s.sched.power = .off) :
    exec .powerOn s = .next (bootRom { s with supply := { s.supply with ovOpen := false } }) := by
  simp [execPowerOn, off]

theorem bootRom_of_identity (known : Config.identity (s.boot.boots + 1) ≠ none) :
    (bootRom s).sched.power = .full ∧ (bootRom s).boot.boots = s.boot.boots + 1 := by
  obtain ⟨key, derived⟩ := Option.ne_none_iff_exists'.mp known
  simp [bootRom, derived]

theorem powerLoss_enters (on : s.sched.power ≠ .off) : exec .powerLoss s = .next (enterOff s) := by
  simp [execPowerLoss, on]

theorem overvoltageDisconnect_enters (on : s.sched.power ≠ .off) :
    exec .overvoltageDisconnect s =
      .next { enterOff s with supply := { (enterOff s).supply with ovOpen := true } } := by
  simp [execOvervoltageDisconnect, on]

theorem refclk156Loss_of_running (runs : s.supply.refclk156 = true) :
    ∃ s', exec .refclk156Loss s = .next s' ∧ s'.supply.refclk156 = false ∧ s'.twin.link = false := by
  rw [exec_refclk156Loss, execRefclk156Loss, if_neg (by simp [runs])]
  exact ⟨_, rfl, rfl, rfl⟩

/-- Settles O42, from the results of requests, of Standby and Doze, and of supplies and clock. -/
theorem powerResults : Obligations.power_results := by
  refine ⟨⟨?still, ?moving, ?standby⟩, ⟨?_, ?_, ?_, ?_⟩, ⟨?_, ?_, ?_, ?_, ?_, fun _ => rfl⟩⟩
  case still =>
    intro s hp hf still
    rw [reqFull_requests hp hf, reqTrim_requests hp hf, reqDoze_requests hp hf,
      requestPower_of_still (s := setReg s pwrState 0) .full still,
      requestPower_of_still (s := setReg s pwrState 1) .trim still,
      requestPower_of_still (s := setReg s pwrState 2) .doze still]
    exact ⟨fun now => congrArg _ (beginPower_full_of_trim (setReg s pwrState 0) now),
      fun now => congrArg _ (beginPower_trim_of_full (setReg s pwrState 1) now),
      fun now => congrArg _ (beginPower_full_of_doze (setReg s pwrState 0) now),
      fun now => congrArg _ (beginPower_full_of_full (setReg s pwrState 0) now),
      fun now => congrArg _ (beginPower_doze (setReg s pwrState 2) now)⟩
  case moving =>
    intro s x hp hf moving
    rw [reqFull_requests hp hf, reqTrim_requests hp hf, reqDoze_requests hp hf,
      reqStandby_of_moving hp hf moving,
      requestPower_of_moving (s := setReg s pwrState 0) .full moving,
      requestPower_of_moving (s := setReg s pwrState 1) .trim moving,
      requestPower_of_moving (s := setReg s pwrState 2) .doze moving]
    exact ⟨rfl, rfl, rfl, rfl⟩
  case standby =>
    exact fun s hp h => ⟨_, reqStandby_enters hp h, rfl, rfl, rfl, rfl, rfl,
      fun _ => enterStandby_mem, fun _ => enterStandby_regs⟩
  · exact fun _ => dozeGate_gates
  · exact fun _ => dozeExitComplete_arrives
  · exact fun _ _ _ => memByte_zeroLocal
  · exact fun _ => selfRefreshEntry_of_doze
  · exact fun _ => powerOn_boots
  · exact fun _ => bootRom_of_identity
  · exact fun _ on => ⟨_, powerLoss_enters on, rfl, rfl, rfl, rfl, rfl, rfl, rfl, rfl, rfl⟩
  · exact fun _ on => ⟨_, overvoltageDisconnect_enters on, rfl, rfl, rfl, rfl⟩
  · exact fun _ => refclk156Loss_of_running

end Sys2Proof.Machine
end

section
/-! SUPPORT. The twin: pairing and its end, the partner's frames, and what the twin unit does by time (R412
to R415, R419, R420, R422, R423, R425, R426, R430). -/

namespace Sys2Proof.Machine

variable {s : State} {r : Nat} {e : RingEntry}

/-! Pairing (R419, R420). -/

section
variable (turn : AqTurn s r 0x69 e) (time : entryField e 0x10 2 ≠ 0)
  (zero : zeroField e 0x12 46 = true) (unpaired : s.twin.state = .unpaired)
  (first : s.twin.pairAq = none) (tmr : (ring s tmrRing).state = .run) (apart : pmapBoth s = false)
include turn time zero unpaired first tmr apart

theorem twinPair_of_used (used : s.twin.used = true) :
    exec (.twinPair r) s = .next (aqEnds s s r e 0x0C 0) :=
  exec_of_answer (exec_twinPair r s) turn (by
    simp [twinPair, time, zero, unpaired, first, tmr, apart, used])

/-- A key that no pairing has used sends the PAIR frame, and the entry waits for the partner's. -/
theorem twinPair_of_fresh {rnd : BitVec 32} {s1 : State} (random : rnd = (takeFree s).1.setWidth 32)
    (waits : s1 = modTwin (takeFree s).2 fun t => { t with
      rnd := rnd, pairAq := some (r, e, fdTime s) })
    (fresh : s.twin.used = false) (keyed : s.twin.key ≠ none) :
    exec (.twinPair r) s = .next (aqHolds s
      (tryPair (flushItems (queueItem s1 0x05 (pairPayload s rnd) 0 0 0 0))) r e) := by
  refine exec_of_answerLater (exec_twinPair r s) turn ?_
  subst waits random
  simp [twinPair, time, zero, unpaired, first, tmr, apart, fresh, keyed]

end

section
variable {m : List Byte} {aq : Nat × RingEntry × Nat} (asked : s.twin.pairAq = some aq)
  (mate : s.twin.mate = some m) (unpaired : s.twin.state = .unpaired)
include asked mate unpaired

theorem tryPair_of_bad (bad : pairStatus s m ≠ 0) : tryPair s = failPair s (pairStatus s m) := by
  rw [tryPair, asked, mate]
  exact (if_neg (not_not.mpr unpaired)).trans (if_pos bad)

theorem tryPair_of_good (good : pairStatus s m = 0) :
    tryPair s = queueCopy (postTwin (modTwin s fun t => { t with
      state := .syncing, used := true, peer := mateWord m 0
      epoch := t.rnd ^^^ BitVec.ofNat 32 (beField m 0x0C 4) }) .syncing .unpaired) := by
  simp [tryPair, asked, mate, unpaired, good]

end

theorem twinSyncComplete_of_copied (syncing : s.twin.state = .syncing)
    (copied : s.twin.copyEnd ≤ s.twin.ackIn) (hf : s.err.fatal = false) :
    exec .twinSyncComplete s = .next (xptDone s (finishPair (postTwin
      (modTwin s fun t => { t with state := .paired }) .paired .syncing) 0)) := by
  simp [execTwinSyncComplete, syncing, Nat.not_lt.mpr copied, hf]

theorem twinPairTimeout_of_due {t0 : Nat} (asked : s.twin.pairAq = some (r, e, t0))
    (unpaired : s.twin.state = .unpaired) (hf : s.err.fatal = false)
    (due : t0 + entryField e 0x10 2 * 1500000 ≤ fdTime s) :
    exec .twinPairTimeout s = .next (xptDone s (failPair s 0x0E)) := by
  simp [execTwinPairTimeout, asked, unpaired, hf, Nat.not_lt.mpr due]

/-! TWIN_UNPAIR (R422). -/

theorem adminCommand_of_answerLater {f : State → Nat → RingEntry → AdminAnswer} {op : Nat} {s' : State}
    (turn : AqTurn s r op e) (later : f s r e = answerLater s') :
    adminCommand op r f s = aqHolds s s' r e := by
  obtain ⟨started, serves⟩ := turn
  simp [adminCommand, started, serves, later, answerLater, aqHolds]

/-- Where no frame to the partner is called for, the entry of TWIN_UNPAIR ends at once. -/
theorem twinUnpair_of_answer {st : BitVec 8} {s' : State} (turn : AqTurn s r 0x6A e)
    (answers : twinUnpair s r e = answer st s') :
    exec (.twinUnpair r) s = .next (xptDone s (settleUnpair (aqEnds s s' r e st 0))) := by
  rw [exec_twinUnpair, execTwinUnpair, adminCommand_of_answer turn answers]

section
variable (turn : AqTurn s r 0x6A e) (zero : zeroField e 0x10 48 = true)
include turn zero

theorem twinUnpair_of_unpaired (now : s.twin.state = .unpaired) :
    exec (.twinUnpair r) s = .next (xptDone s (settleUnpair (aqEnds s s r e 0 0))) :=
  twinUnpair_of_answer turn (by simp [twinUnpair, zero, now])

theorem twinUnpair_of_syncing (now : s.twin.state = .syncing) :
    exec (.twinUnpair r) s = .next (xptDone s (settleUnpair (aqEnds s s r e 0x04 0))) :=
  twinUnpair_of_answer turn (by simp [twinUnpair, zero, now])

theorem twinUnpair_of_alone (now : s.twin.state = .alone) :
    exec (.twinUnpair r) s =
      .next (xptDone s (settleUnpair (aqEnds s (endPair s .unpaired) r e 0 0))) :=
  twinUnpair_of_answer turn (by simp [twinUnpair, zero, now])

/-- PAIRED, the entry waits until the UNPAIR frame has had its turn. -/
theorem twinUnpair_of_paired {s1 : State} (waits : s1 = modTwin s fun t => { t with
      unpairAq := some (r, e, fdTime s) })
    (now : s.twin.state = .paired) (first : s.twin.unpairAq = none) :
    exec (.twinUnpair r) s = .next (xptDone s (settleUnpair (aqHolds s
      (flushItems (queueItem s1 0x06 (beBytes 8 Config.serial.toNat) 0 0 0 0)) r e))) := by
  rw [exec_twinUnpair, execTwinUnpair, adminCommand_of_answerLater turn]
  subst waits
  simp [twinUnpair, zero, now, first]

end

section
variable {t0 : Nat} (asked : s.twin.unpairAq = some (r, e, t0))
include asked

theorem settleUnpair_of_due (due : t0 + 1500000 ≤ fdTime s) : settleUnpair s = finishUnpair s := by
  simp [settleUnpair, unpairEnds, asked, due]

theorem settleUnpair_of_waiting {x : TwinItem} (early : fdTime s < t0 + 1500000)
    (head : s.twin.items.head? = some x) (before : x.kind ≠ 0x06) : settleUnpair s = s := by
  simp [settleUnpair, unpairEnds, asked, Nat.not_le.mpr early, head, before]

end

/-! The pair key (R430). -/

theorem twinKeyLoad_loads (hb : bar0 s = true) : ∃ s', exec .twinKeyLoad s = .next s' ∧
    s'.twin.key = some (stagedKey s.twin.k256 s.twin.stage) ∧ s'.twin.stage = [0, 0, 0, 0] ∧
    s'.twin.used = false ∧ s'.twin.tx = 0 ∧ s'.twin.state = s.twin.state ∧ s'.rings = s.rings ∧
    s'.mem = s.mem := by
  rw [exec_twinKeyLoad, execTwinKeyLoad, if_neg (by simp [hb])]
  refine ⟨_, rfl, ?_⟩
  dsimp only [modTwin]
  split <;> exact ⟨rfl, rfl, rfl, rfl, rfl, rfl, rfl⟩

theorem twinKeyClr_of_unpaired (hb : bar0 s = true) (unpaired : s.twin.state = .unpaired) :
    exec .twinKeyClr s = .next (modTwin s fun t => { t with key := none, stage := [0, 0, 0, 0] }) := by
  simp [execTwinKeyClr, hb, unpaired]

theorem twinKeyClr_of_notUnpaired (pairs : s.twin.state ≠ .unpaired) : exec .twinKeyClr s = .next s := by
  simp [execTwinKeyClr, pairs]

/-! The partner's frames (R412 to R415). -/

section
variable {bs : List Byte} {badFec : Bool}

/-- R413: a frame that is not good is counted, and nothing of it is taken. -/
theorem recvTwin_of_bad {kind : Nat} (up : s.twin.link = true) (hp : powered s = true)
    (hf : s.err.fatal = false) (same : (bs.getD 0 0).toNat = kind)
    (bad : twinGood s bs badFec = false) :
    recvTwin s kind bs badFec = (none, bump s twinStat 32 16 1) := by
  subst same
  rw [recvTwin, if_neg (by simp [up, hp, hf]), if_pos (by simp [bad])]

theorem exec_of_badFrame {row : (List Byte → Bool → Instr) × Nat} (listed : FrameRow row)
    (other : row.2 ≠ 5) (bad : recvTwin s row.2 bs badFec = (none, bump s twinStat 32 16 1)) :
    exec (row.1 bs badFec) s = .next (xptDone s (bump s twinStat 32 16 1)) := by
  simp only [FrameRow, List.mem_cons, List.not_mem_nil, or_false] at listed
  obtain rfl | rfl | rfl | rfl | rfl | rfl := listed
  · rw [exec_twinHbFrame, execTwinHbFrame, reportFrame, bad]
  · simp only [exec_twinDelta, execTwinDelta, bad]
  · simp only [exec_twinData, execTwinData, bad]
  · rw [exec_twinAck, execTwinAck, reportFrame, bad]
  · exact absurd rfl other
  · simp only [exec_twinUnpairFrame, execTwinUnpairFrame, bad]

theorem takeTwinAck_of_outside {a : Nat} (outside : a ≤ s.twin.ackIn ∨ s.twin.txNext < a) :
    takeTwinAck s a = s :=
  if_pos outside

variable {d : List Byte} {s1 : State}

theorem twinDelta_applies (taken : recvTwin s 2 bs badFec = (some d, s1)) (on : mirroring s1 = true) :
    exec (.twinDelta bs badFec) s =
      .next (xptDone s ((deltaEntries d 64).foldl applyEntry s1)) := by
  simp only [exec_twinDelta, execTwinDelta, taken, on, if_true]

theorem twinData_writes (taken : recvTwin s 3 bs badFec = (some d, s1)) (on : mirroring s1 = true)
    (device : regionOf (beField d 0 8) = .lpddr ∨ regionOf (beField d 0 8) = .sram) :
    exec (.twinData bs badFec) s =
      .next (xptDone s (writeMem s1 (beField d 0 8) (d.drop 8))) := by
  simp only [exec_twinData, execTwinData, taken, on, device, and_self, if_true]

theorem twinPairFrame_tries (taken : recvTwin s 5 bs badFec = (some d, s1))
    (unpaired : s1.twin.state = .unpaired) :
    exec (.twinPairFrame bs badFec) s =
      .next (xptDone s (tryPair (modTwin s1 fun t => { t with mate := some d }))) := by
  simp only [exec_twinPairFrame, execTwinPairFrame, taken, unpaired, if_true]

theorem twinUnpairFrame_ends (taken : recvTwin s 6 bs badFec = (some d, s1))
    (paired : s1.twin.state = .paired) (none : s1.twin.unpairAq = none) :
    exec (.twinUnpairFrame bs badFec) s =
      .next (xptDone s (endPair ((standbyParts s1).foldl discardMirror s1) .unpaired)) := by
  simp only [exec_twinUnpairFrame, execTwinUnpairFrame, taken, paired, none, Option.isSome_none,
    Bool.false_eq_true, if_false]

end

/-! What the twin unit does by time (R414, R423). -/

theorem twinLinkTrained_of_down (down : s.twin.link = false) (runs : portRuns s = true) :
    exec .twinLinkTrained s = .next (modTwin s fun t => { t with
      link := true, hbAt := fdTime s, hbGill := glTime s, rxAt := fdTime s }) := by
  simp [execTwinLinkTrained, down, runs]

theorem twinHbSend_of_due (speaks : twinSpeaks s = true) (hf : s.err.fatal = false)
    (due : s.twin.hbAt + 15000 ≤ fdTime s) :
    exec .twinHbSend s = .next (modTwin
      (sendTwin s 1 0 (List.replicate 7 0 ++ [BitVec.ofNat 8 (twinCode s.twin.state)]))
      fun t => { t with hbAt := fdTime s, hbGill := glTime s }) := by
  rw [exec_twinHbSend, execTwinHbSend, if_neg (by simp [speaks, hf, due])]

theorem twinAckTimer_of_due (sends : twinSends s = true) (hf : s.err.fatal = false)
    (behind : s.twin.reported < s.twin.rxNext) (due : s.twin.reportAt + 1500 ≤ fdTime s) :
    exec .twinAckTimer s = .next (sendTwin s 4 0 []) := by
  simp [execTwinAckTimer, sends, hf, Nat.not_le.mpr behind, Nat.not_lt.mpr due]

theorem twinResend_of_due (sends : twinSends s = true) (hf : s.err.fatal = false)
    (due : s.twin.ackAt + 6000 ≤ fdTime s) (unacked : s.twin.items.filter TwinItem.sent ≠ []) :
    exec .twinResend s = .next (modTwin
      (bump ((s.twin.items.filter TwinItem.sent).foldl sendItem s) twinStat 48 16
        (s.twin.items.filter TwinItem.sent).length) fun t => { t with ackAt := fdTime s }) := by
  rw [exec_twinResend, execTwinResend, if_neg (by simp [sends, hf, due])]
  dsimp only
  rw [if_neg (by rwa [List.isEmpty_iff])]

theorem twinHbSilent_holds (high : s.twin.hbLow = false) (silent : s.twin.hbGill + 1250 ≤ glTime s) :
    exec .twinHbSilent s = .next (holdHb s) := by
  simp [execTwinHbSilent, high, Nat.not_lt.mpr silent]

theorem holdHb_fences (paired : s.twin.state = .paired) : (holdHb s).twin.fenced = true := by
  simp [holdHb, paired]

/-! The partner's failure (R425, R426). -/

section
variable (on : mirroring s = true) (high : s.twin.hbLow = false) (hf : s.err.fatal = false)
include on high hf

theorem twinFailureDetect_of_dead (gone : hbGone s = true) (quiet : twinQuiet s 20 = true) :
    exec .twinFailureDetect s = .next (xptDone s (pairFails s true)) := by
  simp [execTwinFailureDetect, on, high, hf, gone, quiet]

theorem twinFailureDetect_of_frames (gone : hbGone s = true) (heard : twinQuiet s 20 = false) :
    exec .twinFailureDetect s = .next (post s (eqOf 0) 0x72 0 0 0) := by
  simp [execTwinFailureDetect, on, high, hf, gone, heard]

theorem twinFailureDetect_of_silence (alive : hbGone s = false) (quiet : twinQuiet s 50 = true) :
    exec .twinFailureDetect s = .next (xptDone s (pairFails s false)) := by
  simp [execTwinFailureDetect, on, high, hf, alive, quiet]

end

section
variable (paired : s.twin.state = .paired) (none : s.twin.unpairAq = none)
include paired none

theorem pairFails_takes (allowed : (reg s twinCtl).getLsbD 0 = true) :
    pairFails s true = takeover s := by
  simp [-BitVec.getLsbD_eq_getElem, pairFails, paired, none, allowed]

theorem pairFails_alone : pairFails s false = endPair s .alone := by
  simp [pairFails, paired, none]

end

theorem takeoverAnnounce_of_due (left : s.twin.announces ≠ 0) (survivor : s.twin.state = .survivor)
    (hf : s.err.fatal = false)
    (due : s.twin.annAt + (3 - s.twin.announces) * 1500000 ≤ fdTime s) :
    exec .takeoverAnnounce s =
      .next (modTwin (announceAll s) fun t => { t with announces := t.announces - 1 }) := by
  simp [execTakeoverAnnounce, left, survivor, hf, Nat.not_lt.mpr due]

/-- Settles O60, from the results of pairing, of the partner's frames and of the unit's timers. -/
theorem twinResults : Obligations.twin_results := by
  refine ⟨⟨?pair, ?_, ?_, ?_, ?unpair, ?settle, ?_, ?_, ?_⟩, ⟨?bad, ?_, ?_, ?_, ?_, ?_, ?_⟩,
    ⟨?_, ?_, ?_, ?_, ?silent, ?failure, ?_, ?_⟩⟩
  case pair =>
    exact fun _ _ _ turn time zero unpaired first tmr apart =>
      ⟨twinPair_of_used turn time zero unpaired first tmr apart,
        twinPair_of_fresh turn time zero unpaired first tmr apart rfl rfl⟩
  · exact fun _ _ _ asked mate unpaired =>
      ⟨tryPair_of_bad asked mate unpaired, tryPair_of_good asked mate unpaired⟩
  · exact fun _ => twinSyncComplete_of_copied
  · exact fun _ _ _ _ => twinPairTimeout_of_due
  case unpair =>
    exact fun _ _ _ turn zero => ⟨twinUnpair_of_unpaired turn zero, twinUnpair_of_syncing turn zero,
      twinUnpair_of_alone turn zero, twinUnpair_of_paired turn zero rfl⟩
  case settle =>
    exact fun _ _ _ _ asked => ⟨settleUnpair_of_due asked, fun early ⟨_, head, before⟩ =>
      settleUnpair_of_waiting asked early head before⟩
  · exact fun _ => twinKeyLoad_loads
  · exact fun _ => twinKeyClr_of_unpaired
  · exact fun _ => twinKeyClr_of_notUnpaired
  case bad =>
    exact fun _ listed other _ _ _ up hp hf same bad =>
      exec_of_badFrame listed other (recvTwin_of_bad up hp hf same bad)
  · exact fun _ _ _ => ⟨rfl, rfl⟩
  · exact fun _ _ => takeTwinAck_of_outside
  · exact fun _ _ _ _ _ => twinDelta_applies
  · exact fun _ _ _ _ _ => twinData_writes
  · exact fun _ _ _ _ _ => twinPairFrame_tries
  · exact fun _ _ _ _ _ => twinUnpairFrame_ends
  · exact fun _ => twinLinkTrained_of_down
  · exact fun _ => twinHbSend_of_due
  · exact fun _ => twinAckTimer_of_due
  · exact fun _ => twinResend_of_due
  case silent =>
    exact fun _ high silent => ⟨_, twinHbSilent_holds high silent, rfl, holdHb_fences, rfl, rfl⟩
  case failure =>
    exact fun _ on high hf => ⟨twinFailureDetect_of_dead on high hf,
      twinFailureDetect_of_frames on high hf, twinFailureDetect_of_silence on high hf⟩
  · exact fun _ paired none => ⟨pairFails_takes paired none, pairFails_alone paired none⟩
  · exact fun _ => takeoverAnnounce_of_due

end Sys2Proof.Machine
end

section
/-! SUPPORT. The boot mailbox, the start of an image and ACTIVATE (R335, R434, R435, R437 to R440, R442,
R446 to R448). -/

namespace Sys2Proof.Machine

variable {s s1 s2 : State} {m : List Byte}

/-! How a mailbox command runs (R434). -/

theorem mailbox_of_runs {op : Nat} (f : State → State) (runs : MailboxRuns s op s1) :
    mailbox op f s = f s1 := by
  obtain ⟨hb, free, rfl⟩ := runs
  simp [mailbox, hb, free]

theorem exec_of_mailboxRuns {row : Instr × Nat × (State → State)} (listed : MailboxRow row)
    (runs : MailboxRuns s row.2.1 s1) : exec row.1 s = .next (row.2.2 s1) := by
  rw [← mailbox_of_runs row.2.2 runs]
  simp only [MailboxRow, List.mem_cons, List.not_mem_nil, or_false] at listed
  obtain rfl | rfl | rfl | rfl | rfl | rfl | rfl := listed <;> dsimp only
  · rw [exec_manifest, execManifest]
  · rw [exec_blocks, execBlocks]
  · rw [exec_start, execStart]
  · rw [exec_discard, execDiscard]
  · rw [exec_attest, execAttest]
  · rw [exec_settingsRead, execSettingsRead]
  · rw [exec_settingsWrite, execSettingsWrite]

theorem exec_start_of_runs (ready eeprom : Bool) (runs : MailboxRuns s 3 s1) :
    exec (.start ready eeprom) s = .next (bootStart ready eeprom s1) := by
  rw [exec_start, execStart, mailbox_of_runs _ runs]

theorem inStage_of_le {off n : Nat} (fits : off + n ≤ 2 ^ 26) : inStage off n = true :=
  decide_eq_true fits

/-! DISCARD, MANIFEST and BLOCKS (R434, R435, R437, R438). -/

theorem discardOp_of_listed (listed : romOrService s = true) :
    discardOp s = mbDone (emptySlot s) 0 0 := by
  simp [discardOp, listed]

theorem discardOp_of_wrongState (out : romOrService s = false) : discardOp s = mbDone s 0x04 0 := by
  simp [discardOp, out]

theorem manifestOp_of_wrongState (out : romOrService s = false) : manifestOp s = mbDone s 0x04 0 := by
  simp [manifestOp, out]

section
variable (listed : romOrService s = true) (aligned : mbArg s 0 % 64 = 0)
  (fits : mbArg s 0 + mbArg s 1 ≤ 2 ^ 26)
  (read : readFirmware (emptySlot s) (stageBase + mbArg s 0) (mbArg s 1) = (some m, s2))
include listed aligned fits read

theorem manifestOp_of_good (good : checkManifest m (mbArg s 1) s2.boot.floor = 0) :
    manifestOp s = mbDone { s2 with boot := { s2.boot with staged := some m } } 0 (mfBlocks m) := by
  simp [manifestOp, listed, aligned, inStage_of_le fits, read, good]

theorem manifestOp_of_bad (bad : checkManifest m (mbArg s 1) s2.boot.floor ≠ 0) :
    manifestOp s = mbDone s2 (checkManifest m (mbArg s 1) s2.boot.floor) 0 := by
  rw [manifestOp, if_neg (by simp [listed])]
  dsimp only
  rw [if_neg (by simp [aligned]), if_neg (by simp [inStage_of_le fits]), read]
  exact if_pos bad

end

theorem blocksOp_of_staged (some1 : 1 ≤ mbArg s 1) (most : mbArg s 1 ≤ 1024)
    (aligned : mbArg s 2 % 65536 = 0) (listed : romOrService s = true)
    (staged : s.boot.staged = some m) (inside : mbArg s 0 + mbArg s 1 ≤ mfBlocks m)
    (fits : inStage (mbArg s 2) (blocksLen m (mbArg s 0) (mbArg s 1)) = true) :
    blocksOp s = takeBlocks s m (mbArg s 0) (mbArg s 2) (mbArg s 1) := by
  simp [blocksOp, Nat.ne_of_gt some1, Nat.not_lt.mpr most, aligned, listed, staged,
    Nat.not_lt.mpr inside, fits]

/-! One block (R438). -/

section
variable {n b k : Nat} {bs : List Byte}

theorem takeBlocks_of_poison
    (read : readFirmware s (stageBase + b) (blockLen m n) = (none, s1)) :
    takeBlocks s m n b (k + 1) = mbDone s1 0x0D n := by
  rw [takeBlocks, read]

variable (read : readFirmware s (stageBase + b) (blockLen m n) = (some bs, s1))
include read

theorem takeBlocks_of_mismatch (differs : Config.shake256 32 bs ≠ mfDigest m n) :
    takeBlocks s m n b (k + 1) = mbDone s1 0x0C n := by
  rw [takeBlocks, read]
  exact if_pos (by simp [blockMatches, differs])

theorem takeBlocks_of_match (same : Config.shake256 32 bs = mfDigest m n)
    (written : s2 = writeMem s1 (slotBase s1.boot.slotA + 65536 * n) bs) :
    takeBlocks s m n b (k + 1) = takeBlocks { s2 with boot := { s2.boot with
      present := addBlock s2.boot.present n } } m (n + 1) (b + 65536) k := by
  subst written
  rw [takeBlocks, read]
  exact if_neg (by simp [blockMatches, same])

end

/-! Settings and ATTEST (R335, R446). -/

theorem settingsRead_copies (fits : mbArg s 0 + 8192 ≤ 2 ^ 26) :
    settingsRead s = mbDone (writeMem s (stageBase + mbArg s 0) (settingsBlob s)) 0 8192 := by
  simp [settingsRead, inStage_of_le fits]

theorem settingsWrite_stores {b : List Byte} {gen : Nat}
    (next : gen = mfField (settingsBlob s2) 8 8 + 1) (listed : romOrService s = true)
    (fits : mbArg s 0 + 8192 ≤ 2 ^ 26)
    (read : readFirmware s (stageBase + mbArg s 0) 8192 = (some b, s2)) (good : blobGood b = true)
    (count : mfField b 6 2 ≤ 510) (format : setfmtNow s2 = some (mfField b 4 2)) :
    settingsWrite s = mbDone { s2 with boot := { s2.boot with settings := sealBlob b gen } } 0 gen := by
  subst next
  rw [settingsWrite, if_neg (by simp [listed, inStage_of_le fits]), read]
  dsimp only
  rw [if_neg (by simp [good, Nat.not_lt.mpr count]), if_neg (by simp [format])]

theorem attestOp_reports {key nonce carder ops body : List Byte} {n c o : State}
    (report : body = reportBody o key nonce carder ops) (aligned : mbArg s 0 % 64 = 0)
    (serves : s.boot.st = .service) (fits : mbArg s 0 + 50272 ≤ 2 ^ 26)
    (identity : Config.identity s.boot.boots = some key)
    (read : readFirmware s (stageBase + mbArg s 0) 32 = (some nonce, n))
    (digest : carderDigest n = (some carder, c)) (operators : operatorDigest c = (some ops, o)) :
    attestOp s = mbDone (writeMem (takeFree o).2 (stageBase + mbArg s 0)
      (body ++ fitBytes 49856 (Config.slhSign (takeFree o).1 body))) 0 50272 := by
  subst report
  rw [attestOp]
  dsimp only
  rw [if_neg (by simp [aligned]), if_neg (by simp [serves, inStage_of_le fits]), identity]
  simp only [read, digest, operators]

/-! The start of an image (R439, R440, R442). -/

theorem zerofillComplete_goesOn (hp : powered s = true) (fills : s.boot.zeroFill = true) :
    exec .zerofillComplete s =
      .next (finishStart { s with boot := { s.boot with zeroFill := false } }) := by
  simp [execZerofillComplete, hp, fills]

theorem bootStart_of_staged (ready eeprom : Bool) (staged0 : mbArg s 0 = 0) (rom : s.boot.st = .rom)
    (staged : s.boot.staged = some m) (whole : mfBlocks m ≤ s.boot.present.length) :
    bootStart ready eeprom s = beginStart s false ready eeprom m := by
  simp [bootStart, staged0, rom, staged, Nat.not_lt.mpr whole]

section
variable {ret eeprom : Bool} (good : checkComps s (slotBase (s.boot.slotA != ret)) m = (true, s1))
include good

theorem beginStart_of_notReady : beginStart s ret false eeprom m = startFails s1 := by
  simp [beginStart, good]

theorem beginStart_of_ready :
    beginStart s ret true eeprom m = finishStart { s1 with boot := { s1.boot with
      st := .starting, gill := true, start := some (ret, eeprom) } } := by
  simp [beginStart, good]

end

theorem finishStart_serves {ret eeprom : Bool} {i : Nat} (waits : s.boot.start = some (ret, eeprom))
    (zero : s.boot.zeroFill = false) (hf : s.err.fatal = false)
    (image : startImage s ret = some m) (applied : applySettings s (mfSetfmt m) = (i, s1))
    (hb : bar0 s1 = true) (stores : raisesFloor s1 m = true → eeprom = true) :
    finishStart s = takeService (raiseFloor s1 m) ret m i := by
  have sound : ¬ (raisesFloor s1 m ∧ !eeprom) := by
    rintro ⟨raises, fails⟩
    simp [stores raises] at fails
  rw [finishStart, waits]
  dsimp only
  rw [if_neg (by simp [zero, hf]), image]
  dsimp only
  rw [applied, if_neg (by simp [hb]), if_neg sound]

theorem drdyDone_boot (s : State) (c : BusyCause) : (drdyDone s c).boot = s.boot := by
  rw [drdyDone]
  dsimp only
  split <;> rfl

/-- The image takes service whichever slot it came from; the floor stays. -/
theorem takeService_boot (s : State) (ret : Bool) (m : List Byte) (i : Nat) :
    (takeService s ret m i).boot.st = .service ∧ (takeService s ret m i).boot.active = some m ∧
      (takeService s ret m i).boot.floor = s.boot.floor := by
  simp only [takeService, mbDone, modTwin_boot, drdyDone_boot]
  cases ret <;> exact ⟨rfl, rfl, rfl⟩

/-- R439: the floor does not fall, and RAISE makes it at least the image's number. -/
theorem raiseFloor_bounds (s : State) (m : List Byte) :
    s.boot.floor ≤ (raiseFloor s m).boot.floor ∧
      (mfRaise m = true → manifestSvn m ≤ (raiseFloor s m).boot.floor) := by
  rw [raiseFloor]
  split
  case isTrue raises =>
    obtain ⟨-, below⟩ : mfRaise m = true ∧ s.boot.floor < manifestSvn m := by
      simpa [raisesFloor] using raises
    exact ⟨below.le, fun _ => le_rfl⟩
  case isFalse keeps =>
    exact ⟨le_rfl, fun raise => by simpa [raisesFloor, raise] using keeps⟩

/-! ACTIVATE (R447, R448). -/

section
variable {r : Nat} {e : RingEntry} {ready eeprom : Bool} (turn : AqTurn s r 0x68 e)
  (zero : zeroField e 0x12 46 = true) (staged : s.boot.staged = some m)
  (serves : s.boot.st = .service) (free : s.boot.start = none)
  (whole : mfBlocks m ≤ s.boot.present.length) (named : entryField e 0x10 2 = manifestSvn m)
include turn zero staged serves free whole named

theorem activate_below_floor (below : manifestSvn m < s.boot.floor) :
    exec (.activate r ready eeprom) s = .next (aqEnds s s r e 0x0F 0) :=
  exec_of_answer (exec_activate r ready eeprom s) turn (by
    simp [activate, zero, staged, serves, free, Nat.not_lt.mpr whole, named, below])

theorem activate_serves (high : s.boot.floor ≤ manifestSvn m) (loaded : ready = true)
    (blocks : recheckBlocks s (slotBase s.boot.slotA) m = (true, s1))
    (comps : checkComps s1 (slotBase s.boot.slotA) m = (true, s2))
    (stores : raisesFloor (drdyBusy s2 .activate) m = true → eeprom = true) :
    exec (.activate r ready eeprom) s = .next (aqEnds s
      (drdyDone (activatePause (drdyBusy s2 .activate) m) .activate) r e 0 0) := by
  have sound : ¬ (!ready ∨ (raisesFloor (drdyBusy s2 .activate) m ∧ !eeprom)) := by
    rintro (slow | ⟨raises, fails⟩)
    · simp [loaded] at slow
    · simp [stores raises] at fails
  refine exec_of_answer (exec_activate r ready eeprom s) turn ?_
  rw [activate, if_neg (by simp [zero]), staged]
  dsimp only
  rw [if_neg (by simp [serves, free, Nat.not_lt.mpr whole, named]), if_neg (Nat.not_lt.mpr high),
    blocks, comps, if_neg (by simp), if_neg sound]

end

/-- Settles O58: what the mailbox's commands do from the state that holds their OP, and what starts an
image. -/
theorem mailboxAndStartResults : Obligations.mailbox_and_start_results := by
  refine ⟨⟨?_, ?_, ?_, ?_, ?manifest, ?_, ?_, ?block, ?_, ?_, ?wrong⟩,
    ⟨?_, ?_, ?_, ?_, ?_, ?_, ?activate⟩⟩
  · exact fun _ listed _ hb free => exec_of_mailboxRuns listed ⟨hb, free, rfl⟩
  · exact fun ready eeprom _ hb free => exec_start_of_runs ready eeprom ⟨hb, free, rfl⟩
  · intro s s1 runs listed
    rw [exec_discard, execDiscard, mailbox_of_runs _ runs, discardOp_of_listed listed]
  · intro s s1 runs fits
    rw [exec_settingsRead, execSettingsRead, mailbox_of_runs _ runs, settingsRead_copies fits]
  case manifest =>
    intro s s1 m s2 runs listed aligned fits read
    rw [exec_manifest, execManifest, mailbox_of_runs _ runs]
    exact ⟨fun good => congrArg _ (manifestOp_of_good listed aligned fits read good),
      fun bad => congrArg _ (manifestOp_of_bad listed aligned fits read bad)⟩
  · intro s s1 m runs some1 most aligned listed staged inside fits
    rw [exec_blocks, execBlocks, mailbox_of_runs _ runs,
      blocksOp_of_staged some1 most aligned listed staged inside fits]
  · exact fun _ _ _ _ _ read _ => takeBlocks_of_poison read
  case block =>
    exact fun _ _ _ _ _ _ read _ => ⟨takeBlocks_of_mismatch read, fun same =>
      takeBlocks_of_match read same rfl⟩
  · intro s s1 b s2 runs listed fits read good count format
    rw [exec_settingsWrite, execSettingsWrite, mailbox_of_runs _ runs,
      settingsWrite_stores rfl listed fits read good count format]
  · intro s s1 key nonce n carder c ops o runs aligned serves fits identity read digest operators
    rw [exec_attest, execAttest, mailbox_of_runs _ runs,
      attestOp_reports rfl aligned serves fits identity read digest operators]
  case wrong =>
    refine fun s s1 out => ⟨fun runs => ?_, fun runs => ?_⟩
    · rw [exec_discard, execDiscard, mailbox_of_runs _ runs, discardOp_of_wrongState out]
    · rw [exec_manifest, execManifest, mailbox_of_runs _ runs, manifestOp_of_wrongState out]
  · exact fun _ => zerofillComplete_goesOn
  · intro ready eeprom s s1 m runs staged0 rom staged whole
    rw [exec_start_of_runs ready eeprom runs,
      bootStart_of_staged ready eeprom staged0 rom staged whole]
  · exact fun _ _ _ _ _ good => ⟨beginStart_of_notReady good, beginStart_of_ready good⟩
  · exact fun _ _ _ _ _ _ => finishStart_serves
  · exact fun s ret m i => takeService_boot s ret m i
  · exact fun s m => raiseFloor_bounds s m
  case activate =>
    exact fun ready eeprom s r e m turn zero staged serves free whole named =>
      ⟨activate_below_floor turn zero staged serves free whole named, fun high _ _ loaded blocks comps
        stores => activate_serves turn zero staged serves free whole named high loaded blocks comps
          stores⟩

end Sys2Proof.Machine
end
